-- ==== Sys2Proof/Word.lean ====
section
/-! DEFINITION. Word.lean: the byte and the byte string in which every frame, object, record and
on-flash structure of the block is laid out (R8), and the two sample kinds of R31. -/

namespace Sys2Proof

/-- One byte of a frame, an object or a record. -/
abbrev Byte := BitVec 8

/-- A byte string, lowest address (first sent) first. -/
abbrev Bytes := List Byte

/-- One frame of the replay ring (R31, R33): the 56 channel samples of one strobe, Q1.23 as integers,
channel instance 0 first. -/
abbrev Samples := List Int

end Sys2Proof
end

