-- ==== Sys2Proof/Syntax.lean ====
section
/-! DEFINITION. Syntax.lean: the commands and events of the block, one constructor per row of the table of
operations and events, with the operands each row needs. Operands are what the outside world brings to the
block: bytes of a host, a measured quantity of the analogue world, the outcome of a hardware test, or the
name of the unit an event happened to. -/

namespace Sys2Proof

/-- The two host ports (R39). -/
inductive Port where
  | spi | uart
deriving DecidableEq, Repr

/-- A request as a host sends it, between Sync and Check (R41): the port it arrives on, its Flags byte, its
tag and its parameters. The opcode is the command's own. -/
structure Req where
  port : Port
  flags : Byte := 0
  tag : BitVec 16
  params : Bytes := []
deriving DecidableEq, Repr

/-- What the input of a slice is connected to (R89). -/
inductive SliceSource where
  | input (position : Nat) | zero | plus | minus | tone
deriving DecidableEq, Repr

/-- What a chip select of the flash answers when it is probed (R270, R272). -/
structure ProbeAnswer where
  /-- manufacturer and device ID bytes -/
  id : Nat
  /-- density code of R305 -/
  density : Nat
  pageSize : Nat
  conforms : Bool
  ddrFails : Bool
  endurance : Nat
  factoryBad : List Nat
deriving DecidableEq, Repr

/-- How a flash operation ended (R284). -/
inductive FlashResult where
  | ok
  /-- a program or an erase failed -/
  | failed
  /-- a read was corrected with a high count -/
  | highCount (lb : Nat)
  /-- a page read failed its checks or was uncorrectable -/
  | unreadable (lb page : Nat)
deriving DecidableEq, Repr

/-- A repeater's or node's neighbour report: address and margin (R375). -/
structure Heard where
  address : Nat
  margin : Nat
deriving DecidableEq, Repr

/-- A word as the fabric delivers it: its data and its bus code (R520). -/
structure BusWord where
  data : BitVec 32
  code : BitVec 8
deriving DecidableEq, Repr

/-- What the line brings of one reception. `start` is the instant of its first symbol as the symbol timing tracks it
(R350), unit 2^−16 metering period. In four-tone mode: the codes of the 12-bit converter from there on (R355), the first
symbol beginning `skew`/375 of a sample period after the first of them. In two-tone mode: the bytes that the
demodulation of IEC 61334-5-1 gives, and the received level in 0.1 dBµV (R359). -/
structure LineFrame where
  start : Nat
  skew : Nat := 0
  samples : List Int := []
  bytes : Bytes := []
  level : Int := 0
deriving DecidableEq, Repr

/-- A command that an agent presents to the sluice with its claim (R313). -/
inductive SluiceCmd where
  /-- begin the pulse with this number on an output -/
  | pulse (output : Nat) (number : Nat)
  /-- operate a load-control output: 1 CLOSE, 2 OPEN, 3 ON, 4 OFF -/
  | relay (output : Nat) (code : Nat)
  /-- start a power-line transmission -/
  | transmit
  /-- write the billing port of the store -/
  | write (address : Nat) (data : Bytes)
deriving DecidableEq, Repr

/-- The commands and events of the KQ4856. -/
inductive Instr where
  -- the host link
  | uartByteReceive (byte : Byte) (stopBit : Bool)
  | uartBreak
  | uartTimeout
  | spiCsFall
  | spiByteReceive (byte : Byte)
  | spiCsRise
  /-- the port that the reply left on -/
  | replySent (port : Port)
  -- requests, each a whole frame whose check is correct
  | reservedOpcode (opcode : Byte) (r : Req)
  | getObj (r : Req)
  | setObj (r : Req)
  | bulkRead (r : Req)
  | snapshot (r : Req)
  | latchNow (r : Req)
  | cfgBegin (r : Req)
  | cfgChunk (r : Req)
  | cfgCommit (r : Req)
  /-- `readBack` says that the slot read back as written (R555) -/
  | cfgCommitComplete (readBack : Bool)
  | cfgSessionTimeout
  | timeGet (r : Req)
  | timeSet (r : Req)
  | archiveRead (r : Req)
  | archiveReadComplete (tag : BitVec 16)
  | archiveReadTimeout (tag : BitVec 16)
  | pinSegment (r : Req)
  | pinSegmentComplete
  | auditReplay (r : Req)
  | auditReplayComplete
  | zlinkSend (r : Req)
  | zlinkNodes (r : Req)
  | balanceGet (r : Req)
  | auxSeqLoad (r : Req)
  /-- the 12-bit code the urgent conversion gives, none where it comes in a failed flit (R425) -/
  | auxUrgent (r : Req) (code : Option (BitVec 12))
  | logRead (r : Req)
  | logAppend (r : Req)
  | selftest (r : Req)
  /-- outcome of R525, duration in ms, and for a slice the measured coefficients -/
  | selftestComplete (tag : BitVec 16) (outcome : BitVec 4) (duration : BitVec 16)
  | abort (r : Req)
  | startWarm (r : Req)
  | startCold (r : Req)
  -- reads and writes of objects with an effect of their own
  | interruptPendingWrite (port : Port) (tag : BitVec 16) (value : BitVec 32)
  | hostLinkSettingsWrite (port : Port) (tag : BitVec 16) (value : BitVec 32)
  | framingCountersRead (port : Port) (tag : BitVec 16)
  /-- member 3, 4 or 5 of a channel (R119) -/
  | calibrationWrite (port : Port) (tag : BitVec 16) (channel member : Nat) (value : BitVec 32)
  | demandReset (port : Port) (tag : BitVec 16) (service : Nat) (value : BitVec 16)
  | relayClose (port : Port) (tag : BitVec 16) (output : Nat)
  | relayOpen (port : Port) (tag : BitVec 16) (output : Nat)
  | relayOn (port : Port) (tag : BitVec 16) (output : Nat)
  | relayOff (port : Port) (tag : BitVec 16) (output : Nat)
  | archiveFormat (port : Port) (tag : BitVec 16)
  | mountAgain (port : Port) (tag : BitVec 16)
  | formNetwork (port : Port) (tag : BitVec 16)
  | auxStart (port : Port) (tag : BitVec 16) (converter : Nat)
  | auxStop (port : Port) (tag : BitVec 16) (converter : Nat)
  | clearOverrun (port : Port) (tag : BitVec 16) (converter : Nat)
  | comparatorSettingsWrite (port : Port) (tag : BitVec 16) (value : Bytes)
  | auxQueueRead (port : Port) (tag : BitVec 16)
  | auxQueueHeadRead (port : Port) (tag : BitVec 16)
  | auxUnitStatusRead (port : Port) (tag : BitVec 16)
  | protectionWrite (port : Port) (tag : BitVec 16) (value : BitVec 32)
  | haltSet (port : Port) (tag : BitVec 16)
  | haltClear (port : Port) (tag : BitVec 16)
  | calendarWrite (port : Port) (tag : BitVec 16) (value : Bytes)
  | curveWrite (port : Port) (tag : BitVec 16) (value : Bytes)
  | timeStatusRead (port : Port) (tag : BitVec 16)
  | backupRamWrite (port : Port) (tag : BitVec 16) (value : Bytes)
  | alarmClear (port : Port) (tag : BitVec 16) (code : Byte)
  | alarmClearAll (port : Port) (tag : BitVec 16)
  | limpRelease (port : Port) (tag : BitVec 16) (value : BitVec 32)
  | patchWrite (port : Port) (tag : BitVec 16) (value : Bytes)
  -- reset, start and supplies
  /-- the bytes of the page under commit that were already written (R440) -/
  | resetNAssert (torn : Nat)
  /-- outcomes of the engines' start self-tests, the TEST pin, and what the flash answers (R272, R537) -/
  | resetRelease (e0 e1 : Bool) (test : Bool) (flash : List ProbeAnswer)
  | hostPortOpen
  | wardenReady
  | inputsConnected
  | firstEnergySample
  | billingReady
  | startTimeout
  | startRetry (e0 e1 : Bool)
  | supplyFailWarning
  | supplyRecovered
  | supplyCollapse (torn : Nat)
  | vplcLow
  | vplcRecovered
  | thermal
  | thermalClear
  -- causeway and sensing array
  | flitReceive (lane : Nat) (flit : BitVec 64)
  | laneTestEnd (lane : Nat) (passed : Bool)
  /-- the control-lane flit and the analogue die's strobe count at its arrival (R89) -/
  | switchMessage (flit : BitVec 64) (strobe : BitVec 48)
  | switchAct (strobe : BitVec 48)
  | waderStepStart (strobe : BitVec 48)
  /-- the slot of the slice, 14 the wader -/
  | referenceMeasurementEnd (quarter slot : Nat)
  /-- gain difference in 0.001 ppm and delay difference in ps -/
  | twinVerificationEnd (quarter : Nat) (gain delay : Int)
  | sustainedClip (channel : Nat)
  /-- the linearity errors found at ±0.1, ±0.3, ±0.6 and ±0.9 of full code, in 0.001 ppm of full code -/
  | sliceSelftestEnd (quarter : Nat) (errors : List Int)
  | modulatorReset (quarter slot : Nat)
  | rogowskiSeed (channel : Nat)
  -- reckoning
  | reckonedSample
  | zeroCrossing (bus : Nat)
  | frequencyHold (bus : Nat)
  | synthesisedBoundary (bus : Nat)
  | latchBoundary
  | latchPublish
  | periodicSave
  /-- the output and the instant, in µs of strobe time -/
  | pulseStart (output : Nat) (instant : Nat)
  | pulseEnd (output : Nat) (instant : Nat)
  | coilPulseEnd (pair : Nat)
  | guardTimeEnd (pair : Nat)
  | demandBoundary
  | demandPublish
  -- extended analysis
  | analysisWindowComplete (bus : Nat)
  | halfCycleRms (channel : Nat)
  | eventPinDue
  | pstIntervalEnd
  -- recording and archive
  | segmentBoundary
  /-- the channel, and whether the coder's own decode of the block agreed (R241) -/
  | seepBlockComplete (channel : Nat) (verified : Bool)
  | coderSelftestEnd (passed : Bool)
  | layoutRecordHourly
  | profileRecord
  | mereAdmit
  | flashOperationDone (device : Nat) (result : FlashResult)
  | flashTimeout (device : Nat)
  /-- the tier, 1 pool or 2 peat -/
  | pageFlushTimer (tier : Nat)
  | checkpointDue
  | mountFromCheckpoint
  | scanPhase1End
  | scanPhase2End
  | formatEnd
  -- engines and sluice
  | heartbeatF (engine : Nat) (intake : BitVec 32)
  /-- the engine whose read pointer has stood still through the silence (R309) -/
  | verdict (engine : Nat)
  /-- path 0 F, 1 W, 2 both -/
  | pathFault (engine : Nat) (path : Nat)
  | pathRestored (engine : Nat) (path : Nat)
  | claimPresent (engine : Nat)
  | claimSettleEnd (engine : Nat)
  | sluiceCommand (claim : BitVec 16) (cmd : SluiceCmd)
  /-- the claim under which RELEASE comes, and the deepest ring read of the takeover (R341) -/
  | release (claim : BitVec 16) (deepest : Nat)
  /-- the bits in which the engine's digest differs from that of a fault-free engine: 0 for a healthy one -/
  | blockDigest (engine : Nat) (block : Nat) (flips : BitVec 64)
  | digestLate
  /-- whether the quick self-test passed, and the bits in which its third digest differs from the right one -/
  | arbitrationEnd (passed : Bool) (flips : BitVec 64)
  | checkpoint
  | checkpointArrival (intact : Bool)
  | wardenTakesCharge
  | engineSelftestEnd (engine : Nat) (passed : Bool) (duration : BitVec 16)
  | resyncEnd
  -- the power line
  | superframeStart
  | slotStart
  | zlTransmitEnd
  | zlFrameReject (f : LineFrame)
  | joinReq (f : LineFrame)
  | status (f : LineFrame)
  | report (f : LineFrame)
  | dataAck (f : LineFrame)
  | roleAck (f : LineFrame)
  | zlFrameOverheard (f : LineFrame)
  | zlTransactionTimeout
  | formingEnd
  | balanceDeadline
  -- the auxiliary converters
  | auxTimerFire (timer : Nat)
  | auxTriggerAct (converter : Nat)
  /-- the converter and the codes of the result (1, 2, 4, 8 or 16 of them; C0 then C1 when paired), none for a code that came
  in a failed flit -/
  | auxResult (converter : Nat) (codes : List (Option (BitVec 12)))
  | auxDelayEnd (converter : Nat)
  | alignmentMessage (converter : Nat)
  -- the persistent store
  | storeCommitDone
  /-- bytes of the page whose two reads differed -/
  | scrubPage (weak : Nat)
  -- time
  | chronicleSecond
  | chroniclePair
  /-- temperature in 0.25 K and VBAT in mV -/
  | compensationMeasure (temp : Int) (vbat : Nat)
  | tickAdjust
  | periodicWake
  | wakeHoldExpiry
  | shadowRelease
  | oscStopped
  | oscRestart
  | backupSwitchover
  | mainPowerUp
  | backupPowerOn
  -- tamper, integrity and evidence
  /-- the pin and its levels at the samples up to the last one, newest first, as 128 ticks part them -/
  | tamperAssert (pin : Nat) (samples : List Bool)
  | tamperRelease (pin : Nat) (samples : List Bool)
  | bitternWindow (count : Nat)
  | clkGlitch
  | watchOsc (count : Nat)
  /-- machine and instance of R518 and the code found -/
  | stateInvalid (machine inst : Nat) (code : Byte)
  /-- a word of the fabric: its byte address, its KIND, what produces it, and the words that its transfer and the repeat
  of it bring -/
  | busCode (address : BitVec 32) (kind : BitVec 2) (producer : Byte) (first again : BusWord)
  | fabricTestEnd (passed : Bool)
  | eccDouble (region : Nat) (address : BitVec 32)
  | sramRowTestEnd (region : Nat) (address : BitVec 32) (passed : Bool)
  | wardenLockstep
  | wardenTestEnd (passed : Bool)
  | evidenceCommit
  | alarmPinDue
  | heartbeatW (engine : Nat)
  | tamperGlitch (pin : Nat) (samples : List Bool)
  | txLimit
  /-- the gain step that the preamble sets, and the noise floor in 0.1 dBµV -/
  | zlFrameDetected (peak : Nat) (level noise : Int)
  | relayBeaconHeard (f : LineFrame)
deriving DecidableEq, Repr

end Sys2Proof
end

