-- ==== Sys2Proof/Config.lean ====
section
/-! DEFINITION. Config.lean: the values and functions that the spec leaves open. Each is an opaque constant
without a body, so nothing can be proved about it beyond the clamp its user puts on it. -/

namespace Sys2Proof

/-- A value the spec leaves open; the argument is the counter `State.free`, which every use advances. -/
opaque Config.freeValue : Nat → Nat

/-- Taps of the half-band filters of R90, stages 2 and 3: the stage and the distance from the centre, unit 2^−20. The
spec gives their response (R91) and no taps; as for every filter here, their user holds them to the response. -/
opaque Config.halfBandTap : Nat → Nat → Int

/-- Taps of the droop compensating filter of R90, stage 4: distance from the centre, unit 2^−20. -/
opaque Config.droopTap : Nat → Int

/-- Taps of the 32-tap fractional-delay filters of R94 stages B and D: delay (unit 2^−20 metering period) and the
place of the tap, 0 on the newest input, unit 2^−30. The spec gives their accuracy and no taps (R95). -/
opaque Config.delayTap : Int → Nat → Int

/-- Taps of the 9-tap symmetric equaliser of R97: nominal frequency in Hz and distance from the centre, unit 2^−30. -/
opaque Config.equaliserTap : Nat → Nat → Int

/-- Taps of the recording filter of R92: distance from the centre, unit 2^−30. -/
opaque Config.recordTap : Nat → Int

/-- Tap k of the shift filter on one side of its centre (odd distance 2k + 1), Q1.31; its user holds the taps to the
figures of R129. -/
opaque Config.shiftTap : Nat → Int

/-- Coefficients of the filters of R143, unit 2^−30: section 0 the high-pass, 1 and 2 the low-pass; places 0–2 on the
inputs, 3 and 4 on the outputs, newest first. The spec gives orders and corner frequencies and no coefficients. -/
opaque Config.trackCoef : Nat → Nat → Int

/-- The reciprocal of R131, unit 2^−96; its user holds it to a relative precision of 2^−40. -/
opaque Config.filterRecip : Nat

/-- Taps of the resampler of R204: phase 0–63 and place 0–31, oldest sample first, Q1.31. The spec gives its accuracy and
no taps. -/
opaque Config.resampleTap : Nat → Nat → Int

/-- The arithmetic noise of the transform of R205: a free value, the channel and twice the bin, plus 1 for the imaginary
part; its user holds it to the bound of the rule. -/
opaque Config.binNoise : Nat → Nat → Nat → Int

/-- Coefficients of the flicker meter of R210, unit 2^−30: whether the lamp is the 120 V one, the section (0 the mean
square of the adaptor, 1–6 the filters of block 3, 7 the smoothing of block 4) and the place as in `trackCoef`. -/
opaque Config.flickerCoef : Bool → Nat → Nat → Int

/-- The gain of the flicker meter from the square of block 4 to P_inst, by lamp. -/
opaque Config.flickerGain : Bool → Nat

/-- The level that stands for a class of the classifier of R210, unit 2^−16 of 0.0001; its user holds it to the class. -/
opaque Config.classLevel : Nat → Nat

/-- The body of a state record of R324 as bytes: writer, KIND and sequence number. The spec gives its sections and not their
bytes. -/
opaque Config.recordBody : Nat → Nat → Nat → List (BitVec 8)

/-- V25 of the temperature sensors A and D in µV, trimmed at production (R412). -/
opaque Config.v25 : Bool → Nat

/-- The serial number written at manufacture (R558). -/
opaque Config.serial : Nat

/-- The revision of the Warden's ROM (R560, R568). -/
opaque Config.romRev : BitVec 32

end Sys2Proof
end

