-- ==== Sys2Proof/Machine/Bits.lean ====
section
/-! DEFINITION. Bits.lean: byte order (R8), bit fields, the roundings and saturations of R94 and R128,
the check codes of R14 and R88, and the digest of the evidence chain. -/

namespace Sys2Proof.Machine
open Sys2Proof

/-- `n` little-endian bytes of `v` (R8); higher bits are dropped. -/
def leBytes : Nat → Nat → Bytes
  | 0, _ => []
  | n + 1, v => BitVec.ofNat 8 v :: leBytes n (v / 256)

/-- The value of little-endian bytes (R8). -/
def leNat : Bytes → Nat
  | [] => 0
  | b :: bs => b.toNat + 256 * leNat bs

/-- `n` little-endian bytes of a two's complement value. -/
def leInt (n : Nat) (v : Int) : Bytes := leBytes n (v.emod (2 ^ (8 * n) : Nat)).toNat

/-- The two's complement reading of the low `w` bits of `n`. -/
def toSigned (w n : Nat) : Int :=
  let m := n % 2 ^ w
  if m < 2 ^ (w - 1) then (m : Int) else (m : Int) - (2 ^ w : Nat)

/-- The low `w` bits of an integer, as a natural number (two's complement). -/
def toUnsigned (w : Nat) (v : Int) : Nat := (v.emod (2 ^ w : Nat)).toNat

/-- Bits [hi:lo] of `v`. -/
def field (hi lo v : Nat) : Nat := v / 2 ^ lo % 2 ^ (hi + 1 - lo)

/-- Bit `i` of `v`. -/
def bit (i v : Nat) : Bool := v / 2 ^ i % 2 == 1

/-- A truth value as one bit. -/
def flag (b : Bool) : Nat := if b then 1 else 0

/-- `n` bytes of `v` from offset `off`, as an unsigned number; bytes beyond the end read as 0. -/
def getU (bs : Bytes) (off n : Nat) : Nat := leNat ((bs.drop off).take n)

/-- `n` zero bytes. -/
def zeros (n : Nat) : Bytes := List.replicate n 0

/-- The bytes of `v` cut or filled with zeros to length `n`. -/
def fit (n : Nat) (bs : Bytes) : Bytes := bs.take n ++ zeros (n - bs.length)

/-- `new` written over `bs` at offset `off`. -/
def patch (bs : Bytes) (off : Nat) (new : Bytes) : Bytes :=
  bs.take off ++ new ++ bs.drop (off + new.length)

/-- Quotient rounded to nearest, half to even (R94 stage F, R127, R128). -/
def roundEven (a : Int) (d : Nat) : Int :=
  if d = 0 then 0 else
  let q := a.fdiv d
  let r := 2 * (a - q * d)
  if r < d then q else if (d : Int) < r then q + 1 else if q % 2 = 0 then q else q + 1

/-- A value clamped to `lo … hi`. -/
def clamp (lo hi v : Int) : Int := if v < lo then lo else if hi < v then hi else v

/-- Saturation to a `w`-bit signed word, and whether it acted. -/
def satSigned (w : Nat) (v : Int) : Int := clamp (-(2 ^ (w - 1) : Nat)) ((2 ^ (w - 1) : Nat) - 1) v

/-- A count that stops at its greatest value. -/
def satNat (hi v : Nat) : Nat := if hi < v then hi else v

/-- A counter of `w` bits that wraps to 0. -/
def wrapAdd (w a b : Nat) : Nat := (a + b) % 2 ^ w

/-- One bit of a restoring square root: `r` is the root found so far. -/
def isqrtBit (n : Nat) (r k : Nat) : Nat :=
  let t := r + 2 ^ k
  if t * t ≤ n then t else r

/-- The integer square root, truncated (R128 stage 7, R134), for arguments below 2^256. -/
def isqrt (n : Nat) : Nat := (List.range 128).reverse.foldl (isqrtBit n) 0

/-- Element `i` of a list with its replacement computed from it; beyond the end nothing changes. -/
def modAt {α : Type} (l : List α) (i : Nat) (f : α → α) : List α :=
  match l, i with
  | [], _ => []
  | a :: as, 0 => f a :: as
  | a :: as, i + 1 => a :: modAt as i f

/-- `f 0, …, f (n−1)` in order. -/
def tab {α : Type} (n : Nat) (f : Nat → α) : List α := (List.range n).map f

/-- Concatenated bytes of `f 0, …, f (n−1)`. -/
def tabBytes (n : Nat) (f : Nat → Bytes) : Bytes := (List.range n).flatMap f

/-- Sum over a list. -/
def sumBy {α : Type} (f : α → Int) (l : List α) : Int := l.foldl (fun a x => a + f x) 0

/-! ### Check codes -/

/-- One bit of a most-significant-bit-first CRC of width `w`. -/
def crcBitMsb (w poly c : Nat) : Nat :=
  if bit (w - 1) c then (c * 2 % 2 ^ w).xor poly else c * 2 % 2 ^ w

/-- One byte of a most-significant-bit-first CRC. -/
def crcByteMsb (w poly c : Nat) (b : Byte) : Nat :=
  Nat.repeat (crcBitMsb w poly) 8 (c.xor (b.toNat * 2 ^ (w - 8)))

/-- One bit of a reflected CRC. -/
def crcBitLsb (poly c : Nat) : Nat := if c % 2 = 1 then (c / 2).xor poly else c / 2

/-- One byte of a reflected CRC. -/
def crcByteLsb (poly c : Nat) (b : Byte) : Nat := Nat.repeat (crcBitLsb poly) 8 (c.xor b.toNat)

/-- CRC-16/CCITT of R14. -/
def crc16 (bs : Bytes) : Nat := bs.foldl (crcByteMsb 16 0x1021) 0xFFFF

/-- CRC-32 (IEEE) of R14: 0xEDB88320 is the polynomial 0x04C11DB7 with its bits reversed. -/
def crc32 (bs : Bytes) : Nat := (bs.foldl (crcByteLsb 0xEDB88320) 0xFFFFFFFF).xor 0xFFFFFFFF

/-- CRC-32C of R14: 0x82F63B78 is the polynomial 0x1EDC6F41 with its bits reversed. -/
def crc32c (bs : Bytes) : Nat := (bs.foldl (crcByteLsb 0x82F63B78) 0xFFFFFFFF).xor 0xFFFFFFFF

/-- The flit integrity code of R88. -/
def crc8 (bs : Bytes) : Nat := (bs.foldl (crcByteMsb 8 0x2F) 0xFF).xor 0xFF

/-! ### SHA-256, the digest of the evidence chain (R505)

The working variables a–d of FIPS 180-4 are four successive values of one sequence, and e–h of another; both are kept
as histories, newest first. -/

/-- The round constants, eight words to a numeral. -/
def digestConstants : List Nat :=
  [0x428a2f9871374491b5c0fbcfe9b5dba53956c25b59f111f1923f82a4ab1c5ed5,
   0xd807aa9812835b01243185be550c7dc372be5d7480deb1fe9bdc06a7c19bf174,
   0xe49b69c1efbe47860fc19dc6240ca1cc2de92c6f4a7484aa5cb0a9dc76f988da,
   0x983e5152a831c66db00327c8bf597fc7c6e00bf3d5a7914706ca635114292967,
   0x27b70a852e1b21384d2c6dfc53380d13650a7354766a0abb81c2c92e92722c85,
   0xa2bfe8a1a81a664bc24b8b70c76c51a3d192e819d6990624f40e3585106aa070,
   0x19a4c1161e376c082748774c34b0bcb5391c0cb34ed8aa4a5b9cca4f682e6ff3,
   0x748f82ee78a5636f84c878148cc7020890befffaa4506cebbef9a3f7c67178f2]

/-- The eight words of a numeral, the most significant first. -/
def packedWords (n : Nat) : List Nat := tab 8 (fun i => field (255 - 32 * i) (224 - 32 * i) n)

/-- Exclusive or over a list. -/
def xorAll (l : List Nat) : Nat := l.foldl Nat.xor 0

/-- A 32-bit word turned right. -/
def turnWord (x k : Nat) : Nat := x / 2 ^ k + x * 2 ^ (32 - k) % 2 ^ 32

/-- The words of the schedule so far, newest first, with the next one in front. -/
def extendSchedule (w : List Nat) : List Nat :=
  let x := w.getD 1 0
  let y := w.getD 14 0
  ((w.getD 15 0 + w.getD 6 0 + xorAll [turnWord x 17, turnWord x 19, x / 2 ^ 10] +
    xorAll [turnWord y 7, turnWord y 18, y / 2 ^ 3]) % 2 ^ 32) :: w

/-- One round on both histories; `x` is the round constant added to the schedule's word. -/
def digestRound (p : List Nat × List Nat) (x : Nat) : List Nat × List Nat :=
  let top := p.1.getD 0 0
  let low := p.2.getD 0 0
  let chosen := xorAll [low.land (p.2.getD 1 0), (2 ^ 32 - 1 - low).land (p.2.getD 2 0)]
  let most := xorAll [top.land (p.1.getD 1 0), top.land (p.1.getD 2 0), (p.1.getD 1 0).land (p.1.getD 2 0)]
  let sum := p.2.getD 3 0 + xorAll (([6, 11, 25] : List Nat).map (turnWord low)) + chosen + x
  ((sum + xorAll (([2, 13, 22] : List Nat).map (turnWord top)) + most) % 2 ^ 32 :: p.1.take 3,
   (sum + p.1.getD 3 0) % 2 ^ 32 :: p.2.take 3)

/-- One block of 64 bytes taken into the eight words of the digest. -/
def digestBlock (h : List Nat) (block : Bytes) : List Nat :=
  let first := tab 16 (fun i => leNat ((block.drop (4 * i)).take 4).reverse)
  let words := (Nat.repeat extendSchedule 48 first.reverse).reverse
  let p := (words.zip (digestConstants.flatMap packedWords)).foldl (fun p x => digestRound p (x.1 + x.2))
    (h.take 4, h.drop 4)
  (h.zip (p.1 ++ p.2)).map (fun x => (x.1 + x.2) % 2 ^ 32)

/-- The padded message: a one bit, zeros, and the length in bits as eight big-endian bytes. -/
def digestPad (bs : Bytes) : Bytes :=
  bs ++ 0x80 :: zeros ((119 - bs.length % 64) % 64) ++ (leBytes 8 (8 * bs.length)).reverse

/-- SHA-256 of a byte string: 32 bytes. -/
def sha256 (bs : Bytes) : Bytes :=
  let p := digestPad bs
  let h := (List.range (p.length / 64)).foldl (fun h k => digestBlock h ((p.drop (64 * k)).take 64))
    (packedWords 0x6a09e667bb67ae853c6ef372a54ff53a510e527f9b05688c1f83d9ab5be0cd19)
  h.flatMap (fun x => (leBytes 4 x).reverse)

end Sys2Proof.Machine
end

