-- ==== Sys2Proof/Machine/Trig.lean ====
section
/-! DEFINITION. Trig.lean: sines, cosines and angles in fixed point, for the rules that name an angle of the line
(R98, R108, R129, R205, R208). Angles are fractions of a turn. -/

namespace Sys2Proof.Machine
open Sys2Proof

/-- 2π in units of 2^−64. -/
def tauQ64 : Nat := 115904311329233965478

/-- sin(2πn/d) in units of 2^−62, for an angle of the first quarter turn: the power series to its 27th power. -/
def sinQuarter (n d : Nat) : Nat :=
  let x := n * tauQ64 / d
  let t := (List.range 13).reverse.foldl
    (fun t k => 2 ^ 64 - x * x * t / ((2 * k + 2) * (2 * k + 3)) / 2 ^ 128) (2 ^ 64)
  x * t / 2 ^ 66

/-- sin(2πn/d) in units of 2^−62. -/
def sinTurn (n d : Nat) : Int :=
  let m := n % d
  if 4 * m ≤ d then sinQuarter m d
  else if 2 * m ≤ d then sinQuarter (d - 2 * m) (2 * d)
  else if 4 * m ≤ 3 * d then -(sinQuarter (2 * m - d) (2 * d) : Int)
  else -(sinQuarter (d - m) d : Int)

/-- cos(2πn/d) in units of 2^−62. -/
def cosTurn (n d : Nat) : Int := sinTurn (4 * n + d) (4 * d)

/-- The largest multiple of 2^−w turn up to the angle of (x, y), both not negative: bit by bit. -/
def angleQuarter (w : Nat) (x y : Nat) : Nat :=
  (List.range (w - 1)).reverse.foldl (fun v k =>
    let u := v + 2 ^ k
    if (x : Int) * sinTurn u (2 ^ w) ≤ y * cosTurn u (2 ^ w) then u else v) 0

/-- The angle of (x, y) in units of 2^−w turn, rounded to nearest, 0 to 2^w − 1; 0 for the null vector. -/
def angleOfVector (w : Nat) (x y : Int) : Nat :=
  if x = 0 && y = 0 then 0 else
  let q := 2 ^ (w - 1)
  let v :=
    if 0 < x && 0 ≤ y then angleQuarter (w + 1) x.natAbs y.natAbs
    else if x ≤ 0 && 0 < y then q + angleQuarter (w + 1) y.natAbs x.natAbs
    else if x < 0 then 2 * q + angleQuarter (w + 1) x.natAbs y.natAbs
    else 3 * q + angleQuarter (w + 1) y.natAbs x.natAbs
  (v + 1) / 2 % 2 ^ w

end Sys2Proof.Machine
end

