-- ==== Sys2Proof/Machine/Filters.lean ====
section
/-! DEFINITION. Filters.lean: the taps of the filters whose responses the spec states and whose taps it does not (R90, R91,
R94, R95, R97, R129, R143, R204, R237). The part's own taps are constants of Config; where they miss a stated figure, taps
that meet it stand in for them. -/

namespace Sys2Proof.Machine
open Sys2Proof

/-! ### Responses that hold at every frequency

A response is a sum Σ c cos(2π m x / d) or Σ c sin(2π m x / d) over terms (c, m), taken at whole x. Between x and x + 1 it
stays, with its error on either side, within the cubic through values and slopes, up to (2π / d)^4 Σ |c| m^4 / 384: a figure
that `held` finds at every whole x of a band holds between them as well. -/

/-- Terms of a response: coefficient and multiple. -/
abbrev Terms := List (Int × Nat)

/-- Σ c cos(2π m x / d), unit 2^−62 of the coefficients. -/
def cosSum (ts : Terms) (x d : Nat) : Int := sumBy (fun t => t.1 * cosTurn (t.2 * x) d) ts

/-- Σ c sin(2π m x / d), unit 2^−62 of the coefficients. -/
def sinSum (ts : Terms) (x d : Nat) : Int := sumBy (fun t => t.1 * sinTurn (t.2 * x) d) ts

/-- Σ |c| m^n, unit 2^−62 of the coefficients. -/
def weightOf (n : Nat) (ts : Terms) : Nat := ts.foldl (fun a t => a + t.1.natAbs * t.2 ^ n) 0 * 2 ^ 62

/-- The terms whose sums are, but for 2π / d, the slopes. -/
def slopes (ts : Terms) : Terms := ts.map (fun t => (t.1 * t.2, t.2))

/-- A value whose error is `e` and whose slope is 2π / d times `g` lies within `tol`, and so does the response about it. -/
def within (ts : Terms) (d : Nat) (e g : Int) (tol : Nat) : Bool :=
  3 * e.natAbs + 7 * g.natAbs / d + 15 * weightOf 4 ts / d ^ 4 + 2 ≤ 3 * tol

/-- The cosine sum lies within `tol` of `target` about x. -/
def cosHeld (ts : Terms) (d x : Nat) (target : Int) (tol : Nat) : Bool :=
  within ts d (cosSum ts x d - target) (sinSum (slopes ts) x d) tol

/-- The sine sum lies within `tol` of `target` about x. -/
def sinHeld (ts : Terms) (d x : Nat) (target : Int) (tol : Nat) : Bool :=
  within ts d (sinSum ts x d - target) (cosSum (slopes ts) x d) tol

/-- Every whole number from `a` to `b`. -/
def allFrom (a b : Nat) (test : Nat → Bool) : Bool := (List.range (b + 1 - a)).all (fun k => test (a + k))

/-- The terms of a symmetric filter: the centre tap and the taps at the distances 1, 2, 3, …, a sample `n` units wide. -/
def symmetric (n : Nat) (taps : List Int) : Terms :=
  taps.zipIdx.map (fun x => (if x.2 = 0 then x.1 else 2 * x.1, n * x.2))

/-- `n` parts in 10^9 of unity, for coefficients in units of 2^−u. -/
def parts (u n : Nat) : Nat := n * 2 ^ (u + 62) / 10 ^ 9

/-! ### The decimator (R90, R91) -/

/-- The FIR stages of a decimator block: the taps of the two half-band stages at the distances 1, 3, 5, … of their centre,
one half, and the droop compensating stage from its centre on; unit 2^−20. -/
structure MeterTaps where
  half2 : List Int
  half3 : List Int
  droop : List Int
deriving DecidableEq, Repr

/-- A half-band filter from its centre on: every even tap but the centre is zero. -/
def halfBand (odd : List Int) : List Int := 2 ^ 19 :: odd.flatMap (fun t => [t, 0])

/-- The amplitude of stage 1 at a frequency in Hz, unit 2^−66: the mean of 32 clocks, of which the four combs make the fourth
power. -/
def combGain (hz : Nat) : Int := sumBy (fun i => cosTurn ((2 * i + 1) * hz) 8192000) (List.range 16)

/-- Stages 2 to 4 at a frequency in Hz, unit 2^−60 each. -/
def firGain (m : MeterTaps) (hz : Nat) : Int × Int × Int :=
  let at_ := fun (rate : Nat) (taps : List Int) => cosSum (symmetric 1 taps) hz rate / 2 ^ 22
  (at_ 128000 (halfBand m.half2), at_ 64000 (halfBand m.half3), at_ 32000 m.droop)

/-- The metering path at a frequency in Hz, with the comb taken at another that aliases to it, unit 2^−60. -/
def meterGain (m : MeterTaps) (hz comb : Nat) : Int :=
  let f := firGain m hz
  let c := combGain comb / 2 ^ 6
  (c * c / 2 ^ 60) * (c * c / 2 ^ 60) / 2 ^ 60 * f.1 / 2 ^ 60 * f.2.1 / 2 ^ 60 * f.2.2 / 2 ^ 60

/-- Σ |c| of the stages 2 to 4, and Σ |c| m and Σ |c| m² in units of 128 kHz, each unit 2^−20. -/
def firWeights (taps : List Int) (n : Nat) : Nat × Nat × Nat :=
  let w := fun (k : Nat) => weightOf k (symmetric n taps) / 2 ^ 62
  (w 0, w 1, w 2)

/-- The most by which the amplitude of the path departs between two frequencies 2 Hz apart from the line through their values,
unit 2^−60: half of (2π / 128,000)² Σ |c| m² for the product of the stages, the four combs having Σ |c| m = 1 and Σ |c| m² < 2
at most. -/
def meterCurve (m : MeterTaps) : Nat :=
  let a := firWeights (halfBand m.half2) 1
  let b := firWeights (halfBand m.half3) 2
  let c := firWeights m.droop 4
  let square := a.2.2 * b.1 * c.1 + b.2.2 * a.1 * c.1 + c.2.2 * a.1 * b.1 +
    2 * (a.2.1 * b.2.1 * c.1 + a.2.1 * c.2.1 * b.1 + b.2.1 * c.2.1 * a.1)
  let slope := a.2.1 * b.1 * c.1 + b.2.1 * a.1 * c.1 + c.2.1 * a.1 * b.1
  40 * (square + 2 * slope + 2 * a.1 * b.1 * c.1) / (2 * 128000 ^ 2) + 64

/-- The figures of R91 for the metering path: ±0.002 dB from 0 to 5 kHz, and 90 dB from 11 kHz on. What aliases to a frequency
below 64 kHz from about a multiple of 128 kHz passes the comb no better than from about the first one. -/
def meterFigures (m : MeterTaps) : Bool :=
  let curve := meterCurve m
  let near := fun (e : Int) (tol : Nat) => decide (e.natAbs + curve ≤ tol)
  (List.range 2501).all (fun k => near (meterGain m (2 * k) (2 * k) - 2 ^ 60) (230230 * 2 ^ 60 / 10 ^ 9)) &&
    (List.range 26501).all (fun k => near (meterGain m (11000 + 2 * k) (11000 + 2 * k)) (31622 * 2 ^ 60 / 10 ^ 9)) &&
    (List.range 32001).all (fun k => near (meterGain m (2 * k) (128000 - 2 * k)) (31622 * 2 ^ 60 / 10 ^ 9))

/-- Taps that meet the figures of the metering path. -/
def meterModel : MeterTaps where
  half2 := [317668, -68792, 11708, 6252, -8051, 4868, -1963, 539, -93, 8]
  half3 := [330086, -100631, 50383, -27256, 14445, -7143, 3167, -1198, 355, -67]
  droop := [517692, 329350, 7660, -96822, -7841, 43313, 5758, -19492, -3503, 7834, 1733, -2560, -648, 587, 154, -56]

/-- The FIR stages of the decimator blocks. -/
def meterTaps : MeterTaps :=
  let own : MeterTaps :=
    { half2 := tab 10 (fun k => Config.halfBandTap 2 (2 * k + 1))
      half3 := tab 10 (fun k => Config.halfBandTap 3 (2 * k + 1))
      droop := tab 16 Config.droopTap }
  if meterFigures own then own else meterModel

/-! ### The recording filter (R92, R237) -/

/-- Metering samples on either side that a recording sample draws on. No linear-phase filter that delays by the 24 periods of
R93 meets the figures of R91 and R237 (DESIGN CHOICE, log entry 195). -/
def recordReach : Nat := 32

/-- The figures of R237, with zero phase by the symmetry of the taps: ±2 ppm to 1 kHz, ±345 ppm to 3.4 kHz, and 85 dB from
4.6 kHz on. -/
def recordFigures (taps : List Int) : Bool :=
  let ts := symmetric 1 taps
  allFrom 0 1000 (fun x => cosHeld ts 16000 x (2 ^ 92) (parts 30 2000)) &&
    allFrom 1000 3400 (fun x => cosHeld ts 16000 x (2 ^ 92) (parts 30 345000)) &&
    allFrom 4600 8000 (fun x => cosHeld ts 16000 x 0 (parts 30 56234))

/-- Taps that meet the figures, from the centre on, unit 2^−30. -/
def recordModel : List Int :=
  [531363249, 340614239, 5448218, -110451171, -5252543, 62693567, 4931932, -41184174, -4528350, 28595308, 4044436,
    -20246461, -3504555, 14358231, 2963778, -10056580, -2425132] ++
  [6890211, 1904049, -4595984, -1454863, 2938170, 1064429, -1769565, -717588, 1013215, 466679, -532179, -300108, 211439,
    156384, -53322, -33143]

/-- The taps of the recording filter, from the centre on. -/
def recordTaps : List Int :=
  let own := tab (recordReach + 1) Config.recordTap
  if recordFigures own then own else recordModel

/-! ### The fractional-delay filters (R94, R95) -/

/-- Periods by which the delay filters delay a sample whatever their setting (R93). -/
def bulkDelay : Nat := 8

/-- How far behind the tap at place k a delay filter's output lies, less the bulk delay and its setting, unit 2^−20 metering
period. -/
def delayPlace (tau : Int) (k : Nat) : Int := ((k : Int) - bulkDelay) * 2 ^ 20 - tau

/-- The figures of R95 at a setting: ±0.0005 dB, and 0.2 ns of phase delay, from 0 to 5 kHz; the delay to 100 Hz by its
slope. -/
def delayFigures (tau : Int) (taps : List Int) : Bool :=
  let d := 16000 * 2 ^ 20
  let ps := taps.zipIdx.map (fun x => (x.1, (delayPlace tau x.2).natAbs))
  let qs := taps.zipIdx.map (fun x => (x.1 * (delayPlace tau x.2).sign, (delayPlace tau x.2).natAbs))
  allFrom 0 5000 (fun x => cosHeld ps d x (2 ^ 92) (parts 30 57500)) &&
    allFrom 0 100 (fun x => cosHeld (slopes qs) d x 0 (33 * 2 ^ 92 / 10)) &&
    allFrom 100 5000 (fun x => sinHeld qs d x 0 (x * (parts 30 1256) / 1000))

/-- The solution of symmetric equations in fixed point, unit 2^−160: each row holds the coefficients from its own unknown on,
and the right side. -/
def solveRows : Nat → List (List Int) → List Int
  | n + 1, row :: rows =>
    let p := row.headD 1
    let tail := row.drop 1
    let xs := solveRows n (rows.zipIdx.map (fun x => x.1.zipWith (fun a b => a - tail.getD x.2 0 * b / p) (tail.drop x.2)))
    let known := sumBy (fun x => x.1 * x.2) (tail.zip xs)
    (tail.getLastD 0 * 2 ^ 160 - known) / p :: xs
  | _, _ => []

/-- sin(Ω u / 2^20) / (u / 2^20) for Ω = 2π × 5,100 / 16,000, unit 2^−160. -/
def bandCosine (u : Nat) : Int :=
  if u = 0 then (tauQ64 * 5100 / 16000 * 2 ^ 96 : Nat) else sinTurn (5100 * u) (16000 * 2 ^ 20) * 2 ^ 118 / u

/-- Taps that meet the figures at every setting in range, unit 2^−30: the least-squares fit to the delay from 0 to 5.1 kHz,
held in size by 2^−53. -/
def delayModel (tau : Int) : List Int :=
  let rows := tab 32 (fun i =>
    tab (32 - i) (fun j => bandCosine (j * 2 ^ 20) + (if j = 0 then 2 ^ 107 else 0)) ++ [bandCosine (delayPlace tau i).natAbs])
  (solveRows 32 rows).map (fun x => roundEven x (2 ^ 130))

/-- The taps of a delay filter at a setting (unit 2^−20 metering period), the newest input first. -/
def delayTaps (tau : Int) : List Int :=
  let own := tab 32 (Config.delayTap tau)
  if delayFigures tau own then own else delayModel tau

/-! ### The Rogowski equaliser (R97) -/

/-- The figures of R97 as far as nine taps reach them: unity gain at f_n, and from 45 Hz to 5 kHz an ideal integrator within
±0.075 % (DESIGN CHOICE, log entry 196: no nine symmetric taps behind the integrator of the rule reach ±0.02 % there). The
integrator falls as 1 / tan(πf / 16,000), the ideal one as 1 / f. -/
def equaliserFigures (fnom : Nat) (taps : List Int) : Bool :=
  let ts := symmetric 1 taps
  let gain := fun (x : Nat) => cosSum ts x 16000 / 2 ^ 32
  let ideal := fun (x : Nat) => fnom * sinTurn x 32000 * cosTurn fnom 32000 / 2 ^ 62
  let scale := fun (x : Nat) => x * cosTurn x 32000 * sinTurn fnom 32000 / 2 ^ 62
  decide ((gain fnom - 2 ^ 60).natAbs ≤ 2 ^ 40) &&
    allFrom 45 5000 (fun x =>
      decide ((gain x * scale x - 2 ^ 60 * ideal x).natAbs * 1000000 ≤ 749 * 2 ^ 60 * (ideal x).natAbs))

/-- Taps that meet them at 50 Hz and at 60 Hz, from the centre on, unit 2^−30. -/
def equaliserModel (fnom : Nat) : List Int :=
  if fnom = 60 then [1608007851, -364186458, 127967545, -37994561, 7058273]
  else [1608026121, -364187752, 127966312, -37993525, 7057528]

/-- The taps of the equaliser of a nominal frequency, from the centre on. -/
def equaliserTaps (fnom : Nat) : List Int :=
  let own := tab 5 (Config.equaliserTap fnom)
  if equaliserFigures fnom own then own else equaliserModel fnom

/-! ### The shift filter (R129) -/

/-- The amplitude |H| of 256 taps, Q1.31, at a frequency in 2^−40 Hz: 2 Σ t_k sin(2π (2k + 1) f / 16,000), positive where
H lags by 90°; unit 2^−93 (R129). -/
def shiftAmplitude (taps : List Int) (freq : Nat) : Int :=
  2 * sumBy (fun x => x.1 * sinTurn ((2 * x.2 + 1) * freq) (16000 * 2 ^ 40)) taps.zipIdx

/-- The figures of R129: ±0.6 % from 40 to 90 Hz, ±0.005 % from there to 7 kHz. -/
def shiftFigures (taps : List Int) : Bool :=
  let ts := taps.zipIdx.map (fun x => (2 * x.1, 2 * x.2 + 1))
  allFrom 40 90 (fun x => sinHeld ts 16000 x (2 ^ 93) (parts 31 6000000)) &&
    allFrom 90 7000 (fun x => sinHeld ts 16000 x (2 ^ 93) (parts 31 50000))

/-- Σ (n / d)^k / (k!)², 40 terms, unit 2^−40: the Bessel function that shapes the windows below. -/
def besselSum (n d : Nat) : Nat :=
  ((List.range 40).foldl (fun (a : Nat × Nat) k => (a.1 + a.2, a.2 * n / (d * (k + 1) * (k + 1)))) (0, 2 ^ 40)).1

/-- Taps that meet the figures: 2 / (π d) under a Kaiser window of parameter 9. -/
def shiftModel : List Int :=
  tab 256 (fun k =>
    let d := 2 * k + 1
    ((2 ^ 97 * besselSum (81 * (263169 - d * d)) (4 * 263169) / (tauQ64 * d * besselSum 81 4) : Nat) : Int))

/-- The taps of H at the odd distances 1, 3, 5, …: the part's own, which meet the figures (R129). -/
def shiftTaps : List Int :=
  let own := tab 256 (fun k => satSigned 32 (Config.shiftTap k))
  if shiftFigures own then own else shiftModel

/-! ### The filters before the crossing detection (R143) -/

/-- |Σ p_k z^−k|² at a frequency in Hz, unit 2^−144 for coefficients in units of 2^−30. -/
def polySquare (ps : List Int) (hz : Nat) : Int :=
  let ts : Terms := ps.zipIdx
  let c := cosSum ts hz 16000 / 2 ^ 20
  let s := sinSum ts hz 16000 / 2 ^ 20
  c * c + s * s

/-- Inputs and outputs of a section, unit 2^−30, the outputs with their leading 1. -/
def sectionInputs (c : List Int) : List Int := c.take 3
def sectionOutputs (c : List Int) : List Int := 2 ^ 30 :: c.drop 3

/-- The squared gain of some sections at a frequency lies between two numbers of parts in 10^6. -/
def gainBetween (low high : Nat) (sections : List (List Int)) (hz : Nat) : Bool :=
  let n := sections.foldl (fun a c => a * polySquare (sectionInputs c) hz) 1
  let d := sections.foldl (fun a c => a * polySquare (sectionOutputs c) hz) 1
  decide (low * d ≤ n * 1000000) && decide (n * 1000000 ≤ high * d)

/-- A section is stable. -/
def sectionStable (c : List Int) : Bool :=
  let a := c.getD 3 0
  let b := c.getD 4 0
  decide (b < 2 ^ 30) && decide (-(2 ^ 30) < b) && decide (a.natAbs < 2 ^ 30 + b)

/-- The corners of R143: a second-order high-pass that has fallen by 3 dB at 10 Hz and a fourth-order low-pass that has at
150 Hz, each of gain 1 in its band and falling with its order beyond its corner. That a corner is where the gain has fallen
by 3 dB is a DEDUCED reading (log entry 7). -/
def trackFigures (sections : List (List Int)) : Bool :=
  let high := sections.take 1
  let low := sections.drop 1
  let g := (sections.headD []).getD 0 0
  sections.all sectionStable && (sections.headD []).take 3 == [g, -2 * g, g] &&
    gainBetween 495000 505000 high 10 && gainBetween 999000 1001000 high 8000 && gainBetween 0 150 high 1 &&
    gainBetween 999000 1001000 low 0 && gainBetween 495000 505000 low 150 && gainBetween 0 1 low 1500

/-- Coefficients that meet them, unit 2^−30. -/
def trackModel : List (List Int) :=
  [[1070764392, -2141528784, 1070764392, -2141520527, 1067795215],
    [883111, 1766222, 883111, -2033175607, 962966229],
    [910628, 1821256, 910628, -2096526674, 1026427362]]

/-- The three sections in turn: the high-pass and the two of the low-pass. -/
def trackSections : List (List Int) :=
  let own := tab 3 (fun i => tab 5 (Config.trackCoef i))
  if trackFigures own then own else trackModel

/-- A coefficient of a section. -/
def trackCoef (i k : Nat) : Int := (trackSections.getD i []).getD k 0

/-! ### The resampler (R204) -/

/-- A phase follows the response that its linear interpolation to the next one calls for, 1 + (ωΔ)² / 12 with Δ a 64th of a
sample, within 0.5 ppm from 0 to 4.2 kHz: then the amplitude lies within ±0.005 %, and the image and interpolation components
below −95 dB (R204). -/
def phaseFigures (p : Nat) (taps : List Int) : Bool :=
  let d := 16000 * 64
  let place := fun (k : Nat) => 64 * ((k : Int) - 15) - p
  let ps := taps.zipIdx.map (fun x => (x.1, (place x.2).natAbs))
  let qs := taps.zipIdx.map (fun x => (x.1 * (place x.2).sign, (place x.2).natAbs))
  allFrom 0 4200 (fun x =>
    cosHeld ps d x (2 ^ 93 + (2 ^ 93 * (x * x * 3137469) / 10 ^ 18 : Nat)) (parts 31 470) && sinHeld qs d x 0 (parts 31 470))

/-- The figures of R204 over the 64 phases. -/
def resampleFigures (phases : List (List Int)) : Bool := phases.zipIdx.all (fun x => phaseFigures x.2 x.1)

/-- sin(πt) / (πt) under a Kaiser window of parameter 14 over ±16 samples, `t` in 64ths of a sample, unit 2^−40. -/
def kaiserSinc (t : Int) : Int :=
  let n := t.natAbs
  if 1024 ≤ n then 0
  else
    let w : Int := besselSum (49 * (1048576 - n * n)) 1048576 * 2 ^ 40 / besselSum 49 1
    if n = 0 then 2 ^ 40 else sinTurn n 128 * 2 ^ 65 / (tauQ64 * n : Nat) * w * 64 / 2 ^ 62

/-- Taps that meet the figures, Q1.31: the windowed sinc with the lift that interpolation takes off again. -/
def resampleModel : List (List Int) :=
  tab 64 (fun p => tab 32 (fun k =>
    let t : Int := 64 * ((k : Int) - 15) - p
    roundEven (14 * kaiserSinc t - kaiserSinc (t - 1) - kaiserSinc (t + 1)) (12 * 2 ^ 9)))

/-- The taps of the resampler by phase, the oldest sample first. -/
def resampleTaps : List (List Int) :=
  let own := tab 64 (fun p => tab 32 (fun k => satSigned 32 (Config.resampleTap p k)))
  if resampleFigures own then own else resampleModel

end Sys2Proof.Machine
end

