-- ==== Sys2Proof/Machine/PartsBill.lean ====
section
/-! DEFINITION. PartsBill.lean: the billing state of an engine (chapters "Reckoning energy" and "Latching,
pulses and demand"). It is one structure, so that a checkpoint of R324 can hold a copy of it. Every
field's default is its value at reset. -/

namespace Sys2Proof.Machine
open Sys2Proof

/-- An accumulator word: a 64-bit count of quanta and a 48-bit residue in UQ0.48 (R137, R138, R171). A
net register reads its count in two's complement. -/
structure Acc where
  count : BitVec 64 := 0
  res : BitVec 48 := 0
deriving DecidableEq, Repr

/-- One moving average held as an exact running sum (R131): its inputs, newest first, and their sum. -/
structure Box where
  hist : List Int := []
  sum : Int := 0
deriving DecidableEq, Repr

/-- The direction filter F (R130): its five moving averages, first stage first. -/
structure Filt where
  boxes : List Box := List.replicate 5 {}
deriving DecidableEq, Repr

/-- One element of a service (R128, R132). -/
structure Element where
  fp : Filt := {}
  fq : Filt := {}
  live : Bool := false
  /-- P̄_e and Q̄_e of the latest reckoned sample, unit 2^−48 quantum -/
  pbar : Int := 0
  qbar : Int := 0
  /-- K_e in force, UQ16.48 (R127) -/
  weight : Nat := 0
deriving DecidableEq, Repr

/-- The squares filter of a channel (R128 stages 4, 6, 7): F(a_e) or F(b_e), and its latest output. -/
structure ChannelSquare where
  filt : Filt := {}
  /-- the filtered square, UQ2.46 -/
  out : Nat := 0
  /-- sum of the filtered squares over the latch interval in progress (R160) -/
  sum : Nat := 0
deriving DecidableEq, Repr

/-- The interval accumulators of a service (R147, R164). -/
structure Interval where
  samples : Nat := 0
  /-- sums of the filtered squares of elements 0–2 -/
  usq : List Nat := [0, 0, 0]
  isq : List Nat := [0, 0, 0]
  p : Int := 0
  q : Int := 0
  s : Int := 0
  /-- sum of f_b, unit 2^−40 Hz -/
  freq : Nat := 0
  /-- bits of the interval flags member (R159) gathered so far -/
  clipped : Bool := false
  patched : Bool := false
  lost : Bool := false
  calStale : Bool := false
  dirChange : Bool := false
  noload : Bool := false
  load : Bool := false
  reversed : Nat := 0
  nominal : Bool := false
  hold : Bool := false
  warmup : Bool := false
deriving DecidableEq, Repr

/-- The sums of one demand sub-interval for one service (R185): the four quantities in order, and
whether reckoning covered the whole of it (R186). -/
structure SubSum where
  sums : List Acc := List.replicate 4 {}
  partialFlag : Bool := false
  timeStep : Bool := false
deriving DecidableEq, Repr

/-- A demand window value (R193). -/
structure DemandValue where
  values : List Nat := [0, 0, 0, 0]
  endSec : Nat := 0
  partialFlag : Bool := false
  timeStep : Bool := false
  tripped : Bool := false
  covered : Nat := 0
deriving DecidableEq, Repr

/-- A maximum demand record (R194). -/
structure MaxDemand where
  value : Nat := 0
  endSec : Nat := 0
  partialFlag : Bool := false
deriving DecidableEq, Repr

/-- The demand state of one service (R182, R185–R187). -/
structure Demand where
  now : SubSum := { partialFlag := true }
  /-- closed sub-intervals of the sliding history, newest first -/
  history : List SubSum := []
  /-- windows formed and waiting to be published, oldest first, each with the strobe count of its split -/
  formed : List (Nat × DemandValue) := []
  last : DemandValue := {}
  maxima : List MaxDemand := List.replicate 4 {}
  /-- the run of windows above LIMIT has tripped (R182) -/
  inRun : Bool := false
deriving DecidableEq, Repr

/-- One service (R125–R159). -/
structure Service where
  elements : List Element := List.replicate 3 {}
  /-- AE1–AE4, QE1–QE4, SE1–SE4 (R136) -/
  regs : List Acc := List.replicate 12 {}
  netP : Acc := {}
  netQ : Acc := {}
  quadrant : Nat := 0
  noload : Bool := true
  /-- raw samples that have entered the filters, up to 2,447 (R142) -/
  warm : Nat := 0
  /-- LIVE and REVERSED of the latest reckoned sample (R153) -/
  live : Nat := 0
  reversed : Nat := 0
  /-- service sums of the latest reckoned sample (R128 stage 9), unit 2^−48 quantum -/
  pbar : Int := 0
  qbar : Int := 0
  sbar : Int := 0
  /-- the sign of the last P̄, once one has been reckoned (R153 DIR_CHANGE) -/
  signKnown : Bool := false
  negative : Bool := false
  now : Interval := {}
  /-- present measures (R147, R158) and element powers (R159), as their members read -/
  present : Bytes := []
  powers : Bytes := []
  demand : Demand := {}
  /-- flags of R258 gathered in the profile interval in progress; bits 5 and 6 mean a sample in no-load
  and a sample not in no-load -/
  profileFlags : Nat := 0
deriving DecidableEq, Repr

/-- The frequency state of a bus (R145). -/
inductive FreqState where
  | nominal | locked | hold
deriving DecidableEq, Repr

/-- A second-order section of a filter of R143: its last two inputs and outputs, newest first. -/
structure Biquad where
  x1 : Int := 0
  x2 : Int := 0
  y1 : Int := 0
  y2 : Int := 0
deriving DecidableEq, Repr

/-- The crossing detection of a voltage channel (R143, R212): the high-pass, the two sections of the low-pass, and the
last value that left them. -/
structure Tracker where
  sections : List Biquad := List.replicate 3 {}
  last : Option Int := none
  /-- a crossing between the last two samples: rising, and its instant behind the filters -/
  crossed : Option (Bool × Nat) := none
deriving DecidableEq, Repr

/-- A line-cycle boundary of a bus (R145): its instant, unit 2^−16 metering period, and whether it was synthesised. -/
structure LineMark where
  instant : Nat
  synth : Bool := false
deriving DecidableEq, Repr

/-- One voltage bus (R143–R146). Instants are in units of 2^−16 metering period. -/
structure Bus where
  state : FreqState := .nominal
  /-- f_b, unit 2^−40 Hz -/
  freq : Nat := 0
  reference : Option Nat := none
  /-- the last valid periods of the reference in force, newest first, at most four -/
  periods : List Nat := []
  /-- crossings of the reference that are detected and not yet followed, oldest first: the channel and the instant -/
  found : List (Nat × Nat) := []
  /-- the last crossing of the reference in force, and whether the period that it ended was valid -/
  lastCross : Option Nat := none
  lastValid : Bool := false
  /-- the last crossing that ended a valid period (R145) -/
  validCross : Option Nat := none
  /-- the last line-cycle boundary, and half the period in force there (R146) -/
  lastBoundary : Option Nat := none
  lastHalf : Nat := 0
  /-- the next boundary to be synthesised -/
  nextSynth : Option Nat := none
  validCount : BitVec 16 := 0
  /-- boundaries whose samples have not yet been reckoned, oldest first (R147), and the last one they passed -/
  waiting : List LineMark := []
  reached : Option Nat := none
deriving DecidableEq, Repr

/-- A latch boundary (R161–R166, R191, R614). -/
structure Boundary where
  b : Nat
  cycles : Nat
  leadIn : Bool := false
  forced : Bool := false
  synth : Bool := false
  gap : Bool := false
deriving DecidableEq, Repr

/-- The latched copies of one service (R164). -/
structure LatchedService where
  regs : List Acc := List.replicate 12 {}
  netP : Acc := {}
  netQ : Acc := {}
  measures : Bytes := []
  flags : Nat := 0
  /-- demand state as the Warden holds it with the latch (R328) -/
  demand : Demand := {}
  /-- present S of the service at the latch, 1 µVA (R449 S_MAX) -/
  presentS : Nat := 0
deriving DecidableEq, Repr

/-- The pulse record of an output (R197). -/
structure PulseRecord where
  converted : BitVec 64 := 0
  acc : Acc := {}
  /-- the last origin member when the record was taken (R177): an origin that moves later is told by it -/
  origin : Bytes := []
deriving DecidableEq, Repr

/-- Everything a latch makes visible in one step (R164). -/
structure Capture where
  boundary : Boundary := { b := 0, cycles := 0 }
  sec : Nat := 0
  tick : Nat := 0
  services : List LatchedService := List.replicate 16 {}
  clips : List (BitVec 32 × BitVec 32) := List.replicate 56 (0, 0)
  rms : List Nat := List.replicate 56 0
  pulses : List PulseRecord := List.replicate 8 {}
  /-- what a billing save of this point states with the registers (R449): service mask, QUANTUM codes, sequence
  number of the configuration, and settings members of the pulse outputs -/
  mask : Nat := 0
  quanta : List Nat := List.replicate 16 3
  cfgSeq : Nat := 0
  settings : List Bytes := List.replicate 8 []
deriving DecidableEq, Repr

/-- The end of a demand sub-interval that has been fixed (R184, R188, R613): a chronicle instant in ticks,
or the strobe count of a time step. -/
structure SubEnd where
  tick : Nat
  strobe : Option Nat := none
deriving DecidableEq, Repr

/-- A profile interval whose samples are all accumulated (R255–R258): its ends, its flags, and of each
service in the mask its number, QUANTUM code, flags and registers. -/
structure ProfileClose where
  startSec : Nat
  endSec : Nat
  b : Nat
  flags : Nat
  code : Nat
  services : List (Nat × Nat × Nat × List Acc)
deriving DecidableEq, Repr

/-- A line-cycle boundary of the pacing bus that LATCH_BOUNDARY has not yet judged: its strobe count, whether it was
synthesised, and whether LATCH_NOW forces it (R166). -/
structure PaceMark where
  b : Nat
  synth : Bool := false
  forced : Bool := false
deriving DecidableEq, Repr

/-- The latch (R161–R167). -/
structure Latch where
  /-- line cycles of the pacing bus counted towards N -/
  cycles : Nat := 0
  leadIn : Bool := true
  /-- the interval in progress began with the lead-in (R165) -/
  leadInterval : Bool := true
  /-- line-cycle boundaries of the pacing bus not yet judged, oldest first -/
  fresh : List PaceMark := []
  /-- boundaries fixed and not yet reached by the reckoned samples, oldest first -/
  fixed : List Boundary := []
  /-- captures waiting to be published, oldest first -/
  captured : List Capture := []
  /-- nothing is accumulated below this strobe count: the energy gap of R328 -/
  gapUntil : Option Nat := none
  published : Capture := {}
deriving DecidableEq, Repr

/-- The engine's part of a pulse output (R169–R177). -/
structure PulseEngine where
  acc : Acc := {}
  converted : BitVec 64 := 0
  /-- scheduled starts of converted pulses not yet begun, oldest first, in µs of strobe time -/
  due : List Nat := []
  /-- LAG_SEEN (R197) -/
  lagSeen : Bool := false
  lateness : Nat := 0
  /-- the last origin member (R177) -/
  origin : Bytes := []
deriving DecidableEq, Repr

/-- The billing state: what a checkpoint holds (R324). -/
structure Billing where
  /-- reckoned samples exist from this strobe count on; the stamp of the latest one (R140) -/
  stamp : Nat := 0
  /-- raw samples taken since the start -/
  raw : Nat := 0
  services : List Service := List.replicate 16 {}
  squares : List ChannelSquare := List.replicate 56 {}
  /-- reckoned samples accumulated in the latch interval in progress -/
  intervalCount : Nat := 0
  buses : List Bus := List.replicate 8 {}
  /-- the crossing detection of U0–U7 -/
  trackers : List Tracker := List.replicate 8 {}
  latch : Latch := {}
  pulses : List PulseEngine := List.replicate 8 {}
  /-- ends of demand sub-intervals fixed and not yet reached by the reckoned samples, oldest first -/
  subEnds : List SubEnd := []
  /-- the profile interval in progress (R255): start second, end in ticks, flags of R257 -/
  profileStart : Nat := 0
  profileEnd : Option Nat := none
  profileFlags : Nat := 0
  /-- profile intervals closed and not yet written, oldest first -/
  profileClosed : List ProfileClose := []
deriving DecidableEq, Repr

end Sys2Proof.Machine
end

