-- ==== Sys2Proof/Machine/PartsNet.lean ====
section
/-! DEFINITION. PartsNet.lean: the state of the engines and the sluice and of the power-line unit (chapters
"Twin engines and the sluice", "Zorrus power-line physical layer" and "Zorrus network and loss reckoning").
Every field's default is its value at reset. -/

namespace Sys2Proof.Machine
open Sys2Proof

/-! ### Engines and sluice -/

/-- ROLE of R340. -/
inductive Role where
  | active | lockstep | standby | resync | arbitration | selftest | retired | notStarted
deriving DecidableEq, Repr

/-- One engine (R306–R311, R339–R342). -/
structure Engine where
  role : Role := .notStarted
  verdict : Bool := false
  fFault : Bool := false
  wFault : Bool := false
  /-- last claim presented since the start -/
  claim : BitVec 16 := 0
  retired : Bool := false
  /-- the intake count of the last valid path-F beat (R308) -/
  intake : Option (BitVec 32) := none
  /-- the instants of the last valid beats of both paths, in µs, and the longest silences that a beat has ended (R308, R341) -/
  beatF : Option Nat := none
  beatW : Option Nat := none
  longestF : Nat := 0
  longestW : Nat := 0
  /-- the instants in µs from which the beats of both paths have come unbroken (R309) -/
  sinceF : Nat := 0
  sinceW : Nat := 0
  /-- the instant in µs of the verdict against it -/
  verdictAt : Nat := 0
  /-- the held claim that it read on a verdict against the other engine, until it has presented its claim (R314) -/
  read : Option (BitVec 16) := none
  /-- the ten counters of R341 -/
  counters : List (BitVec 32) := List.replicate 10 0
  lastTakeover : Bytes := List.replicate 32 0
  /-- a full self-test was asked for by the host (R335) -/
  hostTest : Bool := false
deriving DecidableEq, Repr

/-- STATE of a load-control pair or output (R201). -/
inductive RelayState where
  | unknown | closed | opened | closing | opening | levelOn | levelOff
deriving DecidableEq, Repr

/-- A command to a load-control pair (R178, R200). -/
inductive RelayCmd where
  | toClose | toOpen | on | off
deriving DecidableEq, Repr

/-- SOURCE of an operation (R201). -/
inductive RelaySource where
  | host | limit | alarm
deriving DecidableEq, Repr

/-- One load-control pair (R178–R181, R198–R201, R612). In level mode `lowerOn` and `upperOn` are the
two outputs' levels. -/
structure RelayPair where
  state : RelayState := .unknown
  /-- both outputs' commanded levels in level mode -/
  lowerOn : Bool := false
  upperOn : Bool := false
  /-- the levels are driven (billing ready has passed, R181) -/
  driven : Bool := false
  /-- the coil being driven, the guard time running (R178, R180), and the instant in µs at which that ends -/
  coil : Option RelayCmd := none
  guarding : Bool := false
  until_ : Nat := 0
  pendingCmd : Option (RelayCmd × RelaySource) := none
  source : RelaySource := .host
  operations : BitVec 32 := 0
  superseded : BitVec 32 := 0
  /-- last accepted command codes of the lower and upper output since the start (R200) -/
  lastLower : Byte := 0
  lastUpper : Byte := 0
  /-- commands waiting for a takeover to end (R179): output, command and source, oldest first -/
  waiting : List (Nat × RelayCmd × RelaySource) := []
  /-- its record is owed to the store, no billing-port write starting during HOLD (R317) -/
  unsaved : Bool := false
  /-- MODE in force for the pair: level (R612) -/
  level : Bool := false
  /-- the MODE to take at the end of the coil pulse in progress (R612) -/
  newLevel : Option Bool := none
deriving DecidableEq, Repr

/-- The sluice's side of a pulse output (R173–R177, R195, R197, R318). -/
structure PulseOut where
  lastBegun : BitVec 64 := 0
  /-- the tail: scheduled starts of its pulses, oldest first (R177) -/
  tail : List Nat := []
  pulse : Bool := false
  /-- the instant, in µs of strobe time, at which the width of the latest pulse ends (R173, R176) -/
  ends : Nat := 0
  /-- POLARITY in force (R177) -/
  polarity : Bool := false
  /-- the instant, in µs of strobe time, before which no pulse may begin (R173) -/
  notBefore : Nat := 0
  /-- pulses emitted since the origin -/
  emitted : BitVec 64 := 0
deriving DecidableEq, Repr

/-- The sluice (R312–R318, R343). -/
structure Sluice where
  heldClaim : BitVec 16 := 0
  hold : Bool := false
  wardenHolds : Bool := false
  refused : BitVec 32 := 0
  acceptedSec : Nat := 0
  acceptedTick : Nat := 0
  pulses : List PulseOut := List.replicate 8 {}
  pairs : List RelayPair := List.replicate 2 {}
  /-- billing writes that wait for the end of HOLD, oldest first: address and bytes (R317) -/
  writes : List (Nat × Bytes) := []
deriving DecidableEq, Repr

/-- A state record of R324: its header, and the billing state with the load-control pairs as its body. -/
structure StateRecord where
  seq : BitVec 32
  kind : Nat
  writer : Nat
  claim : BitVec 16
  resume : Nat
  cfgSeq : Nat
  generation : BitVec 32
  /-- its CRC was found correct (R325) -/
  crcOk : Bool
  body : Billing
  pairs : List RelayPair := []
deriving DecidableEq, Repr

/-- The end of a block (R320): its index, the digests of the states of E0 and E1, and those states. -/
structure BlockEnd where
  block : Nat
  digest0 : BitVec 64
  digest1 : BitVec 64
  body0 : Billing
  body1 : Billing
deriving DecidableEq, Repr

/-- An arbitration in progress (R321): the block, the digest of the partner's state at its end, and the digests that E0 and
E1 sent. -/
structure Arbitration where
  block : Nat
  /-- the number of the entry DIGEST_MISMATCH -/
  entry : Nat
  own : BitVec 64
  digest0 : BitVec 64
  digest1 : BitVec 64
deriving DecidableEq, Repr

/-- How far a takeover has come (R316, R323, R327). -/
inductive TakeoverStage where
  /-- a verdict stands; no claim has been accepted -/
  | verdict
  /-- a claim has been accepted; the settle runs -/
  | settling
  /-- the claim is confirmed; the survivor refills and catches up -/
  | holding
deriving DecidableEq, Repr

/-- A takeover in progress (R316, R323, R327, R342). -/
structure Takeover where
  survivor : Nat
  stage : TakeoverStage := .verdict
  cause : Nat
  sec : Nat
  tick : Nat
  /-- the instant of the verdict in µs (R316) -/
  at_ : Nat := 0
  /-- the mode at the verdict: split (R342) -/
  split : Bool := false
  /-- SOURCE of R342, and the checkpoint chosen on the verdict (R326, R327) -/
  source : Nat := 0
  record : Option StateRecord := none
  /-- the instant in µs at which the survivor's claim was accepted (R330) -/
  accepted : Nat := 0
deriving DecidableEq, Repr

/-- A frame of the replay ring with the marks that travel with it (R33, R104). -/
structure RingFrame where
  strobe : Nat
  samples : Samples
  clip : BitVec 56
  patched : BitVec 56
  lost : BitVec 56
  /-- CAL_STALE of the channels at the sample (R149) -/
  stale : BitVec 56 := 0
deriving DecidableEq, Repr

/-- Both engines, the replay ring and the redundancy between them (R33, R306–R342). -/
structure Engines where
  engines : List Engine := List.replicate 2 {}
  /-- mode in force: split (R36, R37) -/
  split : Bool := false
  active : Nat := 0
  partnerOk : Bool := false
  /-- the replay ring, newest first, at most 6,241 frames (R33) -/
  ring : List RingFrame := []
  /-- the partner's own billing state where it may depart from the active engine's; a partner in lockstep for which none
  stands here holds the same state bit for bit (R319) -/
  mirror : Option Billing := none
  /-- the two checkpoint buffers (R325) -/
  buffers : List (Option StateRecord) := [none, none]
  /-- sequence numbers of the next state records, at 4 × writer + KIND (R324) -/
  sequences : List (BitVec 32) := List.replicate 8 0
  badRun : Nat := 0
  /-- the billing state and the pairs at the last line-cycle boundary of the pacing bus that a checkpoint may be written for
  (R325): every reckoned sample stamped below it is accumulated, and none at or after it -/
  cut : Option (Nat × Billing × List RelayPair) := none
  /-- the agreed records in the SRAM of E0 and E1 (R320) -/
  agreed : List (Option StateRecord) := [none, none]
  /-- the ends of the last two blocks, newest first (R320) -/
  blocks : List BlockEnd := []
  /-- the resynchronisation record that the partner rejoins from (R336) -/
  resync : Option StateRecord := none
  /-- the partner has caught up from it and joins lockstep at the next block boundary (R336) -/
  joining : Bool := false
  /-- digests of the block in comparison: block index and those that have arrived (R321) -/
  digests : Option (Nat × Option (BitVec 64) × Option (BitVec 64)) := none
  arbitration : Option Arbitration := none
  takeover : Option Takeover := none
  /-- published values may not fall until the survivor's pass them (R322) -/
  floor : Option Capture := none
deriving DecidableEq, Repr

/-! ### Power line -/

/-- STATE of the power-line unit (R368). -/
inductive LineState where
  | off | listening | receiving | transmitting | heldOff | cut
deriving DecidableEq, Repr

/-- ANCHOR of R368. -/
inductive AnchorState where
  | none | fromL1 | synthesised
deriving DecidableEq, Repr

/-- A frame being sent (R348, R349, R351): its payload, the tones of its symbols in four-tone mode, and the instant of
its first symbol, unit 2^−16 metering period. -/
structure LineSend where
  payload : Bytes
  tones : List Nat
  start : Nat
deriving DecidableEq, Repr

/-- The modem and line driver (R344–R370). -/
structure Line where
  state : LineState := .off
  vplcLow : Bool := false
  thermal : Bool := false
  /-- the current limit acted in the last frame sent -/
  txLimit : Bool := false
  anchor : AnchorState := .none
  gain : Nat := 0
  counters : List (BitVec 32) := List.replicate 10 0
  /-- level, corrected bytes and chronicle second of the last accepted frame -/
  level : Int := 0
  corrected : Nat := 0
  lastSec : Nat := 0
  /-- the noise floor from which the reception in progress rose, 0.1 dBµV (R355) -/
  noise : Int := 0
  /-- the last rising crossings of L1, measured or synthesised, newest first, at most 64, unit 2^−16 metering period (R349) -/
  crossings : List Nat := []
  /-- the last rising crossing of each voltage channel, and its measured angle against L1, unit 2^−16 cycle (R349, R362) -/
  rises : List (Option Nat) := List.replicate 8 none
  angles : List Nat := List.replicate 8 0
  /-- the frame being sent -/
  sending : Option LineSend := none
  /-- the receiver discards its input until one symbol after a transmission, unit 2^−16 metering period (R347) -/
  deafUntil : Nat := 0
deriving DecidableEq, Repr

/-- Network states (R385, R405). -/
inductive NetState where
  | off | forming | rejoining | steady
deriving DecidableEq, Repr

/-- State of a node address (R381). -/
inductive NodeState where
  | free | present | rejoined | absent
deriving DecidableEq, Repr

/-- A latched record of a node (R375 REPORT, R394). -/
structure NodeRecord where
  latch : Nat
  imported : Nat
  exported : Nat
deriving DecidableEq, Repr

/-- One node address (R381, R382, R396, R402). -/
structure Node where
  state : NodeState := .free
  uid : Nat := 0
  /-- phase bin of R402, and the run of consistent reports towards a new one (R363) -/
  bin : Nat := 0
  binCandidate : Nat := 0
  binRun : Nat := 0
  repeater : Bool := false
  relayPhase : Nat := 0xFF
  order : Nat := 0
  /-- repeater addresses from the device outwards (R374) -/
  route : List Nat := []
  theta : Nat := 0
  thetaCheck : Nat := 0
  heardSec : Nat := 0
  /-- latched records held, newest first, at most 16 -/
  records : List NodeRecord := []
  outOfStep : Bool := false
  reset : Bool := false
  failures : Nat := 0
  /-- second of strobe time since which it is absent (R384) -/
  absentSince : Nat := 0
  /-- second of strobe time of the last STATUS_REQ to it (R391) -/
  polledSec : Nat := 0
  /-- the instant of its join in this start (R396), unit 2^−16 metering period -/
  joinedAt : Option Nat := none
  /-- the newest latch number that its REPORTs have covered in the sweep in progress, held or not (R395) -/
  collected : Option Nat := none
  /-- a ROLE_SET is owed to it (R388) -/
  roleDue : Bool := false
  /-- a repeater of the saved table that has neither answered a STATUS_REQ nor become absent (R385) -/
  awaited : Bool := false
deriving DecidableEq, Repr

/-- A directed link of the neighbour table (R387). -/
structure Neighbour where
  hearing : Nat
  heard : Nat
  margin : Nat
  q : Nat
deriving DecidableEq, Repr

/-- A join request waiting for admission (R383, R384). -/
structure Candidate where
  uid : Nat
  proxy : Nat
  margin : Nat
deriving DecidableEq, Repr

/-- What a transaction carries (R375, R391). -/
inductive TransKind where
  | roleSet (role : Bytes) | statusReq | data (tag : Nat) (payload : Bytes) | joinAccept (uid : Nat) | reportReq (first count : Nat)
deriving DecidableEq, Repr

/-- The transaction in flight (R389, R390). `try_` and `hop` are TTRY and HTRY; `sent` says that its frame has
been sent in this try, `heard` that the next hop's frame was heard, `wait` counts data slots since, and `due` those after
which it is sent again. -/
structure Transaction where
  node : Nat
  kind : TransKind
  route : List Nat
  seq : Byte
  try_ : Nat := 0
  hop : Nat := 0
  sent : Bool := false
  heard : Bool := false
  wait : Nat := 0
  due : Nat := 2
  /-- data slots since the first frame of the try (R390) -/
  age : Nat := 0
deriving DecidableEq, Repr

/-- A sum of signed P̄_e of a feeder element (R397): service, element, phase 1–3, and 2^−48 quanta. -/
structure FeedSum where
  service : Nat
  elem : Nat
  phase : Nat
  sum : Int
deriving DecidableEq, Repr

/-- A latch superframe passed (R393): its number, the instant of its beacon anchor in 2^−16 metering period and
that instant in chronicle ticks. -/
structure LatchPoint where
  number : Nat
  instant : Nat
  tick : Nat
deriving DecidableEq, Repr

/-- A balance awaiting its records (R395, R397). -/
structure OpenBalance where
  k : Nat
  kPrev : Nat
  tickPrev : Nat
  /-- A_{k−1}, and the instant of the deadline (R395, R396), unit 2^−16 metering period -/
  instantPrev : Nat
  tick : Nat
  /-- ceil of A_k: feeder sums run up to this stamp -/
  until_ : Nat
  feeds : List FeedSum := []
  /-- the engine has handed its sums over (R397) -/
  handed : Bool := false
  flags : Nat
  deadline : Nat
  /-- addresses in use at A_k, with their bin, and whether the node was then present or rejoined -/
  nodes : List (Nat × Nat × Bool)
deriving DecidableEq, Repr

/-- The network (R371–R408). -/
structure Net where
  state : NetState := .off
  form : BitVec 8 := 0
  superframe : BitVec 32 := 0
  started : Bool := false
  slot : Nat := 0
  /-- the beacon anchor of the superframe, unit 2^−16 metering period (R371) -/
  anchor : Nat := 0
  /-- beacons are being sent (R67, R378) -/
  beaconing : Bool := false
  nodes : List Node := List.replicate 256 {}
  neighbours : List Neighbour := []
  candidates : List Candidate := []
  trans : Option Transaction := none
  nextSeq : Byte := 0
  counters : List (BitVec 32) := List.replicate 10 0
  /-- latch superframe fixed: superframe number, latch number, profile boundary second (R393) -/
  latchAt : Option (Nat × Nat × Nat) := none
  /-- the last profile boundary dealt with: fixed, or given no latch superframe -/
  lastBoundary : Nat := 0
  /-- the latch before the first profile boundary dealt with since the start: its number and chronicle tick -/
  origin : Option (Nat × Nat) := none
  /-- the last latch superframe passed since the start -/
  lastLatch : Option LatchPoint := none
  /-- running feed sums since the last balance boundary (R397), and flags of R403 gathered -/
  feeds : List FeedSum := []
  feedFlags : Nat := 4
  openBalances : List OpenBalance := []
  /-- balance records, newest first, at most 16 (R399) -/
  balances : List Bytes := []
  /-- seconds of strobe time of the last join and of the first beacon (R385) -/
  lastJoinSec : Nat := 0
  firstBeaconSec : Option Nat := none
  /-- the device is sending a broadcast for the front ZLINK_SEND: groups of slots left (R401) -/
  broadcastLeft : Option Nat := none
deriving DecidableEq, Repr

end Sys2Proof.Machine
end

