-- ==== Sys2Proof/Machine/PartsRecord.lean ====
section
/-! DEFINITION. PartsRecord.lean: the state of extended analysis, of recording and of the archive (chapters
"Harmonics, flicker and events", "Recording and the seep coder" and "Archive storage and flow control").
Every field's default is its value at reset. -/

namespace Sys2Proof.Machine
open Sys2Proof

/-! ### Extended analysis -/

/-- The kinds of voltage event (R214). -/
inductive EventKind where
  | dip | swell | interruption | rvc
deriving DecidableEq, Repr

/-- An open voltage event of a bus (R214–R217). -/
structure OpenEvent where
  kind : EventKind
  /-- the number of the event, counted as events open -/
  number : Nat := 0
  /-- chronicle time of the start, in ticks, and its instant, unit 2^−16 metering period -/
  start : Nat
  at_ : Nat := 0
  /-- extreme so far (fraction of the reference, unit 2^−31) and the channel that gave it -/
  extreme : Nat
  worst : Nat
  /-- references of U0–U7 at the start, UQ1.31 -/
  refs : List Nat
  mask : Nat
  openAtStart : Bool := false
  containsInt : Bool := false
  /-- mean before a rapid voltage change, per channel, UQ1.31 -/
  before : List Nat := []
  /-- end of the span of the first pin request of a long event, ticks (R219) -/
  pinnedTo : Option Nat := none
  /-- outcome of that request, as R230 codes it -/
  outcome : Nat := 0
deriving DecidableEq, Repr

/-- A half-cycle RMS value, UQ1.31, with the start of its cycle: chronicle ticks, and instant in 2^−16 metering period
(R212). -/
structure RmsValue where
  v : Nat
  tick : Nat
  at_ : Nat
deriving DecidableEq, Repr

/-- The event side of one watched channel (R212–R216). -/
structure Watched where
  /-- sliding reference, UQ1.31 of full code; `none` until a window has updated it -/
  sliding : Option Nat := none
  /-- the latest values, newest first, at most 121 -/
  values : List RmsValue := []
  /-- half-cycle boundaries whose cycle is not yet evaluated, oldest first (R212) -/
  halves : List Nat := []
  /-- the last real boundary, or the instant from which the first ones are counted -/
  lastReal : Option Nat := none
deriving DecidableEq, Repr

/-- A window of a bus between two line-cycle boundaries (R203): the instants of its ends in 2^−16 metering
period, and whether a boundary was synthesised. -/
structure Window where
  a : Nat
  b : Nat
  cycles : Nat
  synth : Bool := false
deriving DecidableEq, Repr

/-- Sums of signed P̄ and Q̄ of each service over a window, unit 2^−48 quantum (R253): the strobe counts of
its ends, the second once it has fallen. -/
structure WinSum where
  a : Nat
  b : Option Nat := none
  acc : List (Int × Int) := List.replicate 16 (0, 0)
deriving DecidableEq, Repr

/-- The analysis of one bus (R203, R206, R209, R214). -/
structure XaBus where
  /-- the instant at which the window in progress began, once one has begun, and its line cycles so far -/
  start : Option Nat := none
  startSynth : Bool := false
  cycles : Nat := 0
  /-- the cycles that the window in progress spans, fixed as it begins -/
  span : Nat := 10
  /-- windows ended and waiting for their analysis, oldest first -/
  ended : List Window := []
  count : BitVec 32 := 0
  /-- window sums that are open or not yet in a record, oldest first -/
  sums : List WinSum := []
  /-- window records whose service entries wait for their sums: strobe count of the window's start, and header
  with channel entries -/
  records : List (Nat × Bytes) := []
  openEvents : List OpenEvent := []
  /-- spans of closed events that a window can still overlap: instants in 2^−16 metering period -/
  spans : List (Nat × Nat) := []
deriving DecidableEq, Repr

/-- A P_st interval whose samples have all passed: its end, the strobe counts of its beginning and end, its flags (R211),
whether it ends the 2 h interval, and the classifier as pairs of class and count. -/
structure PstClosed where
  endSec : Nat
  from_ : Nat := 0
  strobe : Nat
  settling : Bool
  part : Bool
  event : Bool
  long : Bool
  classes : List (Nat × Nat)
deriving DecidableEq, Repr

/-- The flicker meter of a voltage channel (R210, R211). -/
structure Meter where
  /-- the mean square of the input adaptor, and the sections of block 3 -/
  adaptor : Biquad := {}
  sections : List Biquad := List.replicate 6 {}
  /-- the smoothing of block 4, and metering samples since its last point -/
  smooth : Biquad := {}
  phase : Nat := 0
  /-- points since the present value was last updated -/
  points : Nat := 0
  /-- P_inst present, unit 0.0001, updated every 100 ms (R233) -/
  shown : Nat := 0
  /-- points still to pass before P_inst is classified (R211) -/
  settle : Nat := 0
  /-- the classifier of the interval in progress: class and count, classes rising -/
  classes : List (Nat × Nat) := []
  /-- strobe count at which the P_st interval in progress began -/
  from_ : Nat := 0
  /-- flags of the P_st interval in progress (R211), and SETTLING promised to the next one (R221) -/
  settling : Bool := false
  part : Bool := false
  event : Bool := false
  settleNext : Bool := false
deriving DecidableEq, Repr

/-- The analysis members of one channel (R232, R233). -/
structure XaChannel where
  summary : Bytes := List.replicate 32 0
  harmonics : Bytes := List.replicate 256 0
  interharmonics : Bytes := List.replicate 256 0
  angles : Bytes := List.replicate 128 0
  flicker : Bytes := List.replicate 32 0
  /-- THD_H of the last window in the units of the pool entry (R253) -/
  thd : Nat := 4095
  meter : Meter := {}
  /-- intervals closed and not yet published, oldest first -/
  closed : List PstClosed := []
  /-- P_st values of the 2 h interval in progress: value and flagged -/
  psts : List (Nat × Bool) := []
deriving DecidableEq, Repr

/-- A pin request of an event or an alarm that has not completed (R219, R500). -/
structure PinRequest where
  fromTick : Nat
  toTick : Nat
  reason : Nat
  /-- number of the event that it belongs to -/
  event : Nat
  /-- chronicle tick at which it may be made -/
  due : Nat
deriving DecidableEq, Repr

/-- Extended analysis (R202–R234). -/
structure Xa where
  suspended : Bool := false
  buses : List XaBus := List.replicate 8 {}
  channels : List XaChannel := List.replicate 56 {}
  watched : List Watched := List.replicate 8 {}
  /-- recent event records, newest first, 32 bytes each (R230) -/
  recent : List Bytes := []
  /-- the numbers of the events of these records, and of the event opened last -/
  recentNumbers : List Nat := []
  opened : Nat := 0
  /-- the eight event counters of R231 -/
  counters : List (BitVec 32) := List.replicate 8 0
  events : BitVec 32 := 0
  /-- event pins made in the chronicle hour, and that hour (R220) -/
  pinsHour : Nat := 0
  pinHour : Nat := 0
  /-- event pins waiting for their instant -/
  pins : List PinRequest := []
  /-- event pins handed to the archive: pin number and the event's number -/
  asked : List (Nat × Nat) := []
  /-- sequence numbers of the evidence entries of the latest events: event number and sequence number -/
  numbers : List (Nat × Nat) := []
  /-- chronicle second at which the flicker intervals in progress end (R211) -/
  pstNext : Option Nat := none
  /-- time steps that the samples have not yet reached: strobe count, old second, and end of the next interval -/
  pstSteps : List (Nat × Nat × Nat) := []
deriving DecidableEq, Repr

/-! ### Recording -/

/-- One recorded channel within the segment being coded (R239–R246). -/
structure CoderChannel where
  /-- blocks and samples coded in the segment -/
  blocks : Nat := 0
  samples : Nat := 0
  /-- the last four reconstructed samples, newest first -/
  recon : List Int := []
deriving DecidableEq, Repr

/-- A place at which the segment being coded ends and the next one begins (R238): the strobe count of the first
recording sample of the new one, the chronicle tick at which the old one ends in its own time, and the flags of both. -/
structure SegmentCut where
  strobe : Nat
  ends : Nat
  before : Nat := 0
  after : Nat := 0
deriving DecidableEq, Repr

/-- The segment being coded (R238, R247). -/
structure Segment where
  seq : Nat
  startTick : Nat
  startStrobe : Nat
  /-- it begins on an aligned boundary -/
  whole : Bool := false
  flags : Nat
  channels : List CoderChannel := List.replicate 56 {}
  mask : Nat
  /-- bytes offered so far, for the coded rate (R250) -/
  size : Nat := 0
  /-- chronicle tick of its aligned end -/
  alignedEnd : Nat
  /-- dropped while being coded: it is coded no further (R289) -/
  dropped : Bool := false
deriving DecidableEq, Repr

/-- Recording (R235–R269). -/
structure Recording where
  segment : Option Segment := none
  /-- places where the segment being coded and those after it end, ascending -/
  cuts : List SegmentCut := []
  /-- sequence number of the last segment opened, and of the last one opened before this start (R282) -/
  lastSeq : Nat := 0
  openedBefore : Nat := 0
  /-- gap markers for the segments missing before this start have been queued (R282) -/
  missingMarked : Bool := false
  coderOk : Bool := true
  coderTesting : Bool := false
  literal : BitVec 32 := 0
  constant : BitVec 32 := 0
  coded : BitVec 32 := 0
  escaped : BitVec 24 := 0
  mismatches : BitVec 8 := 0
  codedRate : Nat := 0
  gapsWritten : BitVec 32 := 0
  /-- LAYOUT number and content of each bus (R252) -/
  layouts : List (Nat × Bytes) := List.replicate 8 (0, [])
  poolGap : Bool := false
  /-- profile sequence number of the last record (R257) -/
  profileSeq : BitVec 32 := 0
  lastAudit : Bytes := List.replicate 80 0
deriving DecidableEq, Repr

/-! ### Archive -/

/-- What a chip select answered when it was probed (R270, R272). -/
structure FlashPart where
  /-- manufacturer and device ID bytes -/
  id : Nat
  /-- density code of R305 -/
  density : Nat
  pageSize : Nat
  blocks : Nat
  /-- every row of R270 that the parameter page reports is met -/
  conforms : Bool
  /-- a read of its parameter page in 8D-8D-8D fails -/
  ddrFails : Bool
  endurance : Nat
  /-- physical blocks with a factory bad marker -/
  factoryBad : List Nat
deriving DecidableEq, Repr

/-- The seven uses of a block (R274). -/
inductive BlockUse where
  | free | seep | pool | peat | pinned | index | bad
deriving DecidableEq, Repr

/-- A programmed page (R276, R277): its bytes, which on page 0 begin with the block header, and its page tag. -/
structure FlashPage where
  data : Bytes
  tag : Bytes
deriving DecidableEq, Repr

/-- A flash block that is not an erased good block of erase count 0 (R273, R276, R284). -/
structure FlashBlock where
  lb : Nat
  bad : Bool := false
  erases : Nat := 0
  /-- the programmed pages, page 0 first -/
  pages : List FlashPage := []
  /-- pages whose read the flash reports as uncorrectable -/
  badPages : List Nat := []
deriving DecidableEq, Repr

/-- A record queued in the mere (R287). -/
structure MereRec where
  bytes : Bytes
  /-- the segment it belongs to, for seep records -/
  seg : Option Nat := none
  /-- it opens its segment's record -/
  opening : Bool := false
  /-- no more bytes will be added to it -/
  complete : Bool := true
  /-- bytes of it already cut into frames -/
  framed : Nat := 0
  /-- header bytes to be framed again before its last fragment: their offset and what is left of them -/
  head : Option (Nat × Bytes) := none
  /-- record number, once its first frame has been made -/
  number : Option Nat := none
  /-- chronicle time of the record, ticks -/
  time : Nat := 0
  /-- the first evidence entry it carries, for a type 0x41 record (R506) -/
  evidence : Option Nat := none
  /-- programmed at once (R277) -/
  urgent : Bool := false
deriving DecidableEq, Repr

/-- A frame or what is left of it in the page buffer of a log: its record number, its bytes, whether it is the
LAST fragment, the record's chronicle tick, and the newest evidence entry the record carries (R506). -/
structure BufFrame where
  number : Nat
  bytes : Bytes
  last : Bool
  time : Nat
  evidence : Option Nat := none
  /-- the segment it belongs to -/
  seg : Option Nat := none
deriving DecidableEq, Repr

/-- A fragment of a record (R278). -/
structure Frag where
  number : Nat
  first : Bool
  last : Bool
  offset : Nat
  data : Bytes
  /-- chronicle tick of its record, where it is copied forward (R276) -/
  time : Nat := 0
deriving DecidableEq, Repr

/-- One log (R274, R279): its blocks, oldest first, and the frames not yet programmed. -/
structure TierLog where
  blocks : List Nat := []
  /-- header of the newest block, until its page 0 is programmed -/
  header : Bytes := []
  queue : List MereRec := []
  /-- fragments of a reclaimed block that are copied forward, and that block (R301) -/
  forward : List Frag := []
  leaving : Option Nat := none
  /-- frames cut and not yet programmed -/
  buffer : List BufFrame := []
  /-- the buffer must be programmed although it is not a full page (R277) -/
  flush : Bool := false
  nextRecord : Nat := 0
  written : BitVec 32 := 0
  /-- numbers of records never to be returned (R289) -/
  droppedRecs : List Nat := []
deriving DecidableEq, Repr

/-- An operation a flash device performs (R290): of one page, or the erase or the relocation of a block. -/
inductive FlashOp where
  /-- program the next page of a log from the queues -/
  | program (tier : Nat)
  | erase (lb : Nat)
  /-- the whole relocation of a block whose program failed (R284): its log -/
  | relocate (lb : Nat) (tier : Nat)
  /-- a page read for the command with this tag -/
  | read (tag : Nat)
  /-- a page of the copy of a segment for a pin (R298) -/
  | copy (seg : Nat)
  /-- a page of the index checkpoint -/
  | checkpoint
  /-- a page of a static move (R285) or a refresh copy (R284) of a block -/
  | move (lb : Nat)
deriving DecidableEq, Repr

/-- One chip select (R272, R292, R305). -/
structure FlashDevice where
  part : Option FlashPart := none
  ddrOff : Bool := false
  failed : Bool := false
  mismatch : Bool := false
  op : Option FlashOp := none
  retried : Bool := false
  /-- pages programmed from the queues since the last page read, pin copy and move, counted to 1, 4 and 64 (R291) -/
  sinceRead : Nat := 0
  sinceCopy : Nat := 0
  sinceMove : Nat := 0
deriving DecidableEq, Repr

/-- The archive states of R303. -/
inductive ArchiveState where
  | probing | mounting | scan1 | scan2 | mounted | mismatch | failed | noDevice | formatting
deriving DecidableEq, Repr

/-- An entry of the pin table (R298–R301). -/
structure Pin where
  number : Nat
  reason : Nat
  fromSec : Nat
  toSec : Nat
  firstSeg : Nat
  lastSeg : Nat
  evidence : Nat
  /-- segments it covers, copied and shared -/
  covers : List Nat := []
deriving DecidableEq, Repr

/-- A segment whose copy for pins waits or runs (R298): the bytes already copied, and the record number of the copy. -/
structure PinCopy where
  seg : Nat
  /-- its block must be reclaimed: the copy comes first -/
  promoted : Bool := false
  done : Nat := 0
  number : Option Nat := none
deriving DecidableEq, Repr

/-- A static move or a refresh copy of a block (R284, R285): the block drawn for it with its header, and the pages
copied. -/
structure BlockMove where
  lb : Nat
  refresh : Bool
  target : Option (Nat × Bytes) := none
  done : Nat := 0
deriving DecidableEq, Repr

/-- Page reads that a command still waits for on a device (R291). -/
structure PageReads where
  tag : Nat
  device : Nat
  left : Nat
  /-- the instant in µs from which the 75 % watermark holds it (R288, R297) -/
  heldFrom : Option Nat := none
deriving DecidableEq, Repr

/-- The index checkpoint in the writing (R279): its bytes, what is programmed, its record number, and block and page of its
first frame. -/
structure CheckpointRun where
  bytes : Bytes
  done : Nat := 0
  number : Option Nat := none
  place : Option (Nat × Nat) := none
deriving DecidableEq, Repr

/-- The index checkpoints (R279). -/
structure Checkpointed where
  /-- sequence number of the last one written -/
  seq : BitVec 32 := 0
  due : Bool := false
  /-- chronicle second from which a checkpoint has been deferred (R288) -/
  deferredSec : Option Nat := none
  run : Option CheckpointRun := none
deriving DecidableEq, Repr

/-- The ten flow counters of R305, in order. -/
structure Flow where
  dropped : BitVec 32 := 0
  gaps : BitVec 32 := 0
  discarded : BitVec 32 := 0
  readsHeld : BitVec 32 := 0
  readsTimedOut : BitVec 32 := 0
  promoted : BitVec 32 := 0
  programFails : BitVec 32 := 0
  eraseFails : BitVec 32 := 0
  pageFails : BitVec 32 := 0
  refreshed : BitVec 32 := 0
deriving DecidableEq, Repr

/-- The archive (R270–R305). `devices` and `flash` are what is soldered beside the package; they outlive every reset. -/
structure Archive where
  devices : List FlashDevice := List.replicate 4 {}
  flash : List FlashBlock := []
  state : ArchiveState := .probing
  mountCount : BitVec 6 := 0
  archiveId : Nat := 0
  /-- watermark actions in force (R288) -/
  at50 : Bool := false
  at75 : Bool := false
  at90 : Bool := false
  free : List Nat := []
  blockSeq : BitVec 32 := 0
  /-- seep, pool, peat, pinned, meta (R274) -/
  tiers : List TierLog := List.replicate 5 {}
  /-- blocks reclaimed and waiting for their erase -/
  toErase : List Nat := []
  /-- records offered and not yet admitted: tier and record -/
  offered : List (Nat × MereRec) := []
  pins : List Pin := []
  pinCopies : List PinCopy := []
  nextPin : Nat := 0
  checkpoint : Checkpointed := {}
  flow : Flow := {}
  /-- blocks reclaimed since the last static move (R285), and the tier whose turn it is -/
  reclaimed : Nat := 0
  moveTier : Nat := 2
  /-- the archive has failed and no mount has succeeded since (R292) -/
  stuck : Bool := false
  /-- blocks erased on each of the last 30 chronicle days with an erase: day and count, newest first (R286) -/
  erasedDays : List (Nat × Nat) := []
  /-- static moves and refresh copies that wait or run -/
  moves : List BlockMove := []
  /-- page reads that commands wait for -/
  reads : List PageReads := []
  /-- blocks whose relocation waits (R284): block and log -/
  relocations : List (Nat × Nat) := []
deriving DecidableEq, Repr

end Sys2Proof.Machine
end

