-- ==== Sys2Proof/Machine/PartsSense.lean ====
section
/-! DEFINITION. PartsSense.lean: the state of the sensing array and of the causeway (chapters "The device
in seven levels" and "Sensing array and wader rotation"). Every field's default is its value at reset. -/

namespace Sys2Proof.Machine
open Sys2Proof

/-- The correction coefficients of one slice (R95). -/
structure SliceCoef where
  /-- G_s, UQ2.30 -/
  gain : Nat := 0x40000000
  /-- O_s, Q1.31 -/
  offset : Int := 0
  /-- τ_s, unit 2^−20 metering period -/
  delay : Int := 0
deriving DecidableEq, Repr

/-- A value on its way through the correction stages, with the marks of the sample it belongs to: clipped (R102), and
the sign of the full-scale code that a modulator reset puts in its place, positive `true` (R103). -/
structure Marked where
  v : Int := 0
  clip : Bool := false
  full : Option Bool := none
deriving DecidableEq, Repr

/-- A reference measurement in progress (R107, R108): the strobe count it began at, the strobes of each of its four
parts, the samples gathered, and their sums: zero, +400 mV, −400 mV, and the tone against cosine and sine. -/
structure RefMeasure where
  start : Nat
  part : Nat
  taken : Nat := 0
  zero : Int := 0
  plus : Int := 0
  minus : Int := 0
  toneCos : Int := 0
  toneSin : Int := 0
deriving DecidableEq, Repr

/-- One modulator slice (R84, R89, R94, R103, R108, R124). -/
structure Slice where
  coef : SliceCoef := {}
  source : SliceSource := .zero
  retired : Bool := false
  /-- the reference measurement in progress -/
  meas : Option RefMeasure := none
  /-- the latest 32 values of z before the delay filter, newest first (R94 stage B) -/
  hist : List Marked := []
  /-- the last raw sample, whose sign a modulator reset keeps (R103) -/
  lastRaw : Int := 0
  /-- modulator clocks at which resets began that still reach samples (R103) -/
  resets : List Nat := []
  /-- an accepted measurement has been made since the start (R113: limits on change) -/
  measured : Bool := false
  /-- chronicle time of the end of the last reference measurement (R124) -/
  lastSec : Nat := 0
  lastTick : Nat := 0
  /-- changes at that measurement, in the units of R124 -/
  changeG : Int := 0
  changeT : Int := 0
  changeO : Int := 0
  /-- the gain of the last measurement failed its absolute limits: the deviation from 1, unit 2^−30 (R116) -/
  gainFail : Option Int := none
deriving DecidableEq, Repr

/-- The Rogowski stage or its matching delay (R97, R99). -/
structure Integrator where
  /-- x[n−1] and y[n−1] of the DC-blocking high-pass -/
  hpIn : Int := 0
  hpOut : Int := 0
  /-- the integrator s, Q33.31, and its last input -/
  acc : Int := 0
  accIn : Int := 0
  /-- the latest inputs of the 9-tap equaliser, newest first -/
  tail : List Int := []
  /-- the latest inputs of the stage, newest first: the matching delay (R93) -/
  plain : List Marked := []
  seedCount : Nat := 0
  seedSum : Int := 0
  seeded : Bool := false
  /-- the mean that the seed took off (R99) -/
  seed : Int := 0
deriving DecidableEq, Repr

/-- A calibration member written and waiting for the latch boundary (R96): the member 3, 4 or 5, its value, and the
strobe count at which it was written. -/
structure CalWrite where
  member : Nat
  value : Int
  strobe : Nat
deriving DecidableEq, Repr

/-- One input channel I00–I47 or U0–U7, or the fault counters of a wader W0–W3 (R94–R105, R113–R124). -/
structure Channel where
  /-- calibration in force (R95): G_c UQ2.30, O_c Q1.31, τ_c unit 2^−20 metering period -/
  gain : Nat := 0x40000000
  offset : Int := 0
  delay : Int := 0
  /-- calibration written and waiting for the latch boundary, oldest first (R96) -/
  writes : List CalWrite := []
  stageE : Integrator := {}
  /-- SUSPECT, CAL_STALE and the lost state (R115, R120) -/
  suspect : Bool := false
  calStale : Bool := false
  lost : Bool := false
  /-- CLIP, PATCHED and LOST_RUN of the latch interval in progress (R120) -/
  clip : Bool := false
  patched : Bool := false
  lostRun : Bool := false
  /-- clip counts (R124): the interval in progress and since the start; the last interval's stands in the latch -/
  clipsNow : BitVec 32 := 0
  clipsStart : BitVec 32 := 0
  /-- fault counters (R124) -/
  suspects : BitVec 16 := 0
  transients : BitVec 16 := 0
  interpolated : BitVec 16 := 0
  modResets : BitVec 16 := 0
  /-- seconds since the home slice's last accepted measurement, saturating (R120 CAL_AGE) -/
  calAge : BitVec 16 := 65535
  /-- strobe count of the last passed test for sustained clipping (R114) -/
  clipPass : Option Nat := none
deriving DecidableEq, Repr

/-- Where a pre-emption stands (R114). -/
inductive PreStage where
  | handBack | settle | fadeTo | test | twin | fadeBack
deriving DecidableEq, Repr

/-- Where the rotation of a quarter stands (R107, R114). -/
inductive Rotation where
  /-- between steps, or before the first one -/
  | idle
  /-- steps 1–2: the wader on the reference -/
  | waderRef (p : Nat)
  /-- the wader under self-test (R114 row 2, R117) -/
  | waderTest (p : Nat)
  /-- step 4 -/
  | twin1 (p : Nat)
  /-- step 5 -/
  | fadeTo (p : Nat)
  /-- steps 6–7 -/
  | homeRef (p : Nat)
  /-- the home slice under self-test, in place of or after its measurement -/
  | homeTest (p : Nat)
  /-- step 9 -/
  | twin2 (p : Nat)
  /-- step 10 -/
  | fadeBack (p : Nat)
  /-- a pre-emption for position c; `host` says a SELFTEST asked for it -/
  | pre (c : Nat) (stage : PreStage) (host : Bool)
deriving DecidableEq, Repr

/-- A cross-fade in progress (R109): position, direction and the number of samples done. -/
structure Fade where
  pos : Nat
  toWader : Bool
  n : Nat := 0
  /-- settling samples still to pass before the fade begins (R114) -/
  wait : Nat := 0
deriving DecidableEq, Repr

/-- One quarter's rotation (R106, R107, R113–R117, R121). -/
structure Quarter where
  rot : Rotation := .idle
  /-- the last rotation position begun -/
  step : Nat := 0
  /-- rotation stopped (R115, R116) -/
  stopped : Bool := false
  rotations : BitVec 16 := 0
  /-- the rotation in progress began at position 0 -/
  fromZero : Bool := false
  /-- positions whose suspicion came during a pre-emption, or whose test one cut short: they are tested next -/
  waiting : List Nat := []
  /-- the position whose input the wader takes -/
  cover : Option Nat := none
  /-- the position the wader delivers -/
  standIn : Option Nat := none
  /-- the wader stands in for good (R115) -/
  permanent : Bool := false
  fade : Option Fade := none
  /-- the wader's self-test replaces its next reference measurement (R114 row 4, R117) -/
  waderTestDue : Bool := false
  /-- the strobe count of the first raw sample of the twin window, behind the settling of its connection (R107) -/
  twinFrom : Nat := 0
  /-- a clipped, patched or zero-filled sample fell in the twin window (R113) -/
  windowDirty : Bool := false
  /-- the last twin verification agreed within its limits (R116) -/
  twinAgreed : Bool := true
deriving DecidableEq, Repr

/-- A run of stage-1 values of one quarter marked for repair (R100, R101): its first and last value
index and its first and last missing modulator clock. -/
structure Run where
  first : Nat
  last : Nat
  firstClock : Nat
  lastClock : Nat
  /-- a misaligned lane: zero-filled whatever its length (R101) -/
  lost : Bool
deriving DecidableEq, Repr

/-- One output of decimation stage 1 of a quarter (R90): its index (it is centred on clock 32 × index) and the words of
the fifteen slices. -/
structure StageOne where
  index : Nat
  words : List Nat
deriving DecidableEq, Repr

/-- One causeway receiver (R27, R85–R88, R101, R522), with the head of its quarter's decimator block (R90, R100). -/
structure Lane where
  /-- the latest 125 modulator clocks, newest first: bit 14 slot 0, bit 0 slot 14 (R86) -/
  clocks : List (BitVec 15) := []
  /-- the stage-1 values in the patch hold and those that a raw sample still draws on, newest first -/
  values : List StageOne := []
  /-- the SEQ the next data or message flit must carry -/
  nextSeq : Nat := 0
  /-- the ninth flit of the group is due, a mark flit before SEQ 0 (R87) -/
  ninth : Bool := true
  /-- the strobe count that opens the lane cycle in progress -/
  cycleStrobe : Nat := 0
  aligned : Bool := false
  /-- the first clock not received since alignment was lost -/
  gapFrom : Option Nat := none
  /-- failed flits in the chronicle second in progress (R522) -/
  failedNow : Nat := 0
  /-- the lane test is running, and the failed flits counted up to its start (R522) -/
  testing : Option Nat := none
  /-- lane spare mapped or lane given up (R522, R523) -/
  faulty : Bool := false
  runs : List Run := []
deriving DecidableEq, Repr

/-- A switch message held by the analogue die until its strobe (R89). -/
structure SwitchMsg where
  quarter : Nat
  slice : Nat
  source : SliceSource
  epoch : BitVec 24
deriving DecidableEq, Repr

/-- What one strobe left of the channel stages (R94): the raw sample's strobe count, the selected values of stage C, the
calibrated values before the channel delay filter, and stage E behind it, channel 0 first. -/
structure PastRow where
  strobe : Nat
  selected : List Marked
  calibrated : List Marked
  stageE : List Integrator
deriving DecidableEq, Repr

/-- The sensing array with the causeway. -/
structure Sense where
  /-- modulator clocks since the analogue die left reset: the strobe count in bits [55:8], the clock within the strobe
  in bits [7:0] (R28, R29) -/
  modCount : BitVec 56 := 0
  /-- the strobe count of the next raw sample -/
  nextRaw : Nat := 0
  /-- the strobe count of the next metering sample to reach the engines (R28) -/
  nextStrobe : Nat := 0
  /-- the strobe count s1 of the first valid raw sample of the start (R540) -/
  first : Nat := 0
  /-- the inputs are connected (R112, R540) -/
  connected : Bool := false
  slices : List Slice := List.replicate 60 {}
  channels : List Channel := List.replicate 60 {}
  quarters : List Quarter := List.replicate 4 {}
  /-- sample lanes 0–3, the service lane, the control lane (R20) -/
  lanes : List Lane := List.replicate 6 {}
  /-- the strobes that the channel stages can still be redone for, newest first (R96) -/
  past : List PastRow := []
  switches : List SwitchMsg := []
  /-- switch messages discarded as past (R89) -/
  controlFaults : Nat := 0
  /-- clip bits of the most recent 6,400 strobes, newest first, bit c for channel c (R104) -/
  clipBits : List (BitVec 56) := []
deriving DecidableEq, Repr

end Sys2Proof.Machine
end

