-- ==== Sys2Proof/Machine/PartsLink.lean ====
section
/-! DEFINITION. PartsLink.lean: the state of the host link (chapter "Omrad frames"): ports, frames in
progress, outstanding commands, replies, the reply cache, interrupts, the snapshot and the session.
Every field's default is its value at reset (R39, R40, R54–R56, R68, R71, R72, R74, R76). -/

namespace Sys2Proof.Machine
open Sys2Proof

/-- The port lock (R39, R70). -/
inductive PortLock where
  | none | spi | uart
deriving DecidableEq, Repr

/-- KIND of a reply (R44). -/
inductive ReplyKind where
  | final | accepted | completion
deriving DecidableEq, Repr

/-- The status codes of R60. -/
inductive Status where
  | ok | accepted | busy | badOpcode | badParam | badCheck | isProtected | notFound | aborted
  | alreadyDone | wrongState | fault | timeout | degraded | overflow
deriving DecidableEq, Repr

/-- The three kinds of start (R534). -/
inductive StartKind where
  | cold | warm | limp
deriving DecidableEq, Repr

/-- A reply waiting to be sent or being sent (R44, R45, R57). -/
structure Reply where
  port : Port
  kind : ReplyKind
  retry : Bool := false
  /-- ALERT of R44, as it stands when the reply is queued. -/
  alert : Bool := false
  /-- LIMP of R44, as it stands when the reply is queued. -/
  limp : Bool := false
  tag : Nat
  opcode : Nat
  status : Status
  generation : BitVec 32
  params : Bytes := []
  /-- held in the queue of 16 for frames not accepted as commands (R54) -/
  errorQueue : Bool := false
  /-- its last byte ends the outstanding command of its tag (R55) -/
  ends : Bool := false
  /-- the UART rate code that applies from the first byte after it (R46) -/
  newRate : Option (BitVec 4) := Option.none
  /-- the start that begins after its last byte (R78) -/
  restart : Option StartKind := Option.none
deriving DecidableEq, Repr

/-- What an outstanding long command is waiting for (R61, R79). -/
inductive Work where
  /-- an immediate command whose final reply is on its way -/
  | replied
  /-- a read of billing values that waits for a split-mode takeover to finish (R58) -/
  | heldRead (r : Req) (opcode : Nat) (code : Option (BitVec 12))
  | snapshot (indices : List Nat)
  /-- a LATCH_NOW; `hit` is true from its boundary on -/
  | latchNow (asked : Nat) (hit : Option Nat)
  /-- a CFG_COMMIT; `writing` is true from the start of the slot write -/
  | commit (writing : Bool)
  | archiveRead (tier mode length : Nat) (position : Nat)
  /-- a PIN_SEGMENT: its pin number, the segments it covers, and for a release its span in chronicle seconds -/
  | pinSegment (pin count : Nat) (release : Option (Nat × Nat))
  | audit (service start duration : Nat)
  /-- a ZLINK_SEND; `sent` is true from the start of its first transmission -/
  | zlinkSend (node : Nat) (payload : Bytes) (sent : Bool)
  /-- a SELFTEST of a unit; `able` says that the unit can be tested (R525) -/
  | selftest (unit : Nat) (able : Bool)
  /-- an ABORT held back until its target's completion has been queued (R57, R79) -/
  | abortHeld (target : Nat)
deriving DecidableEq, Repr

/-- An outstanding command (R55): what identifies it (R56) and how far it has come. -/
structure Command where
  port : Port
  tag : Nat
  opcode : Nat
  length : Nat
  check : Nat
  /-- it was answered ACCEPTED: a completion ends it -/
  long : Bool := false
  /-- its ACCEPTED, once that has been sent (R56) -/
  accepted : Option Reply := Option.none
  work : Work
deriving DecidableEq, Repr

/-- An entry of the reply cache (R56). -/
structure Cached where
  tag : Nat
  opcode : Nat
  length : Nat
  check : Nat
  reply : Reply
deriving DecidableEq, Repr

/-- The eight framing counters, in the order of R71. -/
structure Framing where
  uartTimeout : BitVec 16 := 0
  uartByteErr : BitVec 16 := 0
  spiCsDiscard : BitVec 16 := 0
  huntBytes : BitVec 16 := 0
  lengthErr : BitVec 16 := 0
  checkErr : BitVec 16 := 0
  otherPort : BitVec 16 := 0
  noReplyDiscard : BitVec 16 := 0
  /-- FRAMING of the link status byte (R52) -/
  unread : Bool := false
deriving DecidableEq, Repr

/-- The UART receiver (R47, R48): the unstuffed bytes from Sync on, `none` while it hunts. -/
structure UartRx where
  frame : Option Bytes := none
  /-- 0x7D was received and its second byte has not -/
  escape : Bool := false
deriving DecidableEq, Repr

/-- The copied objects of a SNAPSHOT (R74). -/
structure Snapshot where
  generation : BitVec 32
  values : List (Nat × Bytes)
deriving DecidableEq, Repr

/-- A configuration session (R76). -/
structure Session where
  size : Nat
  bytes : Bytes := []
deriving DecidableEq, Repr

/-- The host link. -/
structure Link where
  /-- the host port is open (R40) -/
  portOpen : Bool := false
  lock : PortLock := .none
  uartRx : UartRx := {}
  /-- the bytes that HUART_TX carried with the reply sent last, stuffed (R47); empty after every reset -/
  uartTx : Bytes := []
  /-- UART_RATE (R46, R70) -/
  uartRate : BitVec 4 := 0
  /-- HSPI_CS_N is low (R50) -/
  csLow : Bool := false
  /-- the request frame in progress on HSPI_DI (R51) -/
  spiRx : Option Bytes := none
  /-- the byte on HSPI_DO during the next transfer (R52) -/
  spiOut : Byte := 0
  /-- bytes of the first waiting reply already put on HSPI_DO in this chip-select period (R53) -/
  spiSent : Nat := 0
  outstanding : List Command := []
  replies : List Reply := []
  /-- replies to commands that arrived behind a read which a takeover holds, formed and not yet queued (R57, R58) -/
  behind : List Reply := []
  cache : List Cached := []
  framing : Framing := {}
  /-- interrupt pending bits 1–11 (R68, R69); bit 0 follows the reply queue and is not stored -/
  irqPending : BitVec 12 := 0
  /-- interrupt enable, defaults of R68: REPLY, ALARM, TAKEOVER and START -/
  irqEnable : BitVec 12 := 0x213#12
  /-- the latch generation number (R72) -/
  generation : BitVec 32 := 0
  snapshot : Option Snapshot := none
  session : Option Session := none
deriving DecidableEq, Repr

end Sys2Proof.Machine
end

