-- ==== Sys2Proof/Machine/PartsSys.lean ====
section
/-! DEFINITION. PartsSys.lean: the state of the evidence log, of the tamper pins and integrity watches, of
starts and configuration and of the supplies (chapters "Tamper, integrity and faults", "Start-up and
configuration" and "Balls, supplies and states"). Every field's default is its value at reset. -/

namespace Sys2Proof.Machine
open Sys2Proof

/-- An evidence entry raised and not yet committed (R498, R504, R508, R509). `time` is seconds × 32,768 +
ticks. An extension names the entry it extends; `none` stands for the latest entry of its code. -/
structure Raised where
  time : Nat
  code : Nat
  payload : Bytes := []
  /-- class of the alarm: 0 LOG or none, 1 FLAG, 2 HOLD, 3 SAFE -/
  cls : Nat := 0
  /-- the code is an alarm (R496, R503) -/
  alarm : Bool := false
  ext : Bool := false
  backup : Bool := false
  host : Bool := false
  sub : Nat := 0
  /-- the number of the voltage event whose record waits for this entry's number (R230) -/
  recent : Option Nat := none
deriving DecidableEq, Repr

/-- An alarm pin waiting for its span to pass or for its completion (R500). -/
structure AlarmPin where
  code : Nat
  seq : Nat
  time : Nat
  /-- the request has been handed to the archive, as the pin of this number -/
  asked : Option Nat := none
deriving DecidableEq, Repr

/-- The evidence log (R496–R511, R528). The entries themselves lie in the log region of the store. -/
structure Evidence where
  /-- raised in the command in progress, in the order raised -/
  raised : List Raised := []
  /-- raised and waiting to be committed, in sequence order -/
  queue : List Raised := []
  newest : Nat := 0
  copied : Nat := 0
  overflow : BitVec 32 := 0
  lost : BitVec 32 := 0
  /-- entries lost since the last entry written (R506) -/
  lostNow : Nat := 0
  /-- full SHA-256 of the newest entry (R505) -/
  head : Bytes := List.replicate 32 0
  /-- latched codes (R497) -/
  latched : BitVec 256 := 0
  /-- highest class at which each latched code was latched: code and class -/
  latchedClass : List (Nat × Nat) := []
  /-- sequence number of the latest entry of a latched code (R497) -/
  latest : List (Nat × Nat) := []
  pins : List AlarmPin := []
  pinsHour : Nat := 0
  pinHour : Nat := 0
  /-- LOG_APPENDs taken in the chronicle second, and that second (R511) -/
  appends : Nat := 0
  appendSec : Nat := 0
  /-- SELFTEST result of R528: word, unit, time -/
  lastTest : Bytes := List.replicate 16 0
  /-- a SAFE response is running and the warm start has not begun (R499) -/
  safePending : Bool := false
  /-- its alarm has been committed, or lost: the save and the restart follow the last entry of its edge -/
  safeCommitted : Bool := false
  /-- that save is written: the alarm was not an invalid sluice code (R499) -/
  safeSave : Bool := true
deriving DecidableEq, Repr

/-- One tamper pin (R512, R513, R531, R532), its settings as held in the backup registers. -/
structure TamperPin where
  enable : Bool := false
  activeHigh : Bool := false
  pull : Bool := true
  debounce : Nat := 4
  cls : Nat := 1
  asserted : Bool := false
  assertions : BitVec 16 := 0
  glitches : BitVec 16 := 0
deriving DecidableEq, Repr

/-- The bittern and the integrity watches (R514–R524, R530, R533). -/
structure Integrity where
  lastCount : Nat := 0
  lowCount : Nat := 0
  highCount : Nat := 0
  anyWindow : Bool := false
  /-- consecutive high and low windows, and whether each lay within ±10 % (R515) -/
  highRun : Nat := 0
  lowRun : Nat := 0
  runWide : Bool := false
  /-- WATCH_OSC stands (R516) -/
  watchOsc : Bool := false
  bitternFault : Bool := false
  /-- the digital die is held until 100 windows are good for release (R515): windows so far -/
  holding : Option Nat := none
  /-- the cause register: entry code, window count, watch milliseconds (R515) -/
  cause : Option (Nat × Nat × Nat) := none
  /-- watch-oscillator windows passed since the detection -/
  heldWindows : Nat := 0
  /-- the twelve counters of R530 -/
  counters : List (BitVec 32) := List.replicate 12 0
  /-- spare rows used in each region of R33 (R523) -/
  spares : List Nat := List.replicate 6 0
  /-- the Warden is being tested after a lockstep mismatch (R523) -/
  wardenTesting : Bool := false
  /-- fabric path tests running, oldest first: address and producer -/
  fabricTests : List (Nat × Nat) := []
  /-- rows under test: region and the row's address -/
  rowTests : List (Nat × Nat) := []
deriving DecidableEq, Repr

/-- The conditions of R584 with a start's own phases. -/
inductive Phase where
  /-- the digital die has no supply: Unpowered or Backup only -/
  | unpowered
  /-- In reset; the next release begins a start -/
  | inReset
  | starting
  | running
  /-- retry pending (R544) -/
  | failed
deriving DecidableEq, Repr

/-- The states of the configuration commit machine (R518, R563). -/
inductive CommitState where
  | idle | checking | writing | pending | applying
deriving DecidableEq, Repr

/-- The SOURCE of the configuration in force (R563). -/
inductive CfgSource where
  | slotA | slotB | factory
deriving DecidableEq, Repr

/-- A configuration: the entries of its image (index and value, ascending), its sequence number and
where it came from (R552–R557). -/
structure Configuration where
  entries : List (Nat × Bytes) := []
  seq : BitVec 32 := 0
  source : CfgSource := .factory
  load : Nat := 0
deriving DecidableEq, Repr

/-- What waits for the first latch boundary after a strobe count (R25, R547, R556): a committed image, or units that a limp
release names. -/
structure Pended where
  image : Option Configuration := none
  release : BitVec 5 := 0
  strobe : Nat
deriving DecidableEq, Repr

/-- A recorded failure (R543, R566). -/
structure Failure where
  sec : Nat
  cause : Nat
  kind : StartKind
deriving DecidableEq, Repr

/-- A configuration whose latch boundary is fixed (R25, R167): the configuration, the strobe count of the boundary, and
the units of a limp start released there (R547). -/
structure Applying where
  config : Configuration
  bound : Nat
  release : BitVec 5 := 0
deriving DecidableEq, Repr

/-- Starts and configuration (R534–R568). -/
structure Start where
  phase : Phase := .inReset
  kind : StartKind := .cold
  cause : Nat := 0
  startCount : BitVec 64 := 0
  /-- the kind and cause the next release of reset takes, when an event fixed them (R534) -/
  next : Option (StartKind × Nat) := none
  /-- a start was cut short before billing ready while cold (R535) -/
  coldCut : Bool := true
  releaseSec : Nat := 0
  releaseTick : Nat := 0
  /-- milestone times of R565, 0xFFFFFFFF while not reached -/
  firstEnergy : Nat := 0xFFFFFFFF
  billingReady : Nat := 0xFFFFFFFF
  mounted : Nat := 0xFFFFFFFF
  firstBeacon : Nat := 0xFFFFFFFF
  wardenReady : Bool := false
  /-- the first energy sample of the start has been accumulated (R538, R550) -/
  energyBegun : Bool := false
  billing : Bool := false
  /-- the boundary that closes the lead-in, once it is known (R538) -/
  leadBoundary : Option Nat := none
  failures : List Failure := []
  limp : Bool := false
  limpLevel : Nat := 0
  /-- HELD of R563: load control, auxiliary, recording, analysis, power line -/
  heldMask : BitVec 5 := 0
  config : Configuration := {}
  /-- images and released units that wait for a latch boundary, oldest first -/
  pending : List Pended := []
  /-- the configurations whose boundaries are fixed and not yet reached by the reckoned samples, oldest first -/
  applying : List Applying := []
  commit : CommitState := .idle
  /-- the image of the CFG_COMMIT in progress, as its session gathered it (R554) -/
  committing : Bytes := []
  /-- the slot that it is being written into, once the write has begun (R555) -/
  commitSlot : Nat := 0
  cfgDefaulted : Bool := false
  calDefaulted : Bool := false
  /-- STATE of R568 and the patch's header fields -/
  patchState : Nat := 0
  patchRev : Nat := 0
  patchLength : Nat := 0
  /-- recovery at this start (R453, R454): resume point, and whether one was made -/
  resumeSec : Nat := 0
  resumeTick : Nat := 0
  recovered : Bool := false
  /-- outputs whose origin moves at the first reckoned sample of this start (R177) -/
  originMoves : List Nat := []
  /-- the restart before this start found the store blocked, so that its failure is recorded here (R499, R518, R543) -/
  unrecorded : Bool := false
  /-- main power has been lost since the first energy sample of an earlier start (R454) -/
  mainLost : Bool := false
  /-- the instant, in µs of strobe time, at which the retry of a failed start is due (R544, R548) -/
  retryAt : Nat := 0
  oscStoppedAtStart : Bool := false
  porAtStart : Bool := false
deriving DecidableEq, Repr

/-- The supplies and reset pins (R572–R580). -/
structure Power where
  /-- RESET_N is high -/
  resetN : Bool := true
  /-- the supply-fail warning stands (R575) -/
  warning : Bool := false
deriving DecidableEq, Repr

end Sys2Proof.Machine
end

