-- ==== Sys2Proof/Machine/PartsTime.lean ====
section
/-! DEFINITION. PartsTime.lean: the state of the auxiliary converters, the persistent store and the backup
domain (chapters "Auxiliary converter unit", "Persistent store" and "Timekeeping and the backup domain").
Every field's default is its value at reset. -/

namespace Sys2Proof.Machine
open Sys2Proof

/-! ### Auxiliary converters -/

/-- STATE of a converter (R437). -/
inductive ConvState where
  | stopped | waiting | converting | delay | heldOff
deriving DecidableEq, Repr

/-- The result whose last cycle was in progress when its converter stopped (R427, R437): it still completes. -/
structure LastResult where
  entry : Nat
  word : Nat
  /-- the word of C1's entry in paired mode -/
  pairWord : Option Nat
  codes : Nat
  /-- the converter clock at which its last cycle ends -/
  last : Nat
  bad : Bool
deriving DecidableEq, Repr

/-- One auxiliary converter (R414–R421, R436, R437). -/
structure Converter where
  state : ConvState := .stopped
  table : List Nat := List.replicate 64 0xF8000000
  entry : Nat := 0
  /-- results done in the entry -/
  done : Nat := 0
  pendingTrig : Bool := false
  overrun : Bool := false
  /-- the pass disagrees with the alignment message: every result is BAD (R425) -/
  badPass : Bool := false
  /-- entry 0 has begun, and neither its alignment message nor a result has come since (R425) -/
  begun : Bool := false
  /-- the result that a stop leaves to complete -/
  closing : Option LastResult := none
  /-- the converter clock at which the next cycle of the entry, or after a delay the next entry, begins (R410) -/
  clock : Nat := 0
  /-- clocks by which urgent conversions shift the result in progress, and what follows it (R421) -/
  extra : Nat := 0
  gap : Nat := 0
  /-- the converter clock until which an urgent conversion runs -/
  busy : Nat := 0
  /-- aux time at which a trigger whose event has occurred acts, oldest first (R418) -/
  due : List Nat := []
  cycles : BitVec 32 := 0
  taken : BitVec 32 := 0
  late : BitVec 32 := 0
  overruns : BitVec 32 := 0
deriving DecidableEq, Repr

/-- State of a window comparator (R424). -/
inductive CompState where
  | unknown | inside | outside
deriving DecidableEq, Repr

/-- One window comparator (R424, R433). -/
structure Comparator where
  low : Nat := 0
  high : Nat := 0xFFFF
  hyst : Nat := 0
  enable : Bool := false
  log : Bool := false
  state : CompState := .unknown
  fired : Bool := false
  count : BitVec 32 := 0
deriving DecidableEq, Repr

/-- The auxiliary converter unit (R410–R437). -/
structure Aux where
  loaded : Bool := false
  converters : List Converter := List.replicate 2 {}
  periods : List Nat := [0, 0]
  /-- the aux times at which the timers fire next (R418) -/
  fires : List Nat := [0, 0]
  comparators : List Comparator := List.replicate 8 {}
  /-- tagged words, oldest first, at most 256 (R423) -/
  queue : List Nat := []
  /-- words lost since the queue last had space, and QUEUE_LOST -/
  lost : Nat := 0
  queueLost : Bool := false
  /-- the latest word and its aux time for channel codes 0–28 (R431) -/
  last : List (Nat × Nat) := List.replicate 29 (0, 0)
  /-- aux time in µs (R411) -/
  auxTime : BitVec 48 := 0
deriving DecidableEq, Repr

/-! ### Persistent store -/

/-- One page write waiting for the page buffer or held in it (R439): page, offset and the bytes overlaid. -/
structure PageWrite where
  page : Nat
  offset : Nat
  data : Bytes
deriving DecidableEq, Repr

/-- The persistent store (R438–R461). `cells` outlives every reset and the loss of every supply. -/
structure Store where
  /-- the array, in the canonical form of `Memory.wf` -/
  cells : List Host.Cell := []
  /-- page writes not yet committed, oldest first; the first is the page buffer -/
  waiting : List PageWrite := []
  /-- the page in the buffer was there when the supply-fail warning came: its commit completes (R440) -/
  firm : Bool := false
  /-- LEVEL (R446, R447) -/
  level : BitVec 2 := 0
  saveState : BitVec 2 := 0
  source : BitVec 3 := 0
  unbounded : Bool := false
  scrubPage : BitVec 13 := 0
  passes : BitVec 16 := 0
  /-- pages committed, periodic saves, power-down saves, weak bytes, failing slots, fallbacks,
  protected writes, writes refused under R441 (R460) -/
  counters : List (BitVec 32) := List.replicate 8 0
  lastSave : Bytes := List.replicate 24 0
  lastRecovery : Bytes := List.replicate 48 0
  /-- S_MAX of each service, µVA (R449) -/
  smax : List Nat := List.replicate 16 0
  /-- the chronicle second, a multiple of the save period, at which a periodic save fell due (R448, R615) -/
  saveDue : Option Nat := none
  /-- the latch whose publication the due save follows, and S_MAX as that save states it (R448, R449) -/
  saveOf : Option (Capture × List Nat) := none
  /-- store idle until the next start (R451 step 6) -/
  closed : Bool := false
deriving DecidableEq, Repr

/-! ### Backup domain and time -/

/-- A chronicle pair (R29). -/
structure Pair where
  sec : Nat
  strobe : Nat
  clock : Nat
deriving DecidableEq, Repr

/-- A time step (R472): samples at or after its strobe take their time from the new seconds. -/
structure TimeStep where
  oldSec : Nat
  oldTick : Nat
  newSec : Nat
  strobe : Nat
  clock : Nat
deriving DecidableEq, Repr

/-- The seven calendar fields, raw (R467). -/
structure Calendar where
  seconds : BitVec 7 := 0
  minutes : BitVec 7 := 0
  hours : BitVec 6 := 0
  weekday : BitVec 3 := 6
  day : BitVec 6 := 1
  month : BitVec 5 := 1
  year : BitVec 8 := 0
deriving DecidableEq, Repr

/-- An entry of the backup evidence buffer (R481, R494). -/
structure BackupEntry where
  sec : Nat
  tick : Nat
  code : Nat
  cls : Nat
  sub : Nat
  data : Nat
deriving DecidableEq, Repr

/-- A switch-over time (R480). -/
structure Switchover where
  valid : Bool := false
  sec : Nat := 0
  tick : Nat := 0
deriving DecidableEq, Repr

/-- The shadow copy a read sequence returns (R474). -/
structure Shadow where
  sec : Nat
  tick : Nat
  calendar : Calendar
  oscStopped : Bool
  halt : Bool
deriving DecidableEq, Repr

/-- The backup domain (R462–R495): it keeps its state across every reset of the digital die. -/
structure Backup where
  sec : BitVec 48 := 0
  tick : BitVec 15 := 0
  calendar : Calendar := {}
  /-- the calendar value to be taken at the next second (R471) -/
  calendarLoad : Option Calendar := none
  oscStopped : Bool := true
  /-- the crystal itself stands still (R479) -/
  crystalStopped : Bool := false
  halt : Bool := false
  batLow : Bool := false
  bkpPor : Bool := true
  onBattery : Bool := false
  /-- compensation curve in the backup registers and its TRIM (R475) -/
  curve : Option (List Int × Int) := none
  /-- a curve written while a measurement is due, copied behind it (R485) -/
  curveNext : Option (List Int × Int) := none
  /-- the measurement of the present second, a multiple of 32, has not been made yet (R476) -/
  measureDue : Bool := true
  /-- A, C, T and VBAT of R476, R493 -/
  accumA : Int := 0
  corrC : Int := 0
  temp : Int := 0
  vbat : Nat := 0
  measured : Bool := false
  /-- tick adjustments of this 32 s still to be made: positive add, negative remove (R476) -/
  adjust : Int := 0
  /-- the measurement from whose time they are spread, in ticks, and how many it gave in all (R476) -/
  adjustFrom : Nat := 0
  adjustTotal : Nat := 0
  /-- the time in ticks of the last adjustment or TIME_SET, behind which 128 ticks stay free of adjustments (R476, R485) -/
  adjusted : Nat := 0
  shadow : Option Shadow := none
  wake : Bool := false
  /-- the chronicle pair captured at the latest second and not yet sent to the digital die (R29) -/
  pairOut : Option Pair := none
  /-- settings held in the backup registers (R488) -/
  wakePeriod : Nat := 0
  wakeOnTick : Bool := false
  wakeOnAlarm : Bool := true
  wakeHold : Nat := 0
  /-- the time in ticks of the last event that asserted WAKE (R478) -/
  wakeSince : Nat := 0
  /-- class of each event of R481, as the configuration in force gives it: pins 0–3 asserted, released, BAT_LOW,
  OSC_RESTART -/
  classes : List Nat := [1, 1, 1, 1, 0, 1, 0]
  previous : Switchover := {}
  current : Switchover := {}
  buffer : List BackupEntry := []
  overflow : BitVec 8 := 0
  ram : Bytes := List.replicate 128 0
deriving DecidableEq, Repr

/-- The digital die's view of time. -/
structure TimeKeep where
  /-- the two latest chronicle pairs, newest first (R30) -/
  pairs : List Pair := []
  /-- time steps that samples may still straddle (R472) -/
  steps : List TimeStep := []
  /-- the entries transferred at the last start (R494) and their counts (R487) -/
  transferred : List BackupEntry := []
  transferredOverflow : Nat := 0
  lastCalendarWrite : Bytes := List.replicate 8 0
  lastRamWrite : Bytes := List.replicate 68 0
deriving DecidableEq, Repr

end Sys2Proof.Machine
end

