-- ==== Sys2Proof/Machine/State.lean ====
section
/-! DEFINITION. State.lean: the state of the block as plain data, its reset value, and the reasons a step
can stop. -/

namespace Sys2Proof.Machine
open Sys2Proof

/-- The ordering codes of R1. -/
inductive Part where
  | pax | pa | a
deriving DecidableEq, Repr

/-- Reasons for which a step could fault. The spec gives every command an effect, so one reason is kept
for a queue that is not this block's; no meaning raises it (safe: nothing is proved from it). -/
inductive Fault where
  /-- raised by no meaning, since every command answers a next state (safe) -/
  | none
deriving DecidableEq, Repr

/-- Reasons for which a step refuses a command. -/
inductive Refusal where
  /-- the command has no meaning in the model yet; raised by its arm of `exec` (safe: the run stops) -/
  | notModelled (mnemonic : String)
deriving DecidableEq, Repr

/-- The whole state of the KQ4856. -/
structure State where
  /-- commands waiting, first in first out (the block's own queue of commands) -/
  pending : List Instr := []
  /-- a counter that each use of a free value advances (a field of the model, not of the spec) -/
  free : Nat := 0
  /-- ordering code and stepping (R1, R7) -/
  part : Part := .pax
  stepLetter : BitVec 4 := 1
  stepDigit : BitVec 4 := 0
  link : Link := {}
  sense : Sense := {}
  billing : Billing := {}
  xa : Xa := {}
  recording : Recording := {}
  archive : Archive := {}
  engines : Engines := {}
  sluice : Sluice := {}
  line : Line := {}
  net : Net := {}
  aux : Aux := {}
  store : Store := {}
  backup : Backup := {}
  time : TimeKeep := {}
  evidence : Evidence := {}
  tamper : List TamperPin := List.replicate 4 {}
  integrity : Integrity := {}
  start : Start := {}
  power : Power := {}
deriving DecidableEq, Repr

/-- The block as it stands in reset after its first power-up: nothing has been released, the queue is
empty, and every part holds its value at reset. -/
def State.reset : State := {}

end Sys2Proof.Machine
end

