-- ==== Sys2Proof/Machine/Image.lean ====
section
/-! DEFINITION. Image.lean: the settings members an image may set with their defaults (R553 and the tables of
the chapters), the configuration in force as a view from index to value, and the fields of the settings. -/

namespace Sys2Proof.Machine
open Sys2Proof

/-! ### Object indices (R12) -/

/-- The index of a member: class, instance, member (R12). -/
def idx (cls inst mem : Nat) : Nat := cls * 4096 + inst * 64 + mem

/-- CLASS of an index. -/
def idxClass (i : Nat) : Nat := field 15 12 i

/-- INSTANCE of an index. -/
def idxInst (i : Nat) : Nat := field 11 6 i

/-- MEMBER of an index. -/
def idxMem (i : Nat) : Nat := field 5 0 i

/-! ### Units fitted (R1, R3) -/

/-- Extended analysis is fitted. -/
def Part.fitXa : Part → Bool
  | .pax => true
  | .pa => false
  | .a => true

/-- The power-line unit is fitted. -/
def Part.fitZlk : Part → Bool
  | .pax => true
  | .pa => true
  | .a => false

/-- The unit of an index is fitted by the ordering code: class 0 instances 1 and 8–63 belong to extended
analysis (R223), class 5 to the power-line unit, and the balance settings need both (R404). The last audit result, 0x4043,
counts to the recording and stays readable where the replay audit is not fitted: R266 names no code without it, unlike R223
and R404 (DESIGN CHOICE, log entry 194). -/
def fitted (p : Part) (i : Nat) : Bool :=
  if idxClass i = 0 && (idxInst i = 1 || 8 ≤ idxInst i) then p.fitXa
  else if idxClass i = 5 then p.fitZlk && (i != 0x5042 || p.fitXa)
  else true

/-! ### Defaults -/

/-- The default of the settings member `i` in its own table; `none` where the index is no member that an
image may set (R553). The length is the member's size. -/
def cfgDefault (i : Nat) : Option Bytes :=
  let c := idxClass i
  let n := idxInst i
  let m := idxMem i
  if c = 1 then
    if m = 1 then
      if n < 48 then some (leBytes 4 0xA0000000) else if n < 56 then some (leBytes 4 0x80000000) else none
    else if m = 2 && n < 56 then some (zeros 2) else none
  else if c = 2 then
    if 16 ≤ n then none
    else if m = 1 then some (leBytes 4 0x4C800000)
    else if m = 3 then some (zeros 24)
    else if m = 12 then some (zeros 8) else none
  else if c = 3 then
    if m = 1 && n < 8 then some (leBytes 8 (30 * 2 ^ 37 + 10000 * 2 ^ 17))
    else if m = 1 && (n = 8 || n = 10) then some (leBytes 4 (10 * 2 ^ 26 + 2 * 2 ^ 22)) else none
  else if i = 0x000A then some (leBytes 4 0x00908100)
  else if i = 0x0041 then some (leBytes 8 0x30)
  else if i = 0x0042 then some (zeros 8)
  else if i = 0x0043 then some (tabBytes 8 (fun _ => leBytes 4 353553 ++ [90, 110, 5, 50]))
  else if i = 0x0044 then some (leBytes 4 0xE28A0000)
  else if i = 0x4001 then
    some (leBytes 8 (16 * 2 ^ 57 + 32 * 2 ^ 50 + 8 * 2 ^ 43 + 8 * 2 ^ 36 + 2 ^ 33))
  else if i = 0x4041 then some (leBytes 4 (8 * 2 ^ 28 + 2 ^ 24))
  else if i = 0x5001 then some (leBytes 4 (2 * 2 ^ 20 + 633 * 2 ^ 10 + 740))
  else if i = 0x5041 then some (leBytes 8 (2 ^ 48 + 2 ^ 39 + 7 * 2 ^ 36))
  else if i = 0x5042 then some (zeros 4)
  else if i = 0x6011 then some (zeros 8)
  else if i = 0x6012 then some (tabBytes 8 (fun _ => leBytes 8 0xFFFF0000))
  else if i = 0x6021 || i = 0x6029 then some (zeros 4)
  else if i = 0x6022 || i = 0x602A then some (tabBytes 64 (fun _ => leBytes 4 0xF8000000))
  else if i = 0x7001 then some (leBytes 8 0x40000000)
  else if i = 0x8001 then some (leBytes 4 (15 * 2 ^ 26))
  else if i = 0x9003 then some (zeros 32)
  else if i = 0x9041 then some (tabBytes 4 (fun _ => leBytes 2 0x2440))
  else none

/-! ### Units held off in a limp start (R546, R563 HELD) -/

/-- The bit of HELD that the unit of an index has: load control 0, auxiliary 1, recording and archive 2,
extended analysis 3, power line 4. -/
def heldBit (i : Nat) : Option Nat :=
  match idxClass i with
  | 0 => if idxInst i = 1 || 8 ≤ idxInst i then some 3 else none
  | 3 => if 8 ≤ idxInst i && idxInst i < 12 then some 0 else none
  | 4 => some 2
  | 5 => some 4
  | 6 => some 1
  | _ => none

/-- The unit of an index is held off under the mask. -/
def heldIn (mask i : Nat) : Bool :=
  match heldBit i with
  | some b => bit b mask
  | none => false

/-! ### The configuration as a view -/

/-- What a configuration makes of every settings member: index to value. -/
abbrev View := Nat → Bytes

/-- The entry of an index. -/
def entryOf (es : List (Nat × Bytes)) (i : Nat) : Option Bytes := (es.find? (fun e => e.1 == i)).map (·.2)

/-- The view that the entries of an image give: an entry where there is one, else the member's default
(R553); the settings of a held unit read their defaults (R546). -/
def viewOf (es : List (Nat × Bytes)) (mask : Nat) : View := fun i =>
  let d := (cfgDefault i).getD []
  if heldIn mask i then d else (entryOf es i).getD d

/-- The configuration in force. -/
def State.view (s : State) : View := viewOf s.start.config.entries s.start.heldMask.toNat

/-- A settings member as a number. -/
def View.num (v : View) (i : Nat) : Nat := leNat (v i)

/-! ### Interval settings (R190) -/

/-- Cycles of the pacing bus per latch interval. -/
def View.latchN (v : View) : Nat := field 31 20 (v.num 0x000A) + 1

/-- The pacing bus. -/
def View.latchBus (v : View) : Nat := field 19 17 (v.num 0x000A)

/-- Minutes of a length code shared by DEMAND_SUB (R190) and PROFILE (R267). -/
def minutesOf (code : Nat) : Nat := [1, 2, 3, 4, 5, 6, 10, 12, 15, 20, 30, 60].getD code 60

/-- DEMAND_METHOD is sliding. -/
def View.demandSliding (v : View) : Bool := bit 16 (v.num 0x000A)

/-- The sub-interval in seconds. -/
def View.demandSub (v : View) : Nat := 60 * minutesOf (field 15 12 (v.num 0x000A))

/-- DEMAND_K. -/
def View.demandK (v : View) : Nat := field 11 8 (v.num 0x000A)

/-! ### Channels (R122, R123) -/

/-- ENABLE of a channel. -/
def View.chanOn (v : View) (c : Nat) : Bool := bit 31 (v.num (idx 1 c 1))

/-- SENSOR of a channel. -/
def View.chanSensor (v : View) (c : Nat) : Nat := field 30 28 (v.num (idx 1 c 1))

/-- FNOM of a channel in Hz. -/
def View.chanFnom (v : View) (c : Nat) : Nat := if bit 27 (v.num (idx 1 c 1)) then 60 else 50

/-- The binding member of a channel. -/
def View.bindingOf (v : View) (c : Nat) : Nat := v.num (idx 1 c 2)

/-- A current channel is bound to an element. -/
def View.bound (v : View) (c : Nat) : Bool := bit 15 (v.bindingOf c)

/-- The bus of voltage channel `u`, 0–7. -/
def View.busOf (v : View) (u : Nat) : Nat := field 2 0 (v.bindingOf (48 + u))

/-- The current channel of element `e` of service `n`. -/
def View.current (v : View) (n e : Nat) : Option Nat :=
  (List.range 48).find? (fun c =>
    let b := v.bindingOf c
    bit 15 b && field 9 6 b == n && field 5 4 b == e)

/-- The voltage channel (0–7) of element `e` of service `n`. -/
def View.volt (v : View) (n e : Nat) : Option Nat := (v.current n e).map (fun c => field 2 0 (v.bindingOf c))

/-- The enabled voltage channels (0–7) of a bus, ascending. -/
def View.busChans (v : View) (b : Nat) : List Nat :=
  (List.range 8).filter (fun u => v.chanOn (48 + u) && v.busOf u == b)

/-- The nominal frequency of a bus (R143): the FNOM of its voltage channels, 50 Hz where it holds none. -/
def View.busFnom (v : View) (b : Nat) : Nat :=
  match v.busChans b with
  | u :: _ => v.chanFnom (48 + u)
  | [] => 50

/-! ### Services (R126, R154, R193) -/

/-- ENABLE of a service. -/
def View.svcOn (v : View) (n : Nat) : Bool := bit 31 (v.num (idx 2 n 1))

/-- APPARENT: vector when true. -/
def View.svcVector (v : View) (n : Nat) : Bool := bit 30 (v.num (idx 2 n 1))

/-- NETTING. -/
def View.svcNetting (v : View) (n : Nat) : Bool := bit 29 (v.num (idx 2 n 1))

/-- QUANTUM. -/
def View.svcQuantum (v : View) (n : Nat) : Nat := field 28 26 (v.num (idx 2 n 1))

/-- START. -/
def View.svcStart (v : View) (n : Nat) : Nat := field 25 22 (v.num (idx 2 n 1))

/-- INVERT of element `e`. -/
def View.svcInvert (v : View) (n e : Nat) : Bool := bit (19 + e) (v.num (idx 2 n 1))

/-- IFS of element `e`, mA (R126). -/
def View.ifs (v : View) (n e : Nat) : Nat := getU (v (idx 2 n 3)) (8 * e) 4

/-- VFS of element `e`, mV (R126). -/
def View.vfs (v : View) (n e : Nat) : Nat := getU (v (idx 2 n 3)) (8 * e + 4) 4

/-- Elements of a service, as many as its channels name. -/
def View.elements (v : View) (n : Nat) : List Nat := (List.range 3).filter (fun e => (v.current n e).isSome)

/-- The bus of a service (R22). -/
def View.svcBus (v : View) (n : Nat) : Option Nat :=
  match v.elements n with
  | e :: _ => (v.volt n e).map v.busOf
  | [] => none

/-- The quantum as a power of ten of 1 µWh (R154). -/
def View.quantumExp (v : View) (n : Nat) : Nat := v.svcQuantum n

/-- LIMIT, RELAY and LIMIT_QTY (R193). -/
def View.limit (v : View) (n : Nat) : Nat := getU (v (idx 2 n 12)) 0 4

/-- RELAY of R193. -/
def View.limitRelay (v : View) (n : Nat) : Nat := getU (v (idx 2 n 12)) 4 1

/-- LIMIT_QTY of R193. -/
def View.limitQty (v : View) (n : Nat) : Nat := getU (v (idx 2 n 12)) 5 1

/-! ### Outputs (R196, R199) -/

/-- Settings of a pulse output. -/
def View.po (v : View) (n : Nat) : Nat := v.num (idx 3 n 1)

/-- SERVICES of a pulse output holds a service. -/
def View.poHas (v : View) (n svc : Nat) : Bool := bit (48 + svc) (v.po n)

/-- The services of a pulse output's mask. -/
def View.poServices (v : View) (n : Nat) : List Nat := (List.range 16).filter (v.poHas n)

/-- QUANTITY. -/
def View.poQty (v : View) (n : Nat) : Nat := field 47 44 (v.po n)

/-- WIDTH in ms. -/
def View.poWidth (v : View) (n : Nat) : Nat := field 43 37 (v.po n)

/-- CONSTANT in imp/kWh. -/
def View.poConstant (v : View) (n : Nat) : Nat := field 36 17 (v.po n)

/-- The numerator of W = 1,000 / (C × q), q in units of 10 nWh · 100: W = num / C (R170). -/
def View.weightNum (v : View) (n : Nat) : Nat :=
  match v.poServices n with
  | svc :: _ => 10 ^ (9 - v.svcQuantum svc)
  | [] => 0

/-- W of an output (R170), 0 while it is off. -/
def View.weight (v : View) (n : Nat) : Nat :=
  if v.poQty n = 0 || v.poConstant n = 0 then 0 else v.weightNum n / v.poConstant n

/-- MODE level of a load-control pair. -/
def View.lcLevel (v : View) (pair : Nat) : Bool := bit 31 (v.num (idx 3 (8 + 2 * pair) 1))

/-- COIL in ms. -/
def View.lcCoil (v : View) (pair : Nat) : Nat := 10 * field 30 26 (v.num (idx 3 (8 + 2 * pair) 1))

/-- GUARD in s. -/
def View.lcGuard (v : View) (pair : Nat) : Nat := field 25 22 (v.num (idx 3 (8 + 2 * pair) 1))

/-! ### Extended analysis (R226–R229) -/

/-- A channel is analysed. -/
def View.analysed (v : View) (c : Nat) : Bool := bit (8 + c) (v.num 0x0041)

/-- The highest order H. -/
def View.order (v : View) : Nat := [63, 50, 40, 25].getD (field 7 6 (v.num 0x0041)) 63

/-- HARM_KIND: subgroup when true. -/
def View.harmSubgroup (v : View) : Bool := bit 5 (v.num 0x0041)

/-- IH_KIND: centred subgroup when true. -/
def View.ihSubgroup (v : View) : Bool := bit 4 (v.num 0x0041)

/-- FLK_MASK of Un. -/
def View.flicker (v : View) (u : Nat) : Bool := bit (56 + u) (v.num 0x0042)

/-- EVT_MASK of Un. -/
def View.watched (v : View) (u : Nat) : Bool := bit (48 + u) (v.num 0x0042)

/-- LAMP of Un: 120 V when true. -/
def View.lamp (v : View) (u : Nat) : Bool := bit (40 + u) (v.num 0x0042)

/-- REF_SLIDING of a bus. -/
def View.refSliding (v : View) (b : Nat) : Bool := bit (32 + b) (v.num 0x0042)

/-- UDIN of a bus, µV. -/
def View.udin (v : View) (b : Nat) : Nat := getU (v 0x0043) (8 * b) 4

/-- SAG_TH, SWELL_TH, INT_TH and RVC_TH of a bus. -/
def View.sagTh (v : View) (b : Nat) : Nat := getU (v 0x0043) (8 * b + 4) 1

/-- SWELL_TH of a bus. -/
def View.swellTh (v : View) (b : Nat) : Nat := getU (v 0x0043) (8 * b + 5) 1

/-- INT_TH of a bus. -/
def View.intTh (v : View) (b : Nat) : Nat := getU (v 0x0043) (8 * b + 6) 1

/-- RVC_TH of a bus. -/
def View.rvcTh (v : View) (b : Nat) : Nat := getU (v 0x0043) (8 * b + 7) 1

/-- PIN_KINDS holds a kind: 3 dip, 2 swell, 1 interruption, 0 rapid voltage change. -/
def View.pinKind (v : View) (k : Nat) : Bool := bit (28 + k) (v.num 0x0044)

/-- PIN_PRE in s. -/
def View.pinPre (v : View) : Nat := field 27 22 (v.num 0x0044)

/-- PIN_POST in s. -/
def View.pinPost (v : View) : Nat := field 21 16 (v.num 0x0044)

/-! ### Recording and archive (R267, R304) -/

/-- The profile interval in seconds. -/
def View.profile (v : View) : Nat := 60 * minutesOf (field 31 28 (v.num 0x4041))

/-- NEAR_K. -/
def View.nearK (v : View) : Nat := field 27 25 (v.num 0x4041)

/-- SEEP_ON. -/
def View.seepOn (v : View) : Bool := bit 24 (v.num 0x4041)

/-- AUDIT_ON. -/
def View.auditOn (v : View) : Bool := bit 23 (v.num 0x4041)

/-- The quota of a tier in sixty-fourths: 0 seep, 1 pool, 2 peat, 3 pinned. -/
def View.quota (v : View) (tier : Nat) : Nat :=
  match tier with
  | 0 => field 63 57 (v.num 0x4001)
  | 1 => field 56 50 (v.num 0x4001)
  | 2 => field 49 43 (v.num 0x4001)
  | 3 => field 42 36 (v.num 0x4001)
  | _ => 0

/-- XSPI_DDR. -/
def View.xspiDdr (v : View) : Bool := bit 33 (v.num 0x4001)

/-! ### Power line (R369, R406, R407) -/

/-- ZL_ENABLE. -/
def View.zlOn (v : View) : Bool := bit 31 (v.num 0x5001)

/-- ZL_MODE: two-tone when true. -/
def View.zlTwoTone (v : View) : Bool := bit 30 (v.num 0x5001)

/-- SFSK_RATE: 300, 600, 1,200 or 2,400 bit/s at 50 Hz. -/
def View.sfskRate (v : View) : Nat := field 21 20 (v.num 0x5001)

/-- ZL_BUS. -/
def View.zlBus (v : View) : Nat := field 29 27 (v.num 0x5001)

/-- NET_ID. -/
def View.netId (v : View) : Nat := field 63 48 (v.num 0x5041)

/-- NODES_EXPECTED. -/
def View.nodesExpected (v : View) : Nat := field 47 40 (v.num 0x5041)

/-- JOIN_ENABLE. -/
def View.joinOn (v : View) : Bool := bit 39 (v.num 0x5041)

/-- MAX_HOPS. -/
def View.maxHops (v : View) : Nat := field 38 36 (v.num 0x5041)

/-- BAL_ENABLE. -/
def View.balOn (v : View) : Bool := bit 31 (v.num 0x5042)

/-- BAL_FEED holds a service. -/
def View.feeds (v : View) (n : Nat) : Bool := bit n (v.num 0x5042)

/-! ### Auxiliary converters (R433, R436) -/

/-- PERIOD_k. -/
def View.auxPeriod (v : View) (k : Nat) : Nat := getU (v 0x6011) (4 * k) 4

/-- Settings of converter `k`. -/
def View.aux (v : View) (k : Nat) : Nat := v.num (0x6021 + 8 * k)

/-- RUN. -/
def View.auxRun (v : View) (k : Nat) : Bool := bit 31 (v.aux k)

/-- PAIRED, valid in C0 only. -/
def View.auxPaired (v : View) : Bool := bit 30 (v.aux 0)

/-- Conversions per result, 1 to 16. -/
def View.auxOsr (v : View) (k : Nat) : Nat := 2 ^ field 29 27 (v.aux k)

/-- TRIG_SRC. -/
def View.auxTrig (v : View) (k : Nat) : Nat := field 26 21 (v.aux k)

/-- TRIG_DELAY in µs. -/
def View.auxDelay (v : View) (k : Nat) : Nat := field 15 0 (v.aux k)

/-! ### Time, store and evidence (R459, R488, R529, R531) -/

/-- WAKE_PERIOD in units of 1/256 s. -/
def View.wakePeriod (v : View) : Nat := field 63 32 (v.num 0x7001)

/-- WAKE_ON_TICK. -/
def View.wakeOnTick (v : View) : Bool := bit 31 (v.num 0x7001)

/-- WAKE_ON_ALARM. -/
def View.wakeOnAlarm (v : View) : Bool := bit 30 (v.num 0x7001)

/-- WAKE_HOLD in s. -/
def View.wakeHold (v : View) : Nat := field 29 24 (v.num 0x7001)

/-- SAVE_PERIOD in minutes. -/
def View.savePeriod (v : View) : Nat := field 31 26 (v.num 0x8001)

/-- The alarm response entry of a code: class and action (R529); code 0x00 is an unused entry. -/
def View.response (v : View) (code : Nat) : Option (Nat × Nat) :=
  ((List.range 8).find? (fun k => code != 0 && getU (v 0x9003) (4 * k) 1 == code)).map
    (fun k => (getU (v 0x9003) (4 * k + 1) 1, getU (v 0x9003) (4 * k + 2) 1))

/-- The settings of a tamper pin (R531). -/
def View.tamper (v : View) (n : Nat) : Nat := getU (v 0x9041) (2 * n) 2

/-- The tamper pins as the configuration sets them, keeping what they hold. -/
def View.tamperPin (v : View) (n : Nat) (t : TamperPin) : TamperPin :=
  let w := v.tamper n
  { t with enable := bit 15 w, activeHigh := bit 14 w, pull := bit 13 w, debounce := field 11 8 w, cls := field 7 6 w }

/-! ### Energy weights (R127) -/

/-- K_e in UQ16.48: VFS × IFS / (57,600 × 10^9 × q), rounded to nearest, half to even; q = 10^QUANTUM µWh. -/
def energyWeight (vfs ifs quantum : Nat) : Nat :=
  (roundEven ((vfs * ifs * 10 ^ 6 * 2 ^ 48 : Nat) : Int) (57600 * 10 ^ 9 * 10 ^ quantum)).toNat

/-- K_e of element `e` of service `n`. -/
def View.weightOf (v : View) (n e : Nat) : Nat := energyWeight (v.vfs n e) (v.ifs n e) (v.svcQuantum n)

/-! ### Load index (R34) -/

/-- The billing part in units of 0.0001. -/
def View.loadBilling (v : View) : Nat :=
  600 + 140 * ((List.range 48).filter v.chanOn).length
    + 100 * ((List.range 8).filter (fun u => v.chanOn (48 + u))).length
    + 55 * ((List.range 16).filter v.svcOn).length

/-- The extended part in units of 0.0001. -/
def View.loadExtended (v : View) : Nat :=
  [100, 82, 68, 46].getD (field 7 6 (v.num 0x0041)) 100 * ((List.range 56).filter v.analysed).length
    + 150 * ((List.range 8).filter v.flicker).length
    + 50 * ((List.range 8).filter v.watched).length
    + (if v.auditOn then 1000 else 0) + (if v.balOn then 1400 else 0)

/-- The load index in units of 0.0001. -/
def View.load (v : View) : Nat := v.loadBilling + v.loadExtended

end Sys2Proof.Machine
end

