-- ==== Sys2Proof/Machine/Memory.lean ====
section
/-! DEFINITION. Memory.lean: the array of the persistent store as a canonical list of cells (R438), its page
buffer (R439, R440) and the slots of its rings (R442–R445). -/

namespace Sys2Proof.Machine
open Sys2Proof

/-- The array: address and byte, addresses rising, no entry equal to 0x00. -/
abbrev Memory := List Host.Cell

/-- What a byte that nothing has written reads as: the spec gives no contents at manufacture.
DESIGN CHOICE (log entry 1). -/
def Memory.blank : Byte := 0

/-- One byte of the array. -/
def Memory.read : Memory → Nat → Byte
  | [], _ => Memory.blank
  | (k, v) :: m, a => if k = a then v else Memory.read m a

/-- One byte written: the list stays sorted, and a blank byte is not listed. -/
def Memory.write : Memory → Nat → Byte → Memory
  | [], a, b => if b = Memory.blank then [] else [(a, b)]
  | (k, v) :: m, a, b =>
    if a < k then (if b = Memory.blank then (k, v) :: m else (a, b) :: (k, v) :: m)
    else if a = k then (if b = Memory.blank then m else (a, b) :: m)
    else (k, v) :: Memory.write m a b

/-- Every listed address lies at or above `lo`. -/
def Memory.above (lo : Nat) : Memory → Bool
  | [] => true
  | (k, _) :: _ => decide (lo ≤ k)

/-- The canonical form: addresses strictly rising, no entry blank. -/
def Memory.wf : Memory → Bool
  | [] => true
  | (k, v) :: m => decide (v ≠ Memory.blank) && Memory.above (k + 1) m && Memory.wf m

/-- Bytes written at ascending addresses. -/
def Memory.writes (m : Memory) (a : Nat) (bs : Bytes) : Memory :=
  match bs with
  | [] => m
  | b :: bs => Memory.writes (m.write a b) (a + 1) bs

/-- `n` bytes from address `a`. -/
def Memory.reads (m : Memory) (a n : Nat) : Bytes := tab n (fun i => m.read (a + i))

/-! ### Page buffer (R439, R440) -/

/-- Bytes in a page. -/
def pageSize : Nat := 64

/-- The page writes of a write of `bs` at address `a`, one per page, in ascending page order; `fuel` bounds
the number of pages. -/
def pageWrites : Nat → Nat → Bytes → List PageWrite
  | 0, _, _ => []
  | fuel + 1, a, bs =>
    if bs.isEmpty then [] else
    let room := pageSize - a % pageSize
    { page := a / pageSize, offset := a % pageSize, data := bs.take room } ::
      pageWrites fuel (a + room) (bs.drop room)

/-- A page write committed to the array, its first `n` page bytes only. -/
def commitPage (m : Memory) (w : PageWrite) (n : Nat) : Memory :=
  m.writes (w.page * pageSize + w.offset) (w.data.take (n - w.offset))

/-- The array as its readers see it: the page under commit is read from the buffer (R438, R439). -/
def Store.shown (st : Store) : Memory :=
  match st.waiting with
  | [] => st.cells
  | w :: _ => commitPage st.cells w pageSize

/-- The array once every waiting write has gone through the page buffer: what the device has written, by which it numbers
its next records and to which the page buffer will add (R439, R444). -/
def Store.seen (st : Store) : Memory := st.waiting.foldl (fun m w => commitPage m w pageSize) st.cells

/-- A write through the page buffer: its page commits wait in order (R439). Addresses beyond the array do
not exist, and after a power-down save no write starts until the next start (R451). -/
def Store.put (st : Store) (a : Nat) (bs : Bytes) : Store :=
  if a + bs.length ≤ 0x80000 && !st.closed then
    { st with waiting := st.waiting ++ pageWrites (bs.length / pageSize + 2) a bs }
  else st

/-- Bytes as a reader sees them. -/
def Store.get (st : Store) (a n : Nat) : Bytes := st.shown.reads a n

/-- The end of the commit in progress (R439). -/
def Store.commitDone (st : Store) : Store :=
  match st.waiting with
  | [] => st
  | w :: ws =>
    { st with cells := commitPage st.cells w pageSize, waiting := ws, firm := false,
              counters := modAt st.counters 0 (· + 1) }

/-- Every waiting commit runs to its end. -/
def Store.drain : Nat → Store → Store
  | 0, st => st
  | n + 1, st => if st.waiting.isEmpty then st else Store.drain n st.commitDone

/-- A commit broken after `p` bytes of its page; what waits behind it is lost (R440). -/
def Store.tear (st : Store) (p : Nat) : Store :=
  match st.waiting with
  | [] => st
  | w :: _ => { st with cells := commitPage st.cells w (min p pageSize), waiting := [] }

/-! ### Rings (R442–R445) -/

/-- A ring of slots: first address, slot size, number of slots, TYPE, and whether the billing port writes
it. -/
structure Ring where
  base : Nat
  size : Nat
  slots : Nat
  type : Nat
deriving DecidableEq, Repr

/-- The rings of R445. -/
def Ring.billing : Ring := ⟨0x20000, 6144, 4, 0x10⟩
/-- Profile mirror ring. -/
def Ring.mirror : Ring := ⟨0x26000, 1536, 4, 0x11⟩
/-- Device state ring. -/
def Ring.device : Ring := ⟨0x27800, 64, 4, 0x01⟩
/-- Archive locator ring. -/
def Ring.locator : Ring := ⟨0x27900, 64, 8, 0x02⟩
/-- Load-control ring of a relay. -/
def Ring.relay (pair : Nat) : Ring := ⟨0x27B00 + 0x100 * pair, 32, 8, 0x03⟩
/-- Network head ring. -/
def Ring.network : Ring := ⟨0x27D00, 32, 4, 0x05⟩
/-- Latched alarm ring. -/
def Ring.latched : Ring := ⟨0x27D80, 64, 4, 0x06⟩
/-- Node table ring of an address. -/
def Ring.node (a : Nat) : Ring := ⟨0x28000 + 64 * (a - 1), 32, 2, 0x04⟩
/-- Temperature curve ring. -/
def Ring.curve : Ring := ⟨0x61000, 256, 2, 0x20⟩

/-- `s` is newer than `t` in serial arithmetic (R443). -/
def serialNewer (s t : Nat) : Bool :=
  let d := (s + 2 ^ 32 - t) % 2 ^ 32
  1 ≤ d && d ≤ 2 ^ 31 - 1

/-- A slot of a ring: sequence number and body, where it is valid (R443). -/
def readSlot (m : Memory) (r : Ring) (k : Nat) : Option (Nat × Bytes) :=
  let a := r.base + r.size * k
  let l := leNat (m.reads (a + 6) 2)
  if l + 12 ≤ r.size then
    let bs := m.reads a (8 + l)
    if getU bs 4 1 == r.type && leNat (m.reads (a + 8 + l) 4) == crc32 bs then
      some (getU bs 0 4, bs.drop 8)
    else none
  else none

/-- The newest valid slot of a ring: slot number, sequence number and body (R443). -/
def newestSlot (m : Memory) (r : Ring) : Option (Nat × Nat × Bytes) :=
  (List.range r.slots).foldl (fun best k =>
    match readSlot m r k with
    | none => best
    | some (q, body) =>
      match best with
      | none => some (k, q, body)
      | some (_, q', _) => if serialNewer q q' then some (k, q, body) else best) none

/-- Slots of a ring that fail their check and were written: TYPE or sequence nonzero (R460 failing slots). -/
def failingSlots (m : Memory) (r : Ring) : Nat :=
  ((List.range r.slots).filter (fun k =>
    (readSlot m r k).isNone && (m.reads (r.base + r.size * k) 8).any (· != 0))).length

/-- The bytes of a slot (R442). -/
def slotBytes (r : Ring) (seq : Nat) (body : Bytes) : Bytes :=
  let h := leBytes 4 seq ++ [BitVec.ofNat 8 r.type, 0] ++ leBytes 2 body.length ++ body
  h ++ leBytes 4 (crc32 h)

/-- A record written into its ring (R444). -/
def Store.record (st : Store) (r : Ring) (body : Bytes) : Store :=
  match newestSlot st.seen r with
  | none => st.put r.base (slotBytes r 1 body)
  | some (k, q, _) => st.put (r.base + r.size * ((k + 1) % r.slots)) (slotBytes r ((q + 1) % 2 ^ 32) body)

/-- Slots of a ring that fail when read, and a fallback where the slot that follows the newest is one of them,
counted (R460). -/
def countRing (r : Ring) (s : State) : State :=
  let m := s.store.seen
  let bad := failingSlots m r
  let fall : Bool := match newestSlot m r with
    | some (k, _, _) =>
      let a := r.base + r.size * ((k + 1) % r.slots)
      (readSlot m r ((k + 1) % r.slots)).isNone && (m.reads a 8).any (· != 0)
    | none => decide (0 < bad)
  { s with store.counters :=
      modAt (modAt s.store.counters 4 (· + BitVec.ofNat 32 bad)) 5 (· + BitVec.ofNat 32 (flag fall)) }

/-- The address of slot A (0) or B (1). -/
def slotAddress (n : Nat) : Nat := 0x40000 + 0xC000 * n

/-- The image whose read-back differed: its last word is not its CHECK, and the slot is invalid (R555). What stands
there instead is a free value. -/
def spoilImage (bs : Bytes) (x : Nat) : Bytes :=
  patch bs (bs.length - 4) (leBytes 4 ((getU bs (bs.length - 4) 4 + 1 + x % (2 ^ 32 - 1)) % 2 ^ 32))

end Sys2Proof.Machine
end

