-- ==== Sys2Proof/Machine/Ops.lean ====
section
/-! DEFINITION. Ops.lean: the operations shared by the meanings: chronicle time (R30), free values, interrupt
bits (R68), raising evidence on one edge (R498), queueing replies (R57) and ending commands (R55, R79). -/

namespace Sys2Proof.Machine
open Sys2Proof

/-- What a meaning answers. -/
abbrev Outcome := Host.Outcome State Fault Refusal

/-! ### Free values -/

/-- The counter of free values advanced past the value just used. -/
def State.nextFree (s : State) : State := { s with free := s.free + 1 }

/-- The free value that the next use takes. -/
def State.freeValue (s : State) : Nat := Config.freeValue s.free

/-! ### Chronicle time -/

/-- Ticks in a second. -/
def tps : Nat := 32768

/-- The chronicle count now, in ticks. -/
def State.ticks (s : State) : Nat := s.backup.sec.toNat * tps + s.backup.tick.toNat

/-- The chronicle second now. -/
def State.sec (s : State) : Nat := s.backup.sec.toNat

/-- The chronicle tick of a record of the pinned tier, for the header of a block that begins with it (R276): the start of a
segment's copy, From of a pin, the newest entry of a group of evidence entries. -/
def recordTick (r : Bytes) : Nat :=
  match getU r 0 1 with
  | 0x10 => getU r 8 6 * tps + getU r 14 2
  | 0x40 => getU r 8 6 * tps
  | 0x41 => getU r 2028 6 * tps
  | _ => 0

/-- A chronicle instant as bytes: seconds (6) and ticks (2). -/
def timeBytes (t : Nat) : Bytes := leBytes 6 (t / tps) ++ leBytes 2 (t % tps)

/-- A point of the time line: position in modulator clocks since the strobe count began, and the chronicle
ticks just before and from it on. A chronicle pair has both equal; a step pair moves the time (R472). -/
structure Anchor where
  pos : Nat
  before : Nat
  after : Nat
deriving DecidableEq, Repr

/-- The points of the time line (R29, R472), in no particular order. -/
def TimeKeep.anchors (t : TimeKeep) : List Anchor :=
  t.pairs.map (fun p => ⟨p.strobe * 256 + p.clock, p.sec * tps, p.sec * tps⟩) ++
  t.steps.map (fun p => ⟨p.strobe * 256 + p.clock, p.oldSec * tps + p.oldTick, p.newSec * tps⟩)

/-- The latest point at or below a position. -/
def anchorBelow (as : List Anchor) (x : Nat) : Option Anchor :=
  as.foldl (fun best a =>
    if x < a.pos then best else
    match best with
    | none => some a
    | some b => if b.pos ≤ a.pos then some a else best) none

/-- The first point above a position. -/
def anchorAbove (as : List Anchor) (x : Nat) : Option Anchor :=
  as.foldl (fun best a =>
    if a.pos ≤ x then best else
    match best with
    | none => some a
    | some b => if a.pos < b.pos then some a else best) none

/-- The chronicle time of a position of the time line as a fraction of ticks (R30, R472, R473): interpolated
between the points that bracket it, and past the last point at 16,000 strobes a second. Before any pair has
arrived the count itself serves. -/
def State.timeFrac (s : State) (x : Nat) : Nat × Nat :=
  let as := s.time.anchors
  match anchorBelow as x, anchorAbove as x with
  | some a, some b => (a.after * (b.pos - a.pos) + (x - a.pos) * (b.before - a.after), b.pos - a.pos)
  | some a, none => (a.after * 4096000 + (x - a.pos) * tps, 4096000)
  | none, some b => (b.before * 4096000 - (b.pos - x) * tps, 4096000)
  | none, none => (s.ticks, 1)

/-- The chronicle time of a strobe count in whole ticks, truncated: a sample lies at or after a tick when
this does. -/
def State.timeOf (s : State) (strobe : Nat) : Nat :=
  let f := s.timeFrac (strobe * 256)
  f.1 / f.2

/-- The chronicle time of an instant in 2^−16 metering period, to the nearest tick. -/
def State.timeNear (s : State) (instant : Nat) : Nat :=
  let f := s.timeFrac (instant / 256)
  (2 * f.1 + f.2) / (2 * f.2)

/-! ### Interrupts (R68, R69) -/

/-- The interrupt bits of R68. -/
inductive Irq where
  | alarm | log | latch | takeover | archive | zlink | aux | time | start | link | cfg
deriving DecidableEq, Repr

/-- The bit number of R68. -/
def Irq.bit : Irq → Nat
  | .alarm => 1
  | .log => 2
  | .latch => 3
  | .takeover => 4
  | .archive => 5
  | .zlink => 6
  | .aux => 7
  | .time => 8
  | .start => 9
  | .link => 10
  | .cfg => 11

/-- An event sets its pending bit. -/
def State.setIrq (b : Irq) (s : State) : State :=
  { s with link.irqPending := s.link.irqPending ||| (1#12 <<< b.bit) }

/-- The interrupt pending member: bit 0 follows the reply queue (R68). -/
def State.pendingBits (s : State) : BitVec 12 :=
  if s.link.replies.isEmpty then s.link.irqPending else s.link.irqPending ||| 1#12

/-- IRQ_N is driven low (R69); it is released while the port is closed (R40). -/
def State.irqLow (s : State) : Bool := s.link.portOpen && (s.pendingBits &&& s.link.irqEnable) != 0#12

/-! ### Raising evidence -/

/-- The class of an alarm code in the table of R503: 0 LOG, 1 FLAG, 2 HOLD, 3 SAFE; `none` where the code
is not an alarm. The tamper, state-machine and SRAM codes take theirs per instance (R501). -/
def State.baseClass (s : State) (code inst : Nat) : Option Nat :=
  if code = 0x01 then some ((s.tamper.getD inst {}).cls)
  else if code = 0x14 then some ([3, 3, 2, 2, 3].getD inst 3)
  else if code = 0x19 then some (if inst < 2 then 2 else 3)
  else if [0x10, 0x11, 0x12, 0x16, 0x1B, 0x32].contains code then some 3
  else if [0x23, 0x24, 0x26, 0x41].contains code then some 2
  else if [0x03, 0x05, 0x13, 0x1C, 0x21, 0x22, 0x30, 0x31, 0x35, 0x36, 0x39, 0x40, 0x42, 0x50, 0x54, 0x63,
    0x65].contains code then some 1
  else if [0x02, 0x04, 0x06, 0x15, 0x17, 0x18, 0x1A, 0x20, 0x25, 0x33, 0x34, 0x37, 0x38, 0x3A, 0x43, 0x44,
    0x51, 0x52, 0x53, 0x60, 0x61, 0x62, 0x64].contains code then some 0
  else none

/-- The class an alarm takes: its own, raised by an alarm response entry that names its code (R501). -/
def State.alarmClass (s : State) (code inst : Nat) : Option Nat :=
  (s.baseClass code inst).map (fun c =>
    match s.view.response code with
    | some (k, _) => max c k
    | none => c)

/-- An entry raised in the step in progress. -/
def State.raiseEntry (r : Raised) (s : State) : State :=
  { s with evidence.raised := s.evidence.raised ++ [r] }

/-- An entry of a code raised with its payload, timestamped at `t` ticks. -/
def State.raiseAt (t code : Nat) (payload : Bytes) (s : State) : State :=
  let inst := (payload.headD 0).toNat
  s.raiseEntry
    { time := t, code := code, payload := payload, cls := (s.alarmClass code inst).getD 0,
      alarm := (s.alarmClass code inst).isSome }

/-- An entry of a code raised now. -/
def State.raise (code : Nat) (payload : Bytes) (s : State) : State := s.raiseAt s.ticks code payload

/-- The sequence number that an entry raised now will take: behind all that wait, and behind a LOG_LOST entry that
is owed (R506, R509). -/
def State.nextEntry (s : State) : Nat :=
  s.evidence.newest + flag (s.evidence.lostNow != 0) + s.evidence.queue.length + 1

/-- An extension of entry `seq` of a code, its payload continuing after the sequence number (R508). -/
def State.raiseExt (code seq : Nat) (rest : Bytes) (s : State) : State :=
  s.raiseEntry { time := s.ticks, code := code, payload := leBytes 4 seq ++ rest, ext := true }

/-! ### The end of an edge (R498) -/

/-- `a` stands before `b` in the order of R498: by code, then by instance; an extension stands behind the entries of
its code. -/
def Raised.before (a b : Raised) : Bool :=
  a.code < b.code || (a.code == b.code &&
    (if a.ext == b.ext then !a.ext && (a.payload.headD 0).toNat < (b.payload.headD 0).toNat else b.ext))

/-- An entry put behind those that do not come after it. -/
def insertRaised (r : Raised) : List Raised → List Raised
  | [] => [r]
  | x :: xs => if r.before x then r :: x :: xs else x :: insertRaised r xs

/-- The entries of an edge in the order of R498. -/
def sortRaised (l : List Raised) : List Raised := l.foldl (fun acc r => insertRaised r acc) []

/-- Sub-sequence numbers from 0, saturating at 7 (R498). -/
def numberRaised : Nat → List Raised → List Raised
  | _, [] => []
  | n, r :: rs => { r with sub := min n 7 } :: numberRaised (n + 1) rs

/-- Transmission stops until the next start (R364): a frame in progress is cut and counted. -/
def cutLine (l : Line) : Line :=
  { l with
    state := if l.state = .off then .off else .cut
    sending := none
    counters := if l.state = .transmitting then modAt l.counters 8 (· + 1) else l.counters }

/-- Pages that only the billing port writes: the billing save ring and the profile mirror, and the load-control rings (R441). -/
def billingPage (p : Nat) : Bool := (decide (0x800 ≤ p) && decide (p < 0x9E0)) || (decide (0x9EC ≤ p) && decide (p < 0x9F4))

/-- The sluice enters HOLD: the page under commit completes, and the other pages of the billing port wait for the end of HOLD,
if the claim under which they were written is then still held (R317, R441). A save cut so is written afresh at the next
save point (R452), the record of a pair once HOLD has ended. -/
def State.enterHold (s : State) : State :=
  let rest := (s.store.waiting.drop 1).filter (fun w => billingPage w.page)
  let pair := fun (p : Nat) => rest.any (fun w => decide (0x9EC + 4 * p ≤ w.page) && decide (w.page < 0x9F0 + 4 * p))
  { s with
    sluice.hold := true
    sluice.writes := s.sluice.writes ++ rest.map (fun w => (64 * w.page + w.offset, w.data))
    sluice.pairs := s.sluice.pairs.zipIdx.map (fun x => if pair x.2 then { x.1 with unsaved := true } else x.1)
    store.waiting := s.store.waiting.take 1 ++ (s.store.waiting.drop 1).filter (fun w => !billingPage w.page)
    store.saveState := if rest.any (fun w => decide (w.page < 0x980)) then 0 else s.store.saveState }

/-- Step 1 of R499: a SAFE alarm puts the sluice in HOLD (R317) and stops transmission (R364) at once. -/
def State.safeStep (s : State) : State :=
  { s.enterHold with evidence.safePending := true, line := cutLine s.line }

/-- An entry of an edge of the backup domain: its events 0x01–0x04 on main power (R481, R498). -/
def Raised.crystal (r : Raised) : Bool := 1 ≤ r.code && r.code ≤ 4 && !r.ext && !r.backup && !r.host

/-- The entries of an edge behind those that wait. Events of one crystal edge reach the log one by one: those of
one timestamp that still wait are one edge (R498). -/
def joinEdge (q rs : List Raised) : List Raised :=
  match rs with
  | r :: _ =>
    if rs.all Raised.crystal then
      let same := fun (x : Raised) => x.crystal && x.time == r.time
      q.filter (fun x => !same x) ++ numberRaised 0 (sortRaised (q.filter same ++ rs))
    else q ++ numberRaised 0 (sortRaised rs)
  | [] => q

/-- A SAFE alarm whose response ends in a restart (R499): not one transferred from the backup buffer (R502), and not
a clock alarm, whose restart is done when the start appends its entry (R515). -/
def Raised.restarts (r : Raised) : Bool := r.alarm && r.cls == 3 && !r.backup && !(0x10 ≤ r.code && r.code ≤ 0x12)

/-- The entries raised on the edge take their order and wait to be committed; a SAFE alarm among them
starts its response. One transferred from the backup buffer acts as a HOLD alarm (R502). -/
def State.endEdge (s : State) : State :=
  let rs := s.evidence.raised
  let s := { s with evidence.raised := [], evidence.queue := joinEdge s.evidence.queue rs }
  if rs.any Raised.restarts then s.safeStep else s

/-- One command or event: the effect `f`, then the end of its edge. -/
def edge (f : State → State) (s : State) : Outcome :=
  .next (f { s with evidence.raised := [] }).endEdge

/-! ### Replies -/

/-- ALERT of R44: an enabled source other than REPLY is pending. -/
def State.alertFlag (s : State) : Bool := (s.link.irqPending &&& s.link.irqEnable) != 0#12

/-- The committed image that waits for a latch boundary: the newest (R556). -/
def Start.pendingImage (st : Start) : Option Configuration := (st.pending.reverse.find? (fun p => p.image.isSome)).bind (·.image)

/-- The device is in limp start (R44 LIMP, R545–R547). -/
def State.limpFlag (s : State) : Bool := s.start.kind == .limp && s.start.limp

/-- A reply put at the end of the queue. -/
def State.pushReply (r : Reply) (s : State) : State := { s with link.replies := s.link.replies ++ [r] }

/-- A takeover holds back a read that arrived before the command of a tag (R58). -/
def State.behindHeld (s : State) (tag : Nat) : Bool :=
  (s.link.outstanding.takeWhile (fun c => c.tag != tag)).any (fun c => match c.work with | .heldRead _ _ _ => true | _ => false)

/-- The final reply of a command, or its ACCEPTED: queued, or kept behind an earlier read that is held, so that the order
of arrival stands (R57). -/
def State.send (r : Reply) (s : State) : State :=
  if s.behindHeld r.tag then { s with link.behind := s.link.behind ++ [r] } else s.pushReply r

/-- A reply that ends the command of a tag behind what else of `after` has been formed: its completion, and the reply of an
ABORT that waited for one, never precede the ACCEPTED of that command (R57). -/
def State.sendAfter (after : Nat) (r : Reply) (s : State) : State :=
  if s.link.behind.any (fun x => x.tag == after) then { s with link.behind := s.link.behind ++ [r] } else s.pushReply r

/-- A reply as the device forms it now, to a tag and opcode on a port; `ends` says that its last byte ends the command. -/
def State.formed (s : State) (port : Port) (kind : ReplyKind) (tag opcode : Nat) (st : Status) (params : Bytes)
    (ends : Bool) : Reply :=
  { port := port, kind := kind, alert := s.alertFlag, limp := s.limpFlag, tag := tag, opcode := opcode,
    status := st, generation := s.link.generation, params := params, ends := ends }

/-- The outstanding command of a tag. -/
def State.command (s : State) (tag : Nat) : Option Command :=
  s.link.outstanding.find? (fun c => c.tag == tag)

/-- The outstanding commands with that of a tag changed. -/
def State.setWork (tag : Nat) (w : Work) (s : State) : State :=
  { s with link.outstanding := s.link.outstanding.map (fun c => if c.tag = tag then { c with work := w } else c) }

/-- The command of a tag has been answered ACCEPTED. -/
def State.noteLong (tag : Nat) (s : State) : State :=
  { s with link.outstanding := s.link.outstanding.map (fun c => if c.tag = tag then { c with long := true } else c) }

/-- The ABORTs held back until the completion of `tag` (R79) are answered ALREADY_DONE behind it. -/
def State.releaseAborts (tag : Nat) (s : State) : State :=
  s.link.outstanding.foldl (fun s c =>
    if c.work = .abortHeld tag then
      (s.setWork c.tag .replied).sendAfter tag (s.formed c.port .final c.tag c.opcode .alreadyDone [] true)
    else s) s

/-- A long command ends: its completion is queued and its ABORT, if held, answered (R57, R79). -/
def State.complete (tag : Nat) (st : Status) (params : Bytes) (s : State) : State :=
  match s.command tag with
  | none => s
  | some c =>
    ((s.setWork tag .replied).sendAfter tag (s.formed c.port .completion tag c.opcode st params true)).releaseAborts tag

/-- The outstanding commands whose work meets a test end with a status (R78, R523). -/
def State.completeAll (test : Work → Bool) (st : Status) (s : State) : State :=
  s.link.outstanding.foldl (fun s c => if test c.work then s.complete c.tag st [] else s) s

/-- The work of a command that is long and has not completed (R61). -/
def Work.long : Work → Bool
  | .replied | .heldRead _ _ _ | .abortHeld _ => false
  | .snapshot _ | .latchNow _ _ | .commit _ | .archiveRead _ _ _ _ | .pinSegment _ _ _ => true
  | .audit _ _ _ | .zlinkSend _ _ _ | .selftest _ _ => true

/-- What a command that is taken answers (R57): a final reply, or ACCEPTED with the work that goes on. -/
inductive Answer where
  | done (st : Status) (params : Bytes)
  | long (w : Work)
deriving DecidableEq, Repr

/-- A final reply without a result. -/
def refuse (st : Status) : Answer := .done st []

/-! ### Small helpers over parts -/

/-- A channel changed. -/
def State.modChannel (c : Nat) (f : Channel → Channel) (s : State) : State :=
  { s with sense.channels := modAt s.sense.channels c f }

/-- A slice changed. -/
def State.modSlice (i : Nat) (f : Slice → Slice) (s : State) : State :=
  { s with sense.slices := modAt s.sense.slices i f }

/-- A quarter changed. -/
def State.modQuarter (q : Nat) (f : Quarter → Quarter) (s : State) : State :=
  { s with sense.quarters := modAt s.sense.quarters q f }

/-- An engine changed. -/
def State.modEngine (e : Nat) (f : Engine → Engine) (s : State) : State :=
  { s with engines.engines := modAt s.engines.engines e f }

/-- A counter of the integrity counters rises (R530). -/
def State.countIntegrity (k : Nat) (s : State) : State :=
  { s with integrity.counters := modAt s.integrity.counters k (· + 1) }

/-- A store counter rises (R460). -/
def State.countStore (k : Nat) (s : State) : State :=
  { s with store.counters := modAt s.store.counters k (· + 1) }

/-- Running, in limp start or not: billing ready has passed (R538). -/
def State.ready (s : State) : Bool := s.start.phase == .running

/-- A start is in progress or done: the digital die is out of reset and not in retry pending. -/
def State.awake (s : State) : Bool := s.start.phase == .starting || s.start.phase == .running

/-- A HELD unit is held off (R546): load control 0, auxiliary 1, recording and archive 2, extended analysis
3, power line 4. -/
def State.held (s : State) (b : Nat) : Bool := bit b s.start.heldMask.toNat

/-- Strobe time now in µs: 4.096 modulator clocks to one (R26, R28). -/
def State.micros (s : State) : Nat := s.sense.modCount.toNat * 125 / 512

/-- Time from the release of reset in units of so many µs: the strobe count starts with it (R540, R565). 0xFFFFFFFF says
that a time has not been reached, so that none reads so. -/
def State.sinceRelease (s : State) (unit : Nat) : Nat := min (s.micros / unit) 0xFFFFFFFE

/-- Aux time now: the latest that an event of the unit or the strobe count has told (R411). -/
def State.auxNow (s : State) : Nat := max s.aux.auxTime.toNat s.micros % 2 ^ 48

/-- An event of a trigger source at an aux time (R418): every converter that names it acts TRIG_DELAY µs later. -/
def State.auxEventAt (t src : Nat) (s : State) : State :=
  if src = 0 || !s.aux.loaded then s else
  { s with aux.converters := (List.range 2).foldl (fun cs k =>
      if s.view.auxTrig k = src then
        modAt cs k (fun c => { c with due := c.due ++ [t + s.view.auxDelay k] })
      else cs) s.aux.converters }

/-- An event of a trigger source now. -/
def State.auxEvent (src : Nat) (s : State) : State := s.auxEventAt s.auxNow src

/-- Strobe time now in s, for spans that a TIME_SET does not touch. -/
def State.upSec (s : State) : Nat := s.micros / 10 ^ 6

/-- The result word of a self-test (R525): OUTCOME, TEST and duration in ms. -/
def resultWord (outcome test duration : Nat) : Nat :=
  outcome * 2 ^ 28 + test * 2 ^ 24 + min duration 65535

/-- First raw sample of the start, s1 (R540 step 10). -/
def State.firstRaw (s : State) : Nat := s.sense.first

end Sys2Proof.Machine
end

