-- ==== Sys2Proof/Machine/Decimate.lean ====
section
/-! DEFINITION. Decimate.lean: the causeway's receivers and the decimator blocks (R28, R84–R90, R100, R101, R522–R524):
flits become modulator clocks, clocks the 128 ksps values of stage 1, and those, repaired, the raw samples. -/

namespace Sys2Proof.Machine
open Sys2Proof

/-! ### Names of slices and channels -/

/-- The slice of a slot of a quarter; slot 14 is the wader (R86). -/
def sliceAt (q slot : Nat) : Nat := q * 15 + slot

/-- The wader's slot. -/
def waderSlot : Nat := 14

/-- The channel whose home slice has a position of a quarter (R18, R106). -/
def channelAt (q p : Nat) : Nat := if p < 12 then 12 * q + p else 48 + 2 * q + (p - 12)

/-- The quarter of a channel; a wader instance 56–59 belongs to its own. -/
def quarterOf (c : Nat) : Nat := if c < 48 then c / 12 else if c < 56 then (c - 48) / 2 else c - 56

/-- The position of a channel in its quarter, 14 for a wader. -/
def positionOf (c : Nat) : Nat := if c < 48 then c % 12 else if c < 56 then 12 + (c - 48) % 2 else 14

/-- The slice that a channel instance 0–59 names. -/
def sliceOf (c : Nat) : Nat := sliceAt (quarterOf c) (positionOf c)

/-! ### The count of the MOD domain (R28, R29) -/

/-- The source that a reference measurement gives its slice at a strobe count (R107): zero, +400 mV, −400 mV, tone. -/
def RefMeasure.sourceAt (m : RefMeasure) (strobe : Nat) : SliceSource :=
  if strobe < m.start + m.part then .zero
  else if strobe < m.start + 2 * m.part then .plus
  else if strobe < m.start + 3 * m.part then .minus else .tone

/-- A slice under measurement follows its parts. -/
def Slice.follow (strobe : Nat) (x : Slice) : Slice :=
  match x.meas with
  | some m => { x with source := m.sourceAt strobe }
  | none => x

/-- The strobe count now. -/
def Sense.strobe (g : Sense) : Nat := g.modCount.toNat / 256

/-- The count has reached modulator clock `x` at least; it never goes back (compared in serial arithmetic). -/
def Sense.reach (x : Nat) (g : Sense) : Sense :=
  if (x % 2 ^ 56 + 2 ^ 56 - g.modCount.toNat) % 2 ^ 56 < 2 ^ 55 then
    { g with modCount := BitVec.ofNat 56 x, slices := g.slices.map (Slice.follow (x / 256)) }
  else g

/-- The state once the count has reached modulator clock `x`. -/
def State.reachClock (x : Nat) (s : State) : State := { s with sense := s.sense.reach x }

/-- The state once the count has reached a strobe. -/
def State.reachStrobe (k : Nat) (s : State) : State := s.reachClock (k * 256)

/-! ### Stage 1 (R84, R90) -/

/-- n (n − 1) (n − 2) / 6. -/
def choose3 (n : Nat) : Nat := n * (n - 1) * (n - 2) / 6

/-- Weight of the clock at place `i`, 0–124, in the window of the fourth-order integrator-comb that divides by 32:
the coefficient of z^i in (1 + z + … + z^31)^4. -/
def combWeight (i : Nat) : Nat :=
  choose3 (i + 3) + 6 * choose3 (i - 61) - 4 * (choose3 (i - 29) + choose3 (i - 93))

/-- The words of stage 1 over a full window of clocks: 0 to 2^20, 21 bits, mid-scale 2^19. -/
def stageOneWords (clocks : List (BitVec 15)) : List Nat :=
  tab 15 (fun slot => clocks.zipIdx.foldl (fun a x => if x.1.getLsbD (14 - slot) then a + combWeight x.2 else a) 0)

/-- The bits of modulator clock `x`, the chopper's reversal undone (R84): the polarity is reversed in every other
sixteen clocks. -/
def unchop (x : Nat) (bits : BitVec 15) : BitVec 15 := if x / 16 % 2 = 1 then ~~~bits else bits

/-- The bits of modulator clock `x` enter the window; every 32 clocks it gives a value. -/
def Lane.takeClock (l : Lane) (x : Nat) (bits : BitVec 15) : Lane :=
  let cs := (unchop x bits :: l.clocks).take 125
  let l := { l with clocks := cs }
  if x % 32 = 30 && cs.length = 125 then
    { l with values := { index := (x - 62) / 32, words := stageOneWords cs } :: l.values }
  else l

/-- The three clocks of a data flit (R86), the first numbered `x`. -/
def Lane.takeClocks (l : Lane) (x : Nat) (c0 c1 c2 : BitVec 15) : Lane :=
  ((l.takeClock x c0).takeClock (x + 1) c1).takeClock (x + 2) c2

/-! ### Flits (R85–R88, R100, R101, R522) -/

/-- The seven bytes of flit bits [63:8], first byte bits [63:56]. -/
def flitBytes (flit : Nat) : Bytes := tab 7 (fun i => BitVec.ofNat 8 (field (63 - 8 * i) (56 - 8 * i) flit))

/-- CODE agrees with the flit and its lane (R88). -/
def flitGood (lane flit : Nat) : Bool := crc8 (BitVec.ofNat 8 lane :: flitBytes flit) == field 7 0 flit

/-- First stage-1 value whose window of 125 clocks holds clock `x`; value j is centred on clock 32 j. -/
def firstValue (x : Nat) : Nat := (x - 62 + 31) / 32

/-- Last stage-1 value whose window holds clock `x`. -/
def lastValue (x : Nat) : Nat := (x + 62) / 32

/-- Missing clocks `a … b` added to the runs of a lane, joined to the last run where their values meet
(R100). -/
def Lane.addRun (l : Lane) (a b : Nat) (lost : Bool) : Lane :=
  let r : Run := ⟨firstValue a, lastValue b, a, b, lost⟩
  match l.runs.getLast? with
  | some x =>
    if r.first ≤ x.last + 1 then
      { l with runs := l.runs.dropLast ++ [⟨x.first, max x.last r.last, x.firstClock, b, x.lost || lost⟩] }
    else { l with runs := l.runs ++ [r] }
  | none => { l with runs := [r] }

/-- The next data flit is awaited; after every eighth comes the ninth flit of the group (R87). -/
def Lane.advance (l : Lane) : Lane :=
  let n := (l.nextSeq + 1) % 256
  { l with nextSeq := n, ninth := n % 8 == 0 }

/-- First clock of the data flit awaited; before the ninth flit that opens a lane cycle it lies in the next one. -/
def Lane.dataClock (l : Lane) : Nat :=
  (if l.ninth && l.nextSeq = 0 then l.cycleStrobe + 3 else l.cycleStrobe) * 256 + 3 * l.nextSeq

/-- The lane counts on from a ninth flit; before SEQ 0 a new lane cycle opens. -/
def Lane.passNinth (l : Lane) : Lane :=
  if l.nextSeq = 0 then { l with ninth := false, cycleStrobe := l.cycleStrobe + 3 } else { l with ninth := false }

/-- The strobe count nearest to one known to the receiver that has the given low 40 bits. -/
def extendStrobe (near low : Nat) : Nat := ((near : Int) + toSigned 40 (low + 2 ^ 40 - near % 2 ^ 40)).toNat

/-- A mark flit resynchronises a lane that is not aligned; the gap becomes one lost run (R101), and the window begins
again with the pattern 1, 0, 1 for the clocks not received. The gap holds the lane cycle before the mark at least, whose
flits have passed unread; what a receiver that had run ahead took for clocks behind the mark is dropped. -/
def Lane.resync (l : Lane) (strobe : Nat) : Lane :=
  let l' := { l with aligned := true, cycleStrobe := strobe, nextSeq := 0, ninth := false, gapFrom := none }
  match l.gapFrom with
  | some a =>
    let l' := { l' with
      clocks := tab 125 (fun i => if (strobe * 256 - 1 - i) % 2 = 0 then 0x7FFF else 0)
      values := l.values.filter (fun v => decide (32 * v.index + 62 < strobe * 256)) }
    l'.addRun (min a (strobe * 256 - 768)) (strobe * 256 - 1) true
  | none => { l' with clocks := [], values := [] }

/-- The three clocks of a data flit are missing: the pattern 1, 0, 1 stands in for every slice (R100). -/
def Lane.missFlit (l : Lane) : Lane :=
  ((l.addRun l.dataClock (l.dataClock + 2) false).takeClocks l.dataClock 0x7FFF 0 0x7FFF).advance

/-- The clocks of a data flit whose check is correct (R86). -/
def Lane.takeData (l : Lane) (flit : Nat) : Lane :=
  (l.takeClocks l.dataClock (BitVec.ofNat 15 (field 53 39 flit)) (BitVec.ofNat 15 (field 38 24 flit))
    (BitVec.ofNat 15 (field 23 9 flit))).advance

/-- A lane that has lost its alignment: nothing from the clock awaited on counts (R101). -/
def Lane.misalign (l : Lane) : Lane := { l with aligned := false, gapFrom := some l.dataClock }

/-- A flit whose check is correct reaches an aligned or unaligned sample lane (R86, R87, R101). A mark that comes where the
receiver awaits none, or opens another lane cycle than the one it awaits, disagrees with its count. A flit of another KIND
or SEQ than the data flit awaited leaves that one missing, and no failed flit is counted (DESIGN CHOICE, log entry 191). -/
def Lane.takeGood (l : Lane) (near flit : Nat) : Lane :=
  let kind := field 63 62 flit
  let mark := field 53 14 flit
  if !l.aligned then (if kind = 2 then l.resync (extendStrobe near mark) else l)
  else if kind = 2 then
    if l.ninth && l.nextSeq = 0 && mark = (l.cycleStrobe + 3) % 2 ^ 40 then l.passNinth else l.misalign
  else if l.ninth then l.passNinth
  else if kind = 1 && field 61 54 flit == l.nextSeq then l.takeData flit
  else l.missFlit

/-- A flit that fails its check reaches a sample lane: the three clocks of a data flit are missing (R100). -/
def Lane.takeBad (l : Lane) : Lane :=
  if !l.aligned then l else if l.ninth then l.passNinth else l.missFlit

/-- A failed flit is counted; the 33rd of a chronicle second starts the lane test (R522), whose lane loses its
traffic meanwhile (R523). -/
def Lane.countFailed (l : Lane) : Lane :=
  let n := l.failedNow + 1
  let l := { l with failedNow := n }
  if n = 33 && l.testing.isNone && !l.faulty then
    let l := { l with testing := some n }
    if l.aligned then l.misalign else l
  else l

/-- The first strobe whose raw sample a lane can form after aligning on the mark of strobe `k`: its filters draw on
values 8 k − 120 and on, and the first full window is that of value 8 k + 2. -/
def firstRow (k : Nat) : Nat := k + 16

/-- A lane aligned for the first time of a start: raw samples begin where every lane can form them (R21), and the reference
measurements of the start no earlier (R540). -/
def Sense.begun (old new : Lane) (g : Sense) : Sense :=
  if !old.aligned && new.aligned && old.gapFrom.isNone then
    let first := max g.nextRaw (firstRow new.cycleStrobe)
    { g with
      nextRaw := first
      slices := g.slices.map (fun (x : Slice) => ({ x with
        meas := x.meas.map (fun m => if m.taken = 0 then { m with start := max m.start first } else m) } : Slice)) }
  else g

/-- FLIT_RECEIVE. While a lane is tested or given up its traffic is lost. The clocks received bring the count of the
MOD domain forward. -/
def flitReceive (lane : Nat) (flit : BitVec 64) (s : State) : State :=
  let l := s.sense.lanes.getD lane {}
  if l.testing.isSome || l.faulty || 6 ≤ lane then s else
  let good := flitGood lane flit.toNat
  let m := if lane < 4 then (if good then l.takeGood s.sense.strobe flit.toNat else l.takeBad) else l
  let s := { s with sense := { s.sense.begun l m with
    lanes := modAt s.sense.lanes lane (fun _ => if good then m else m.countFailed) } }
  let s := if m.aligned then s.reachClock m.dataClock else s
  if good then s else s.countIntegrity lane

/-- FLIT_RECEIVE (R85–R88, R90, R100, R101, R522). -/
def execFlitReceive (lane : Nat) (flit : BitVec 64) (s : State) : Outcome := edge (flitReceive lane flit) s

/-! ### Raw samples (R90, R100, R101) -/

/-- The runs of a lane, a gap that is still open among them. -/
def Lane.allRuns (l : Lane) : List Run :=
  match l.gapFrom with
  | some a => (l.addRun a (a + 2 ^ 64) true).runs
  | none => l.runs

/-- A run is zero-filled: longer than 72 values, or the gap of a misaligned lane (R100, R101). -/
def Run.zeroed (r : Run) : Bool := r.lost || 72 < r.last + 1 - r.first

/-- Stage-1 values on either side that a raw sample draws on: stages 2–4 span 30 metering periods (R100). -/
def drawn : Nat := 120

/-- A raw sample of strobe `k` draws on a value of the run. -/
def Run.touches (r : Run) (k : Nat) : Bool := r.first ≤ 8 * k + drawn && 8 * k ≤ r.last + drawn

/-- Marks of the raw samples of a strobe: patched, zero-filled (R100, R101, R611). -/
def Lane.marks (l : Lane) (k : Nat) : Bool × Bool :=
  l.allRuns.foldl (fun m r =>
    if r.touches k then (if r.zeroed then (m.1, true) else (true, m.2)) else m) (false, false)

/-- The word of a slot at a stage-1 value as it was received; mid-scale where none stands. -/
def Lane.received (l : Lane) (j slot : Nat) : Nat :=
  match l.values.find? (fun v => v.index == j) with
  | some v => v.words.getD slot (2 ^ 19)
  | none => 2 ^ 19

/-- The same after the patch: a value of a run is interpolated between the good values on either side (R100). -/
def Lane.patched (l : Lane) (j slot : Nat) : Nat :=
  match l.runs.find? (fun r => r.first ≤ j && j ≤ r.last) with
  | none => l.received j slot
  | some r =>
    let n := r.last + 2 - r.first
    (roundEven (l.received (r.first - 1) slot * (r.last + 1 - j : Nat) +
      l.received (r.last + 1) slot * (j + 1 - r.first : Nat)) n).toNat

/-- One FIR stage that divides by 2: a symmetric filter with the given taps from its centre on, its sum divided by `unit`,
rounded to nearest, half to even, and saturated to `w` bits. -/
def firHalve (taps : List Int) (unit w : Nat) (x : List Int) : List Int :=
  let h := taps.length - 1
  tab ((x.length - 2 * h + 1) / 2) (fun i =>
    satSigned w (roundEven (((x.drop (2 * i)).take (2 * h + 1)).zipIdx.foldl
      (fun a y => a + taps.getD ((y.2 : Int) - h).natAbs 0 * y.1) 0) unit))

/-- Stages 2 to 4 over the 241 values about a strobe (R90): half-band stages with 28-bit words, then the droop
compensating stage, whose word is the Q1.31 raw sample. -/
def decimate (values : List Nat) : Int :=
  let x1 := values.map (fun v => 2 * (v : Int) - 2 ^ 20)
  let x2 := firHalve (halfBand meterTaps.half2) (2 ^ 13) 28 x1
  let x3 := firHalve (halfBand meterTaps.half3) (2 ^ 20) 28 x2
  (firHalve meterTaps.droop (2 ^ 16) 32 x3).headD 0

/-- The raw samples of a lane's fifteen slices at a strobe; `none` while its values have not passed the patch hold of
80 values (R93, R100). A lane given up, and a run that is zero-filled, give zeros (R101, R524). -/
def Lane.rawRow (l : Lane) (k : Nat) : Option (List Int) :=
  if l.faulty || (l.marks k).2 then some (List.replicate 15 0)
  else if l.gapFrom.isSome || l.values.head?.any (fun v => decide (8 * k + drawn + 80 ≤ v.index)) then
    some (tab 15 (fun slot => decimate (tab (2 * drawn + 1) (fun i => l.patched (8 * k + i - drawn) slot))))
  else none

/-- Values and runs that no later raw sample or frame draws on are dropped; `k` is the next raw sample. -/
def Lane.prune (l : Lane) (k : Nat) : Lane :=
  { l with
    values := l.values.takeWhile (fun v => decide (8 * k ≤ v.index + drawn + 80))
    runs := l.runs.filter (fun r => decide (8 * k ≤ r.last + drawn + 168)) }

/-- The sixty raw samples of the next strobe, slice order: quarter by quarter, slots 0–14. -/
def Sense.rawRows (g : Sense) : Option (List Int) :=
  match (g.lanes.getD 0 {}).rawRow g.nextRaw, (g.lanes.getD 1 {}).rawRow g.nextRaw,
      (g.lanes.getD 2 {}).rawRow g.nextRaw, (g.lanes.getD 3 {}).rawRow g.nextRaw with
  | some a, some b, some c, some d => some (a ++ b ++ c ++ d)
  | _, _, _, _ => none

end Sys2Proof.Machine
end

