-- ==== Sys2Proof/Machine/Sensing.lean ====
section
/-! DEFINITION. Sensing.lean: switch messages, the wader rotation and the slice faults (chapter "Sensing array and wader
rotation", R523–R525), the correction stages of one sample, and the reads of the channel objects. -/

namespace Sys2Proof.Machine
open Sys2Proof

/-! ### Lanes given up (R115, R116, R523, R524) -/

/-- A slice connected to a source. -/
def State.connect (q slot : Nat) (x : SliceSource) (s : State) : State :=
  s.modSlice (sliceAt q slot) (fun l => { l with source := x, meas := none })

/-- The channels of a quarter changed. -/
def State.modHomes (q : Nat) (f : Channel → Channel) (s : State) : State :=
  (List.range 14).foldl (fun s p => s.modChannel (channelAt q p) f) s

/-- The rotation of a quarter stops, its coefficients frozen (R115, R116): no test is pending or running any more. -/
def State.stopRotation (q : Nat) (s : State) : State :=
  ((s.modQuarter q (fun x =>
    { x with stopped := true, rot := .idle, fade := none, waiting := [], waderTestDue := false })).modHomes q
      (fun c => { c with calStale := true, suspect := false })).modChannel (56 + q) (fun c => { c with suspect := false })

/-- A home slice that the rotation has on the reference returns to its input, and its measurement is discarded; the
wader delivers no channel any more (R114 step 1, R116, R118). -/
def State.returnHome (q : Nat) (s : State) : State :=
  let x := s.sense.quarters.getD q {}
  let s := match x.rot with
    | .homeRef p | .homeTest p | .pre p .test _ => s.connect q p (.input p)
    | .idle | .waderRef _ | .waderTest _ | .twin1 _ | .fadeTo _ | .twin2 _ | .fadeBack _ | .pre _ _ _ => s
  s.modSlice (sliceAt q waderSlot) (fun l => { l with meas := none })

/-- A channel is lost: samples zero, LOST_RUN in every interval (R115, R524). -/
def State.loseChannel (c : Nat) (s : State) : State :=
  (s.modChannel c (fun x => { x with lost := true })).raise 0x23 [BitVec.ofNat 8 c]

/-- What a retired lane takes with it (R524). No test of its slices is pending or running any more. -/
def State.retireLane (lane : Nat) (s : State) : State :=
  if lane < 4 then
    let s := (s.returnHome lane).modQuarter lane (fun x => { x with
      stopped := true, rot := .idle, fade := none, waiting := [], waderTestDue := false
      cover := if x.permanent then x.cover else none
      standIn := if x.permanent then x.standIn else none })
    let s := (s.modHomes lane (fun c => { c with suspect := false })).modChannel (56 + lane) (fun c => { c with suspect := false })
    (List.range 14).foldl (fun s p => s.loseChannel (channelAt lane p)) s
  else if lane = 5 then (List.range 4).foldl (fun s q => s.stopRotation q) s
  else s

/-- LANE_TEST_END: LANE_ERRORS with the count and the outcome; a failed lane raises LANE_FAULT. -/
def laneTestEnd (lane : Nat) (passed : Bool) (s : State) : State :=
  match (s.sense.lanes.getD lane {}).testing with
  | none => s
  | some n =>
    let s := { s with sense.lanes := modAt s.sense.lanes lane (fun l => { l with testing := none, faulty := !passed }) }
    let s := s.raise 0x25 (BitVec.ofNat 8 lane :: leBytes 4 n ++ [BitVec.ofNat 8 (flag passed)])
    if passed then s.countIntegrity 11 else (s.raise 0x26 [BitVec.ofNat 8 lane]).retireLane lane

/-- LANE_TEST_END (R522–R524). -/
def execLaneTestEnd (lane : Nat) (passed : Bool) (s : State) : Outcome := edge (laneTestEnd lane passed) s

/-! ### Switch messages (R89) -/

/-- The source a switch message names; `none` for a reserved code. -/
def switchSource (source pos : Nat) : Option SliceSource :=
  match source with
  | 0 => if pos < 14 then some (.input pos) else none
  | 1 => some .zero
  | 2 => some .plus
  | 3 => some .minus
  | 4 => some .tone
  | _ => none

/-- The switch message of a control-lane flit, where its fields hold no reserved code. -/
def switchOf (flit : Nat) : Option SwitchMsg :=
  let slice := field 43 40 flit
  let source := field 39 37 flit
  let pos := field 36 33 flit
  if field 63 62 flit = 3 && field 53 46 flit = 0x10 && slice < 15 &&
      (source != 0 || slice = 14 || pos = slice) then
    (switchSource source pos).map (fun x => ⟨field 45 44 flit, slice, x, BitVec.ofNat 24 (field 32 9 flit)⟩)
  else none

/-- A message is due when (EPOCH − c) mod 2^24 lies in 1 to 2^23 − 1 (R89). -/
def switchDue (epoch : BitVec 24) (strobe : Nat) : Bool :=
  let d := (epoch.toNat + 2 ^ 24 - strobe % 2 ^ 24) % 2 ^ 24
  1 ≤ d && d ≤ 2 ^ 23 - 1

/-- SWITCH_MESSAGE: a due message is held, a past one discarded and counted; a flit that fails its check is
a failed flit of the control lane. A message that holds a reserved code, or a POSITION unequal to the SLICE of a home
slice, sets nothing and is not counted (DESIGN CHOICE, log entry 186). -/
def switchMessage (flit : BitVec 64) (strobe : BitVec 48) (s : State) : State :=
  let s := s.reachStrobe strobe.toNat
  if !flitGood 5 flit.toNat then flitReceive 5 flit s else
  if (s.sense.lanes.getD 5 {}).faulty then s else
  match switchOf flit.toNat with
  | none => s
  | some m =>
    if switchDue m.epoch strobe.toNat then { s with sense.switches := s.sense.switches ++ [m] }
    else { s with sense.controlFaults := s.sense.controlFaults + 1 }

/-- SWITCH_MESSAGE (R89). -/
def execSwitchMessage (flit : BitVec 64) (strobe : BitVec 48) (s : State) : Outcome :=
  edge (switchMessage flit strobe) s

/-- SWITCH_ACT: every message whose EPOCH equals bits [23:0] of the strobe count sets its slice's source. -/
def switchAct (strobe : BitVec 48) (s : State) : State :=
  let e := BitVec.ofNat 24 strobe.toNat
  let acting := s.sense.switches.filter (fun m => m.epoch == e)
  let s := { s.reachStrobe strobe.toNat with sense.switches := s.sense.switches.filter (fun m => m.epoch != e) }
  acting.foldl (fun s m => s.modSlice (sliceAt m.quarter m.slice) (fun x => { x with source := m.source })) s

/-- SWITCH_ACT (R89). -/
def execSwitchAct (strobe : BitVec 48) (s : State) : Outcome := edge (switchAct strobe) s

/-! ### The rotation (R106, R107) -/

/-- A slice is switched to the reference and its measurement begins at a strobe count, its parts `part` strobes long
(R107). -/
def State.measure (q slot start part : Nat) (s : State) : State :=
  s.modSlice (sliceAt q slot) (fun l => { l with source := .zero, meas := some { start := start, part := part } })

/-- Strobes of the settling after a connection to an input, 10 ms (R107). -/
def connectSettle : Nat := 160

/-- Strobes of a part of the wader's measurement, 60 ms, of a home slice's, 375 ms, and of the start's, 40 ms (R107,
R112). -/
def waderPart : Nat := 960
def homePart : Nat := 6000
def startPart : Nat := 640

/-- The strobe at which a switch made now acts. -/
def State.nextStrobeNow (s : State) : Nat := s.sense.strobe + 1

/-- A step begins in one quarter (R107 step 1). A test that replaces the wader's measurement skips the
position (R114). A full rotation is completed when position 0 begins after position 13 in a rotation that began at
position 0 (DESIGN CHOICE, log entry 141). -/
def stepQuarter (p q start : Nat) (s : State) : State :=
  let x := s.sense.quarters.getD q {}
  if x.stopped || x.rot != .idle || (s.sense.slices.getD (sliceAt q waderSlot) {}).retired then s else
  let s := s.modQuarter q (fun x =>
    { x with
      rotations := if p = 0 && x.step = 13 && x.fromZero then x.rotations + 1 else x.rotations
      fromZero := x.fromZero || p == 0
      step := p, cover := none, waderTestDue := false
      rot := if x.waderTestDue then .waderTest p else .waderRef p })
  s.measure q waderSlot start (if x.waderTestDue then homePart else waderPart)

/-- WADER_STEP_START: the step of position (s / 32,000) mod 14 begins in every quarter, once the inputs are
connected (R106, R112) and while the control lane serves (R524). -/
def waderStepStart (strobe : BitVec 48) (s : State) : State :=
  let n := strobe.toNat
  let s := s.reachStrobe n
  if !s.sense.connected || n % 32000 ≠ 0 || (s.sense.lanes.getD 5 {}).faulty then s
  else (List.range 4).foldl (fun s q => stepQuarter (n / 32000 % 14) q n s) s

/-- WADER_STEP_START (R106, R107). -/
def execWaderStepStart (strobe : BitVec 48) (s : State) : Outcome := edge (waderStepStart strobe) s

/-! ### Reference measurements (R107, R108, R113, R116) -/

/-- Strobes of settling at the start of a part, 5 ms (R107). -/
def settleStrobes : Nat := 80

/-- Every slice is measured at once, from a strobe on, with the parts of a start (R112). -/
def measureAll (k : Nat) (l : List Slice) : List Slice :=
  l.map (fun (x : Slice) => ({ x with meas := some { start := k, part := startPart } } : Slice))

/-- The raw sample `x` of strobe `k` is gathered, unless it falls in the settling of its part (R107, R108). The tone is
a square wave of 1,000 Hz, sixteen strobes to a period (R89). -/
def RefMeasure.gather (k : Nat) (x : Int) (m : RefMeasure) : RefMeasure :=
  let e := k - m.start
  if k < m.start || 4 * m.part ≤ e || e % m.part < settleStrobes then m else
  let m := { m with taken := m.taken + 1 }
  match e / m.part with
  | 0 => { m with zero := m.zero + x }
  | 1 => { m with plus := m.plus + x }
  | 2 => { m with minus := m.minus + x }
  | _ => { m with toneCos := m.toneCos + x * cosTurn k 16, toneSin := m.toneSin + x * sinTurn k 16 }

/-- Samples that each part gives. -/
def RefMeasure.samples (m : RefMeasure) : Nat := m.part - settleStrobes

/-- Every part has been gathered. -/
def RefMeasure.complete (m : RefMeasure) : Bool := m.taken == 4 * m.samples

/-- The coefficients that a measurement gives (R108): O_s the mean of the zero part; G_s the nominal difference of the
±400 mV parts, 2 × 0x4C_CCCD of full code, over the measured one; τ_s takes back the lag of the tone's fundamental
behind the strobe, sixteen periods to a turn. Signs and roundings: log entry 142. -/
def RefMeasure.coef (m : RefMeasure) : SliceCoef :=
  let d := m.plus - m.minus
  { gain := if d ≤ 0 then 0 else (roundEven (2 * 0x4CCCCD * 2 ^ 38 * m.samples) d.toNat).toNat
    offset := roundEven m.zero m.samples
    delay := toSigned 24 (angleOfVector 24 m.toneSin m.toneCos) }

/-- The absolute limits of R113 on G_s: 0.995–1.005 in UQ2.30. -/
def gainInside (g : Nat) : Bool := 995 * 2 ^ 30 ≤ 1000 * g && 1000 * g ≤ 1005 * 2 ^ 30

/-- The absolute limits of R113 on O_s (±0.002 of full code) and τ_s (±100 ns, unit 2^−20 period of
62.5 µs). -/
def coefInside (o d : Int) : Bool :=
  1000 * o.natAbs ≤ 2 * 2 ^ 31 && d.natAbs * 62500 ≤ 100 * 2 ^ 20

/-- The limits of R113 on the change since the previous measurement: ±50 ppm, ±64 metering LSB, ±5 ns. -/
def changeInside (c : SliceCoef) (g : Nat) (o d : Int) : Bool :=
  ((g : Int) - c.gain).natAbs * 1000000 ≤ 50 * c.gain &&
  (o - c.offset).natAbs ≤ 64 * 256 && (d - c.delay).natAbs * 62500 ≤ 5 * 2 ^ 20

/-- A measurement is within the limits of R113. The limits on change hold from the slice's first measurement of the
start on: before it no previous measurement stands (DESIGN CHOICE, log entry 143). -/
def measurementOk (x : Slice) (c : SliceCoef) : Bool :=
  gainInside c.gain && coefInside c.offset c.delay && (!x.measured || changeInside x.coef c.gain c.offset c.delay)

/-- The deviation of a gain that fails its absolute limits. -/
def gainDeviation (g : Nat) : Option Int := if gainInside g then none else some ((g : Int) - 2 ^ 30)

/-- A measurement has ended (R113, R124): its time and the changes it found, against the coefficients in force, and,
where it is within its limits and `apply` holds, its coefficients take effect. The changes saturate in their fields (log
entry 143). -/
def Slice.measureEnd (x : Slice) (t : Nat) (c : SliceCoef) (apply : Bool := true) : Slice :=
  { x with
    coef := if apply && measurementOk x c then c else x.coef
    measured := x.measured || (apply && measurementOk x c)
    meas := none
    gainFail := gainDeviation c.gain
    lastSec := t / tps, lastTick := t % tps
    changeG := satSigned 32 (roundEven (((c.gain : Int) - x.coef.gain) * 1000000000) x.coef.gain)
    changeT := satSigned 16 (c.delay - x.coef.delay)
    changeO := satSigned 16 (roundEven (c.offset - x.coef.offset) 256) }

/-- Two gain failures agree in sense and within 50 ppm (R116). -/
def failAlike (a b : Option Int) : Bool :=
  match a, b with
  | some x, some y => ((0 < x && 0 < y) || (x < 0 && y < 0)) && (x - y).natAbs * 1000000 ≤ 50 * 2 ^ 30
  | _, _ => false

/-- The gain failure of a slice of a quarter and that of the wader, or of a home slice where it is the wader's, are alike
while their twin verification agrees: the reference buffer is to blame (R116). The last twin verification judged in the
quarter stands for the pair, and before any it counts as agreeing (DESIGN CHOICE, log entry 144). -/
def State.bufferBlamed (s : State) (q slot : Nat) (dev : Option Int) : Bool :=
  let other := fun (p : Nat) => failAlike dev (s.sense.slices.getD (sliceAt q p) {}).gainFail
  (s.sense.quarters.getD q {}).twinAgreed && (if slot = waderSlot then (List.range 14).any other else other waderSlot)

/-- A channel instance (home slice or wader) becomes suspect and is counted (R113). -/
def State.suspect (c : Nat) (s : State) : State :=
  s.modChannel c (fun x => { x with suspect := true, suspects := x.suspects + 1 })

/-- The quarter's reference buffer is judged faulty: no slice is retired, and every channel is back on its home slice but
one that the wader delivers for good (R116). -/
def State.qrefFault (q : Nat) (s : State) : State :=
  (((s.returnHome q).stopRotation q).modQuarter q (fun x =>
    if x.permanent then x else { x with cover := none, standIn := none })).raise 0x24 [BitVec.ofNat 8 q]

/-- A slice is switched to the reference for its self-test of 1,500 ms, which repeats the four reference parts (R114). Each
part lasts as long as in a home slice's measurement, 375 ms (DESIGN CHOICE, log entry 187). -/
def State.testSlice (q slot : Nat) (s : State) : State := s.measure q slot s.nextStrobeNow homePart

/-- The twin window of a quarter opens once the connection just made has settled (R107). -/
def State.openTwin (q : Nat) (rot : Rotation) (s : State) : State :=
  s.modQuarter q (fun x => { x with rot := rot, twinFrom := s.nextStrobeNow + connectSettle, windowDirty := false })

/-- The home slice of position `p` is switched to the reference: measured, or tested where it is suspect (R107 step 6,
R114). -/
def homeToReference (q p : Nat) (s : State) : State :=
  if (s.sense.channels.getD (channelAt q p) {}).suspect then
    (s.modQuarter q (fun x => { x with rot := .homeTest p })).testSlice q p
  else (s.modQuarter q (fun x => { x with rot := .homeRef p })).measure q p s.nextStrobeNow homePart

/-- An accepted measurement of the wader: it takes the input of `p` in parallel with the home slice; on a
disabled channel the home slice is measured at once (R107). -/
def waderMeasured (q p : Nat) (s : State) : State :=
  if s.view.chanOn (channelAt q p) then
    ((s.openTwin q (.twin1 p)).modQuarter q (fun x => { x with cover := some p })).connect q waderSlot (.input p)
  else homeToReference q p s

/-- An accepted measurement of the home slice: it returns to its input for the second verification; on a
disabled channel the step is over. -/
def homeMeasured (q p : Nat) (s : State) : State :=
  let s := s.connect q p (.input p)
  if s.view.chanOn (channelAt q p) then
    s.openTwin q (.twin2 p)
  else s.modQuarter q (fun x => { x with rot := .idle })

/-- The slice and position that a rotation stage is measuring. -/
def Rotation.measuring : Rotation → Option (Bool × Nat)
  | .waderRef p => some (true, p)
  | .homeRef p => some (false, p)
  | .idle | .waderTest _ | .twin1 _ | .fadeTo _ | .homeTest _ | .twin2 _ | .fadeBack _ | .pre _ _ _ => none

/-- A measurement that has given coefficients `c` (R108, R113): within its limits it takes effect and the step goes
on; otherwise the slice keeps its coefficients and is tested at once, unless the quarter's reference buffer is to blame
(R116). -/
def measured (q p : Nat) (wader : Bool) (c : SliceCoef) (s : State) : State :=
  let slot := if wader then waderSlot else p
  let ok := measurementOk (s.sense.slices.getD (sliceAt q slot) {}) c
  let s := s.modSlice (sliceAt q slot) (fun l => l.measureEnd s.ticks c)
  if ok then
    if wader then waderMeasured q p s else homeMeasured q p (s.modChannel (channelAt q p) (fun c => { c with calAge := 0 }))
  else
    let s := s.suspect (if wader then 56 + q else channelAt q p)
    if s.bufferBlamed q slot (gainDeviation c.gain) then s.qrefFault q
    else (s.modQuarter q (fun x => { x with rot := if wader then .waderTest p else .homeTest p })).testSlice q slot

/-- REFERENCE_MEASUREMENT_END: the measurement of the slice that its quarter is measuring ends once every part has been
gathered (R107, R108). -/
def referenceMeasurementEnd (q slot : Nat) (s : State) : State :=
  match (s.sense.quarters.getD q {}).rot.measuring, (s.sense.slices.getD (sliceAt q slot) {}).meas with
  | some (wader, p), some m =>
    if slot = (if wader then waderSlot else p) ∧ m.complete = true then measured q p wader m.coef s else s
  | _, _ => s

/-- REFERENCE_MEASUREMENT_END (R107, R108, R113, R114, R116). -/
def execReferenceMeasurementEnd (quarter slot : Nat) (s : State) : Outcome := edge (referenceMeasurementEnd quarter slot) s

/-! ### Twin verifications and cross-fades (R109, R113) -/

/-- A channel's RMS is at least 5 % of the rated RMS input, 0.75 / √2 of full code (R113): its filtered
square is at least 0.000703125. -/
def State.rmsJudges (s : State) (c : Nat) : Bool :=
  let u := (s.billing.squares.getD c {}).out
  703125 * 2 ^ 46 ≤ u * 10 ^ 9

/-- A twin verification exceeds its limits: gain ±20 ppm, delay ±10 ns (unit 0.001 ppm and ps). -/
def twinExceeds (gain delay : Int) : Bool := 20000 < gain.natAbs || 10000 < delay.natAbs

/-- Samples of the twin window in progress (R107 steps 4 and 9, R114 step 6). -/
def Rotation.twinLength : Rotation → Nat
  | .twin1 _ => 1280
  | .twin2 _ => 2432
  | .pre _ .twin _ => 800
  | .idle | .waderRef _ | .waderTest _ | .fadeTo _ | .homeRef _ | .homeTest _ | .fadeBack _ | .pre _ _ _ => 0

/-- TWIN_VERIFICATION_END: once every sample of the window has passed the cross-fade proceeds either way; a judged excess
makes the home slice suspect at the first verification and the wader at the second, and at that of a pre-emption, whose
home slice has just passed its test as well (R114). -/
def twinVerificationEnd (q : Nat) (gain delay : Int) (s : State) : State :=
  let x := s.sense.quarters.getD q {}
  if s.sense.nextRaw < x.twinFrom + x.rot.twinLength then s else
  match x.rot with
  | .twin1 p =>
    let c := channelAt q p
    let judged := s.rmsJudges c && !x.windowDirty
    let bad := judged && twinExceeds gain delay
    let s := s.modQuarter q (fun x =>
      { x with rot := .fadeTo p, fade := some { pos := p, toWader := true },
               twinAgreed := if judged then !bad else x.twinAgreed })
    if bad then s.suspect c else s
  | .twin2 p =>
    let judged := s.rmsJudges (channelAt q p) && !x.windowDirty
    let bad := judged && twinExceeds gain delay
    let s := s.modQuarter q (fun x =>
      { x with rot := .fadeBack p, fade := some { pos := p, toWader := false },
               twinAgreed := if judged then !bad else x.twinAgreed, waderTestDue := x.waderTestDue || bad })
    if bad then s.suspect (56 + q) else s
  | .pre p .twin host =>
    let judged := s.rmsJudges (channelAt q p) && !x.windowDirty
    let bad := judged && twinExceeds gain delay
    let s := s.modQuarter q (fun x =>
      { x with rot := .pre p .fadeBack host, fade := some { pos := p, toWader := false },
               twinAgreed := if judged then !bad else x.twinAgreed, waderTestDue := x.waderTestDue || bad })
    if bad then s.suspect (56 + q) else s
  | _ => s

/-- TWIN_VERIFICATION_END (R107, R109, R113, R114). -/
def execTwinVerificationEnd (quarter : Nat) (gain delay : Int) (s : State) : Outcome :=
  edge (twinVerificationEnd quarter gain delay) s

/-- A pre-emption for position `c` begins with the wader free: it takes the input, settles for 10 ms and
fades in (R114 steps 3–4). -/
def preSettle (q c : Nat) (host : Bool) (s : State) : State :=
  (s.modQuarter q (fun x =>
    { x with rot := .pre c .fadeTo host, cover := some c
             fade := some { pos := c, toWader := true, wait := 160 } })).connect q waderSlot (.input c)

/-! ### Pre-emption and self-tests (R114–R117) -/

/-- The wader of a quarter can stand in for another channel. -/
def State.waderFree (s : State) (q : Nat) : Bool :=
  !(s.sense.quarters.getD q {}).permanent && !(s.sense.slices.getD (sliceAt q waderSlot) {}).retired

/-- A test that a pre-emption cuts short waits: the home slice's among the positions to be tested next, the wader's for
its next reference measurement (R114, R117). -/
def Quarter.cutShort (x : Quarter) : Quarter :=
  match x.rot with
  | .homeTest p => { x with waiting := x.waiting ++ [p] }
  | .waderTest _ => { x with waderTestDue := true }
  | .idle | .waderRef _ | .homeRef _ | .twin1 _ | .fadeTo _ | .twin2 _ | .fadeBack _ | .pre _ _ _ => x

/-- A pre-emption for position `c` begins (R114): a home slice on the reference returns to its input and the
wader hands that channel back first. Where the wader cannot stand in, being permanent or retired, the slice is tested at
once and goes on delivering its channel (DESIGN CHOICE, log entry 188). -/
def preempt (q c : Nat) (host : Bool) (s : State) : State :=
  let x := s.sense.quarters.getD q {}
  let test := fun (s : State) => (s.modQuarter q (fun x => { x with rot := .pre c .test host, fade := none })).testSlice q c
  if x.standIn = some c || !s.waderFree q then test ((s.modQuarter q Quarter.cutShort))
  else
    let s := (s.returnHome q).modQuarter q Quarter.cutShort
    match x.standIn with
    | some p =>
      s.modQuarter q (fun x =>
        { x with rot := .pre c .handBack host, fade := some { pos := p, toWader := false, wait := 160 } })
    | none => preSettle q c host s

/-- A pre-emption is over: the next position that waits for its test, if any, is next (R114). -/
def endPreemption (q : Nat) (s : State) : State :=
  let s := s.modQuarter q (fun x => { x with rot := .idle })
  match (s.sense.quarters.getD q {}).waiting with
  | [] => s
  | c :: rest => preempt q c false (s.modQuarter q (fun x => { x with waiting := rest }))

/-- A cross-fade of a quarter has ended (R107 steps 5–7 and 10, R114 steps 2, 4 and 7). -/
def fadeDone (q : Nat) (f : Fade) (s : State) : State :=
  let x := s.sense.quarters.getD q {}
  let s := s.modQuarter q (fun x => { x with fade := none, standIn := if f.toWader then some f.pos else none })
  match x.rot with
  | .fadeTo p => homeToReference q p s
  | .fadeBack _ => s.modQuarter q (fun x => { x with rot := .idle })
  | .pre c .handBack host => preSettle q c host s
  | .pre c .fadeTo host => (s.modQuarter q (fun x => { x with rot := .pre c .test host })).testSlice q c
  | .pre _ .fadeBack _ => endPreemption q s
  | _ => s

/-- One sample passes a quarter's cross-fade (R109). -/
def fadeSample (q : Nat) (s : State) : State :=
  match (s.sense.quarters.getD q {}).fade with
  | none => s
  | some f =>
    if 0 < f.wait then s.modQuarter q (fun x => { x with fade := some { f with wait := f.wait - 1 } })
    else if f.n + 1 < 64 then s.modQuarter q (fun x => { x with fade := some { f with n := f.n + 1 } })
    else fadeDone q f s

/-- Strobes of 28 s (R114). -/
def clipQuiet : Nat := 448000

/-- Strobes of 200 ms (R113). -/
def clipSustained : Nat := 3200

/-- A channel has stayed clipped for 200 ms without a break (R104, R113). -/
def Sense.clipped (g : Sense) (c : Nat) : Bool :=
  clipSustained ≤ g.clipBits.length && (g.clipBits.take clipSustained).all (fun b => b.getLsbD c)

/-- SUSTAINED_CLIP: pre-emption of the home slice, or, during another one of the quarter, its test after that; within
28 s of a passed test it is only logged, and of a slice already suspect the test is pending. -/
def sustainedClip (c : Nat) (s : State) : State :=
  if 56 ≤ c || !s.sense.clipped c then s else
  let q := quarterOf c
  let ch := s.sense.channels.getD c {}
  let recent : Bool := match ch.clipPass with
    | some k => decide (s.sense.nextStrobe < k + clipQuiet)
    | none => false
  if recent then
    (s.modChannel c (fun x => { x with suspects := x.suspects + 1 })).raise 0x20 (BitVec.ofNat 8 c :: zeros 4)
  else if ch.lost || ch.suspect || (s.sense.slices.getD (sliceOf c) {}).retired then s
  else
    match (s.sense.quarters.getD q {}).rot with
    | .pre _ _ _ => (s.suspect c).modQuarter q (fun x => { x with waiting := x.waiting ++ [positionOf c] })
    | _ => preempt q (positionOf c) false (s.suspect c)

/-- SUSTAINED_CLIP (R113, R114). -/
def execSustainedClip (channel : Nat) (s : State) : Outcome := edge (sustainedClip channel) s

/-- A retirement (R115): of a home slice the wader takes over for good, or, where it is already permanent, the channel is
lost, and where it is retired as well (DESIGN CHOICE, log entry 189: the table has no such row); of the wader every channel
stays on its home slice. -/
def State.retireSlice (c : Nat) (s : State) : State :=
  let q := quarterOf c
  let free := s.waderFree q
  let s := s.modSlice (sliceOf c) (fun l => { l with retired := true, meas := none })
  let s := s.modChannel c (fun x => { x with suspect := false })
  if 56 ≤ c then
    (((s.returnHome q).stopRotation q).modQuarter q (fun x => { x with cover := none, standIn := none })).raise 0x22
      [BitVec.ofNat 8 q]
  else if free then
    ((((s.stopRotation q).modChannel c (fun x => { x with calStale := (s.sense.channels.getD c {}).calStale })).modQuarter q
      (fun x => { x with permanent := true, standIn := some (positionOf c), cover := some (positionOf c) })).connect q
        waderSlot (.input (positionOf c))).raise 0x21 [BitVec.ofNat 8 c]
  else endPreemption q (s.loseChannel c)

/-- A passed self-test: the event is transient, logged and counted (R114); a test that the host asked for on a slice that
was not suspect follows no event. The coefficients that its reference parts gave take effect as those of a measurement do,
and CAL_AGE begins anew (DESIGN CHOICE, log entry 187); in a quarter whose rotation has stopped they are kept (R115,
R116). -/
def State.passSlice (c : Nat) (k : SliceCoef) (host : Bool) (s : State) : State :=
  let apply := !(s.sense.quarters.getD (quarterOf c) {}).stopped
  let none := host && !(s.sense.channels.getD c {}).suspect
  let s := s.modSlice (sliceOf c) (fun l => l.measureEnd s.ticks k apply)
  let s := s.modChannel c (fun x =>
    { x with suspect := false, transients := if none then x.transients else x.transients + 1,
             calAge := if apply then 0 else x.calAge })
  if none then s
  else
    (s.countIntegrity 11).raise 0x20
      (BitVec.ofNat 8 c :: leBytes 4 (resultWord 0 (if 56 ≤ c then 1 else 0) 1500))

/-- The slice that a quarter is testing: its slot, and whether the host asked for a pre-emption's test. -/
def Rotation.testing : Rotation → Option (Nat × Bool)
  | .waderTest _ => some (waderSlot, true)
  | .homeTest p => some (p, false)
  | .pre p .test host => some (p, host)
  | .idle | .waderRef _ | .homeRef _ | .twin1 _ | .fadeTo _ | .twin2 _ | .fadeBack _ | .pre _ _ _ => none

/-- Linearity errors, in 0.001 ppm of full code, lie within ±20 ppm (R114). -/
def linearityOk (errors : List Int) : Bool := errors.all (fun e => e.natAbs ≤ 20000)

/-- What follows a passed test: the step, or the pre-emption, goes on (R107, R114). -/
def testPassed (q : Nat) (s : State) : State :=
  let x := s.sense.quarters.getD q {}
  match x.rot with
  | .waderTest _ => s.modQuarter q (fun x => { x with rot := .idle })
  | .homeTest p => homeMeasured q p s
  | .pre p .test host =>
    let s := s.modChannel (channelAt q p) (fun y => { y with clipPass := some s.sense.nextStrobe })
    let s := s.connect q p (.input p)
    if x.standIn = some p && !x.permanent then s.openTwin q (.pre p .twin host) else endPreemption q s
  | _ => s

/-- SLICE_SELFTEST_END: the test ends once its reference parts have been gathered; it passes where the coefficients they
give lie within the limits of R113 and every linearity error within its own. A pass is transient, a fail retires the slice,
unless the quarter's reference buffer is to blame (R116). -/
def sliceSelftestEnd (q : Nat) (errors : List Int) (s : State) : State :=
  match (s.sense.quarters.getD q {}).rot.testing with
  | none => s
  | some (slot, host) =>
    let c := if slot = waderSlot then 56 + q else channelAt q slot
    let x := s.sense.slices.getD (sliceAt q slot) {}
    match x.meas with
    | none => s
    | some m =>
      if !m.complete then s
      else if linearityOk errors && measurementOk x m.coef then testPassed q (s.passSlice c m.coef host)
      else if s.bufferBlamed q slot (gainDeviation m.coef.gain) then s.qrefFault q
      else s.retireSlice c

/-- SLICE_SELFTEST_END (R114–R117). -/
def execSliceSelftestEnd (quarter : Nat) (errors : List Int) (s : State) : Outcome := edge (sliceSelftestEnd quarter errors) s

/-- A slice is on the reference for a test or a measurement (R113). -/
def Rotation.onReference (slot : Nat) : Rotation → Bool
  | .waderRef _ | .waderTest _ => slot = waderSlot
  | .homeRef p | .homeTest p | .pre p .test _ => slot = p
  | .idle | .twin1 _ | .fadeTo _ | .twin2 _ | .fadeBack _ | .pre _ _ _ => false

/-- MODULATOR_RESET: the samples whose windows hold its clocks will carry the full-scale code (R103); on the reference it
makes the slice suspect, which is tested in place of its measurement (R113, R114): in the measurement of a start, at the
slice's first step; during a test the suspicion is under test already. -/
def modulatorReset (q slot : Nat) (s : State) : State :=
  let c := if slot = waderSlot then 56 + q else channelAt q slot
  let starting := !s.sense.connected && (s.sense.slices.getD (sliceAt q slot) {}).meas.isSome
  let s := s.modSlice (sliceAt q slot) (fun l => { l with resets := l.resets ++ [s.sense.modCount.toNat] })
  let s := s.modChannel c (fun x => { x with modResets := x.modResets + 1 })
  let rot := (s.sense.quarters.getD q {}).rot
  if starting then
    let s := s.suspect c
    if slot = waderSlot then s.modQuarter q (fun x => { x with waderTestDue := true }) else s
  else if !rot.onReference slot then s
  else
    let s := s.suspect c
    match rot with
    | .waderRef p => (s.modQuarter q (fun x => { x with rot := .waderTest p })).testSlice q slot
    | .homeRef p => (s.modQuarter q (fun x => { x with rot := .homeTest p })).testSlice q slot
    | _ => s

/-- MODULATOR_RESET (R103, R113). -/
def execModulatorReset (quarter slot : Nat) (s : State) : Outcome := edge (modulatorReset quarter slot) s

/-- Samples of one nominal cycle: round(16,000 / f_n) (R99). -/
def seedLength (fnom : Nat) : Nat := if fnom = 60 then 267 else 320

/-- ROGOWSKI_SEED: the mean of the integrator's output over the first cycle, rounded to nearest, half to even, is taken
off its state once. The rounding is a DESIGN CHOICE (log entry 145). -/
def rogowskiSeed (c : Nat) (s : State) : State :=
  let n := seedLength (s.view.chanFnom c)
  if s.view.chanSensor c ≠ 3 then s else
  s.modChannel c (fun x =>
    if !x.stageE.seeded && n ≤ x.stageE.seedCount then
      { x with stageE := { x.stageE with
        acc := satSigned 64 (x.stageE.acc - roundEven x.stageE.seedSum n), seeded := true
        seed := roundEven x.stageE.seedSum n } }
    else x)

/-- ROGOWSKI_SEED (R99). -/
def execRogowskiSeed (channel : Nat) (s : State) : Outcome := edge (rogowskiSeed channel) s

/-- The start's measurement of a slice ends (R112): a completed one is judged by R113; one that has not gathered its
samples gives nothing. -/
def startMeasured (c : Nat) (s : State) : State :=
  let x := s.sense.slices.getD (sliceOf c) {}
  match x.meas with
  | some m =>
    if !m.complete then s.modSlice (sliceOf c) (fun l => { l with meas := none })
    else
      let ok := measurementOk x m.coef
      let s := s.modSlice (sliceOf c) (fun l => l.measureEnd s.ticks m.coef)
      if ok then s.modChannel c (fun y => { y with calAge := 0 })
      else
        let s := s.suspect c
        if 56 ≤ c then s.modQuarter (c - 56) (fun q => { q with waderTestDue := true }) else s
  | none => s

/-- Gains that failed alike in the start's measurements put the blame on the quarter's reference buffer (R116). -/
def startBlame (q : Nat) (s : State) : State :=
  if s.bufferBlamed q waderSlot (s.sense.slices.getD (sliceAt q waderSlot) {}).gainFail then s.qrefFault q else s

/-- Every measurement of the start has been gathered (R112). -/
def Sense.measured (g : Sense) : Bool := g.slices.all (fun x => x.meas.all RefMeasure.complete)

/-- The inputs are connected (R112, R540 steps 9 and 10): the measurements of the start take effect, every home slice
is on its input, and s1 is the first strobe after the settling. The waders' measurements are judged last. -/
def connectInputs (s : State) : State :=
  let s := (List.range 56).foldl (fun s c => startMeasured c s) s
  let s := (List.range 4).foldl (fun s q => startBlame q (startMeasured (56 + q) s)) s
  let s1 := (s.sense.modCount.toNat + 255) / 256 + connectSettle
  { s with
    sense.slices := s.sense.slices.zipIdx.map (fun x =>
      { x.1 with source := if x.2 % 15 = waderSlot then .zero else .input (x.2 % 15) })
    sense.connected := true
    sense.first := s1
    sense.nextStrobe := s1 }

/-! ### Channel objects (R119–R124) -/

/-- STATE of a channel (R120). Where several hold, lost stands before disabled, disabled before permanently stood in,
and that before the rest; in a cross-fade, and in the 10 ms of settling before that of a pre-emption, the channel reads
twin, and so does the wader (DESIGN CHOICE, log entry 146). -/
def State.channelState (s : State) (c : Nat) : Nat :=
  let x := s.sense.quarters.getD (quarterOf c) {}
  let p := positionOf c
  if (s.sense.channels.getD c {}).lost then 5
  else if !s.view.chanOn c then 0
  else if x.permanent && x.standIn == some p then 4
  else
    match x.rot with
    | .homeTest k => if k = p then 6 else if x.standIn == some p then 3 else 1
    | .pre k .test _ => if k = p then 6 else if x.standIn == some p then 3 else 1
    | .twin1 k => if k = p then 2 else 1
    | .twin2 k => if k = p then 2 else 1
    | .pre k .twin _ => if k = p then 2 else 1
    | _ => if x.fade.any (fun f => f.pos == p) then 2 else if x.standIn == some p then 3 else 1

/-- The status word of a channel (R120). CAL_AGE reads 65,535 until a measurement has been accepted since the start
(DESIGN CHOICE, log entry 146). -/
def State.channelStatus (s : State) (c : Nat) : Nat :=
  let ch := s.sense.channels.getD c {}
  s.channelState c * 2 ^ 28 + flag ch.clip * 2 ^ 27 + flag ch.suspect * 2 ^ 26 + flag ch.calStale * 2 ^ 25 +
    flag (s.view.chanSensor c == 3 && !ch.stageE.seeded) * 2 ^ 24 + flag ch.patched * 2 ^ 23 +
    flag ch.lostRun * 2 ^ 22 + ch.calAge.toNat

/-- STATE of a wader (R121); in a cross-fade, and in the settling before it, twin (DESIGN CHOICE, log entry 146). -/
def State.waderState (s : State) (q : Nat) : Nat :=
  let x := s.sense.quarters.getD q {}
  if (s.sense.slices.getD (sliceAt q waderSlot) {}).retired then 5
  else if x.permanent then 4
  else
    match x.rot with
    | .waderRef _ => 0
    | .waderTest _ => 6
    | .twin1 _ | .twin2 _ | .pre _ .twin _ => 1
    | .fadeTo _ | .homeRef _ | .homeTest _ | .fadeBack _ | .pre _ _ _ =>
      if x.cover.isNone then 0 else if x.fade.isSome then 1 else 2
    | .idle => if x.standIn.isSome then 2 else 3

/-- The status word of a wader (R121). -/
def State.waderStatus (s : State) (q : Nat) : Nat :=
  let x := s.sense.quarters.getD q {}
  let cover := match x.cover with
    | some p => channelAt q p
    | none => 63
  s.waderState q * 2 ^ 28 + cover * 2 ^ 22 + (if x.stopped then 63 else x.step) * 2 ^ 16 + x.rotations.toNat

/-- The 12 bytes of a slice's coefficients (R124). -/
def SliceCoef.bytes (c : SliceCoef) : Bytes := leBytes 4 c.gain ++ leInt 4 c.offset ++ leInt 4 c.delay

/-- The 16 bytes of the last reference measurement (R124). -/
def Slice.lastMeasurement (x : Slice) : Bytes :=
  leBytes 6 x.lastSec ++ leBytes 2 x.lastTick ++ leInt 4 x.changeG ++ leInt 2 x.changeT ++ leInt 2 x.changeO

/-- A calibration member that was written acts (R96). -/
def Channel.apply (c : Channel) (w : CalWrite) : Channel :=
  match w.member with
  | 3 => { c with gain := w.value.toNat }
  | 4 => { c with offset := w.value }
  | _ => { c with delay := w.value }

/-- The channel with every member that waits as it was written last. -/
def Channel.written (c : Channel) : Channel := c.writes.foldl Channel.apply c

/-- The calibration a read of member 3, 4 or 5 returns: the value written last (R63). -/
def Channel.calibration (c : Channel) (m : Nat) : Bytes :=
  match m with
  | 3 => leBytes 4 c.written.gain
  | 4 => leInt 4 c.written.offset
  | _ => leInt 4 c.written.delay

/-- The members of class 1 instance `c` (R119, R124) but for its settings. -/
def State.readChannel (s : State) (c m : Nat) : Bytes :=
  let ch := s.sense.channels.getD c {}
  let sl := s.sense.slices.getD (sliceOf c) {}
  match m with
  | 0 => leBytes 4 (if c < 56 then s.channelStatus c else s.waderStatus (c - 56))
  | 3 | 4 | 5 => ch.calibration m
  | 6 => sl.coef.bytes
  | 7 => leBytes 4 (s.billing.latch.published.clips.getD c (0, 0)).1.toNat ++
         leBytes 4 (s.billing.latch.published.clips.getD c (0, 0)).2.toNat
  | 8 => leBytes 2 ch.suspects.toNat ++ leBytes 2 ch.transients.toNat ++ leBytes 2 ch.interpolated.toNat ++
         leBytes 2 ch.modResets.toNat
  | 9 => sl.lastMeasurement
  | _ => []


end Sys2Proof.Machine
end

