-- ==== Sys2Proof/Machine/Reckon.lean ====
section
/-! DEFINITION. Reckon.lean: the per-sample path of an engine on its billing state (chapter "Reckoning
energy"): filters, gating, quadrants, registers, measures, pulses and demand sums. -/

namespace Sys2Proof.Machine
open Sys2Proof

/-! ### Accumulator words (R137, R138) -/

/-- The value of an accumulator word in units of 2^−48 quantum. -/
def Acc.total (a : Acc) : Nat := a.count.toNat * 2 ^ 48 + a.res.toNat

/-- An increment of 2^−48 quanta added; whole quanta carry into the count. -/
def Acc.add (a : Acc) (inc : Nat) : Acc :=
  let r := a.res.toNat + inc
  { count := a.count + BitVec.ofNat 64 (r / 2 ^ 48), res := BitVec.ofNat 48 r }

/-- A signed increment added to a net register (R138). -/
def Acc.addSigned (a : Acc) (inc : Int) : Acc :=
  let r := a.res.toNat + inc
  { count := a.count + BitVec.ofInt 64 (r.fdiv (2 ^ 48)), res := BitVec.ofInt 48 r }

/-- The signed value of a net register in units of 2^−48 quantum. -/
def Acc.signedTotal (a : Acc) : Int := a.count.toInt * 2 ^ 48 + a.res.toNat

/-- A word holding a given value. -/
def Acc.of (v : Int) : Acc :=
  { count := BitVec.ofInt 64 (v.fdiv (2 ^ 48)), res := BitVec.ofInt 48 v }

/-! ### What each service is made of -/

/-- An element: its number, its current channel and its voltage channel as instances. -/
structure ElemPlan where
  elem : Nat
  cur : Nat
  volt : Nat
deriving DecidableEq, Repr

/-- An enabled service with its bus and elements (R22). -/
structure SvcPlan where
  n : Nat
  bus : Nat
  elems : List ElemPlan
deriving DecidableEq, Repr

/-- The elements of a service. -/
def View.elemPlans (v : View) (n : Nat) : List ElemPlan :=
  (List.range 3).filterMap (fun e =>
    (v.current n e).map (fun c => ⟨e, c, 48 + field 2 0 (v.bindingOf c)⟩))

/-- The enabled services. -/
def View.plans (v : View) : List SvcPlan :=
  (List.range 16).filterMap (fun n =>
    if v.svcOn n then
      let es := v.elemPlans n
      match es with
      | e :: _ => some ⟨n, v.busOf (e.volt - 48), es⟩
      | [] => none
    else none)

/-! ### Stages 1 to 5 (R128, R129) -/

/-- The sample of a channel `j` frames back, 0 before the ring began. -/
def ringAt (ring : List RingFrame) (j c : Nat) : Int :=
  match ring[j]? with
  | some f => f.samples.getD c 0
  | none => 0

/-- Values of a channel, newest first. -/
def ringChannel (ring : List RingFrame) (n c : Nat) : List Int := (ring.take n).map (fun f => f.samples.getD c 0)

/-- The amplitude correction C(f_b) = 1 / |H(f_b)|, UQ2.30 (R129). -/
def shiftGain (freq : Nat) : Nat :=
  min (roundEven (2 ^ 123) (shiftAmplitude shiftTaps freq).natAbs).toNat (2 ^ 32 - 1)

/-- The sum over the odd distances: older and newer values at distances 1, 2, 3, …. -/
def shiftSum : List Int → List Int → List Int → Int
  | t :: ts, a :: _ :: as, b :: _ :: bs => t * (a - b) + shiftSum ts as bs
  | t :: _, a :: _, b :: _ => t * (a - b)
  | _, _, _ => 0

/-- Stage 2: H over the 1,025 latest values, newest first, the filter beginning empty (R142); then C(f_b), to Q1.23 (R129). A
value outside the format saturates (DESIGN CHOICE, log entry 154). -/
def shiftStage (freq : Nat) (us : List Int) : Int :=
  let us := us ++ List.replicate (1025 - us.length) 0
  satSigned 24 (roundEven (shiftSum shiftTaps (us.drop 513) (us.take 512).reverse * shiftGain freq) (2 ^ 61))

/-- Samples by which stage 3 delays (R128). -/
def shiftDelay : Nat := 512

/-- p_e and q_e of an element, Q2.46, at the frame in front of the ring (stages 1–4). The negation of −1.0 saturates, as
its format has no +1.0 (DESIGN CHOICE, log entry 154). -/
def products (ring : List RingFrame) (freq : Nat) (invert : Bool) (p : ElemPlan) : Int × Int :=
  let i := ringAt ring shiftDelay p.cur
  let i := if invert then satSigned 24 (-i) else i
  (ringAt ring shiftDelay p.volt * i, shiftStage freq (ringChannel ring 1025 p.volt) * i)

/-- Stage 5: a product weighted to 2^−60 quanta. -/
def weigh (k : Nat) (p : Int) : Int := roundEven (k * p) (2 ^ 34)

/-! ### The direction filter (R130, R131) -/

/-- The five lengths. -/
def boxLengths : List Nat := [320, 300, 284, 267, 256]

/-- One value into a moving average; its running sum comes out. -/
def Box.push (len : Nat) (b : Box) (x : Int) : Box × Int :=
  let old := b.hist.getD (len - 1) 0
  let sum := b.sum + x - old
  ({ hist := (x :: b.hist).take len, sum := sum }, sum)

/-- One value through the cascade: the new averages and the sum out of the last. -/
def boxesPush : List Nat → List Box → Int → List Box × Int
  | len :: ls, b :: bs, x =>
    let r := b.push len x
    let t := boxesPush ls bs r.2
    (r.1 :: t.1, t.2)
  | _, _, x => ([], x)

/-- One value into F: the exact sum comes out, to be scaled by the reciprocal. -/
def Filt.push (f : Filt) (x : Int) : Filt × Int :=
  let r := boxesPush boxLengths f.boxes x
  ({ boxes := r.1 }, r.2)

/-- The reciprocal of the product of the lengths, unit 2^−96, held to a relative precision of 2^−40
(R131). -/
def filterRecip : Nat :=
  let ideal := 2 ^ 96 / 1863548928000
  max (ideal - ideal / 2 ^ 40) (min (ideal + ideal / 2 ^ 40) Config.filterRecip)

/-- A sum of F out of 2^−60 quanta scaled to 2^−48 quanta (stage 6). -/
def scalePower (sum : Int) : Int := roundEven (sum * filterRecip) (2 ^ 108)

/-- A sum of F out of squares scaled to UQ2.46 (stage 6). -/
def scaleSquare (sum : Int) : Nat := (roundEven (sum * filterRecip) (2 ^ 96)).toNat

/-- Stage 7: the RMS of a filtered square, UQ1.31, truncated. -/
def rmsOf (square : Nat) : Nat := isqrt (square * 2 ^ 16)

/-! ### Intake of one raw sample -/

/-- Stages 1 to 6 of an element. -/
def Element.intake (ring : List RingFrame) (freq : Nat) (invert : Bool) (p : ElemPlan) (e : Element) : Element :=
  let w := products ring freq invert p
  let fp := e.fp.push (weigh e.weight w.1)
  let fq := e.fq.push (weigh e.weight w.2)
  { e with fp := fp.1, fq := fq.1, pbar := scalePower fp.2, qbar := scalePower fq.2 }

/-- Stages 3, 4 and 6 of a lone square. -/
def ChannelSquare.intake (ring : List RingFrame) (c : Nat) (q : ChannelSquare) : ChannelSquare :=
  let x := ringAt ring shiftDelay c
  let f := q.filt.push (x * x)
  { q with filt := f.1, out := scaleSquare f.2 }

/-- A service takes one raw sample in. -/
def Service.intake (v : View) (ring : List RingFrame) (freq : Nat) (p : SvcPlan) (sv : Service) : Service :=
  { sv with
    warm := min (sv.warm + 1) 2447
    elements := p.elems.foldl (fun es e =>
      modAt es e.elem (Element.intake ring freq (v.svcInvert p.n e.elem) e)) sv.elements }

/-- The billing state takes one raw sample in: squares of every enabled channel, then the services. -/
def Billing.intake (v : View) (ring : List RingFrame) (b : Billing) : Billing :=
  { b with
    raw := b.raw + 1
    squares := (List.range 56).foldl (fun qs c =>
      if v.chanOn c then modAt qs c (ChannelSquare.intake ring c) else qs) b.squares
    services := v.plans.foldl (fun ss p =>
      modAt ss p.n (Service.intake v ring (b.buses.getD p.bus {}).freq p)) b.services }

/-! ### Filling the filters of a new binding (R142) -/

/-- A service whose binding or weights changed: filters emptied, no element live, filled from the ring; the
elements take their weights in force. -/
def Service.refill (v : View) (ring : List RingFrame) (freq : Nat) (p : SvcPlan) (sv : Service) : Service :=
  let fresh : Service :=
    { sv with elements := tab 3 (fun e => { weight := if p.elems.any (fun x => x.elem == e) then v.weightOf p.n e else 0 })
              warm := 0, live := 0, reversed := 0, noload := true }
  let filled := (List.range 1423).reverse.foldl (fun s j => s.intake v (ring.drop j) freq p) fresh
  { filled with warm := min ring.length 2447 }

/-- The filters of a service filled from the ring, its live states and its warm-up as they are. -/
def Service.refillKept (v : View) (ring : List RingFrame) (freq : Nat) (p : SvcPlan) (sv : Service) : Service :=
  let f := sv.refill v ring freq p
  { f with
    warm := sv.warm, live := sv.live, reversed := sv.reversed, noload := sv.noload
    elements := f.elements.zipWith (fun (x y : Element) => ({ x with live := y.live } : Element)) sv.elements }

/-- The squares filter of a channel filled from the ring. -/
def ChannelSquare.refill (ring : List RingFrame) (c : Nat) : ChannelSquare :=
  (List.range 1423).reverse.foldl (fun q j => q.intake (ring.drop j) c) {}

/-! ### Gating and service sums (R132–R135) -/

/-- N of the starting threshold 1/N of a START code (R132). -/
def startDivisor (code : Nat) : Nat :=
  [200000, 100000, 40000, 20000, 10000, 5000, 2000, 1000].getD code 40000

/-- I_e is at least the threshold, (0.75 / √2) / N of full code. -/
def atThreshold (code rms : Nat) : Bool :=
  9 * 2 ^ 62 ≤ 32 * startDivisor code * startDivisor code * rms * rms

/-- I_e is below 0.9 of the threshold. -/
def belowThreshold (code rms : Nat) : Bool :=
  100 * (32 * startDivisor code * startDivisor code * rms * rms) < 81 * 9 * 2 ^ 62

/-- The live state after a sample (R132). -/
def liveNext (live : Bool) (code rms : Nat) : Bool :=
  if live then !belowThreshold code rms else atThreshold code rms

/-- S̄_e of the arithmetic method, 2^−48 quanta (R134). -/
def apparentOf (k u i : Nat) : Nat := (roundEven ((k * u * i : Nat) : Int) (2 ^ 62)).toNat

/-- The quadrant of R135, 0 to 3. -/
def quadrantOf (p q : Int) : Nat :=
  if 0 ≤ p then (if 0 ≤ q then 0 else 3) else (if 0 ≤ q then 1 else 2)

/-- What one reckoned sample of a service adds: quadrant, |P̄|, |Q̄| and S̄, in 2^−48 quanta. -/
structure Increment where
  quadrant : Nat := 0
  p : Nat := 0
  q : Nat := 0
  s : Nat := 0
deriving DecidableEq, Repr

/-- Stages 7 to 9: live states, service sums and the increment. -/
def Service.reckon (v : View) (squares : List ChannelSquare) (p : SvcPlan) (sv : Service) : Service × Increment :=
  let start := v.svcStart p.n
  let es := p.elems.foldl (fun es e =>
    modAt es e.elem (fun x => { x with live := liveNext x.live start (rmsOf (squares.getD e.cur {}).out) })) sv.elements
  let on := p.elems.filter (fun e => (es.getD e.elem {}).live)
  let pb := sumBy (fun e => (es.getD e.elem {}).pbar) on
  let qb := sumBy (fun e => (es.getD e.elem {}).qbar) on
  let sb :=
    if v.svcVector p.n then isqrt (pb * pb + qb * qb).toNat
    else (on.map (fun e =>
      apparentOf (es.getD e.elem {}).weight (rmsOf (squares.getD e.volt {}).out)
        (rmsOf (squares.getD e.cur {}).out))).foldl (· + ·) 0
  let live := (on.map (fun e => 2 ^ e.elem)).foldl (· + ·) 0
  let rev := ((on.filter (fun e => decide ((es.getD e.elem {}).pbar < 0) != decide (pb < 0))).map
    (fun e => 2 ^ e.elem)).foldl (· + ·) 0
  ({ sv with elements := es, pbar := pb, qbar := qb, sbar := sb, live := live, reversed := rev
             noload := on.isEmpty, quadrant := quadrantOf pb qb },
   { quadrant := quadrantOf pb qb, p := pb.natAbs, q := qb.natAbs, s := sb })

/-- Stage 10: the registers of the sample's quadrant (R136) and, under NETTING, the net registers (R138). -/
def Service.accumulate (netting : Bool) (i : Increment) (sv : Service) : Service :=
  let r := modAt sv.regs i.quadrant (·.add i.p)
  let r := modAt r (4 + i.quadrant) (·.add i.q)
  let r := modAt r (8 + i.quadrant) (·.add i.s)
  { sv with
    regs := r
    netP := if netting then sv.netP.addSigned sv.pbar else sv.netP
    netQ := if netting then sv.netQ.addSigned sv.qbar else sv.netQ }

/-- The import quadrants I and IV. -/
def importQuadrant (k : Nat) : Bool := k == 0 || k == 3

/-- The part of an increment that a demand quantity sums (R185). -/
def Increment.demand (i : Increment) (k : Nat) : Nat :=
  match k with
  | 0 => if importQuadrant i.quadrant then i.p else 0
  | 1 => if importQuadrant i.quadrant then 0 else i.p
  | 2 => if importQuadrant i.quadrant then i.s else 0
  | _ => if importQuadrant i.quadrant then 0 else i.s

/-- The part of an increment that a pulse quantity sums (R169). -/
def Increment.pulse (i : Increment) (qty : Nat) : Nat :=
  match qty with
  | 1 => if importQuadrant i.quadrant then i.p else 0
  | 2 => if importQuadrant i.quadrant then 0 else i.p
  | 3 => i.p
  | 4 => if i.quadrant ≤ 1 then i.q else 0
  | 5 => if i.quadrant ≤ 1 then 0 else i.q
  | 6 => if importQuadrant i.quadrant then i.s else 0
  | 7 => if importQuadrant i.quadrant then 0 else i.s
  | _ => 0

/-- Conditions of the channels of a service at the timestamp of a reckoned sample (R149). -/
structure Conditions where
  clipped : Bool := false
  patched : Bool := false
  lost : Bool := false
  calStale : Bool := false
deriving DecidableEq, Repr

/-- The conditions that a ring frame gives the channels of a service. -/
def conditionsOf (f : Option RingFrame) (p : SvcPlan) : Conditions :=
  let cs := p.elems.flatMap (fun e => [e.cur, e.volt])
  match f with
  | some f =>
    { clipped := cs.any (fun c => f.clip.getLsbD c), patched := cs.any (fun c => f.patched.getLsbD c)
      lost := cs.any (fun c => f.lost.getLsbD c), calStale := cs.any (fun c => f.stale.getLsbD c) }
  | none => {}

/-- The interval accumulators take one reckoned sample (R147, R149, R153, R159). -/
def Service.gather (bus : Bus) (squares : List ChannelSquare) (c : Conditions) (p : SvcPlan) (dir gate : Bool)
    (sv : Service) : Service :=
  let sq := fun (ch : Nat) => (squares.getD ch {}).out
  let n := sv.now
  let warm := sv.warm < 2447
  { sv with
    profileFlags := sv.profileFlags ||| (flag c.clipped + 2 * flag c.patched + 4 * flag c.lost + 8 * flag c.calStale +
      16 * flag dir + 32 * flag sv.noload + 64 * flag (!sv.noload) + 128 * flag gate + 256 * flag warm +
      512 * flag (bus.state == .nominal) + 1024 * flag (bus.state == .hold))
    now :=
      { n with
        samples := n.samples + 1
        usq := p.elems.foldl (fun l e => modAt l e.elem (· + sq e.volt)) n.usq
        isq := p.elems.foldl (fun l e => modAt l e.elem (· + sq e.cur)) n.isq
        p := n.p + sv.pbar, q := n.q + sv.qbar, s := n.s + sv.sbar, freq := n.freq + bus.freq
        clipped := n.clipped || c.clipped, patched := n.patched || c.patched, lost := n.lost || c.lost
        calStale := n.calStale || c.calStale, dirChange := n.dirChange || dir
        noload := n.noload || sv.noload, load := n.load || !sv.noload
        reversed := n.reversed ||| sv.reversed
        nominal := n.nominal || bus.state == .nominal, hold := n.hold || bus.state == .hold
        warmup := n.warmup || warm } }

/-- A demand sub-interval takes the increment of a reckoned sample (R185). -/
def Service.demandAdd (i : Increment) (sv : Service) : Service :=
  { sv with demand := { sv.demand with now :=
      { sv.demand.now with sums := tab 4 (fun k => (sv.demand.now.sums.getD k {}).add (i.demand k)) } } }

/-- One reckoned sample of one service: gating, sums, registers and accumulators. -/
def Service.sample (v : View) (b : Billing) (c : Conditions) (p : SvcPlan) (sv : Service) : Service × Increment :=
  let r := sv.reckon v b.squares p
  let neg := decide (r.1.pbar < 0)
  let dir := sv.signKnown && sv.negative != neg
  let gate := r.1.live != sv.live
  let s1 := r.1.accumulate (v.svcNetting p.n) r.2
  let s2 := s1.gather (b.buses.getD p.bus {}) b.squares c p dir gate
  ({ s2.demandAdd r.2 with signKnown := true, negative := neg }, r.2)

/-! ### Pulses (R171, R172) -/

/-- The start of the pulse whose conversion falls at (W − a) / d of the period after strobe `s`, with the
latency of 1,280 periods, rounded to 1 µs (R172): a period is 62.5 µs. -/
def pulseInstant (s w a d : Nat) : Nat :=
  (roundEven (((s + 1280) * d + (w - a) : Nat) * 125 : Nat) (2 * d)).toNat

/-- The greatest owed count (R173). -/
def owedMax : Nat := 2 ^ 32 - 1

/-- Conversions of one sample: `k` more at most; `a` is the accumulator before the sample and `d` its
increment, `done` the pulses already converted in it. -/
def convert : Nat → Nat → Nat → Nat → Nat → Nat → PulseEngine → PulseEngine
  | 0, _, _, _, _, _, x => x
  | k + 1, s, w, a, d, done, x =>
    if w = 0 || x.acc.total < w || owedMax ≤ x.due.length then x
    else
      convert k s w a d (done + 1)
        { x with acc := Acc.of ((x.acc.total : Int) - w), converted := x.converted + 1
                 due := x.due ++ [pulseInstant s ((done + 1) * w) (min a ((done + 1) * w)) (max d 1)] }

/-- An output takes the increment of a reckoned sample stamped `s` (R171, R172); its weight is `w` quanta. -/
def PulseEngine.take (s w inc : Nat) (x : PulseEngine) : PulseEngine :=
  if w = 0 then x else
  let a := x.acc.total
  convert (inc / (w * 2 ^ 48) + 2) s (w * 2 ^ 48) a inc 0 { x with acc := x.acc.add inc }

/-! ### Measures (R147, R148, R158, R159) -/

/-- Power in µW of a sum of `n` samples in 2^−48 quanta: P̄ × q × 3,600 × 16,000. -/
def powerOf (quantum n : Nat) (x : Int) : Int :=
  if n = 0 then 0 else roundEven (x * 10 ^ quantum * 57600000) (2 ^ 48 * n)

/-- A physical RMS: UQ1.31 times the scale, to nearest. -/
def physical (rms scale : Nat) : Nat := (roundEven ((rms * scale : Nat) : Int) (2 ^ 31)).toNat

/-- P / S in Q1.31, 1.0 saturated; 0 where S is 0 (R148). -/
def powerFactor (p s : Int) : Int := if s ≤ 0 then 0 else satSigned 32 (roundEven (p * 2 ^ 31) s.toNat)

/-- A frequency in µHz. -/
def microHz (f : Nat) : Nat := (roundEven ((f * 10 ^ 6 : Nat) : Int) (2 ^ 40)).toNat

/-- The common layout of the interval and present measures (R158). -/
def measureBytes (head : Nat) (us is : List Nat) (p q s pf : Int) (freq : Nat) : Bytes :=
  leBytes 4 head ++ tabBytes 3 (fun e => leBytes 4 (us.getD e 0)) ++ tabBytes 3 (fun e => leBytes 4 (is.getD e 0)) ++
    leInt 8 p ++ leInt 8 q ++ leInt 8 s ++ leInt 4 pf ++ leBytes 4 freq ++ zeros 4

/-- The present measures of a service at a boundary sample (R147). -/
def presentBytes (v : View) (b : Billing) (stamp : Nat) (p : SvcPlan) (sv : Service) : Bytes :=
  let rms := fun (ch : Nat) => rmsOf (b.squares.getD ch {}).out
  let at3 := fun (f : ElemPlan → Nat) => tab 3 (fun e =>
    match p.elems.find? (fun x => x.elem == e) with
    | some x => f x
    | none => 0)
  let q := v.svcQuantum p.n
  measureBytes (stamp % 2 ^ 32) (at3 (fun x => physical (rms x.volt) (v.vfs p.n x.elem)))
    (at3 (fun x => physical (rms x.cur) (100 * v.ifs p.n x.elem))) (powerOf q 1 sv.pbar) (powerOf q 1 sv.qbar)
    (powerOf q 1 sv.sbar) (powerFactor sv.pbar sv.sbar) (microHz (b.buses.getD p.bus {}).freq)

/-- The element powers (R159): filtered values, live or not. -/
def powersBytes (v : View) (p : SvcPlan) (sv : Service) : Bytes :=
  tabBytes 3 (fun e =>
    if p.elems.any (fun x => x.elem == e) then
      let x := sv.elements.getD e {}
      leInt 8 (powerOf (v.svcQuantum p.n) 1 x.pbar) ++ leInt 8 (powerOf (v.svcQuantum p.n) 1 x.qbar)
    else zeros 16)

/-- The interval measures (R147): means over the samples of the interval. -/
def intervalBytes (v : View) (p : SvcPlan) (n : Interval) : Bytes :=
  let mean := fun (x : Nat) => if n.samples = 0 then 0 else isqrt (x * 2 ^ 16 / n.samples)
  let at3 := fun (f : ElemPlan → Nat) => tab 3 (fun e =>
    match p.elems.find? (fun x => x.elem == e) with
    | some x => f x
    | none => 0)
  let q := v.svcQuantum p.n
  measureBytes n.samples
    (at3 (fun x => physical (mean (n.usq.getD x.elem 0)) (v.vfs p.n x.elem)))
    (at3 (fun x => physical (mean (n.isq.getD x.elem 0)) (100 * v.ifs p.n x.elem)))
    (powerOf q n.samples n.p) (powerOf q n.samples n.q) (powerOf q n.samples n.s) (powerFactor n.p n.s)
    (if n.samples = 0 then 0 else microHz (n.freq / n.samples))

/-- The interval flags (R159). -/
def intervalFlags (n : Interval) : Nat :=
  flag n.clipped * 2 ^ 31 + flag n.patched * 2 ^ 30 + flag n.lost * 2 ^ 29 + flag n.calStale * 2 ^ 28 +
  flag n.dirChange * 2 ^ 27 + flag (n.noload && !n.load) * 2 ^ 26 + flag (n.noload && n.load) * 2 ^ 25 +
  n.reversed * 2 ^ 22 + flag n.nominal * 2 ^ 21 + flag n.hold * 2 ^ 20 + flag n.warmup * 2 ^ 19

/-! ### Line-cycle boundaries reached (R147) -/

/-- The strobe count of an instant in 2^−16 period: the first at or after it (R163). -/
def strobeOf (instant : Nat) : Nat := (instant + 65535) / 65536

/-- The boundaries of a bus that the reckoned sample stamped `stamp` has reached are done with; a service of
the bus takes its present measures there, in a catch-up only at the last boundary of a latch interval (R307). -/
def Billing.present (v : View) (plans : List SvcPlan) (replay : Bool) (b : Billing) : Billing :=
  let forms := fun (m : LineMark) =>
    !replay || (b.latch.captured.getLast?).any (fun c => c.boundary.b == strobeOf m.instant)
  let hit := fun (bus : Bus) => bus.waiting.any (fun m => decide (strobeOf m.instant ≤ b.stamp) && forms m)
  { b with
    services := plans.foldl (fun ss p =>
      if hit (b.buses.getD p.bus {}) then
        modAt ss p.n (fun sv =>
          { sv with present := presentBytes v b b.stamp p sv, powers := powersBytes v p sv })
      else ss) b.services
    buses := b.buses.map (fun (bus : Bus) =>
      ({ bus with waiting := bus.waiting.filter (fun m => b.stamp < strobeOf m.instant)
                  reached := (((bus.waiting.filter (fun m => strobeOf m.instant ≤ b.stamp)).getLast?).map (·.instant)).orElse
                    (fun _ => bus.reached) } : Bus)) }

/-! ### One reckoned sample of all services -/

/-- The reckoned sample stamped `stamp` accumulated for every service, channel and output. -/
def Billing.accumulate (v : View) (replay : Bool) (frame : Option RingFrame) (stamp : Nat) (b : Billing) :
    Billing :=
  let plans := v.plans
  let r := plans.foldl (fun (acc : List Service × List (Nat × Increment)) p =>
      let x := (acc.1.getD p.n {}).sample v b (conditionsOf frame p) p
      (modAt acc.1 p.n (fun _ => x.1), acc.2 ++ [(p.n, x.2)])) (b.services, [])
  let b : Billing := { b with
    stamp := stamp
    intervalCount := b.intervalCount + 1
    services := r.1
    squares := b.squares.map (fun (q : ChannelSquare) => ({ q with sum := q.sum + q.out } : ChannelSquare)) }
  let pulses := (List.range 8).foldl (fun ps o =>
    let qty := v.poQty o
    if qty = 0 then ps else
    let inc := ((r.2.filter (fun x => v.poHas o x.1)).map (fun x => x.2.pulse qty)).foldl (· + ·) 0
    modAt ps o (PulseEngine.take stamp (v.weight o) inc)) b.pulses
  { b with pulses := pulses }.present v plans replay

/-! ### Reads of the service objects (R152–R160) -/

/-- The binding member (R155). -/
def View.bindingBytes (v : View) (n : Nat) : Bytes :=
  let es := v.elemPlans n
  if v.svcOn n then
    [BitVec.ofNat 8 es.length, BitVec.ofNat 8 ((v.svcBus n).getD 0xFF)] ++
      tabBytes 3 (fun e =>
        match es.find? (fun x => x.elem == e) with
        | some x => [BitVec.ofNat 8 x.cur, BitVec.ofNat 8 x.volt]
        | none => [0xFF, 0xFF])
  else [0, 0xFF] ++ List.replicate 6 0xFF

/-- The scales member (R156). -/
def View.scaleBytes (v : View) (n : Nat) : Bytes :=
  tabBytes 3 (fun e => if (v.current n e).isSome then leBytes 4 (v.ifs n e) ++ leBytes 4 (v.vfs n e) else zeros 8)

/-- The service status word (R153). -/
def serviceStatus (bus : Bus) (sv : Service) : Nat :=
  sv.quadrant * 2 ^ 30 + flag sv.noload * 2 ^ 29 + flag (sv.warm < 2447) * 2 ^ 28 + sv.live * 2 ^ 25 +
  sv.reversed * 2 ^ 22 + (match bus.state with | .nominal => 0 | .locked => 1 | .hold => 2) * 2 ^ 20 +
  flag sv.now.dirChange * 2 ^ 19 + flag sv.now.clipped * 2 ^ 18 + flag sv.now.patched * 2 ^ 17 +
  flag sv.now.lost * 2 ^ 16 + flag sv.now.calStale * 2 ^ 15

/-- The demand member (R193). -/
def DemandValue.bytes (d : DemandValue) : Bytes :=
  tabBytes 4 (fun k => leBytes 8 (d.values.getD k 0)) ++ leBytes 6 d.endSec ++ zeros 2 ++
    leBytes 4 (flag d.partialFlag * 2 ^ 31 + flag d.timeStep * 2 ^ 30 + flag d.tripped * 2 ^ 29) ++
    [BitVec.ofNat 8 d.covered] ++ zeros 3

/-- A maximum demand record (R194). -/
def MaxDemand.bytes (m : MaxDemand) : Bytes :=
  leBytes 8 m.value ++ leBytes 6 m.endSec ++ leBytes 2 (flag m.partialFlag * 2 ^ 15)

/-- The counts of twelve registers (R157). -/
def regCounts (rs : List Acc) : Bytes := tabBytes 12 (fun k => leBytes 8 (rs.getD k {}).count.toNat)

/-- The residues of twelve registers (R157). -/
def regResidues (rs : List Acc) : Bytes := tabBytes 12 (fun k => leBytes 6 (rs.getD k {}).res.toNat)

/-- The net registers member (R157). -/
def netBytes (p q : Acc) : Bytes :=
  leBytes 8 p.count.toNat ++ leBytes 6 p.res.toNat ++ leBytes 8 q.count.toNat ++ leBytes 6 q.res.toNat

/-- Size of a member of class 2 (R152, R192); 0 where there is none. -/
def serviceSize (m : Nat) : Nat :=
  [4, 4, 8, 24, 24, 96, 72, 28, 64, 64, 48, 4, 8, 48, 64, 2].getD m 0

/-- The members of class 2 instance `n` but for its image members 1 and 12 (R152–R159, R192–R194). -/
def State.readService (s : State) (n m : Nat) : Bytes :=
  let v := s.view
  let sv := s.billing.services.getD n {}
  let lt := s.billing.latch.published.services.getD n {}
  if m = 2 then v.bindingBytes n
  else if m = 3 then v.scaleBytes n
  else if !v.svcOn n then zeros (serviceSize m)
  else
    match m with
    | 0 => leBytes 4 (serviceStatus (s.billing.buses.getD ((v.svcBus n).getD 0) {}) sv)
    | 4 => tabBytes 3 (fun e =>
        if (v.current n e).isSome then leBytes 8 (sv.elements.getD e {}).weight else zeros 8)
    | 5 => regCounts lt.regs
    | 6 => regResidues lt.regs
    | 7 => netBytes lt.netP lt.netQ
    | 8 => fit 64 lt.measures
    | 9 => fit 64 sv.present
    | 10 => fit 48 sv.powers
    | 11 => leBytes 4 lt.flags
    | 13 => sv.demand.last.bytes
    | 14 => tabBytes 4 (fun k => (sv.demand.maxima.getD k {}).bytes)
    | 15 => zeros 2
    | _ => []

end Sys2Proof.Machine
end

