-- ==== Sys2Proof/Machine/Latch.lean ====
section
/-! DEFINITION. Latch.lean: frequency tracking and line-cycle boundaries (R143–R146), the latch (R161–R167),
pulse outputs (R169–R177), load-control outputs (R178–R182, R612) and demand (R183–R188, R613). -/

namespace Sys2Proof.Machine
open Sys2Proof

/-! ### Line cycles -/

/-- A bus changed. -/
def State.modBus (b : Nat) (f : Bus → Bus) (s : State) : State :=
  { s with billing.buses := modAt s.billing.buses b f }

/-- An analysis bus changed. -/
def State.modXaBus (b : Nat) (f : XaBus → XaBus) (s : State) : State :=
  { s with xa.buses := modAt s.xa.buses b f }

/-- The frequency of a nominal Hz figure, unit 2^−40 Hz. -/
def freqOfHz (hz : Nat) : Nat := hz * 2 ^ 40

/-- The period of a frequency in 2^−16 metering period. -/
def periodOf (freq : Nat) : Nat := if freq = 0 then 320 * 65536 else (16000 * 2 ^ 56 + freq / 2) / freq

/-- Units released by configurations that apply. -/
def releasesOf (l : List Applying) : BitVec 5 := l.foldl (fun r x => r ||| x.release) 0

/-- The view once the configurations `l`, some of those whose boundaries are fixed, have taken effect. -/
def State.viewAfter (s : State) (l : List Applying) : View :=
  match l.getLast? with
  | some x => viewOf x.config.entries (s.start.heldMask &&& ~~~releasesOf l).toNat
  | none => s.view

/-- The settings that pace the latch: those of a configuration whose boundary is already fixed, for the
cycles counted from that boundary on (R167). -/
def State.paceView (s : State) : View := s.viewAfter s.start.applying

/-- The settings that hold for the sample stamped `k` (R25). -/
def State.viewAt (s : State) (k : Nat) : View := s.viewAfter (s.start.applying.filter (fun x => decide (x.bound ≤ k)))

/-- The strobe count from which warm-up after the start has ended (R142, R540 step 12). -/
def State.warmEnd (s : State) : Nat := s.firstRaw + 2447

/-- Cycles of an analysis window of a bus (R203). -/
def View.windowCycles (v : View) (b : Nat) : Nat := if v.busFnom b = 60 then 12 else 10

/-- The last open window sum ends at a strobe count, and the next window's begins. -/
def turnSums (strobe : Nat) (l : List WinSum) : List WinSum :=
  l.map (fun w => if w.b.isNone then { w with b := some strobe } else w) ++ [{ a := strobe }]

/-- A window of a bus that spans `span` cycles begins at an instant. -/
def XaBus.begin (span instant : Nat) (synth : Bool) (x : XaBus) : XaBus :=
  { x with start := some instant, startSynth := synth, cycles := 0, span := span, sums := turnSums (strobeOf instant) x.sums }

/-- The engines in service can carry a configuration of load index `load` whole (R329). -/
def State.carries (s : State) (load : Nat) : Bool := s.engines.partnerOk || decide (load ≤ 10000)

/-- Extended analysis is suspended, and no configuration whose boundary is fixed resumes it (R222). -/
def State.xaStopped (s : State) : Bool := s.xa.suspended && !(!s.start.applying.isEmpty && s.carries s.paceView.load)

/-- The windows of a bus begin again (R203): the one in progress is left, and the next boundary starts one. -/
def XaBus.restart (x : XaBus) : XaBus :=
  { x with start := none, startSynth := false, cycles := 0, sums := x.sums.filter (fun w => w.b.isSome) }

/-- A record offered to the mere in a tier (R287): 0 seep, 1 pool, 2 peat, 3 pinned, 4 meta. -/
def State.offer (tier : Nat) (r : MereRec) (s : State) : State :=
  { s with archive.offered := s.archive.offered ++ [(tier, r)] }

/-- The pool gap record owed after a suspension is written, stamped with a chronicle tick (R254); no window of the
suspension is in progress any more. -/
def writePoolGap (tick : Nat) (s : State) : State :=
  if !s.recording.poolGap then s else
  let mask := ((List.range 8).map (fun b => flag (!(s.view.busChans b).isEmpty) * 2 ^ b)).foldl (· + ·) 0
  { s.offer 1 { bytes := [0x22, 1, BitVec.ofNat 8 mask, 0] ++ timeBytes tick ++ zeros 4, time := tick } with
    recording.poolGap := false
    xa.buses := if s.xa.suspended then s.xa.buses.map XaBus.restart else s.xa.buses }

/-- A line-cycle boundary paces the analysis windows of its bus (R203). While they are suspended (R221) it only brings
the bus to its window boundary, where a pool gap record is owed (R254). -/
def xaBoundary (b instant : Nat) (synth : Bool) (s : State) : State :=
  let stopped := s.xaStopped
  let owed := s.recording.poolGap && s.engines.takeover.isNone
  if strobeOf instant < s.warmEnd || ((s.paceView.busChans b).isEmpty && s.paceView.latchBus ≠ b) || (stopped && !owed)
  then s else
  let x := s.xa.buses.getD b {}
  if x.start.isSome && x.cycles + 1 < x.span then
    s.modXaBus b (fun x => { x with cycles := x.cycles + 1 })
  else
    let s := if owed then writePoolGap (s.timeOf (strobeOf instant)) s else s
    if stopped then s
    else
      s.modXaBus b (fun x =>
        let ended := match x.start with
          | some a => [{ a := a, b := instant, cycles := x.span, synth := x.startSynth || synth }]
          | none => []
        { x.begin (s.paceView.windowCycles b) instant synth with ended := x.ended ++ ended })

/-- A LATCH_NOW taken before a strobe forces a boundary there: the first after it has been taken (R166). -/
def Work.forces (strobe : Nat) : Work → Bool
  | .latchNow asked none => decide (asked < strobe)
  | _ => false

/-- The boundary that a waiting LATCH_NOW forces has fallen at a strobe: its point of no return (R79). -/
def hitLatchNow (strobe : Nat) (s : State) : State :=
  { s with link.outstanding := s.link.outstanding.map (fun (c : Command) =>
      match c.work with
      | .latchNow asked none => if asked < strobe then ({ c with work := .latchNow asked (some strobe) } : Command) else c
      | _ => c) }

/-- A boundary after strobe `b` that a LATCH_NOW forced is none any more: it waits for the next one (R166, R167). -/
def unhitLatchNow (b : Nat) (s : State) : State :=
  { s with link.outstanding := s.link.outstanding.map (fun (c : Command) =>
      match c.work with
      | .latchNow asked (some k) => if b < k then ({ c with work := .latchNow asked none } : Command) else c
      | _ => c) }

/-- A line-cycle boundary of the pacing bus is counted once it is judged; a LATCH_NOW that waits for it forces it (R161,
R166). -/
def countCycle (strobe : Nat) (synth : Bool) (s : State) : State :=
  let forced := s.link.outstanding.any (fun c => c.work.forces strobe)
  hitLatchNow strobe { s with billing.latch.fresh := s.billing.latch.fresh ++ [{ b := strobe, synth := synth, forced := forced }] }

/-- A line-cycle boundary of the pacing bus waits to be judged; the first one after warm-up closes the lead-in and is not
counted (R161, R165). -/
def paceBoundary (strobe : Nat) (synth : Bool) (s : State) : State :=
  let l := s.billing.latch
  if l.leadIn then
    if strobe < s.warmEnd then s
    else
      { s with
        billing.latch := { l with leadIn := false, leadInterval := true, cycles := 0 }
        start.leadBoundary := some strobe }
  else countCycle strobe synth s

/-- A line-cycle boundary of a bus falls at an instant (R145, R146): nearer to the last one than half the period in force
there it is skipped. -/
def layBoundary (b instant : Nat) (synth : Bool) (s : State) : State :=
  let bus := s.billing.buses.getD b {}
  let near : Bool := match bus.lastBoundary with
    | some l => decide (instant < l + bus.lastHalf)
    | none => false
  if near then s else
  let s := s.modBus b (fun x =>
    { x with lastBoundary := some instant, lastHalf := periodOf x.freq / 2, waiting := x.waiting ++ [{ instant := instant, synth := synth }] })
  let s := xaBoundary b instant synth s
  if s.paceView.latchBus = b then paceBoundary (strobeOf instant) synth s else s

/-- The reference channel of a bus: its lowest-numbered voltage channel whose U_e is at least 0.2 of the rated RMS input of
0.75 / √2 (R143): its square, U_e being truncated in UQ1.31, is at least 0.01125. -/
def State.busReference (s : State) (b : Nat) : Option Nat :=
  ((s.paceView.busChans b).find? (fun u =>
    decide (1125 * 2 ^ 62 ≤ rmsOf (s.billing.squares.getD (48 + u) {}).out ^ 2 * 10 ^ 5))).map (48 + ·)

/-- A period in 2^−16 metering period is valid (R144): 16,000/65 to 16,000/45. -/
def periodValid (p : Nat) : Bool := 16000 * 65536 ≤ p * 65 && p * 45 ≤ 16000 * 65536

/-- f_b from the latest valid periods, at most four (R144). -/
def freqOfPeriods (ps : List Nat) : Nat :=
  let sum := ps.foldl (· + ·) 0
  if sum = 0 then 0 else (16000 * 2 ^ 56 * ps.length + sum / 2) / sum

/-- The instant up to which metering samples have reached the engines. -/
def State.liveInstant (s : State) : Nat := s.sense.nextStrobe * 65536

/-- Two successive valid periods that differ by no more than 0.5 % (R145). -/
def periodsLock (p q : Nat) : Bool := decide (200 * ((p : Int) - q).natAbs ≤ q)

/-- A crossing on the reference in force ends a period (R144, R145). -/
def crossingNext (bus : Bus) (instant : Nat) : Bus :=
  match bus.lastCross with
  | none => { bus with lastCross := some instant }
  | some c =>
    let p := instant - c
    if periodValid p then
      let ps := (p :: bus.periods).take 4
      let locked := bus.state == .locked || (bus.lastValid && periodsLock p (bus.periods.headD 0))
      { bus with
        lastCross := some instant, lastValid := true, validCross := some instant
        periods := ps, validCount := bus.validCount + 1
        state := if locked then .locked else bus.state
        freq := if locked then freqOfPeriods ps else bus.freq
        nextSynth := if locked then none else bus.nextSynth }
    else { bus with lastCross := some instant, lastValid := false }

/-- The reference that a crossing belongs to is the one in force from here on: the periods of a former one no longer
count, and the interval that spans the change is none (R144). -/
def Bus.follow (channel : Nat) (bus : Bus) : Bus :=
  if bus.reference = some channel then bus
  else { bus with reference := some channel, periods := [], lastCross := none, lastValid := false }

/-- L1, L2 and L3: the enabled voltage channels of ZL_BUS, ascending (R349, R362). -/
def View.lineChans (v : View) : List Nat := v.busChans v.zlBus

/-- The angle by which a crossing at `x` follows one at `c`, unit 2^−16 cycle, with a period `p`. -/
def angleBehind (p c x : Nat) : Nat := (2 * ((((x : Int) - c).emod p).toNat * 65536) + p) / (2 * p) % 65536

/-- A rising crossing of L1 for the power line (R349): that of `channel` where it is L1's, less the last measured angle of
another channel to L1, or one at the held period. While it is L1's own, the angles of the other channels are measured
(R362). -/
def lineCrossing (b : Nat) (channel : Option Nat) (instant : Nat) (s : State) : State :=
  match s.view.lineChans with
  | [] => s
  | l1 :: rest =>
    if b ≠ s.view.zlBus || !s.part.fitZlk then s else
    let p := periodOf (s.billing.buses.getD b {}).freq
    let own := channel = some (48 + l1)
    let shift := match channel with
      | some c => if own then 0 else s.line.angles.getD (c - 48) 0 * p / 65536
      | none => 0
    let angle := fun (u : Nat) (a : Nat) =>
      match s.line.rises.getD u none with
      | some x => if own && rest.contains u && x ≤ instant + 2 * p && instant ≤ x + 2 * p then angleBehind p instant x else a
      | none => a
    { s with
      line.anchor := if s.line.state = .off then .none else if own then .fromL1 else .synthesised
      line.crossings := ((instant - shift) :: s.line.crossings).take 64
      line.angles := tab 8 (fun u => angle u (s.line.angles.getD u 0)) }

/-- ZERO_CROSSING: the oldest crossing detected on the reference of a bus is followed; in the locked state it is a
line-cycle boundary (R143–R145). -/
def zeroCrossing (b : Nat) (s : State) : State :=
  match (s.billing.buses.getD b {}).found with
  | [] => s
  | (channel, instant) :: rest =>
    let s := s.modBus b (fun bus => crossingNext ({ bus with found := rest }.follow channel) instant)
    let s := lineCrossing b (some channel) instant s
    if (s.billing.buses.getD b {}).state == .locked then layBoundary b instant false s else s

/-- ZERO_CROSSING (R143–R146). -/
def execZeroCrossing (bus : Nat) (s : State) : Outcome := edge (zeroCrossing bus) s

/-- A locked bus loses its lock: three periods have passed since the last valid crossing, or no channel qualifies as its
reference (R145). -/
def State.holdDue (s : State) (b : Nat) : Bool :=
  let bus := s.billing.buses.getD b {}
  bus.state == .locked && bus.found.isEmpty &&
    ((s.busReference b).isNone || bus.validCross.any (fun c => decide (c + 3 * periodOf bus.freq ≤ s.liveInstant)))

/-- Where no channel qualifies, the crossing of L1 is synthesised at the held period (R349). -/
def lineHeld (b instant : Nat) (s : State) : State :=
  if (s.busReference b).isNone then lineCrossing b none instant s else s

/-- FREQUENCY_HOLD: the boundaries of the periods since the last valid crossing are laid, three at most, and the next
ones follow at the held period (R145). -/
def frequencyHold (b : Nat) (s : State) : State :=
  let bus := s.billing.buses.getD b {}
  match s.holdDue b, bus.validCross with
  | true, some c =>
    let p := periodOf bus.freq
    let past := ([1, 2, 3].filter (fun k => decide (c + k * p ≤ s.liveInstant)))
    let s := s.modBus b (fun x =>
      { x with state := .hold, lastValid := false, nextSynth := some (c + (past.length + 1) * p) })
    past.foldl (fun s k => layBoundary b (c + k * p) true (lineHeld b (c + k * p) s)) s
  | _, _ => s

/-- FREQUENCY_HOLD (R145). -/
def execFrequencyHold (bus : Nat) (s : State) : Outcome := edge (frequencyHold bus) s

/-- SYNTHESISED_BOUNDARY: the next boundary of a bus in nominal or hold has come and is laid, and the one after it lies a
period further (R145, R162). -/
def synthesisedBoundary (b : Nat) (s : State) : State :=
  let bus := s.billing.buses.getD b {}
  match bus.nextSynth with
  | none => s
  | some i =>
    if bus.state == .locked || s.liveInstant < i then s
    else layBoundary b i true (lineHeld b i (s.modBus b (fun x => { x with nextSynth := some (i + periodOf x.freq) })))

/-- SYNTHESISED_BOUNDARY (R145, R146). -/
def execSynthesisedBoundary (bus : Nat) (s : State) : Outcome := edge (synthesisedBoundary bus) s

/-- A nominal bus takes a new nominal frequency. -/
def Bus.renominal (fnom : Nat) (bus : Bus) : Bus :=
  if bus.state == .nominal then { bus with freq := freqOfHz fnom } else bus

/-- A bus in the nominal state, its boundaries counted from a strobe (R145); those laid beyond it are void. -/
def Bus.nominalFrom (fnom strobe : Nat) (bus : Bus) : Bus :=
  let upTo := fun (i : Nat) => decide (strobeOf i ≤ strobe)
  { bus with state := .nominal, freq := freqOfHz fnom, periods := [], found := [], lastCross := none, lastValid := false
             validCross := none, reference := none
             waiting := bus.waiting.filter (fun m => upTo m.instant), lastBoundary := bus.lastBoundary.filter upTo
             nextSynth := some (strobe * 65536 + periodOf (freqOfHz fnom)) }

/-- The voltage buses member (R160). A bus with no enabled voltage channel is not configured. -/
def State.busBytes (s : State) (b : Nat) : Bytes :=
  if (s.view.busChans b).isEmpty then leBytes 4 0 ++ leBytes 4 (3 * 2 ^ 30 + 63 * 2 ^ 24)
  else
    let x := s.billing.buses.getD b {}
    leBytes 4 (microHz x.freq) ++
      leBytes 4 ((match x.state with | .nominal => 0 | .locked => 1 | .hold => 2) * 2 ^ 30 +
        ((s.busReference b).getD 63) * 2 ^ 24 + x.validCount.toNat)

/-! ### The latch -/

/-- The latched copy of a service (R164). -/
def latchService (v : View) (b : Billing) (n : Nat) : LatchedService :=
  let sv := b.services.getD n {}
  match v.plans.find? (fun p => p.n == n) with
  | some p => { regs := sv.regs, netP := sv.netP, netQ := sv.netQ, measures := intervalBytes v p sv.now
                flags := intervalFlags sv.now, demand := sv.demand, presentS := getU sv.present 44 8 }
  | none => { regs := sv.regs, netP := sv.netP, netQ := sv.netQ, demand := sv.demand }

/-- The RMS of each channel over the interval (R160): 0 while disabled. -/
def latchRms (v : View) (b : Billing) (samples c : Nat) : Nat :=
  if v.chanOn c && samples ≠ 0 then isqrt ((b.squares.getD c {}).sum * 2 ^ 16 / samples) else 0

/-- Everything that a latch at a boundary copies, as it stands (R164, R449). -/
def State.captureNow (s : State) (bd : Boundary) : Capture :=
  let v := s.view
  let b := s.billing
  let t := s.timeOf bd.b
  { boundary := bd, sec := t / tps, tick := t % tps
    services := tab 16 (latchService v b)
    clips := (s.sense.channels.take 56).map (fun c => (c.clipsNow, c.clipsStart))
    rms := tab 56 (latchRms v b b.intervalCount)
    pulses := b.pulses.map (fun p => { converted := p.converted, acc := p.acc, origin := p.origin })
    mask := ((List.range 16).map (fun n => flag (v.svcOn n) * 2 ^ n)).foldl (· + ·) 0
    quanta := tab 16 v.svcQuantum
    cfgSeq := s.start.config.seq.toNat
    settings := tab 8 (fun o => v (idx 3 o 1)) }

/-- The capture of a latch whose samples are all accumulated (R164); the interval accumulators begin the next
interval empty. -/
def captureLatch (bd : Boundary) (s : State) : State :=
  let b := s.billing
  let cap := s.captureNow bd
  { s with
    billing :=
      { b with
        latch := { b.latch with captured := b.latch.captured ++ [cap] }
        intervalCount := 0
        services := b.services.map (fun (x : Service) => ({ x with now := {} } : Service))
        squares := b.squares.map (fun (x : ChannelSquare) => ({ x with sum := 0 } : ChannelSquare))
        pulses := b.pulses.map (fun (x : PulseEngine) => ({ x with lagSeen := false } : PulseEngine)) }
    sense.channels := s.sense.channels.map (fun (c : Channel) =>
      ({ c with clipsNow := 0, clip := false, patched := false, lostRun := false } : Channel)) }

/-- The latch status member (R191). -/
def State.latchStatus (s : State) : Bytes :=
  let c := s.billing.latch.published
  let b := c.boundary
  leBytes 6 b.b ++ leBytes 2 b.cycles ++ leBytes 6 c.sec ++ leBytes 2 c.tick ++
    leBytes 2 (flag b.leadIn + 2 * flag b.forced + 4 * flag b.synth + 8 * flag b.gap) ++ zeros 2

/-! ### Pulse outputs -/

/-- A pulse output of the sluice changed. -/
def State.modPulse (o : Nat) (f : PulseOut → PulseOut) (s : State) : State :=
  { s with sluice.pulses := modAt s.sluice.pulses o f }

/-- A pulse output of the engine changed. -/
def State.modEnginePulse (o : Nat) (f : PulseEngine → PulseEngine) (s : State) : State :=
  { s with billing.pulses := modAt s.billing.pulses o f }

/-- The sluice accepts output commands: billing ready has passed (R538), it is not in HOLD (R317), and no
supply-fail warning stands (R586). -/
def State.sluiceOpen (s : State) : Bool := s.ready && !s.sluice.hold && !s.power.warning

/-- The sluice begins at an instant a pulse that was scheduled for `due` (R173, R197): the width and the polarity in force
from here on are the settings' (R177), and the next may begin 2 × WIDTH later. -/
def beginPulse (o due t : Nat) (s : State) : State :=
  let s := s.modEnginePulse o (fun x =>
    { x with lateness := min (t - due) (2 ^ 32 - 1), lagSeen := x.lagSeen || decide (due < t) })
  (s.modPulse o (fun x =>
    { x with pulse := true, ends := t + 1000 * s.view.poWidth o, notBefore := t + 2000 * s.view.poWidth o
             polarity := bit 16 (s.view.po o) })).auxEventAt t (3 + o)

/-- PULSE_START: a tail pulse goes first (R177); then the first converted pulse whose scheduled start has come,
unless the sluice has begun its number before (R176). -/
def pulseStart (o t : Nat) (s : State) : State :=
  let po := s.sluice.pulses.getD o {}
  let pe := s.billing.pulses.getD o {}
  if !s.sluiceOpen || po.pulse || t < po.notBefore then s
  else
    match po.tail, pe.due with
    | d :: ds, _ => beginPulse o d t (s.modPulse o (fun x => { x with tail := ds }))
    | [], [] => s
    | [], d :: ds =>
      if t < d || s.view.poQty o = 0 then s else
      let number := pe.converted - BitVec.ofNat 64 ds.length
      let s := s.modEnginePulse o (fun x => { x with due := ds })
      if number ≤ po.lastBegun then s
      else
        beginPulse o d t (s.modPulse o (fun x => { x with lastBegun := number, emitted := x.emitted + 1 }))

/-- The clock of the MOD domain has come to an instant in µs of strobe time. -/
def State.reachMicros (t : Nat) (s : State) : State := s.reachClock ((t * 512 + 124) / 125)

/-- PULSE_START (R172, R173, R176, R177). -/
def execPulseStart (output instant : Nat) (s : State) : Outcome :=
  edge (fun s => pulseStart output instant (s.reachMicros instant)) s

/-- PULSE_END: the width has run, and the output returns to its inactive level (R173). -/
def pulseEnd (o t : Nat) (s : State) : State :=
  let po := s.sluice.pulses.getD o {}
  if po.pulse && po.ends ≤ t then (s.modPulse o (fun x => { x with pulse := false })).auxEventAt po.ends (11 + o) else s

/-- PULSE_END (R173, R174). -/
def execPulseEnd (output instant : Nat) (s : State) : Outcome :=
  edge (fun s => pulseEnd output instant (s.reachMicros instant)) s

/-- Pulses owed: scheduled starts that have passed, and the tail (R173, R177). -/
def State.owed (s : State) (o : Nat) : Nat :=
  ((s.billing.pulses.getD o {}).due.filter (fun d => decide (d < s.micros))).length + (s.sluice.pulses.getD o {}).tail.length

/-- Pulses saved as owed: every converted pulse not begun, and the tail (R175, R177). -/
def State.owedSaved (s : State) (o : Nat) : Nat :=
  min ((s.billing.pulses.getD o {}).due.length + (s.sluice.pulses.getD o {}).tail.length) owedMax

/-- An origin moves at strobe `b` (R177): the pulses not yet begun become the tail, the unconverted rest is
recorded, and counting begins afresh. -/
def moveOrigin (o b : Nat) (s : State) : State :=
  let pe := s.billing.pulses.getD o {}
  let tail := (s.sluice.pulses.getD o {}).tail ++ pe.due
  let rec_ := timeBytes (s.timeOf b) ++ leBytes 8 pe.converted.toNat ++ leBytes 8 pe.acc.count.toNat ++
    leBytes 6 pe.acc.res.toNat ++ zeros 2 ++ leBytes 4 (min tail.length owedMax) ++ zeros 4
  let s := s.modEnginePulse o (fun x => { x with acc := {}, converted := 0, due := [], origin := rec_ })
  s.modPulse o (fun x => { x with tail := tail, lastBegun := 0, emitted := 0 })

/-- The level of a pulse output: driven low (R174). In reset, before billing ready, from a supply-fail warning on (R586)
and while off it is released. -/
def State.pulseLow (s : State) (o : Nat) : Bool :=
  let po := s.sluice.pulses.getD o {}
  s.ready && !s.power.warning && s.view.poQty o != 0 && po.pulse != po.polarity

/-- An output that has just been switched on takes its polarity at once (DESIGN CHOICE, log entry 157). -/
def State.takePolarity (o : Nat) (s : State) : State := s.modPulse o (fun x => { x with polarity := bit 16 (s.view.po o) })

/-- Reads of class 3 instances 0–7 but for the settings (R195, R197). -/
def State.readPulse (s : State) (o m : Nat) : Bytes :=
  let po := s.sluice.pulses.getD o {}
  let pe := s.billing.pulses.getD o {}
  let lt := s.billing.latch.published.pulses.getD o {}
  match m with
  | 0 => leBytes 4 ((if s.view.poQty o = 0 then 0 else if po.pulse then 2 else 1) * 2 ^ 30 +
      flag (0 < s.owed o) * 2 ^ 29 + flag pe.lagSeen * 2 ^ 28 + flag s.sluice.hold * 2 ^ 27)
  | 2 => leBytes 8 lt.converted.toNat ++ leBytes 8 lt.acc.count.toNat ++ leBytes 6 lt.acc.res.toNat ++ zeros 2
  | 3 => leBytes 8 po.emitted.toNat ++ leBytes 4 (min (s.owed o) owedMax) ++ leBytes 4 pe.lateness
  | 4 => leBytes 8 (s.view.weight o)
  | 5 => fit 40 pe.origin
  | _ => []

/-! ### Load-control outputs -/

/-- A pair changed. -/
def State.modPair (p : Nat) (f : RelayPair → RelayPair) (s : State) : State :=
  { s with sluice.pairs := modAt s.sluice.pairs p f }

/-- The recorded state of a pair as one byte: 0 unknown, 1 closed, 2 open; in level mode 0x10 with the levels
of the lower and upper output in bits 0 and 1. -/
def RelayPair.code (x : RelayPair) (unknown : Bool) : Byte :=
  if x.level then 0x10#8 ||| BitVec.ofNat 8 (flag x.lowerOn + 2 * flag x.upperOn)
  else if unknown then 0
  else
    match x.coil with
    | some .toClose => 1
    | some .toOpen => 2
    | _ =>
      match x.state with
      | .closed => 1
      | .opened => 2
      | _ => 0

/-- The load-control record of a pair (R201, R445): state and the two counters. -/
def RelayPair.body (x : RelayPair) (unknown : Bool) : Bytes :=
  x.code unknown :: leBytes 4 x.operations.toNat ++ leBytes 4 x.superseded.toNat

/-- The record of a pair written into its ring (R181). -/
def State.savePair (p : Nat) (s : State) : State :=
  if s.sluice.hold then s.modPair p (fun x => { x with unsaved := true })
  else
    { (s.modPair p (fun x => { x with unsaved := false })) with
      store := s.store.record (Ring.relay p) ((s.sluice.pairs.getD p {}).body false) }

/-- The states of the pairs go into their rings, a pair whose coil pulse is in progress as unknown (R181: power-down, SAFE
and Warden saves); `all` says that every pair is written, not only those whose record is not up to date (R333 step 3). -/
def State.savePairsUnknown (all : Bool) (s : State) : State :=
  (List.range 2).foldl (fun s p =>
    let x := s.sluice.pairs.getD p {}
    if all || x.coil.isSome || x.unsaved then
      { (s.modPair p (fun x => { x with unsaved := false })) with store := s.store.record (Ring.relay p) (x.body true) }
    else s) s

/-- A coil is driven for COIL × 10 ms (R178, R180, R181): the operation counts and its target is recorded as it
begins. -/
def driveCoil (p : Nat) (c : RelayCmd) (src : RelaySource) (s : State) : State :=
  let s := s.modPair p (fun x =>
    { x with coil := some c, until_ := s.micros + 1000 * s.view.lcCoil p, source := src, operations := x.operations + 1
             state := if c = .toClose then .closing else .opening })
  (s.savePair p).auxEvent (19 + 2 * p + (if c = .toClose then 0 else 1))

/-- A level output takes a level (R178): a change counts as an operation and is recorded. -/
def setLevel (out : Nat) (on : Bool) (src : RelaySource) (s : State) : State :=
  let p := out / 2
  let x := s.sluice.pairs.getD p {}
  let was := if out % 2 = 0 then x.lowerOn else x.upperOn
  if was = on then s
  else
    let s := s.modPair p (fun x =>
      { x with lowerOn := if out % 2 = 0 then on else x.lowerOn, upperOn := if out % 2 = 1 then on else x.upperOn
               operations := x.operations + 1, source := src })
    (s.savePair p).auxEvent ((if on then 19 else 23) + out)

/-- A command becomes pending; one that it replaces counts as superseded, which is recorded (R180, R201). -/
def setPending (p : Nat) (c : RelayCmd) (src : RelaySource) (s : State) : State :=
  let s' := s.modPair p (fun x => { x with pendingCmd := some (c, src) })
  if (s.sluice.pairs.getD p {}).pendingCmd.isSome then
    (s'.modPair p (fun x => { x with superseded := x.superseded + 1 })).savePair p
  else s'

/-- The pending command of a pair runs, unless a coil pulse or the guard time is in progress or the sluice takes no
command (R180, R317). -/
def runPending (p : Nat) (s : State) : State :=
  let x := s.sluice.pairs.getD p {}
  match x.pendingCmd with
  | some (c, src) =>
    if x.coil.isSome || x.guarding || !s.sluiceOpen then s
    else driveCoil p c src (s.modPair p (fun x => { x with pendingCmd := none }))
  | none => s

/-- The sluice executes a command to an output (R178, R180): during a coil pulse or guard time it becomes
pending, and a newer one replaces it. -/
def operateRelay (out : Nat) (c : RelayCmd) (src : RelaySource) (s : State) : State :=
  let p := out / 2
  let x := s.sluice.pairs.getD p {}
  if x.level then
    match c with
    | .on => setLevel out true src s
    | .off => setLevel out false src s
    | _ => s
  else if c = .on || c = .off then s
  else if x.coil.isSome || x.guarding || x.pendingCmd.isSome then setPending p c src s
  else driveCoil p c src s

/-- A command to an output from the host, a demand limit or an alarm response (R179): during a takeover it
waits; a unit held off in a limp start takes none (R546). -/
def commandRelay (out : Nat) (c : RelayCmd) (src : RelaySource) (s : State) : State :=
  if s.held 0 then s
  else if s.sluiceOpen then operateRelay out c src s
  else s.modPair (out / 2) (fun x => { x with waiting := x.waiting ++ [(out, c, src)] })

/-- The commands that waited for a takeover to end are presented (R179), and a pending command whose guard time has ended
meanwhile runs, unless one of them has replaced it (R180, R317). -/
def runWaiting (s : State) : State :=
  (List.range 2).foldl (fun s p =>
    let s := if (s.sluice.pairs.getD p {}).unsaved then s.savePair p else s
    let w := (s.sluice.pairs.getD p {}).waiting
    runPending p (w.foldl (fun s x => operateRelay x.1 x.2.1 x.2.2 s) (s.modPair p (fun x => { x with waiting := [] })))) s

/-- A pair takes a new MODE (R612): a level output that is on is released (R418). -/
def takeMode (p : Nat) (level : Bool) (s : State) : State :=
  let x := s.sluice.pairs.getD p {}
  let s := if x.level && x.driven && x.lowerOn then s.auxEvent (23 + 2 * p) else s
  let s := if x.level && x.driven && x.upperOn then s.auxEvent (24 + 2 * p) else s
  let s := s.modPair p (fun x =>
    { x with level := level, newLevel := none, lowerOn := false, upperOn := false
             superseded := x.superseded + BitVec.ofNat 32 ((if x.pendingCmd.isSome then 1 else 0) + x.waiting.length)
             pendingCmd := none, waiting := [], coil := none, guarding := false
             state := if level then .levelOff else .unknown })
  s.savePair p

/-- A configuration in force gives a pair its MODE (R612): during a coil pulse at the end of that pulse. -/
def modeEffect (p : Nat) (s : State) : State :=
  let x := s.sluice.pairs.getD p {}
  let m := s.view.lcLevel p
  if x.level = m then s.modPair p (fun x => { x with newLevel := none })
  else if x.coil.isSome then s.modPair p (fun x => { x with newLevel := some m })
  else takeMode p m s

/-- COIL_PULSE_END: the time of the coil has run, it is released and the guard time begins (R178, R180); a new MODE waiting
for it takes effect (R612). -/
def coilPulseEnd (p : Nat) (s : State) : State :=
  let x := s.sluice.pairs.getD p {}
  match x.coil with
  | none => s
  | some c =>
    if s.micros < x.until_ then s else
    let s := s.modPair p (fun x =>
      { x with coil := none, guarding := true, until_ := x.until_ + 10 ^ 6 * s.view.lcGuard p
               state := if c = .toClose then .closed else .opened })
    let s := s.auxEventAt x.until_ (23 + 2 * p + (if c = .toClose then 0 else 1))
    match x.newLevel with
    | some m => takeMode p m s
    | none => s

/-- COIL_PULSE_END (R180, R612). -/
def execCoilPulseEnd (pair : Nat) (s : State) : Outcome := edge (coilPulseEnd pair) s

/-- GUARD_TIME_END: GUARD seconds have run since the coil pulse ended; the pending command runs (R180), or stays pending
while the sluice takes no command (R317). -/
def guardTimeEnd (p : Nat) (s : State) : State :=
  let x := s.sluice.pairs.getD p {}
  if x.guarding && x.until_ ≤ s.micros then runPending p (s.modPair p (fun x => { x with guarding := false })) else s

/-- GUARD_TIME_END (R180). -/
def execGuardTimeEnd (pair : Nat) (s : State) : Outcome := edge (guardTimeEnd pair) s

/-- The STATE code of an output (R201). -/
def RelayPair.stateCode (x : RelayPair) (upper : Bool) : Nat :=
  if x.level then (if (if upper then x.upperOn else x.lowerOn) then 5 else 6)
  else
    match x.state with
    | .unknown => 0
    | .closed => 1
    | .opened => 2
    | .closing => 3
    | .opening => 4
    | .levelOn => 5
    | .levelOff => 6

/-- Reads of class 3 instances 8–11 but for the settings (R198, R200, R201). -/
def State.readRelay (s : State) (out m : Nat) : Bytes :=
  let x := s.sluice.pairs.getD (out / 2) {}
  match m with
  | 0 => leBytes 4 (x.stateCode (out % 2 == 1) * 2 ^ 29 +
      (match x.pendingCmd with | some (.toClose, _) => 1 | some (.toOpen, _) => 2 | _ => 0) * 2 ^ 27 +
      (match x.source with | .host => 0 | .limit => 1 | .alarm => 2) * 2 ^ 25)
  | 2 => leBytes 4 ((if out % 2 = 0 then x.lastLower else x.lastUpper).toNat * 2 ^ 24)
  | 3 => leBytes 4 x.operations.toNat ++ leBytes 4 x.superseded.toNat
  | _ => []

/-! ### Demand -/

/-- Sub-intervals in a demand period: K of a sliding method, one of block demand (R183). -/
def View.demandCount (v : View) : Nat := if v.demandSliding then v.demandK else 1

/-- A demand value in µW or µVA: E × q × 3,600 / T (R185); `e` in 2^−48 quanta. -/
def demandOf (quantum t e : Nat) : Nat :=
  if t = 0 then 0 else (roundEven ((e * 10 ^ quantum * 3600 : Nat) : Int) (2 ^ 48 * t)).toNat

/-- The window that ends with a sub-interval (R185, R186): the sub-interval and the history before it. -/
def formWindow (v : View) (n endSec : Nat) (subs : List SubSum) : DemandValue :=
  let k := v.demandCount
  { values := tab 4 (fun i =>
      demandOf (v.svcQuantum n) (v.demandSub * k) ((subs.map (fun x => (x.sums.getD i {}).total)).foldl (· + ·) 0))
    endSec := endSec
    partialFlag := subs.any (·.partialFlag) || subs.length < k
    timeStep := subs.any (·.timeStep)
    covered := (subs.filter (fun x => !x.partialFlag)).length }

/-- A service's sub-interval in progress closes at the split before the sample stamped `a` (R185, R186). `early` closes it
as partial and discards the history; `step` marks a time step (R188); `gap` says that reckoning does not cover the
beginning of the next one. -/
def Demand.close (v : View) (n endSec a : Nat) (early step gap : Bool) (d : Demand) : Demand :=
  let sub := { d.now with partialFlag := d.now.partialFlag || early, timeStep := d.now.timeStep || step }
  let subs := (sub :: d.history).take v.demandCount
  { d with
    formed := d.formed ++ [(a, formWindow v n endSec subs)]
    history := if early then [] else (sub :: d.history).take (v.demandCount - 1)
    now := { partialFlag := early || gap, timeStep := step } }

/-- The sub-interval in progress of every enabled service closes. -/
def closeSub (endSec a : Nat) (early step gap : Bool) (s : State) : State :=
  let v := s.view
  let services := (List.range 16).foldl (fun ss n =>
    if v.svcOn n then modAt ss n (fun x => { x with demand := x.demand.close v n endSec a early step gap }) else ss)
    s.billing.services
  { s with billing.services := services }

/-- The sub-interval ends that the reckoned sample stamped `stamp` at chronicle time `t` has reached (R184). -/
def reachSubEnds : Nat → Nat → Nat → State → State
  | 0, _, _, s => s
  | fuel + 1, stamp, t, s =>
    match s.billing.subEnds with
    | [] => s
    | e :: es =>
      let s' := { s with billing.subEnds := es }
      let gap := s.billing.latch.gapUntil.any (fun r => decide (e.tick < s.timeOf r))
      match e.strobe with
      | some k => if k ≤ stamp then reachSubEnds fuel stamp t (closeSub (e.tick / tps) stamp true true gap s') else s
      | none => if e.tick ≤ t then reachSubEnds fuel stamp t (closeSub (e.tick / tps) stamp false false gap s') else s

/-- The strobe of the first valid raw sample has passed: samples belong to the time now. -/
def State.sampling (s : State) : Bool := s.sense.connected && decide (s.firstRaw * 256 < s.sense.modCount.toNat)

/-- DEMAND_BOUNDARY: the chronicle second is a whole multiple of the sub-interval (R184); it ends the
sub-interval once the reckoned samples reach it. -/
def demandBoundary (s : State) : State :=
  if s.sampling && s.sec % s.view.demandSub = 0 &&
      !s.billing.subEnds.any (fun e => e.strobe.isNone && e.tick == s.sec * tps) then
    { s with billing.subEnds := s.billing.subEnds ++ [{ tick := s.sec * tps }] }
  else s

/-- DEMAND_BOUNDARY (R184). -/
def execDemandBoundary (s : State) : Outcome := edge demandBoundary s

/-- The maximum of a quantity after a window value (R187): replaced only when strictly greater. -/
def MaxDemand.next (m : MaxDemand) (value endSec : Nat) (part : Bool) : MaxDemand :=
  if m.value < value then { value := value, endSec := endSec, partialFlag := part } else m

/-- A window exceeds the limit of its service (R182); limits are not applied in a limp start (R546). -/
def State.overLimit (s : State) (n : Nat) (w : DemandValue) : Bool :=
  !s.limpFlag && s.view.limit n != 0 &&
    decide (s.view.limit n * 10 ^ 6 < w.values.getD (if s.view.limitQty n = 1 then 2 else 0) 0)

/-- The first formed window of a service is published (R185–R187, R182), once no latch of its split or before waits to be
(R168). -/
def publishDemand (n : Nat) (s : State) : State :=
  let d := (s.billing.services.getD n {}).demand
  match d.formed with
  | [] => s
  | (a, w) :: ws =>
    if s.billing.latch.captured.any (fun c => decide (c.boundary.b ≤ a)) then s else
    let above := s.overLimit n w
    let trip := above && !d.inRun
    let s := { s with billing.services := modAt s.billing.services n (fun x =>
      { x with demand :=
        { x.demand with
          formed := ws
          last := { w with tripped := trip }
          inRun := above
          maxima := tab 4 (fun k => ((d.maxima.getD k {}).next (w.values.getD k 0) w.endSec w.partialFlag)) } }) }
    if trip then commandRelay (2 * s.view.limitRelay n) .toOpen .limit s else s

/-- DEMAND_PUBLISH (R182, R185–R187): the window of every service is published. -/
def execDemandPublish (s : State) : Outcome :=
  edge (fun s => (List.range 16).foldl (fun s n => publishDemand n s) s) s

end Sys2Proof.Machine
end

