-- ==== Sys2Proof/Machine/Track.lean ====
section
/-! DEFINITION. Track.lean: the detection of zero crossings on the voltage channels (R143, R212). -/

namespace Sys2Proof.Machine
open Sys2Proof

/-- The coefficients of a section, unit 2^−30: on its inputs, and on its outputs with the leading 1. -/
def trackInputs (i : Nat) : List Int := tab 3 (trackCoef i)
def trackOutputs (i : Nat) : List Int := [2 ^ 30, trackCoef i 3, trackCoef i 4]

/-- One value through a section with coefficients in units of 2^−30; the result is rounded to nearest, half to even. -/
def Biquad.push (c : Nat → Int) (b : Biquad) (x : Int) : Biquad × Int :=
  let y := roundEven (c 0 * x + c 1 * b.x1 + c 2 * b.x2 - c 3 * b.y1 - c 4 * b.y2) (2 ^ 30)
  ({ x1 := x, x2 := b.x1, y1 := y, y2 := b.y1 }, y)

/-- One value through sections in turn, the first being section `i`. -/
def sectionsPush (c : Nat → Nat → Int) : Nat → List Biquad → Int → List Biquad × Int
  | _, [], x => ([], x)
  | i, b :: bs, x =>
    let r := b.push (c i) x
    let t := sectionsPush c (i + 1) bs r.2
    (r.1 :: t.1, t.2)

/-- The group delay of Σ p_k z^−k at a frequency in 2^−40 Hz, unit 2^−24 metering period. -/
def polyDelay (ps : List Int) (freq : Nat) : Int :=
  let d := 16000 * 2 ^ 40
  let a := sumBy (fun x => x.1 * cosTurn (x.2 * freq) d) ps.zipIdx
  let b := sumBy (fun x => x.1 * sinTurn (x.2 * freq) d) ps.zipIdx
  let a' := sumBy (fun x => x.1 * x.2 * cosTurn (x.2 * freq) d) ps.zipIdx
  let b' := sumBy (fun x => x.1 * x.2 * sinTurn (x.2 * freq) d) ps.zipIdx
  roundEven ((a' * a + b' * b) * 2 ^ 24) (a * a + b * b).toNat

/-- The group delay of the two filters of R143 at a frequency, unit 2^−16 metering period. -/
def trackDelay (freq : Nat) : Int :=
  roundEven (sumBy (fun i => polyDelay (trackInputs i) freq - polyDelay (trackOutputs i) freq) (List.range 3)) 256

/-- A metering sample of strobe `k` passes the filters; a crossing shows as rising or falling with its instant, unit
2^−16 metering period, by linear interpolation (R143). The filters carry 2^−39 of full code (DESIGN CHOICE, log entry
155). -/
def Tracker.push (k : Nat) (x : Int) (t : Tracker) : Tracker :=
  let r := sectionsPush trackCoef 0 t.sections (x * 2 ^ 16)
  let y := r.2
  let crossing := match t.last with
    | some p =>
      if (p < 0 && 0 ≤ y) || (0 ≤ p && y < 0) then
        some (decide (0 ≤ y), (((k : Int) - 1) * 65536 + roundEven (p.natAbs * 65536) (y - p).natAbs).toNat)
      else none
    | none => none
  { sections := r.1, last := some y, crossed := crossing }

/-- An instant at the output of the filters, as the instant of the fundamental (R143). -/
def beforeFilters (freq instant : Nat) : Nat := ((instant : Int) - trackDelay freq).toNat

/-- The metering samples of a frame pass the detection; a rising crossing of the reference of a bus waits there for
ZERO_CROSSING (R143). -/
def trackFrame (f : RingFrame) (s : State) : State :=
  let outs := tab 8 (fun u =>
    if s.view.chanOn (48 + u) then (s.billing.trackers.getD u {}).push f.strobe (f.samples.getD (48 + u) 0) else {})
  let rising : Nat → Option Nat := fun u => match (outs.getD u {}).crossed with
    | some (true, x) => some x
    | _ => none
  { s with
    billing.trackers := outs
    line.rises := tab 8 (fun u =>
      match rising u with
      | some i => some (beforeFilters (s.billing.buses.getD s.view.zlBus {}).freq i)
      | none => s.line.rises.getD u none)
    billing.buses := s.billing.buses.zipIdx.map (fun x =>
      match s.busReference x.2 with
      | some r =>
        match rising (r - 48) with
        | some i => ({ x.1 with found := x.1.found ++ [(r, beforeFilters x.1.freq i)] } : Bus)
        | none => x.1
      | none => x.1) }

end Sys2Proof.Machine
end

