-- ==== Sys2Proof/Machine/Flicker.lean ====
section
/-! DEFINITION. Flicker.lean: the flicker meter and its intervals (R210, R211). -/

namespace Sys2Proof.Machine
open Sys2Proof

/-! ### The meter (R210)

Its blocks are those of IEC 61000-4-15, which R210 names: the adaptor divides the voltage by its own slow RMS, block 2
squares it, block 3 filters it (a first-order high-pass, three sections of a low-pass, two of the weighting filter),
block 4 squares and smooths it. PRESUMED (log entry 23). -/

/-- A metering sample through blocks 1 to 3; values behind block 2 are in units of 2^−46. -/
def Meter.blocks (lamp : Bool) (x : Int) (m : Meter) : Meter × Int :=
  let a := m.adaptor.push (Config.flickerCoef lamp 0) (x * x * 2 ^ 16)
  let rms := isqrt a.2.toNat
  let u := if rms = 0 then 0 else roundEven (x * 2 ^ 38) rms
  let f := sectionsPush (Config.flickerCoef lamp) 1 m.sections (roundEven (u * u) (2 ^ 14))
  ({ m with adaptor := a.1, sections := f.1 }, f.2)

/-- p^512 as nine squarings. -/
def power512 (p : Nat) : Nat := Nat.repeat (fun x => x * x) 9 p

/-- The class of a value of P_inst, unit 2^−16 of 0.0001: 512 classes to the decade from 10^−4 on, the first and the last
open (R210). -/
def classOf (p : Nat) : Nat :=
  (List.range 12).reverse.foldl (fun n k =>
    if 10 ^ (n + 2 ^ k) * 2 ^ (16 * 512) ≤ power512 p then n + 2 ^ k else n) 0

/-- One more value of a class. -/
def countClass (n : Nat) : List (Nat × Nat) → List (Nat × Nat)
  | [] => [(n, 1)]
  | x :: l => if n < x.1 then (n, 1) :: x :: l else if n = x.1 then (n, x.2 + 1) :: l else x :: countClass n l

/-- A value of block 3 reaches block 4: a point of P_inst, classified once the meter has settled (R210, R211); every
eightieth point, 100 ms, updates the present value (R233). -/
def Meter.point (lamp : Bool) (y : Int) (m : Meter) : Meter :=
  let r := m.smooth.push (Config.flickerCoef lamp 7) (roundEven (y * y * Config.flickerGain lamp) (2 ^ 92))
  let p := r.2.toNat
  { m with
    smooth := r.1, phase := 0
    points := if m.points + 1 = 80 then 0 else m.points + 1
    shown := if m.points + 1 = 80 then min ((p + 2 ^ 15) / 2 ^ 16) (2 ^ 32 - 1) else m.shown
    settle := m.settle - 1
    classes := if m.settle = 0 then countClass (classOf p) m.classes else m.classes }

/-- A metering sample through the meter: every twentieth gives a point, 800 a second. -/
def Meter.take (lamp : Bool) (x : Int) (m : Meter) : Meter :=
  let r := m.blocks lamp x
  if m.phase + 1 = 20 then r.1.point lamp r.2 else { r.1 with phase := m.phase + 1 }

/-- Points of the 60 s in which P_inst is not classified (R211). -/
def settlePoints : Nat := 48000

/-- A meter (re)starts: its filters are empty and it settles for 60 s (R211). One that did not run begins its interval at
the strobe `begins`. -/
def Meter.restart (part : Bool) (begins : Option Nat) (m : Meter) : Meter :=
  { m with
    from_ := begins.getD m.from_, event := m.event && begins.isNone
    adaptor := {}, sections := List.replicate 6 {}, smooth := {}, phase := 0, points := 0
    settle := settlePoints, settling := true, part := m.part || part }

/-- The flicker meters of the flicker-analysed channels (re)start. -/
def restartMeters (part : Bool) (s : State) : State :=
  { s with
    xa.channels := (List.range 8).foldl (fun cs u =>
      if s.view.flicker u then modAt cs (48 + u) (fun x => { x with meter := x.meter.restart part (some s.sense.nextStrobe) })
      else cs) s.xa.channels
    xa.pstNext := some ((s.sec / 600 + 1) * 600) }

/-! ### Intervals (R211) -/

/-- The P_st interval of a channel closes before the sample of strobe `k`. -/
def XaChannel.closePst (endSec k : Nat) (part long : Bool) (x : XaChannel) : XaChannel :=
  let m := x.meter
  { x with
    closed := x.closed ++ [{ endSec := endSec, from_ := m.from_, strobe := k, settling := m.settling, part := m.part || part
                             event := m.event, long := long, classes := m.classes }]
    meter := { m with classes := [], from_ := k, settling := m.settleNext || 0 < m.settle, part := part, event := false
                      settleNext := false } }

/-- The P_st intervals of all flicker-analysed channels close. -/
def closePsts (endSec k : Nat) (part long : Bool) (s : State) : State :=
  { s with xa.channels := (List.range 8).foldl (fun cs u =>
      if s.view.flicker u then modAt cs (48 + u) (XaChannel.closePst endSec k part long) else cs) s.xa.channels }

/-- The time steps and the aligned end that the sample of strobe `k` has reached. -/
def reachPst (k : Nat) (s : State) : State :=
  let past := s.xa.pstSteps.filter (fun x => decide (x.1 ≤ k))
  let s := past.foldl (fun s x => { closePsts x.2.1 k true true s with xa.pstNext := some x.2.2 })
    { s with xa.pstSteps := s.xa.pstSteps.filter (fun x => decide (k < x.1)) }
  match s.xa.pstNext with
  | some e =>
    if e * tps ≤ s.timeOf k then
      { closePsts e k false (e % 7200 == 0) s with xa.pstNext := some ((s.timeOf k / tps / 600 + 1) * 600) }
    else s
  | none => s

/-- The metering samples of a frame pass the flicker meters. -/
def flickerFrame (f : RingFrame) (s : State) : State :=
  if s.xa.suspended || !s.part.fitXa then s
  else
    let s := reachPst f.strobe s
    { s with xa.channels := (List.range 8).foldl (fun cs u =>
        if s.view.flicker u then
          modAt cs (48 + u) (fun x => { x with meter := x.meter.take (s.view.lamp u) (f.samples.getD (48 + u) 0) })
        else cs) s.xa.channels }

/-! ### Percentiles (R211) -/

/-- The integer 512th root of 10^n, unit 2^−16, truncated: the lower end of class `n`. -/
def classEdge (n : Nat) : Nat :=
  (List.range 48).reverse.foldl (fun r k =>
    if power512 (r + 2 ^ k) ≤ 10 ^ n * 2 ^ (16 * 512) then r + 2 ^ k else r) 0

/-- The level that stands for a class, within it. -/
def classValue (n : Nat) : Nat := max (classEdge n) (min (classEdge (n + 1)) (Config.classLevel n))

/-- The level exceeded for `k` tenths of a per cent of the classified points, unit 2^−16 of 0.0001: walked from the highest
class down, `above` points lying higher. -/
def percentileFrom (k total : Nat) : Nat → List (Nat × Nat) → Nat
  | _, [] => 0
  | above, x :: l =>
    if k * total < (above + x.2) * 1000 then classValue x.1 else percentileFrom k total (above + x.2) l

/-- P_k of the classifier. -/
def percentile (classes : List (Nat × Nat)) (k : Nat) : Nat :=
  percentileFrom k ((classes.map (·.2)).foldl (· + ·) 0) 0 classes.reverse

/-- The mean of percentiles, times 15. -/
def smoothed (classes : List (Nat × Nat)) (ks : List Nat) : Nat :=
  15 * (ks.map (percentile classes)).foldl (· + ·) 0 / ks.length

/-- P_st from the smoothed percentiles, unit 0.0001, to nearest (R211). PRESUMED (log entry 23: IEC 61000-4-15). -/
def shortTerm (classes : List (Nat × Nat)) : Nat :=
  let q := smoothed classes
  let sum := 314 * q [1] + 525 * q [7, 10, 15] + 657 * q [22, 30, 40] + 2800 * q [60, 80, 100, 130, 170] +
    800 * q [300, 500, 800]
  min ((isqrt (4 * sum / (15 * 2 ^ 16)) + 1) / 2) (2 ^ 32 - 1)

/-- The integer cube root, truncated: one bit. -/
def cbrtBit (n r k : Nat) : Nat :=
  let t := r + 2 ^ k
  if t * t * t ≤ n then t else r

/-- The integer cube root of a number below 2^96, truncated. -/
def cbrt (n : Nat) : Nat := (List.range 32).reverse.foldl (cbrtBit n) 0

/-- P_lt of the P_st values of an interval and its flags (R211): cube root of the mean of the cubes of the values
without flags. -/
def longTerm (l : List (Nat × Bool)) : Nat × Nat :=
  let good := l.filter (fun x => !x.2)
  (if good.isEmpty then 0 else cbrt ((good.map (fun x => x.1 ^ 3)).foldl (· + ·) 0 / good.length),
   flag (decide (good.length < 12)) + 2 * flag good.isEmpty)

/-- The oldest closed interval of a channel is published (R211, R233); `open_` says that an event overlaps it that is still
open. -/
def XaChannel.publishPst (open_ : PstClosed → Bool) (x : XaChannel) : XaChannel :=
  match x.closed with
  | [] => x
  | c :: rest =>
    let p := shortTerm c.classes
    let fl := flag c.settling + 2 * flag c.part + 4 * flag (c.event || open_ c)
    let l := x.psts ++ [(p, fl != 0)]
    let lt := longTerm l
    { x with
      closed := rest
      flicker := leBytes 4 p ++ leBytes 6 c.endSec ++ leBytes 2 fl ++
        (if c.long then leBytes 4 lt.1 ++ leBytes 6 c.endSec ++ leBytes 2 (if c.part then lt.2 ||| 1 else lt.2)
         else (x.flicker.drop 12).take 12) ++ zeros 8
      psts := if c.long then [] else l }

/-- The enabled watched channels of a bus, 0–7. -/
def View.watchedOn (v : View) (b : Nat) : List Nat := (v.busChans b).filter v.watched

/-- Every half-cycle value of a bus whose cycle begins before an instant has been judged (R212): the next cycle of each
watched channel begins at its oldest boundary, or at one still to be found behind its filters. -/
def State.judgedTo (s : State) (b instant : Nat) : Bool :=
  let found := match s.engines.ring.head? with
    | some f => beforeFilters (s.billing.buses.getD b {}).freq ((f.strobe - 1) * 65536)
    | none => 0
  s.xa.suspended || !s.part.fitXa ||
    (s.view.watchedOn b).all (fun u => decide (instant ≤ (s.xa.watched.getD u {}).halves.headD found))

/-- An event of R211 that is still open on a bus overlaps an interval: it opened before its end. -/
def State.eventIn (s : State) (b : Nat) (c : PstClosed) : Bool :=
  (s.xa.buses.getD b {}).openEvents.any (fun q => q.kind != .rvc && decide (q.at_ < c.strobe * 65536))

/-- PST_INTERVAL_END: the interval that the samples have closed is published on every channel whose events have been judged
to its end. -/
def pstIntervalEnd (s : State) : State :=
  { s with xa.channels := s.xa.channels.zipIdx.map (fun x =>
      let b := s.view.busOf (x.2 - 48)
      if x.1.closed.head?.all (fun c => s.judgedTo b (c.strobe * 65536)) then x.1.publishPst (s.eventIn b) else x.1) }

/-- PST_INTERVAL_END (R211). -/
def execPstIntervalEnd (s : State) : Outcome := edge pstIntervalEnd s

/-- A time step at strobe `k` closes the flicker intervals in progress as partial once the samples reach it (R211). -/
def stepPst (k oldSec newSec : Nat) (s : State) : State :=
  if s.xa.pstNext.isSome then
    { s with xa.pstSteps := s.xa.pstSteps ++ [(k, oldSec, (newSec / 600 + 1) * 600)] }
  else s

end Sys2Proof.Machine
end

