-- ==== Sys2Proof/Machine/Spectrum.lean ====
section
/-! DEFINITION. Spectrum.lean: the resampling and the transform of an analysis window (R204, R205). -/

namespace Sys2Proof.Machine
open Sys2Proof

/-! ### Resampling (R204) -/

/-- Points of a resampled window, as a power of 2. -/
def windowLog : Nat := 12

/-- The sum of one phase over 32 samples, oldest first. -/
def phaseSum (phase : Nat) (xs : List Int) : Int := sumBy (fun x => x.1 * x.2) ((resampleTaps.getD phase []).zip xs)

/-- One resampled point, Q1.31: `xs` are the 32 samples about it in Q1.23, oldest first, the sixteenth being the last at or
before it, and `frac` how far it lies behind that one, unit 2^−28 metering period. Between two of the 64 phases it is
interpolated; behind the last phase comes the first one of the next sample. -/
def resamplePoint (xs : List Int) (next : Int) (frac : Nat) : Int :=
  let p := frac / 2 ^ 22
  let w : Int := frac % 2 ^ 22
  let low := phaseSum p xs
  let high := if p = 63 then phaseSum 0 (xs.drop 1 ++ [next]) else phaseSum (p + 1) xs
  satSigned 32 (roundEven (low * (2 ^ 22 - w) + high * w) (2 ^ 45))

/-- Points `j` and after of a window between two instants, each with the samples left over: `xs` begins with the sample
of strobe `k`, fifteen before the one that precedes the point. -/
def resampleFrom (a b : Nat) : Nat → Nat → Nat → List Int → List Int
  | 0, _, _, _ => []
  | n + 1, j, k, xs =>
    let pos := a * 4096 + j * (b - a)
    let m := pos / 2 ^ 28 - 15
    let xs := xs.drop (m - k)
    resamplePoint (xs.take 32) (xs.getD 32 0) (pos % 2 ^ 28) :: resampleFrom a b n (j + 1) m xs

/-- The 4,096 points of a channel over a window (R204); a sample that the ring no longer holds counts as 0. -/
def resample (ring : List RingFrame) (c a b : Nat) : List Int :=
  let first := a / 65536 - 15
  let last := b / 65536 + 17
  let held := (ring.filter (fun f => first ≤ f.strobe && f.strobe ≤ last)).reverse
  let lead := List.replicate (((held.head?).map (·.strobe)).getD first - first) 0
  resampleFrom a b (2 ^ windowLog) 0 first (lead ++ held.map (fun f => f.samples.getD c 0))

/-! ### The transform (R205) -/

/-- The places 0, 2, 4, … and 1, 3, 5, … of a list. -/
def unzip2 : List (Int × Int) → List (Int × Int) × List (Int × Int)
  | a :: b :: l =>
    let r := unzip2 l
    (a :: r.1, b :: r.2)
  | l => (l, [])

/-- z × exp(−2πi k / d), rounded to nearest, half to even. -/
def turnBack (k d : Nat) (z : Int × Int) : Int × Int :=
  let c := cosTurn k d
  let s := sinTurn k d
  (roundEven (z.1 * c + z.2 * s) (2 ^ 62), roundEven (z.2 * c - z.1 * s) (2 ^ 62))

/-- The discrete Fourier transform of 2^n complex values. -/
def transform : Nat → List (Int × Int) → List (Int × Int)
  | 0, l => l
  | n + 1, l =>
    let h := unzip2 l
    let even := transform n h.1
    let odd := (transform n h.2).zipIdx.map (fun x => turnBack x.2 (2 ^ (n + 1)) x.1)
    even.zipWith (fun e o => (e.1 + o.1, e.2 + o.2)) odd ++ even.zipWith (fun e o => (e.1 - o.1, e.2 - o.2)) odd

/-- Bits by which values of the transform are finer than the resampled points. -/
def transformGuard : Nat := 20

/-- The noise of one component of a bin: less than 2^−27 of full code in amplitude, so that the bin's RMS moves by less
than 2^−26 (R205); unit 2^−63. -/
def noiseOf (free c k : Nat) : Int := clamp (1 - 2 ^ 36) (2 ^ 36 - 1) (Config.binNoise free c k)

/-- A spectrum: squared magnitudes of the bins as RMS values, unit 2^−62 of full code squared, and the bins (R205). -/
structure Spectrum where
  squares : List Nat
  bins : List (Int × Int)
deriving DecidableEq, Repr

/-- Bins that a value of R207 can name: up to half an order above the 63rd of a 12-cycle window. -/
def binCount : Nat := 770

/-- The spectrum of a channel over a window (R204, R205): the squared magnitude of bin 0 is that of the mean, of every
other bin that of the RMS of its sinusoid (R207). -/
def spectrumOf (ring : List RingFrame) (free c a b : Nat) : Spectrum :=
  let points := (resample ring c a b).map (fun x => (x * 2 ^ transformGuard, (0 : Int)))
  let bins := ((transform windowLog points).take binCount).zipIdx.map (fun x =>
    (x.1.1 + noiseOf free c (2 * x.2), x.1.2 + noiseOf free c (2 * x.2 + 1)))
  { squares := bins.zipIdx.map (fun x =>
      (x.1.1.natAbs ^ 2 + x.1.2.natAbs ^ 2) / 2 ^ (if x.2 = 0 then 64 else 63))
    bins := bins }

/-- The phase of a bin, unit 2^−40 turn. -/
def Spectrum.phase (x : Spectrum) (k : Nat) : Nat :=
  let z := x.bins.getD k (0, 0)
  angleOfVector 40 z.1 z.2

end Sys2Proof.Machine
end

