-- ==== Sys2Proof/Machine/Analysis.lean ====
section
/-! DEFINITION. Analysis.lean: extended analysis (chapter "Harmonics, flicker and events"): window values,
flicker intervals, voltage events and the objects of R223–R233. Event pins stand in Pins.lean. -/

namespace Sys2Proof.Machine
open Sys2Proof

/-! ### Window values (R203–R209) -/

/-- The analysis bus of a channel (R203). -/
def View.analysisBus (v : View) (c : Nat) : Nat :=
  if 48 ≤ c then v.busOf (c - 48)
  else if v.bound c then v.busOf (field 2 0 (v.bindingOf c))
  else v.latchBus

/-- The enabled channels whose analysis bus is `b`, ascending. -/
def View.windowChannels (v : View) (b : Nat) : List Nat :=
  (List.range 56).filter (fun c => v.chanOn c && v.analysisBus c == b)

/-- The enabled services of a bus, ascending. -/
def View.windowServices (v : View) (b : Nat) : List Nat := (v.plans.filter (fun p => p.bus == b)).map (·.n)

/-- The squared magnitude of bin `k`, unit 2^−62. -/
def specBin (x : Spectrum) (k : Nat) : Nat := x.squares.getD k 0

/-- Sum of the squares of bins `a … a + n − 1`. -/
def binSum (x : Spectrum) (a n : Nat) : Nat := ((List.range n).map (fun k => specBin x (a + k))).foldl (· + ·) 0

/-- The square of the harmonic group of order `h` on windows of `w` cycles: the bins within half an order, the
two outermost halved. PRESUMED (log entry 20: IEC 61000-4-7). -/
def groupSq (x : Spectrum) (w h : Nat) : Nat :=
  binSum x (w * h - w / 2 + 1) (w - 1) + (specBin x (w * h - w / 2) + specBin x (w * h + w / 2)) / 2

/-- The square of the harmonic subgroup of order `h`: the bin and its two neighbours (log entry 20). -/
def subgroupSq (x : Spectrum) (w h : Nat) : Nat := binSum x (w * h - 1) 3

/-- The square of the interharmonic group between orders `n` and `n + 1` (log entry 20). -/
def interGroupSq (x : Spectrum) (w n : Nat) : Nat := binSum x (w * n + 1) (w - 1)

/-- The square of the interharmonic centred subgroup (log entry 20). -/
def interCentredSq (x : Spectrum) (w n : Nat) : Nat := binSum x (w * n + 2) (w - 3)

/-- The root of a square in unit 2^−62, truncated to UQ1.31 (R207). -/
def rootValue (sq : Nat) : Nat := min (isqrt sq) (2 ^ 32 - 1)

/-- The harmonic values of orders 0 to 63 (R207); orders above H read 0. -/
def View.harmonics (v : View) (w : Nat) (x : Spectrum) : List Nat :=
  tab 64 (fun h =>
    if h = 0 then rootValue (specBin x 0)
    else if v.order < h then 0
    else rootValue (if v.harmSubgroup then subgroupSq x w h else groupSq x w h))

/-- The interharmonic values between orders n and n + 1, n = 0 to 62 (R207). -/
def View.interharmonics (v : View) (w : Nat) (x : Spectrum) : List Nat :=
  tab 63 (fun n =>
    if v.order ≤ n then 0 else rootValue (if v.ihSubgroup then interCentredSq x w n else interGroupSq x w n))

/-- THD of orders 2 to `top` in 1 ppm of the fundamental, saturated (R207). -/
def thdOf (hs : List Nat) (top : Nat) : Nat :=
  let f := hs.getD 1 0
  let sq := ((hs.take (top + 1)).drop 2).map (fun x => x * x)
  if f = 0 then 0 else min (isqrt (sq.foldl (· + ·) 0 * 10 ^ 12 / (f * f))) (2 ^ 32 - 1)

/-- The fundamental is below 2^−20 of full code (R206): unit 2^−31. -/
def lowFund (w : Nat) (x : Spectrum) : Bool := rootValue (specBin x w) < 2 ^ 11

/-- The angle of order `h` (R208): `ref` is the phase of the reference's fundamental bin, unit 2^−40 turn. -/
def angleOf (w h : Nat) (x : Spectrum) (ref : Option Nat) : Nat :=
  match ref with
  | none => 0x8000
  | some r =>
    if rootValue (groupSq x w h) < 2 ^ 11 then 0x8000
    else
      let a := roundEven (toSigned 40 (toUnsigned 40 ((x.phase (w * h) : Int) - h * r))) (2 ^ 24)
      toUnsigned 16 (clamp (-32767) 32767 a)

/-- The frames of the ring stamped from `a` up to but not including `b`. -/
def State.ringSpan (s : State) (a b : Nat) : List RingFrame :=
  s.engines.ring.filter (fun f => a ≤ f.strobe && f.strobe < b)

/-- RMS of a channel over frames, UQ1.31. -/
def framesRms (fs : List RingFrame) (c : Nat) : Nat :=
  let sq := (fs.map (fun f => (f.samples.getD c 0).natAbs ^ 2)).foldl (· + ·) 0
  if fs.isEmpty then 0 else isqrt (sq * 2 ^ 16 / fs.length)

/-- Mean frequency of `n` cycles between two instants, 1 µHz (R233). -/
def windowFreq (n : Nat) (w : Window) : Nat :=
  if w.b ≤ w.a then 0 else (n * 16000 * 65536 * 10 ^ 6 + (w.b - w.a) / 2) / (w.b - w.a)

/-- The window between two instants overlaps a recorded or open dip, swell or interruption of its bus (R206). -/
def XaBus.eventFlag (x : XaBus) (a b : Nat) : Bool :=
  x.spans.any (fun sp => sp.1 < b && a < sp.2) ||
  x.openEvents.any (fun e => e.kind != .rvc && e.at_ < b)

/-- The members of one analysed channel after a window (R233). -/
def analysed (v : View) (w : Nat) (head : Bytes) (flags : Nat) (x : Spectrum) (ref : Option Nat) (old : XaChannel) :
    XaChannel :=
  let hs := v.harmonics w x
  let low := lowFund w x
  let thd40 := if low then 0 else thdOf hs (min 40 v.order)
  let thd := if low then 0 else thdOf hs v.order
  { old with
    summary := head ++ leBytes 4 (flags + flag low * 2 ^ 27) ++ leBytes 4 thd40 ++ leBytes 4 thd ++ zeros 4
    harmonics := hs.flatMap (leBytes 4)
    interharmonics := (v.interharmonics w x).flatMap (leBytes 4) ++ zeros 4
    angles := zeros 2 ++ tabBytes 63 (fun k =>
      leBytes 2 (if v.order < k + 1 then 0 else angleOf w (k + 1) x ref))
    thd := if low then 4095 else min 4094 ((thd + 250) / 500) }

/-- The sliding references of a bus after a window without EVENT (R213): a first-order filter with the
coefficients 0.9967 and 0.0033. PRESUMED (log entry 21: IEC 61000-4-30). -/
def slideOne (start rms : Nat) (x : Watched) : Watched :=
  { x with sliding := some ((x.sliding.getD start * 9967 + rms * 33 + 5000) / 10000) }

/-- UDIN of a bus as UQ1.31 of full code, 666,667 µV (R213). -/
def View.udinCode (v : View) (b : Nat) : Nat := (v.udin b * 2 ^ 31 + 333333) / 666667

/-! ### Offering records -/
/-- The header and channel entries of a window record (R253). -/
def windowRecord (b layout count ta tb freq : Nat) (synth event : Bool)
    (chans svcs : List Nat) (words : List Nat) : Bytes :=
  [0x21, BitVec.ofNat 8 (b + 16 * flag synth + 32 * flag event), BitVec.ofNat 8 layout, BitVec.ofNat 8 chans.length] ++
    leBytes 4 count ++ timeBytes ta ++ leBytes 2 (tb - ta) ++ [BitVec.ofNat 8 svcs.length, 0] ++ leBytes 4 freq ++
    words.flatMap (leBytes 4)

/-- The window records of a bus whose service sums are complete are offered to the pool tier (R251): `upTo` is
the strobe count below which every sample has been reckoned. -/
def flushWindows (b upTo : Nat) (s : State) : State :=
  let x := s.xa.buses.getD b {}
  x.records.foldl (fun s r =>
    match x.sums.find? (fun w => w.a == r.1) with
    | some w =>
      match w.b with
      | some e =>
        if e ≤ upTo then
          let words := (s.view.windowServices b).flatMap (fun n =>
            let a := w.acc.getD n (0, 0)
            leInt 4 (satSigned 32 (roundEven a.1 (2 ^ 48))) ++ leInt 4 (satSigned 32 (roundEven a.2 (2 ^ 48))))
          let s := s.modXaBus b (fun x =>
            { x with records := x.records.filter (fun q => q.1 != r.1), sums := x.sums.filter (fun q => q.a != r.1) })
          s.offer 1 { bytes := r.2 ++ words, time := s.ticks }
        else s
      | none => s
    | none => s) s

/-- A window of a bus can be analysed: the ring holds every sample that the resampler draws on, the values of its cycles
have been judged (R215), and no configuration is still to take effect before its end, so that the layout in force names the
entries of its record (R252). -/
def State.windowHeld (s : State) (b : Nat) (w : Window) : Bool :=
  (s.engines.ring.head?).any (fun f => decide (w.b / 65536 + 17 ≤ f.strobe)) && s.judgedTo b w.b &&
    s.start.applying.all (fun x => decide (strobeOf w.b ≤ x.bound))

/-- The first window of a bus that has ended is analysed: its values become visible, its count rises, its record
waits for the service sums, and sliding references follow it (R206–R209, R213, R251). -/
def analyseFirst (b : Nat) (s : State) : State :=
  let x := s.xa.buses.getD b {}
  match x.ended with
  | [] => s
  | w :: ws =>
    let v := s.view
    let n := w.cycles
    let ta := s.timeNear w.a
    let tb := s.timeNear w.b
    let fs := s.ringSpan (strobeOf w.a) (strobeOf w.b)
    let count := x.count + 1
    let event := x.eventFlag w.a w.b
    let freq := windowFreq n w
    let spec : Nat → Spectrum := fun c => spectrumOf s.engines.ring s.free c w.a w.b
    let shown := s.part.fitXa
    let ref := (s.busReference b).map (fun r => (spec r).phase n)
    let clip := fun (c : Nat) => fs.any (fun f => f.clip.getLsbD c)
    let rep := fun (c : Nat) => fs.any (fun f => f.patched.getLsbD c || f.lost.getLsbD c)
    let chans := v.windowChannels b
    let head := leBytes 4 count.toNat ++ timeBytes ta ++ leBytes 4 freq
    let channels := chans.foldl (fun cs c =>
      if shown && v.analysed c then
        modAt cs c (analysed v n head (flag event * 2 ^ 31 + flag w.synth * 2 ^ 30 + flag (clip c) * 2 ^ 29 +
          flag (rep c) * 2 ^ 28) (spec c) ref)
      else cs) s.xa.channels
    let words := chans.map (fun c =>
      min (framesRms fs c / 2 ^ 13) (2 ^ 18 - 1) * 2 ^ 14 + flag (clip c) * 2 ^ 13 + flag (rep c) * 2 ^ 12 +
        (if shown && v.analysed c then (channels.getD c {}).thd else 4095))
    let watched := (List.range 8).foldl (fun l u =>
      if v.chanOn (48 + u) && v.busOf u == b && v.watched u && v.refSliding b && !event then
        modAt l u (slideOne (v.udinCode b) (framesRms fs (48 + u)))
      else l) s.xa.watched
    let rec_ := windowRecord b (s.recording.layouts.getD b (0, [])).1 count.toNat ta tb freq w.synth event chans
      (v.windowServices b) words
    let s := { s.nextFree with xa.channels := channels, xa.watched := watched }
    let s := s.modXaBus b (fun x =>
      { x with ended := ws, count := count, records := x.records ++ [(strobeOf w.a, rec_)]
               spans := x.spans.filter (fun sp => w.a < sp.2) })
    flushWindows b (s.billing.stamp + 1) s

/-- ANALYSIS_WINDOW_COMPLETE: the first window of a bus that has ended is analysed once it can be. -/
def analyseWindow (b : Nat) (s : State) : State :=
  match (s.xa.buses.getD b {}).ended with
  | w :: _ => if s.windowHeld b w then analyseFirst b s else s
  | [] => s

/-- The windows of a bus that ended at or before a strobe are analysed before the layout changes there: their records keep
its entries and stand before the new layout record (R252, R253). -/
def analyseBefore (strobe b : Nat) (s : State) : State :=
  let n := ((s.xa.buses.getD b {}).ended.takeWhile (fun w => strobeOf w.b ≤ strobe)).length
  Nat.repeat (analyseFirst b) n s

/-- ANALYSIS_WINDOW_COMPLETE (R203–R209, R213, R251, R253). -/
def execAnalysisWindowComplete (bus : Nat) (s : State) : Outcome := edge (analyseWindow bus) s

/-! ### Voltage events (R212–R219) -/

/-- The reference of a channel, UQ1.31 (R213). -/
def State.reference (s : State) (u : Nat) : Nat :=
  let b := s.view.busOf u
  if s.view.refSliding b then (s.xa.watched.getD u {}).sliding.getD (s.view.udinCode b) else s.view.udinCode b

/-- The latest value of a watched channel. -/
def State.latestValue (s : State) (u : Nat) : Option Nat := ((s.xa.watched.getD u {}).values.head?).map (·.v)

/-- A value is below `pct` per cent of a reference. -/
def belowPct (v pct ref : Nat) : Bool := 100 * v < pct * ref

/-- A value as a fraction of a reference, unit 2^−31. -/
def fraction (v ref : Nat) : Nat := if ref = 0 then 0 else v * 2 ^ 31 / ref

/-- A fraction in 0.01 %, to nearest, saturated to 16 bits. -/
def inHundredths (f : Nat) : Nat := min ((f * 10000 + 2 ^ 30) / 2 ^ 31) 0xFFFF

/-- Values in the history of rapid voltage changes: 100 on a 50 Hz bus, 120 on a 60 Hz bus (R214). -/
def View.steadyCount (v : View) (b : Nat) : Nat := if v.busFnom b = 60 then 120 else 100

/-- Sum of values. -/
def sumValues (l : List RmsValue) : Nat := (l.map (·.v)).foldl (· + ·) 0

/-- Values are steady: all within half of RVC_TH of their mean (R214); RVC_TH is in 0.1 % of the reference. -/
def steady (n th ref : Nat) (l : List RmsValue) : Bool :=
  l.length == n && l.all (fun x => ((n * x.v : Nat) - (sumValues l : Int)).natAbs * 2000 ≤ th * ref * n)

/-- Distance of a value from the mean of `n` values, times `n`. -/
def departure (n v : Nat) (l : List RmsValue) : Nat := ((n * v : Nat) - (sumValues l : Int)).natAbs

/-- The code KIND of R230. -/
def EventKind.code : EventKind → Nat
  | .dip => 1
  | .swell => 2
  | .interruption => 3
  | .rvc => 4

/-- A kind is pinned (R229). -/
def View.pinsKind (v : View) (k : EventKind) : Bool :=
  match k with
  | .dip => v.pinKind 3
  | .swell => v.pinKind 2
  | .interruption => v.pinKind 1
  | .rvc => v.pinKind 0

/-- The record of a closed event (R230) without its evidence number. -/
def State.eventRecord (s : State) (b : Nat) (e : OpenEvent) (endTick : Nat) (cut lost : Bool) : Bytes :=
  let pin := s.view.pinsKind e.kind
  let u := e.worst
  let ref := e.refs.getD u 0
  let vals := (s.xa.watched.getD u {}).values.take (s.view.steadyCount b)
  let dss :=
    match e.kind with
    | .rvc =>
      if vals.isEmpty then 0 else
      inHundredths (fraction ((sumValues vals / vals.length : Nat) - (e.before.getD u 0 : Int)).natAbs ref)
    | _ => 0
  timeBytes e.start ++ leBytes 4 (min (endTick - e.start) (2 ^ 32 - 1)) ++
    [BitVec.ofNat 8 (16 * e.kind.code + b),
     BitVec.ofNat 8 (32 * u + 16 * flag cut + 8 * flag lost + 4 * flag e.openAtStart +
       2 * flag (s.view.refSliding b) + flag pin)] ++
    leBytes 2 (inHundredths e.extreme) ++ leBytes 2 dss ++ leBytes 4 ((ref * 666667 + 2 ^ 30) / 2 ^ 31) ++
    [BitVec.ofNat 8 e.mask, if e.outcome ≠ 0 then BitVec.ofNat 8 e.outcome else if pin then 4 else 0] ++ zeros 4 ++ leBytes 2 (flag e.containsInt) ++ zeros 2

/-- The pin request of a closed event (R219): a span already asked for while the event was open is not asked
for twice. -/
def State.closedPin (s : State) (e : OpenEvent) (number endTick : Nat) : List PinRequest :=
  if !s.view.pinsKind e.kind then [] else
  let pre := s.view.pinPre * tps
  let post := s.view.pinPost * tps
  let from_ := match e.pinnedTo with
    | some t => max t (endTick - pre)
    | none => e.start - pre
  [{ fromTick := from_, toTick := endTick + post, reason := 0x0F + e.kind.code, event := number
     due := endTick + post }]

/-- The flicker intervals of a bus that an event overlaps, from one instant to another, carry EVENT (R211): the one in
progress, and those closed and not yet published. -/
def markFlicker (b from_ upTo : Nat) (s : State) : State :=
  { s with xa.channels := (List.range 8).foldl (fun cs u =>
      if s.view.busOf u = b && s.view.flicker u then
        modAt cs (48 + u) (fun x => { x with
          meter := { x.meter with event := x.meter.event || decide (x.meter.from_ * 65536 < upTo) }
          closed := x.closed.map (fun (c : PstClosed) =>
            (if c.from_ * 65536 < upTo && from_ < c.strobe * 65536 then { c with event := true } else c : PstClosed)) })
      else cs) s.xa.channels }

/-- An event closes at the value `last` (R218): evidence entry, recent record, counters and pin request. -/
def closeEvent (b : Nat) (e : OpenEvent) (last : RmsValue) (cut lost : Bool) (s : State) : State :=
  let endTick := last.tick
  let r := s.eventRecord b e endTick cut lost
  let n := e.number
  let c := modAt s.xa.counters (e.kind.code - 1) (· + 1)
  let c := if lost then modAt c 5 (· + 1) else c
  let pins := s.xa.pins ++ s.closedPin e n endTick
  let s := { s with
    xa.recent := (r :: s.xa.recent).take 16
    xa.recentNumbers := (n :: s.xa.recentNumbers).take 16
    xa.counters := c
    xa.events := s.xa.events + 1
    xa.pins := pins }
  let s := s.modXaBus b (fun x =>
    { x with openEvents := x.openEvents.filter (fun q => q.kind != e.kind)
             spans := if e.kind = .rvc then x.spans else x.spans ++ [(e.at_, last.at_)] })
  let s := if e.kind = .rvc then s else markFlicker b e.at_ last.at_ s
  s.raiseEntry { time := s.ticks, code := 0x6F + e.kind.code, payload := r.take 16, recent := some n }

/-- The open event of a kind on a bus. -/
def State.openEvent (s : State) (b : Nat) (k : EventKind) : Option OpenEvent :=
  (s.xa.buses.getD b {}).openEvents.find? (fun e => e.kind == k)

/-- An open event changed. -/
def modEvent (b : Nat) (k : EventKind) (f : OpenEvent → OpenEvent) (s : State) : State :=
  s.modXaBus b (fun x => { x with openEvents := x.openEvents.map (fun e => if e.kind = k then f e else e) })

/-- An event opens at a value of channel `u`. -/
def openEvent (b u : Nat) (k : EventKind) (x : RmsValue) (extreme mask : Nat) (first : Bool) (before : List Nat)
    (s : State) : State :=
  let e : OpenEvent :=
    { kind := k, number := s.xa.opened + 1, start := x.tick, at_ := x.at_, extreme := extreme, worst := u
      refs := tab 8 s.reference, mask := mask, openAtStart := first, before := before
      containsInt := k = .dip && (s.openEvent b .interruption).isSome }
  { s with xa.opened := s.xa.opened + 1 }.modXaBus b (fun x => { x with openEvents := x.openEvents ++ [e] })

/-- A rapid voltage change during which a dip or swell threshold is crossed is discarded and counted (R215). -/
def discardChange (b : Nat) (s : State) : State :=
  if (s.openEvent b .rvc).isSome then
    let s := { s with xa.counters := modAt s.xa.counters 4 (· + 1) }
    s.modXaBus b (fun x => { x with openEvents := x.openEvents.filter (fun q => q.kind != .rvc) })
  else s

/-- Dip: judged with the new value `x` of channel `u` (R214). -/
def judgeDip (b u : Nat) (x : RmsValue) (first : Bool) (s : State) : State :=
  let v := x.v
  let th := s.view.sagTh b
  let below := belowPct v th (s.reference u)
  let f := fraction v (s.reference u)
  match s.openEvent b .dip with
  | none => if below then discardChange b (openEvent b u .dip x f (2 ^ u) first [] s) else s
  | some e =>
    if (s.view.watchedOn b).all (fun w => !belowPct ((s.latestValue w).getD 0) (th + 2) (s.reference w)) then
      closeEvent b e x false false s
    else
      modEvent b .dip (fun e =>
        { e with mask := if below then e.mask ||| 2 ^ u else e.mask
                 extreme := min e.extreme f, worst := if f < e.extreme then u else e.worst }) s

/-- Swell. -/
def judgeSwell (b u : Nat) (x : RmsValue) (first : Bool) (s : State) : State :=
  let v := x.v
  let th := s.view.swellTh b
  let above := th * s.reference u < 100 * v
  let f := fraction v (s.reference u)
  match s.openEvent b .swell with
  | none => if above then discardChange b (openEvent b u .swell x f (2 ^ u) first [] s) else s
  | some e =>
    if (s.view.watchedOn b).all (fun w =>
        decide (100 * ((s.latestValue w).getD 0) ≤ (th - 2) * s.reference w)) then
      closeEvent b e x false false s
    else
      modEvent b .swell (fun e =>
        { e with mask := if above then e.mask ||| 2 ^ u else e.mask
                 extreme := max e.extreme f, worst := if e.extreme < f then u else e.worst }) s

/-- Interruption: always judged against UDIN (R213). -/
def judgeInterruption (b u : Nat) (x : RmsValue) (first : Bool) (s : State) : State :=
  let v := x.v
  let ref := s.view.udinCode b
  let th := s.view.intTh b
  let chans := s.view.watchedOn b
  let f := fraction v ref
  match s.openEvent b .interruption with
  | none =>
    if chans.all (fun w => match s.latestValue w with | some y => belowPct y th ref | none => false) then
      modEvent b .dip (fun e => { e with containsInt := true })
        (openEvent b u .interruption x f ((chans.map (fun w => 2 ^ w)).foldl (· + ·) 0) first [] s)
    else s
  | some e =>
    if chans.any (fun w => !belowPct ((s.latestValue w).getD 0) (th + 2) ref) then closeEvent b e x false false s
    else
      modEvent b .interruption (fun e =>
        { e with extreme := min e.extreme f, worst := if f < e.extreme then u else e.worst }) s

/-- Rapid voltage change (R214–R216): begun by a departure from steady values while no dip or swell is open, and
ended when every watched channel is steady again. -/
def judgeRvc (b u : Nat) (x : RmsValue) (s : State) : State :=
  let v := x.v
  let n := s.view.steadyCount b
  let th := s.view.rvcTh b
  let before := ((s.xa.watched.getD u {}).values.drop 1).take n
  let ref := s.reference u
  match s.openEvent b .rvc with
  | none =>
    let busy := (s.openEvent b .dip).isSome || (s.openEvent b .swell).isSome
    let d := departure n v before
    if !busy && steady n th ref before && decide (th * ref * n < d * 1000) then
      openEvent b u .rvc x (fraction d (ref * n)) (2 ^ u) false
        (tab 8 (fun w =>
          let l := if w = u then before else ((s.xa.watched.getD w {}).values.take n)
          if l.isEmpty then 0 else sumValues l / l.length)) s
    else s
  | some e =>
    let calm := (s.view.watchedOn b).all (fun w =>
      let l := (s.xa.watched.getD w {}).values.take n
      steady n th (s.reference w) l && l.all (fun y => decide (e.at_ ≤ y.at_)))
    if calm then
      closeEvent b e ((((s.xa.watched.getD u {}).values.take n).getLast?).getD x) false false s
    else
      let d := ((v : Int) - (e.before.getD u 0 : Int)).natAbs
      let f := fraction d ref
      modEvent b .rvc (fun e =>
        { e with mask := if th * ref < 1000 * d then e.mask ||| 2 ^ u else e.mask
                 extreme := max e.extreme f, worst := if e.extreme < f then u else e.worst }) s

/-- The RMS over one cycle, its end samples weighted by the part of their metering period inside it, UQ1.31
(R212). The period of strobe k runs from k to k + 1 (log entry 22). -/
def cycleRms (fs : List RingFrame) (c a b : Nat) : Nat :=
  let sq := (fs.map (fun f =>
    (min b ((f.strobe + 1) * 65536) - max a (f.strobe * 65536)) * (f.samples.getD c 0).natAbs ^ 2)).foldl (· + ·) 0
  if b ≤ a then 0 else isqrt (sq * 2 ^ 16 / (b - a))

/-- Half-cycle boundaries of a watched channel up to the frame `f` (R212): its own crossings, and while it is below 0.1 of
its reference or a crossing is more than 0.6 of a period late, synthesised ones at half the period of the bus, counted
from the last real one. Nearer than a quarter period to the last one none is taken (DESIGN CHOICE, log entry 161). -/
def halvesAt (f : RingFrame) (u : Nat) (s : State) (w : Watched) : Watched :=
  let freq := (s.billing.buses.getD (s.view.busOf u) {}).freq
  let period := periodOf freq
  let now := beforeFilters freq (f.strobe * 65536)
  let base := w.lastReal.getD now
  let last := (w.halves.getLast?).getD base
  let low := (s.latestValue u).any (fun v => decide (10 * v < s.reference u))
  match (s.billing.trackers.getD u {}).crossed, low with
  | some (_, x), false =>
    let i := beforeFilters freq x
    if last + period / 4 ≤ i then { w with halves := w.halves ++ [i], lastReal := some i } else { w with lastReal := some base }
  | _, _ =>
    let half := period / 2
    if low || base + half + 6 * period / 10 < now then
      let k := if half = 0 then 0 else (last - base) / half + 1
      { w with
        halves := w.halves ++ (tab 4 (fun i => base + (k + i) * half)).filter (fun i => last < i && i ≤ now)
        lastReal := some base }
    else { w with lastReal := some base }

/-- The metering samples of a frame bring the half-cycle boundaries of the watched channels (R212). -/
def halfFrame (f : RingFrame) (s : State) : State :=
  if s.xa.suspended || !s.part.fitXa then s
  else
    { s with xa.watched := s.xa.watched.zipIdx.map (fun x =>
        if s.view.chanOn (48 + x.2) && s.view.watched x.2 then halvesAt f x.2 s x.1 else x.1) }

/-- A value of a watched channel over a cycle whose samples stand in the ring; dips, swells, interruptions and rapid
voltage changes of its bus are judged with it. -/
def judgeCycle (u a b : Nat) (fs : List RingFrame) (s : State) : State :=
  let bus := s.view.busOf u
  let x : RmsValue := { v := cycleRms fs (48 + u) a b, tick := s.timeNear a, at_ := a }
  let first := (s.xa.watched.getD u {}).values.isEmpty
  let s := { s with xa.watched := modAt s.xa.watched u (fun w => { w with values := (x :: w.values).take 121 }) }
  judgeInterruption bus u x first (judgeSwell bus u x first (judgeDip bus u x first (judgeRvc bus u x s)))

/-- HALF_CYCLE_RMS: the next value of a watched channel, over the cycle from its oldest half-cycle boundary to the second
one after it, once the ring holds all of it; a cycle that the ring no longer holds gives none. -/
def halfCycleRms (c : Nat) (s : State) : State :=
  let u := c - 48
  if c < 48 || 56 ≤ c || !s.view.chanOn c || !s.view.watched u || s.xa.suspended || !s.part.fitXa then s else
  match (s.xa.watched.getD u {}).halves with
  | a :: m :: b :: rest =>
    if (s.engines.ring.head?).all (fun f => decide (f.strobe * 65536 + 65536 < b)) then s else
    let fs := s.ringSpan (a / 65536) ((b + 65535) / 65536)
    let s := { s with xa.watched := modAt s.xa.watched u (fun w => { w with halves := m :: b :: rest }) }
    if fs.length ≠ (b + 65535) / 65536 - a / 65536 then s else judgeCycle u a b fs s
  | _ => s

/-- HALF_CYCLE_RMS (R212–R219). -/
def execHalfCycleRms (channel : Nat) (s : State) : Outcome := edge (halfCycleRms channel) s

/-- The later of two values. -/
def laterValue (a b : RmsValue) : RmsValue := if a.at_ < b.at_ then b else a

/-- Every open event closes at the last evaluated value of its bus (R217, R221). -/
def closeAllEvents (cut lost : Bool) (s : State) : State :=
  (List.range 8).foldl (fun s b =>
    (s.xa.buses.getD b {}).openEvents.foldl (fun s e =>
      let last := ((s.view.watchedOn b).filterMap (fun u => (s.xa.watched.getD u {}).values.head?)).foldl
        laterValue { v := 0, tick := e.start, at_ := e.at_ }
      closeEvent b e last cut lost s) s) s

/-! ### Suspension (R221, R254) -/

/-- Extended analysis is suspended (R221): open events close with XA_LOST, windows and flicker intervals in
progress are discarded, and a pool gap record is owed. -/
def suspendXa (s : State) : State :=
  let s := closeAllEvents false true s
  { s with
    xa.suspended := true
    xa.pstNext := none
    xa.pstSteps := []
    xa.watched := List.replicate 8 {}
    xa.channels := s.xa.channels.map (fun (x : XaChannel) =>
      ({ x with psts := [], closed := [], meter := { shown := x.meter.shown } } : XaChannel))
    xa.buses := s.xa.buses.map (fun (x : XaBus) => ({ x with ended := [], sums := x.sums.filter (fun w => w.b.isSome) } : XaBus))
    recording.poolGap := true }

/-! ### Reads (R224, R225, R230–R233) -/

/-- XA_STATE of R225. -/
def State.xaState (s : State) : Nat :=
  let v := s.view
  if s.xa.suspended then 2
  else if (List.range 56).any v.analysed || (List.range 8).any (fun u => v.flicker u || v.watched u) || v.auditOn ||
    v.balOn then 1
  else 0

/-- The engine that carries extended analysis (R36). -/
def State.xaEngine (s : State) : Nat := if s.engines.split then 1 - s.engines.active else s.engines.active

/-- Event pins made in the current chronicle hour. -/
def State.pinsThisHour (s : State) : Nat := if s.xa.pinHour = s.sec / 3600 then s.xa.pinsHour else 0

/-- The analysis status (R225). -/
def State.xaStatus (s : State) : Bytes :=
  leBytes 8 (s.xaState * 2 ^ 62 + s.xaEngine * 2 ^ 61 +
    ((List.range 8).map (fun b => flag (!(s.xa.buses.getD b {}).openEvents.isEmpty) * 2 ^ (48 + b))).foldl (· + ·) 0 +
    s.pinsThisHour * 2 ^ 40 + s.xa.events.toNat)

/-- Reads of instances 1 and 8–63 of class 0 but for the settings (R224, R232). -/
def State.readXa (s : State) (inst m : Nat) : Bytes :=
  if inst = 1 then
    match m with
    | 0 => s.xaStatus
    | 5 => fit 512 s.xa.recent.flatten
    | 6 => s.xa.counters.flatMap (fun c => leBytes 4 c.toNat)
    | _ => []
  else
    let c := inst - 8
    let x := s.xa.channels.getD c {}
    if m = 4 then
      if s.view.flicker (c - 48) then x.flicker.take 24 ++ leBytes 4 x.meter.shown ++ zeros 4 else zeros 32
    else
      let on := s.view.analysed c
      match m with
      | 0 => if on then fit 32 x.summary else zeros 32
      | 1 => if on then fit 256 x.harmonics else zeros 256
      | 2 => if on then fit 256 x.interharmonics else zeros 256
      | 3 => if on then fit 128 x.angles else zeros 128
      | _ => []

end Sys2Proof.Machine
end

