-- ==== Sys2Proof/Machine/Record.lean ====
section
/-! DEFINITION. Record.lean: the recording (chapter "Recording and the seep coder"): seep segments and blocks,
layout and pool gap records, profile records, and the objects of R266–R269. -/

namespace Sys2Proof.Machine
open Sys2Proof

/-! ### Coding a block (R240–R245) -/

/-- The prediction of an order from the reconstructed samples, newest first (R241). -/
def predict (order : Nat) (h : List Int) : Int :=
  let a := h.getD 0 0
  let b := h.getD 1 0
  let c := h.getD 2 0
  let d := h.getD 3 0
  match order with
  | 0 => 0
  | 1 => a
  | 2 => 2 * a - b
  | 3 => 3 * a - 3 * b + c
  | _ => 4 * a - 6 * b + 4 * c - d

/-- The coded value of a residual (R242). -/
def nearValue (k : Nat) (e : Int) : Int :=
  if k = 0 then e
  else (if e < 0 then -1 else 1) * ((e.natAbs + 2 ^ k) / (2 ^ (k + 1) + 1) : Nat)

/-- The reconstruction of a coded value (R242). -/
def nearRecon (k : Nat) (pred r : Int) : Int :=
  if k = 0 then pred + r else satSigned 20 (pred + r * (2 ^ (k + 1) + 1 : Nat))

/-- The coded values of samples under an order, and the reconstructed samples after them, newest first. -/
def codeValues (order k : Nat) : List Int → List Int → List Int × List Int
  | h, [] => ([], h)
  | h, x :: xs =>
    let p := predict order h
    let r := nearValue k (x - p)
    let t := codeValues order k (nearRecon k p r :: h.take 3) xs
    (r :: t.1, t.2)

/-- The mapping of a coded value to z (R245). -/
def zigzag (v : Int) : Nat := if v < 0 then 2 * v.natAbs - 1 else 2 * v.natAbs

/-- The bits of a number, most significant first. -/
def msbBits (n v : Nat) : List Bool := (List.range n).reverse.map (fun i => bit i v)

/-- Bits of one z under Rice parameter K: the quotient in zeros, a one, and K low bits. -/
def riceBits (k z : Nat) : List Bool := List.replicate (z / 2 ^ k) false ++ true :: msbBits k z

/-- Bits that a partition's values take under K. -/
def riceCost (k : Nat) (zs : List Nat) : Nat := (zs.map (fun z => z / 2 ^ k + 1 + k)).foldl (· + ·) 0

/-- The width of an escape: the least that holds every z, at least 1. -/
def escapeWidth (zs : List Nat) : Nat := (zs.foldl max 0).log2 + 1

/-- The parameter of a partition that gives the fewest bits, the lower one of two that tie: parameter and bits,
PARAM included. -/
def bestParam (zs : List Nat) : Nat × Nat :=
  let rice := (List.range 25).foldl (fun (best : Nat × Nat) k =>
    let c := riceCost k zs
    if c < best.2 then (k, c) else best) (0, riceCost 0 zs)
  let esc := 5 + escapeWidth zs * zs.length
  if esc < rice.2 then (31, 5 + esc) else (rice.1, 5 + rice.2)

/-- The bits of a partition. -/
def partitionBits (zs : List Nat) : List Bool :=
  let p := (bestParam zs).1
  if p = 31 then msbBits 5 31 ++ msbBits 5 (escapeWidth zs) ++ zs.flatMap (msbBits (escapeWidth zs))
  else msbBits 5 p ++ zs.flatMap (riceBits p)

/-- A list cut into pieces of 64 (R240); `fuel` bounds their number. -/
def partitions : Nat → List Nat → List (List Nat)
  | 0, _ => []
  | fuel + 1, l => if l.isEmpty then [] else l.take 64 :: partitions fuel (l.drop 64)

/-- Bytes of a bit string, padded with 0 to a whole byte. -/
def packBits : Nat → List Bool → Bytes
  | 0, _ => []
  | fuel + 1, l =>
    if l.isEmpty then []
    else
      let b := (l.take 8 ++ List.replicate (8 - l.length) false).foldl (fun a x => 2 * a + flag x) 0
      BitVec.ofNat 8 b :: packBits fuel (l.drop 8)

/-- A coded block (R244): LENGTH and the bit field. -/
def blockBytes (mode order : Nat) (clip repair : Bool) (payload : List Bool) : Bytes :=
  let bits := msbBits 2 mode ++ msbBits 3 order ++ [clip, repair, false] ++ payload
  let body := packBits (bits.length / 8 + 1) bits
  leBytes 2 (body.length + 2) ++ body

/-- A 20-bit two's complement sample as bits. -/
def sampleBits (x : Int) : List Bool := msbBits 20 (toUnsigned 20 x)

/-- What the coder makes of a block: its bytes, its mode, its escaped partitions, and the reconstructed samples
after it, newest first. -/
structure Coded where
  bytes : Bytes
  mode : Nat
  escapes : Nat
  recon : List Int
deriving DecidableEq, Repr

/-- A literal block. -/
def literalBlock (xs : List Int) (clip repair : Bool) : Coded :=
  { bytes := blockBytes 0 0 clip repair (xs.flatMap sampleBits), mode := 0, escapes := 0, recon := xs.reverse.take 4 }

/-- Order and partitions of the best coded form: the fewest bits, the lower order of two that tie. -/
def bestOrder (k : Nat) (h xs : List Int) : Nat × Nat :=
  (List.range 5).foldl (fun (best : Nat × Nat) p =>
    let zs := partitions 4 ((codeValues p k h xs).1.map zigzag)
    let c := (zs.map (fun z => (bestParam z).2)).foldl (· + ·) 0
    if p = 0 || c < best.2 then (p, c) else best) (0, 0)

/-- The coder's choice for a block (R243): `first` marks the first block of its channel in the segment. -/
def codeBlock (first : Bool) (k : Nat) (h xs : List Int) (clip repair : Bool) : Coded :=
  if first then literalBlock xs clip repair
  else if xs.all (fun x => x == xs.headD 0) then
    { bytes := blockBytes 1 0 clip repair (sampleBits (xs.headD 0)), mode := 1, escapes := 0
      recon := (xs.reverse ++ h).take 4 }
  else
    let b := bestOrder k h xs
    if 20 * xs.length ≤ b.2 then literalBlock xs clip repair
    else
      let c := codeValues b.1 k h xs
      let ps := partitions 4 (c.1.map zigzag)
      { bytes := blockBytes 2 b.1 clip repair (ps.flatMap partitionBits), mode := 2
        escapes := (ps.filter (fun z => (bestParam z).1 == 31)).length, recon := c.2 }

/-! ### The recording stream (R92, R235) -/

/-- One recording sample from the metering samples up to `recordReach` away, oldest first: rounded to Q1.19, half to even,
and saturated (R92). -/
def recordSample (xs : List Int) : Int :=
  satSigned 20 (roundEven
    (xs.zipIdx.foldl (fun a x => a + recordTaps.getD ((x.2 : Int) - recordReach).natAbs 0 * x.1) 0) (2 ^ 34))

/-- `n` recording samples: `xs` begins with the metering sample `recordReach` before the first of them. -/
def recordFrom : Nat → List Int → List Int
  | 0, _ => []
  | n + 1, xs => recordSample (xs.take (2 * recordReach + 1)) :: recordFrom n (xs.drop 2)

/-- The frames of the ring from strobe `a` to strobe `b`, oldest first. -/
def ringBetween (ring : List RingFrame) (a b : Nat) : List RingFrame :=
  (ring.filter (fun f => a ≤ f.strobe && f.strobe ≤ b)).reverse

/-- The recording samples of a channel at the even strobes `k`, `k + 2`, … `n` of them, each standing for its strobe's
instant (R235). A metering sample that the ring does not hold counts as 0. -/
def recordSamples (ring : List RingFrame) (c k n : Nat) : List Int :=
  let fs := ringBetween ring (k - recordReach) (k + 2 * n + recordReach)
  let lead := List.replicate (((fs.head?).map (fun f => f.strobe + recordReach)).getD k - k) 0
  recordFrom n (lead ++ fs.map (fun f => f.samples.getD c 0))

/-- CLIP and REPAIR of a block (R244): a mark of one of its metering samples. -/
def blockMarks (ring : List RingFrame) (c k n : Nat) : Bool × Bool :=
  let fs := ringBetween ring k (k + 2 * n - 1)
  (fs.any (fun f => f.clip.getLsbD c), fs.any (fun f => f.patched.getLsbD c || f.lost.getLsbD c))

/-! ### Segments (R238, R239, R247–R249) -/

/-- The cut that the gap of a start runs to: the switch-over recorded after the resume point (R454). -/
def State.cutTime (s : State) : Option Nat :=
  let t := s.backup.previous.sec * tps + s.backup.previous.tick
  if s.backup.previous.valid && decide (s.start.resumeSec * tps + s.start.resumeTick ≤ t) then some t else none

/-- Recording samples in a segment span of `ticks`. -/
def samplesIn (ticks : Nat) : Nat := ticks * 8000 / tps

/-- A service table entry (R248). -/
def serviceEntry (v : View) (p : SvcPlan) : Bytes :=
  let inv := (List.range 3).map (fun e => flag (v.svcInvert p.n e) * 2 ^ e)
  [BitVec.ofNat 8 p.n, BitVec.ofNat 8 p.elems.length, BitVec.ofNat 8 p.bus,
   BitVec.ofNat 8 (32 * inv.foldl (· + ·) 0 + 2 * v.svcStart p.n), BitVec.ofNat 8 (v.svcQuantum p.n), 0] ++
  tabBytes 3 (fun e =>
    match p.elems.find? (fun x => x.elem == e) with
    | some x => [BitVec.ofNat 8 x.cur, BitVec.ofNat 8 x.volt]
    | none => [0xFF, 0xFF]) ++
  tabBytes 3 (fun e => leBytes 8 (if p.elems.any (fun x => x.elem == e) then v.weightOf p.n e else 0))

/-- The mask of the enabled services. -/
def View.serviceMask (v : View) : Nat :=
  ((List.range 16).map (fun n => flag (v.svcOn n) * 2 ^ n)).foldl (· + ·) 0

/-- The first 28 bytes of a segment header (R247): flags and samples as they are known. -/
def segmentHead (g : Segment) (flags samples : Nat) : Bytes :=
  [0x10, 0x01] ++ leBytes 2 flags ++ leBytes 4 g.seq ++ timeBytes g.startTick ++ leBytes 6 g.startStrobe ++ zeros 2 ++
    leBytes 4 samples

/-- The segment header and the service table, as they are known when the segment opens: the samples are those of the
nominal rate to its aligned end (log entry 24). -/
def segmentHeader (v : View) (cfg : Nat) (g : Segment) : Bytes :=
  segmentHead g g.flags (samplesIn (g.alignedEnd - g.startTick)) ++ leBytes 4 cfg ++ leBytes 8 g.mask ++
    leBytes 2 v.serviceMask ++ zeros 22 ++ v.plans.flatMap (serviceEntry v)

/-- A gap marker (R249). -/
def gapMarker (reason seq startTick endTick : Nat) : Bytes :=
  [0x11, BitVec.ofNat 8 reason, 0, 0] ++ leBytes 4 seq ++ timeBytes startTick ++ timeBytes endTick

/-- The end of a seep record: a segment's from its samples, a gap marker's as it says. -/
def seepEnd (r : Bytes) : Nat :=
  if getU r 0 1 = 0x11 then getU r 16 6 * tps + getU r 22 2
  else getU r 8 6 * tps + getU r 14 2 + getU r 24 4 * tps / 8000

/-- The start of a seep record. -/
def seepStart (r : Bytes) : Nat := getU r 8 6 * tps + getU r 14 2

/-- The record of a gap marker in the mere. -/
def gapRecord (reason seq startTick endTick : Nat) : MereRec :=
  { bytes := gapMarker reason seq startTick endTick, time := startTick, urgent := true }

/-- A gap marker is counted (R68, R268, R305). -/
def countGap (s : State) : State :=
  { s.setIrq .archive with
    recording.gapsWritten := s.recording.gapsWritten + 1
    archive.flow.gaps := s.archive.flow.gaps + 1 }

/-- A gap marker is queued and counted. -/
def offerGap (reason seq startTick endTick : Nat) (s : State) : State :=
  countGap (s.offer 0 (gapRecord reason seq startTick endTick))

/-- Recording runs: SEEP_ON, not held off, the inputs connected, no supply-fail warning, and some channel on. -/
def State.recordingOn (s : State) : Bool :=
  s.view.seepOn && !s.held 2 && s.sense.connected && !s.power.warning && (List.range 56).any s.view.chanOn

/-- The next aligned 10 s boundary after a tick. -/
def nextAligned (t : Nat) : Nat := (t / (10 * tps) + 1) * (10 * tps)

/-- The end of the span of a segment: its aligned end, or that of its samples when SHORT (R247, R261). -/
def segmentEnd (r : Bytes) : Nat := if bit 4 (getU r 2 2) then seepEnd r else nextAligned (seepStart r)

/-- TIME_STEP of R247. -/
def segStep : Nat := 8
/-- SHORT. -/
def segShort : Nat := 16
/-- START. -/
def segStart : Nat := 32
/-- CUT. -/
def segCut : Nat := 64

/-- The first recording sample at or after a strobe count stands for this strobe (R235). -/
def evenUp (k : Nat) : Nat := (k + 1) / 2 * 2

/-- The recording sample of strobe `r` is the first of an aligned 10 s; `step` says that the time before it was another. -/
def State.beginsWhole (s : State) (r : Nat) (step : Bool) : Bool :=
  let t := s.timeOf r
  let off := t % (10 * tps)
  off * 8000 < tps && (step || s.timeOf (r - 2) < t - off)

/-- A segment opens at a strobe count (R238, R239); with the coder out of service or under test a gap marker takes its
place (R246, R523). -/
def openSegment (strobe flags : Nat) (s : State) : State :=
  if !s.recordingOn then { s with recording.segment := none } else
  let v := s.view
  let r := evenUp strobe
  let t := s.timeOf r
  let whole := s.beginsWhole r (bit 3 flags)
  let mask := ((List.range 56).map (fun c => flag (v.chanOn c) * 2 ^ c)).foldl (· + ·) 0
  let seq := (s.recording.lastSeq + 1) % 2 ^ 32
  let g : Segment :=
    { seq := seq, startTick := t, startStrobe := r, whole := whole
      flags := v.nearK + (flags ||| (if whole then 0 else segShort))
      mask := mask, alignedEnd := nextAligned t
      dropped := !s.recording.coderOk || s.recording.coderTesting }
  let h := segmentHeader v s.start.config.seq.toNat g
  let s := { s with recording.lastSeq := seq, recording.segment := some { g with size := h.length } }
  if !g.dropped then s.offer 0 { bytes := h, seg := some seq, opening := true, complete := false, time := t }
  else offerGap 3 seq t g.alignedEnd s

/-- The segment being coded ends at a tick (R238): its last item completes it in the mere, with the flags and samples it
came to; `extra` holds further flags. -/
def closeSegment (extra ends : Nat) (s : State) : State :=
  match s.recording.segment with
  | none => s
  | some g =>
    let s := { s with recording.segment := none }
    if g.dropped then s else
    let per := (g.channels.map (·.samples)).foldl max 0
    let n := (g.channels.map (·.samples)).foldl (· + ·) 0
    let s := { s with recording.codedRate := if n = 0 then 0 else g.size * 8000 / n }
    let flags := g.flags ||| extra ||| (if g.whole && g.alignedEnd ≤ ends then 0 else segShort)
    s.offer 0 { bytes := segmentHead g flags per, seg := some g.seq, complete := true, time := g.startTick }

/-- A cut in its place in the list; two at one sample are one. -/
def insertCut (c : SegmentCut) : List SegmentCut → List SegmentCut
  | [] => [c]
  | x :: xs =>
    if c.strobe < x.strobe then c :: x :: xs
    else if c.strobe = x.strobe then
      { strobe := c.strobe, ends := max c.ends x.ends, before := c.before ||| x.before, after := c.after ||| x.after } :: xs
    else x :: insertCut c xs

/-- The last recording strobe that no configuration still to come can move to another segment: the reckoned samples have
reached it (R25, R238). -/
def State.settledTo (s : State) (k : Nat) : Bool :=
  k + 1223 < s.sense.nextStrobe && s.start.applying.all (fun x => decide (k < x.bound))

/-- Every recorded channel of a segment is coded up to a strobe. -/
def Segment.codedTo (g : Segment) (k : Nat) : Bool :=
  (List.range 56).all (fun c => !bit c g.mask || decide (k ≤ g.startStrobe + 2 * (g.channels.getD c {}).samples))

/-- Segments end and open at the cuts that are reached: the one being coded is coded whole, or dropped. -/
def turnSegments : Nat → State → State
  | 0, s => s
  | fuel + 1, s =>
    match s.recording.cuts with
    | [] => s
    | c :: cs =>
      let done := match s.recording.segment with
        | none => true
        | some g => g.dropped || g.codedTo c.strobe
      if done && s.settledTo (c.strobe - 1) then
        turnSegments fuel (openSegment c.strobe c.after (closeSegment c.before c.ends { s with recording.cuts := cs }))
      else s

/-- Segments end and open as far as the samples allow. -/
def runCuts (s : State) : State := turnSegments s.recording.cuts.length s

/-- The first strobe count at or after the beginning of a chronicle second: as its pair was captured, also before the pair
has been taken; where there is none, on the time line from the latest point before it (R30). -/
def State.strobeOfSecond (s : State) (sec : Nat) : Nat :=
  let as := (match s.backup.pairOut with
    | some p => [⟨p.strobe * 256 + p.clock, p.sec * tps, p.sec * tps⟩]
    | none => []) ++ s.time.anchors
  match as.find? (fun a => a.after == sec * tps) with
  | some a => (a.pos + 255) / 256
  | none =>
    match anchorBelow (as.filter (fun a => a.after ≤ sec * tps)) (2 ^ 56) with
    | some a => (a.pos * tps + (sec * tps - a.after) * 4096000 + 256 * tps - 1) / (256 * tps)
    | none => s.sense.nextStrobe

/-- The aligned end of the segment that the newest sample belongs to. -/
def State.lastAligned (s : State) : Option Nat :=
  match s.recording.cuts.getLast? with
  | some c => some (nextAligned (s.timeOf c.strobe))
  | none => s.recording.segment.map (·.alignedEnd)

/-- The segment is cut at a strobe count, with the flags of both sides (R238). -/
def splitSegment (strobe ends before after : Nat) (s : State) : State :=
  let c : SegmentCut := { strobe := evenUp strobe, ends := ends, before := before, after := after }
  runCuts { s with recording.cuts := insertCut c s.recording.cuts }

/-- SEGMENT_BOUNDARY: the chronicle second that is a whole multiple of 10 ends the segment and begins the next. -/
def segmentBoundary (s : State) : State :=
  let e := s.sec / 10 * 10
  if s.recordingOn && s.lastAligned.all (fun t => decide (t ≤ e * tps)) then
    splitSegment (s.strobeOfSecond e) (e * tps) 0 0 s
  else s

/-- SEGMENT_BOUNDARY (R238, R239). -/
def execSegmentBoundary (s : State) : Outcome := edge segmentBoundary s

/-- The channel whose block comes next: blocks stand in groups, one of every recorded channel (R247). -/
def Segment.nextChannel (g : Segment) : Option Nat :=
  (List.range 56).foldl (fun best c =>
    if bit c g.mask then
      match best with
      | none => some c
      | some b => if (g.channels.getD c {}).blocks < (g.channels.getD b {}).blocks then some c else best
    else best) none

/-- The next block of a channel (R240): the strobe of its first sample and its length, 256 samples or what is left before
the cut. Nothing while its samples may still fall to another segment. -/
def State.nextBlock (s : State) (g : Segment) (c : Nat) : Option (Nat × Nat) :=
  let k := g.startStrobe + 2 * (g.channels.getD c {}).samples
  let n := match s.recording.cuts with
    | x :: _ => min 256 ((x.strobe - k) / 2)
    | [] => 256
  let last := k + 2 * n - 2
  if n = 0 || !s.settledTo last || (s.recording.cuts.isEmpty && g.alignedEnd ≤ s.timeOf last) then none else some (k, n)

/-- A block of the coder is queued: one whose own decode disagreed is a literal block, counted, and the coder is
tested (R246). -/
def codeNext (g : Segment) (c : Nat) (xs : List Int) (marks : Bool × Bool) (verified : Bool) (s : State) : State :=
  let ch := g.channels.getD c {}
  let b := if verified then codeBlock (ch.blocks = 0) (g.flags % 8) ch.recon xs marks.1 marks.2
    else literalBlock xs marks.1 marks.2
  let r := s.recording
  let r := { r with
    segment := some { g with
      size := g.size + b.bytes.length
      channels := modAt g.channels c (fun x =>
        { blocks := x.blocks + 1, samples := x.samples + xs.length, recon := b.recon }) }
    literal := if b.mode = 0 then r.literal + 1 else r.literal
    constant := if b.mode = 1 then r.constant + 1 else r.constant
    coded := if b.mode = 2 then r.coded + 1 else r.coded
    escaped := r.escaped + BitVec.ofNat 24 b.escapes
    mismatches := if verified then r.mismatches else r.mismatches + 1
    coderTesting := r.coderTesting || !verified }
  { s with recording := r }.offer 0 { bytes := b.bytes, seg := some g.seq, complete := false, time := g.startTick }

/-- SEEP_BLOCK_COMPLETE: the channel's next block in order is recorded from the metering samples of the replay ring,
coded and queued (R92, R235, R240–R246); `verified` says that the coder's own decode agreed. -/
def seepBlock (c : Nat) (verified : Bool) (s : State) : State :=
  match s.recording.segment with
  | none => s
  | some g =>
    if g.dropped || g.nextChannel ≠ some c || s.power.warning then s else
    match s.nextBlock g c with
    | none => s
    | some (k, n) =>
      runCuts (codeNext g c (recordSamples s.engines.ring c k n) (blockMarks s.engines.ring c k n) verified s)

/-- Every block is coded that the samples taken in allow. -/
def codeBlocks : Nat → State → State
  | 0, s => s
  | fuel + 1, s =>
    match s.recording.segment with
    | none => s
    | some g =>
      match g.nextChannel with
      | none => s
      | some c =>
        match s.nextBlock g c with
        | none => s
        | some (k, n) =>
          if g.dropped then s
          else codeBlocks fuel
            (runCuts (codeNext g c (recordSamples s.engines.ring c k n) (blockMarks s.engines.ring c k n) true s))

/-- The first strobe whose sample the coder has not taken in: the reckoned samples have not reached it (R25, R238). -/
def State.takenIn (s : State) : Nat := evenUp (s.sense.nextStrobe - 1223)

/-- Blocks that the samples of the replay ring can give at most. -/
def ringBlocks : Nat := 56 * 32

/-- The supply-fail warning ends the segment at the last sample the coder has taken in (R238): cuts before it still fall,
and the last block of every channel holds the samples that are left. -/
def cutRecording (s : State) : State :=
  let cuts := s.recording.cuts.filter (fun c => decide (c.strobe < s.takenIn))
  let s := codeBlocks ringBlocks (runCuts { s with
    recording.cuts := cuts ++ [{ strobe := s.takenIn, ends := 0, before := segCut }] })
  closeSegment segCut 0 { s with recording.cuts := [] }

/-- SEEP_BLOCK_COMPLETE (R240–R246). -/
def execSeepBlockComplete (channel : Nat) (verified : Bool) (s : State) : Outcome := edge (seepBlock channel verified) s

/-- The segment being coded is given up, a gap marker in its place (R246, R289). -/
def abandonSegment (reason : Nat) (s : State) : State :=
  match s.recording.segment with
  | some g =>
    if g.dropped then s
    else offerGap reason g.seq g.startTick g.alignedEnd
      { s with recording.segment := some { g with dropped := true } }
  | none => s

/-! ### Layout and pool gap records (R252, R254) -/

/-- The entries of a layout record, as they follow byte 20 (R252). -/
def layoutContent (v : View) (b : Nat) : Bytes :=
  let ns := v.windowServices b
  (v.windowChannels b).map (BitVec.ofNat 8) ++ ns.map (BitVec.ofNat 8) ++ ns.map (fun n => BitVec.ofNat 8 (v.svcQuantum n))

/-- A layout record of a bus is written, which applies from a chronicle tick (R252); LAYOUT rises when the content has
changed. -/
def writeLayout (start resume : Bool) (time b : Nat) (s : State) : State :=
  let v := s.view
  if (v.busChans b).isEmpty || s.held 2 then s else
  let c := layoutContent v b
  let old := s.recording.layouts.getD b (0, [])
  let n := if old.2 = c then old.1 else (old.1 + 1) % 256
  let nc := (v.windowChannels b).length
  let ns := (v.windowServices b).length
  let bytes := [0x20, BitVec.ofNat 8 (b + 8 * flag start + 16 * flag resume), BitVec.ofNat 8 n, BitVec.ofNat 8 nc,
    BitVec.ofNat 8 ns, 0, 0, 0] ++ leBytes 4 s.start.config.seq.toNat ++ timeBytes time ++ c ++
    zeros ((4 - c.length % 4) % 4)
  { s with recording.layouts := modAt s.recording.layouts b (fun _ => (n, c)) }.offer 1 { bytes := bytes, time := time }

/-- The layout records of all buses. -/
def writeLayouts (start resume : Bool) (time : Nat) (s : State) : State :=
  (List.range 8).foldl (fun s b => writeLayout start resume time b s) s

/-- LAYOUT_RECORD_HOURLY: the hourly repeat, once windows can run. -/
def layoutHourly (s : State) : State := if s.sense.connected then writeLayouts false false s.ticks s else s

/-- LAYOUT_RECORD_HOURLY (R252). -/
def execLayoutRecordHourly (s : State) : Outcome := edge layoutHourly s

/-! ### Profile records (R255–R258) -/

/-- The end of the profile interval that holds a chronicle tick, in ticks. -/
def View.profileEndAfter (v : View) (t : Nat) : Nat := (t / (v.profile * tps) + 1) * (v.profile * tps)

/-- The profile flags of a service (R258) from the conditions gathered. -/
def profileServiceFlags (f : Nat) : Nat :=
  f % 32 + 32 * flag (bit 5 f && !bit 6 f) + 64 * flag (bit 5 f && bit 6 f) + f / 128 % 32 * 128

/-- The profile interval in progress closes at strobe count `b` and chronicle tick `endTick` (R255, R256): every
sample stamped below `b` has been accumulated. `flags` are those of its header. No record is made while the
archive is held off in a limp start. -/
def closeProfile (b endTick flags nextFlags : Nat) (s : State) : State :=
  let v := s.view
  let bl := s.billing
  let c : ProfileClose :=
    { startSec := bl.profileStart, endSec := endTick / tps, b := b, flags := bl.profileFlags ||| flags
      code := field 31 28 (v.num 0x4041)
      services := v.plans.map (fun p =>
        let sv := bl.services.getD p.n {}
        (p.n, v.svcQuantum p.n, profileServiceFlags sv.profileFlags, sv.regs)) }
  { s with billing :=
      { bl with
        profileClosed := if s.held 2 then bl.profileClosed else bl.profileClosed ++ [c]
        profileStart := endTick / tps
        profileFlags := if s.held 2 then 1 else nextFlags
        services := bl.services.map (fun (x : Service) => ({ x with profileFlags := 0 } : Service)) } }

/-- A service entry of a profile record (R258). -/
def profileEntry (e : Nat × Nat × Nat × List Acc) : Bytes :=
  [BitVec.ofNat 8 e.1, BitVec.ofNat 8 e.2.1] ++ leBytes 2 e.2.2.1 ++
    tabBytes 12 (fun k => leBytes 7 (e.2.2.2.getD k {}).count.toNat) ++
    tab 4 (fun k => BitVec.ofNat 8 ((e.2.2.2.getD k {}).res.toNat / 2 ^ 40))

/-- A profile record (R257). -/
def profileRecord (seq : Nat) (c : ProfileClose) : Bytes :=
  let mask := (c.services.map (fun e => 2 ^ e.1)).foldl (· + ·) 0
  [0x30, BitVec.ofNat 8 c.code] ++ leBytes 2 c.flags ++ leBytes 4 seq ++ leBytes 6 c.startSec ++ leBytes 2 mask ++
    leBytes 6 c.endSec ++ zeros 2 ++ leBytes 6 c.b ++ zeros 2 ++ c.services.flatMap profileEntry

/-- A closed interval is written: to the peat tier, and as the body of a mirror slot (R450). -/
def writeProfile (c : ProfileClose) (s : State) : State :=
  let seq := s.recording.profileSeq + 1
  let r := profileRecord seq.toNat c
  { s.offer 2 { bytes := r, time := c.endSec * tps } with
    recording.profileSeq := seq
    store := s.store.record Ring.mirror r }

/-- PROFILE_RECORD: the oldest closed interval is written; its mirror waits for the end of HOLD (R317). -/
def profileWrite (s : State) : State :=
  if s.sluice.hold then s else
  match s.billing.profileClosed with
  | [] => s
  | c :: cs => writeProfile c { s with billing.profileClosed := cs }

/-- PROFILE_RECORD (R255–R258, R450). -/
def execProfileRecord (s : State) : Outcome := edge profileWrite s

/-! ### Reads (R266–R269) -/

/-- Reads of class 4 instance 1 but for the settings. -/
def State.readRecording (s : State) (m : Nat) : Bytes :=
  let r := s.recording
  let audit := s.link.outstanding.any (fun c => match c.work with | .audit _ _ _ => true | _ => false)
  match m with
  | 0 =>
    leBytes 4 (match r.segment with | some g => g.seq | none => r.lastSeq) ++ leBytes 4 r.profileSeq.toNat ++
      leBytes 2 r.codedRate ++ [BitVec.ofNat 8 (32 * s.view.nearK + 16 * flag r.coderOk + 8 * flag audit), 0] ++
      leBytes 4 r.gapsWritten.toNat
  | 2 => leBytes 4 r.literal.toNat ++ leBytes 4 r.constant.toNat ++ leBytes 4 r.coded.toNat ++
      leBytes 4 (r.mismatches.toNat * 2 ^ 24 + r.escaped.toNat)
  | 3 => fit 80 r.lastAudit
  | _ => []

end Sys2Proof.Machine
end

