-- ==== Sys2Proof/Machine/Flash.lean ====
section
/-! DEFINITION. Flash.lean: the archive on flash (chapter "Archive storage and flow control"): blocks, logs and
frames (R273–R279), the mere (R287–R289), and the order of work of R290. -/

namespace Sys2Proof.Machine
open Sys2Proof

/-! ### Geometry, blocks and quotas (R273–R275) -/

/-- Devices present. -/
def Archive.count (a : Archive) : Nat := (a.devices.filter (fun d => d.part.isSome)).length

/-- The part number attached, from the first chip select. -/
def Archive.part (a : Archive) : Option FlashPart := (a.devices.getD 0 {}).part

/-- Bytes in a page. -/
def Archive.pageSize (a : Archive) : Nat := match a.part with | some p => p.pageSize | none => 2048

/-- Logical blocks of all devices. -/
def Archive.blocks (a : Archive) : Nat := match a.part with | some p => p.blocks * a.count | none => 0

/-- A block as it stands: one that is not listed is erased and has erase count 0. -/
def Archive.block (a : Archive) (lb : Nat) : FlashBlock :=
  (a.flash.find? (fun b => b.lb == lb)).getD { lb := lb }

/-- A block changed. -/
def Archive.setBlock (a : Archive) (b : FlashBlock) : Archive :=
  if a.flash.any (fun x => x.lb == b.lb) then
    { a with flash := a.flash.map (fun x => if x.lb = b.lb then b else x) }
  else { a with flash := a.flash ++ [b] }

/-- Good blocks. -/
def Archive.good (a : Archive) : Nat := a.blocks - (a.flash.filter (·.bad)).length

/-- The reserve of the free list (R274): 1 % of the good blocks, at least 8. -/
def Archive.reserve (a : Archive) : Nat := max 8 ((a.good + 99) / 100)

/-- The blocks a tier may hold (R275); 32 for the meta tier. -/
def Archive.quotaOf (a : Archive) (v : View) (t : Nat) : Nat :=
  if t = 4 then 32 else (a.good - 32 - a.reserve) * v.quota t / 64

/-- The device that holds a block. -/
def Archive.deviceOf (a : Archive) (lb : Nat) : Nat := if a.count = 0 then 0 else lb % a.count

/-- The use of a block of a tier. -/
def tierUse (t : Nat) : BlockUse :=
  match t with
  | 0 => .seep
  | 1 => .pool
  | 2 => .peat
  | 3 => .pinned
  | _ => .index

/-- A log. -/
def Archive.tier (a : Archive) (t : Nat) : TierLog := a.tiers.getD t {}

/-- A log changed. -/
def Archive.modTier (a : Archive) (t : Nat) (f : TierLog → TierLog) : Archive :=
  { a with tiers := modAt a.tiers t f }

/-- The log that holds a block. -/
def Archive.logOf (a : Archive) (lb : Nat) : Option Nat :=
  (List.range 5).find? (fun t => (a.tier t).blocks.contains lb)

/-- The use of a block (R274). -/
def Archive.useOf (a : Archive) (lb : Nat) : BlockUse :=
  if (a.block lb).bad then .bad
  else match a.logOf lb with
    | some t => tierUse t
    | none => .free

/-- The marker of a factory bad block (R284). -/
def Archive.factoryBad (a : Archive) (lb : Nat) : Bool :=
  match (a.devices.getD (a.deviceOf lb) {}).part with
  | some p => p.factoryBad.contains (lb / max 1 a.count)
  | none => false

/-! ### Block headers and page tags (R276, R277) -/

/-- A block header (R276). -/
structure BlockHeader where
  tier : Nat
  archiveId : Nat
  seq : Nat
  erases : Nat
  firstRec : Nat
  firstTick : Nat
deriving DecidableEq, Repr

/-- The 48 bytes of a block header. -/
def headerBytes (h : BlockHeader) : Bytes :=
  let b := leBytes 4 0xA5C30F48 ++ [BitVec.ofNat 8 h.tier, 0x01, 0, 0] ++ leBytes 8 h.archiveId ++ leBytes 4 h.seq ++
    leBytes 4 h.erases ++ leBytes 4 h.firstRec ++ timeBytes h.firstTick ++ zeros 8
  b ++ leBytes 4 (crc32c b)

/-- The header at the front of page 0, where its mark, its version and its check are right. -/
def readHeader (bs : Bytes) : Option BlockHeader :=
  if 48 ≤ bs.length && getU bs 0 4 = 0xA5C30F48 && getU bs 4 1 ≤ 4 && getU bs 5 1 = 1 && getU bs 44 4 = crc32c (bs.take 44)
  then some { tier := getU bs 4 1, archiveId := getU bs 8 8, seq := getU bs 16 4, erases := getU bs 20 4
              firstRec := getU bs 24 4, firstTick := getU bs 28 6 * tps + getU bs 34 2 }
  else none

/-- The header that a reader of a block finds. -/
def FlashBlock.header (b : FlashBlock) : Option BlockHeader :=
  match b.pages with
  | p :: _ => if b.bad || b.badPages.contains 0 then none else readHeader p.data
  | [] => none

/-- The header of a block of a log, on flash or still to be programmed. -/
def Archive.headerOf (a : Archive) (lb : Nat) : Option BlockHeader :=
  match (a.block lb).header with
  | some h => some h
  | none => (a.tiers.find? (fun l => l.blocks.getLast? == some lb)).bind (fun l => readHeader l.header)

/-- A page tag (R277): the check covers the first USED bytes of the page. -/
def pageTag (tier page used seq : Nat) (data : Bytes) : Bytes :=
  [BitVec.ofNat 8 tier, BitVec.ofNat 8 page] ++ leBytes 2 used ++ leBytes 4 seq ++ zeros 4 ++ leBytes 4 (crc32c (data.take used))

/-- The frame bytes of a page: page 0 begins with the header. -/
def FlashPage.frames (p : FlashPage) (page : Nat) : Bytes := if page = 0 then p.data.drop 48 else p.data

/-- Page `page` of a block of a log, with `frames` after the header where it is page 0. -/
def makePage (tier page seq : Nat) (header frames : Bytes) : FlashPage :=
  let data := if page = 0 then header ++ frames else frames
  { data := data, tag := pageTag tier page frames.length seq data }

/-- The tag check of a page (R284): it names the page and the block's tier and sequence number, and covers its bytes. -/
def FlashBlock.tagOk (b : FlashBlock) (page : Nat) (p : FlashPage) : Bool :=
  let own := (b.pages.headD p).tag
  p.tag == pageTag (getU own 0 1) page (p.frames page).length (getU own 4 4) p.data

/-! ### Frames (R278) and records -/

/-- A frame (R278). -/
def frameBytes (tier flags number offset : Nat) (data : Bytes) : Bytes :=
  let f := leBytes 2 0x9F4D ++ [BitVec.ofNat 8 tier, BitVec.ofNat 8 flags] ++ leBytes 4 number ++ leBytes 4 offset ++
    leBytes 4 data.length ++ data ++ zeros ((4 - data.length % 4) % 4)
  f ++ leBytes 4 (crc32c f)

/-- The frame at the front of a byte string, where there is one whose check is correct: the fragment and its
frame's length. -/
def frameAt (tier : Nat) (bs : Bytes) : Option (Frag × Nat) :=
  let n := getU bs 12 4
  let len := 16 + n + (4 - n % 4) % 4
  if getU bs 0 2 = 0x9F4D && getU bs 2 1 = tier && len + 4 ≤ bs.length && 1 ≤ n &&
      getU bs len 4 = crc32c (bs.take len) then
    some ({ number := getU bs 4 4, first := bit 0 (getU bs 3 1), last := bit 1 (getU bs 3 1), offset := getU bs 8 4
            data := (bs.drop 16).take n }, len + 4)
  else none

/-- The fragments of a block's bytes; where no frame begins, the next is looked for four bytes on. -/
def framesIn (tier : Nat) : Nat → Bytes → List Frag
  | 0, _ => []
  | fuel + 1, bs =>
    if bs.length < 24 then []
    else
      match frameAt tier bs with
      | some (f, n) => f :: framesIn tier fuel (bs.drop n)
      | none => framesIn tier fuel (bs.drop 4)

/-- A page gives its bytes (R284). -/
def FlashBlock.pageOk (b : FlashBlock) (page : Nat) (p : FlashPage) : Bool := !b.badPages.contains page && b.tagOk page p

/-- The frame bytes of a block as a reader finds them: pages that fail their checks give nothing (R284). -/
def FlashBlock.readable (b : FlashBlock) : Bytes :=
  (b.pages.zipIdx).flatMap (fun x =>
    let f := x.1.frames x.2
    if b.pageOk x.2 x.1 then f else zeros f.length)

/-- The fragments of a block. -/
def FlashBlock.frags (b : FlashBlock) (t : Nat) : List Frag :=
  let bs := b.readable
  framesIn t (bs.length / 4 + 1) bs

/-- The fragments of a log on flash, oldest first. -/
def Archive.frags (a : Archive) (t : Nat) : List Frag :=
  (a.tier t).blocks.flatMap (fun lb => (a.block lb).frags t)

/-- A number put in its place in an ascending list without repeats. -/
def insertNat (n : Nat) : List Nat → List Nat
  | [] => [n]
  | x :: xs => if n < x then n :: x :: xs else if n = x then x :: xs else x :: insertNat n xs

/-- The fragment of a record that goes on at an offset: of those that begin there, the longest. -/
def fragAt (own : List Frag) (at_ : Nat) : Option Frag :=
  own.foldl (fun (best : Option Frag) f =>
    if f.offset ≠ at_ || f.data.isEmpty then best
    else match best with
      | none => some f
      | some b => if b.data.length < f.data.length then some f else best) none

/-- Bytes of a record from an offset on, as far as its fragments go, and whether they reach a LAST one. -/
def fragRun (own : List Frag) : Nat → Bytes → Bytes × Bool
  | 0, bs => (bs, false)
  | fuel + 1, bs =>
    match fragAt own bs.length with
    | none => (bs, false)
    | some f => if f.last then (bs ++ f.data, true) else fragRun own fuel (bs ++ f.data)

/-- What the fragments of a record give from its beginning, in whatever order they stand, and whether that is all of it
(R278). A fragment written again stands in place of what it repeats (log entry 24). -/
def fragsOf (n : Nat) (fs : List Frag) : Bytes × Bool :=
  let own := fs.filter (fun f => f.number == n)
  let r := fragRun own own.length []
  (own.foldl (fun bs f => if f.offset + f.data.length ≤ bs.length then patch bs f.offset f.data else bs) r.1, r.2)

/-- The fragments of one record joined, where they are whole: from offset 0 to a LAST fragment (R278). -/
def joinFrags (n : Nat) (fs : List Frag) : Option Bytes :=
  let r := fragsOf n fs
  if r.2 then some r.1 else none

/-- The whole records of a log on flash in record-number order (R294). -/
def Archive.records (a : Archive) (t : Nat) : List (Nat × Bytes) :=
  let fs := a.frags t
  let ns := (fs.filter (·.last)).foldl (fun l f => insertNat f.number l) []
  (ns.filter (fun n => !(a.tier t).droppedRecs.contains n)).filterMap (fun n => (joinFrags n fs).map (fun b => (n, b)))

/-! ### The mere (R287–R289) -/

/-- Bytes of the mere. -/
def mereSize : Nat := 1572864

/-- Bytes a log has queued and not yet programmed. -/
def TierLog.fill (l : TierLog) : Nat :=
  (l.queue.map (fun r => r.bytes.length - r.framed)).foldl (· + ·) 0 +
    (l.buffer.map (fun f => f.bytes.length)).foldl (· + ·) 0

/-- The fill (R287); the meta log is no part of it. -/
def Archive.fill (a : Archive) : Nat := ((a.tiers.take 4).map TierLog.fill).foldl (· + ·) 0

/-- 90 % of the mere. -/
def mark90 : Nat := 1415578

/-- The watermark actions in force after the fill has changed (R288). -/
def Archive.marks (a : Archive) : Archive :=
  let f := a.fill
  { a with
    at50 := if a.at50 then decide (629146 ≤ f) else decide (786432 ≤ f)
    at75 := if a.at75 then decide (1022362 ≤ f) else decide (1179648 ≤ f)
    at90 := if a.at90 then decide (1258292 ≤ f) else decide (mark90 ≤ f) }

/-- The oldest seep segment not yet wholly on flash, in the mere or cut into frames that are not programmed: its sequence
number, its record number and its chronicle tick. -/
def Archive.oldestSeep (a : Archive) : Option (Nat × Option Nat × Nat) :=
  let l := a.tier 0
  match l.buffer.find? (fun f => f.seg.isSome) with
  | some f => some (f.seg.getD 0, some f.number, f.time)
  | none => (l.queue.find? (fun r => r.seg.isSome)).map (fun r => (r.seg.getD 0, r.number, r.time))

/-- The record number of a segment of which the mere still holds something, once it has one. -/
def TierLog.numberOf (l : TierLog) (seg : Nat) : Option Nat :=
  match l.buffer.find? (fun f => f.seg == some seg) with
  | some f => some f.number
  | none => (l.queue.find? (fun r => r.seg == some seg)).bind (fun r => r.number)

/-- A segment is dropped (R289): its bytes leave the mere, and its fragments on flash are never returned. -/
def Archive.dropSegment (a : Archive) (seg : Nat) : Archive :=
  (a.modTier 0 (fun l =>
    { l with
      queue := l.queue.filter (fun q => q.seg != some seg)
      buffer := l.buffer.filter (fun f => f.seg != some seg)
      droppedRecs := l.droppedRecs ++ (l.numberOf seg).toList })).marks

/-- A record joins the queue of its log; a gap marker goes before the segments (R290). -/
def TierLog.takeIn (r : MereRec) (l : TierLog) : TierLog :=
  { l with queue := l.queue.takeWhile (fun q => q.seg.isNone) ++ r :: l.queue.dropWhile (fun q => q.seg.isNone) }

/-- A seep segment gives way to a gap marker, which takes its place (R289); the one being coded is coded no further. -/
def giveWay (seg start : Nat) (s : State) : State :=
  let a := s.archive.dropSegment seg
  let a := (a.modTier 0 (TierLog.takeIn (gapRecord 1 seg start (nextAligned start)))).marks
  countGap { s with
    archive := { a with flow := { a.flow with dropped := a.flow.dropped + 1 } }
    recording.segment := s.recording.segment.map (fun g => if g.seq = seg then { g with dropped := true } else g) }

/-- The 90 % action (R288, R289): the oldest seep segment not yet wholly on flash is dropped. -/
def dropOldest (s : State) : State :=
  match s.archive.oldestSeep with
  | none => s
  | some (seg, _, start) => giveWay seg start s

/-- The 90 % action, once the fill is there. -/
def heedFill (s : State) : State := if mark90 ≤ s.archive.fill then dropOldest s else s

/-- A seep item joins its segment's record: its first item opens the record, later ones extend it, and the last
completes it with the final flags and samples of its header, which are framed again where the header as it was opened
has been framed (log entry 24). -/
def joinSeep (r : MereRec) (q : List MereRec) : List MereRec :=
  if q.any (fun x => x.seg == r.seg) then
    q.map (fun x =>
      if x.seg = r.seg then
        if r.complete then
          { x with complete := true, bytes := patch x.bytes 0 r.bytes
                   head := if x.framed = 0 || x.bytes.take r.bytes.length = r.bytes then none else some (0, r.bytes) }
        else { x with bytes := x.bytes ++ r.bytes }
      else x)
  else if r.complete then q else q ++ [r]

/-- The record of a segment may still grow: it is in the mere, or this is its first item. -/
def Archive.takesSeep (a : Archive) (r : MereRec) : Bool :=
  (a.tier 0).queue.any (fun x => x.seg == r.seg) || r.opening

/-- The mere admits no seep record and makes room for peat from a failure of the archive until a mount succeeds, and while
there is nothing that could be mounted (R292). -/
def Archive.starved (a : Archive) : Bool := a.stuck || a.state == .failed || a.state == .mismatch || a.state == .noDevice

/-- The oldest pool record of the mere is discarded and counted (R292). -/
def discardPool (s : State) : State :=
  match (s.archive.tier 1).queue with
  | [] => s
  | _ :: rs =>
    { s with archive := { s.archive.modTier 1 (fun l => { l with queue := rs }) with
                          flow.discarded := s.archive.flow.discarded + 1 } }

/-- One record is offered to the mere (R287, R292): seep below 90 %, the others up to 100 %. A record that finds
no room waits at the front of the offers. -/
def mereTake (s : State) : State :=
  match s.archive.offered with
  | [] => s
  | (t, r) :: rest =>
    let out := { s with archive.offered := rest }
    let fill := s.archive.fill
    let discard := { out with archive.flow.discarded := out.archive.flow.discarded + 1 }
    if t = 0 && r.seg.isSome then
      if s.archive.starved then discard
      else if !s.archive.takesSeep r then out
      else
        let out := heedFill out
        heedFill { out with archive := (out.archive.modTier 0 (fun l =>
          { l with queue := if out.archive.takesSeep r then joinSeep r l.queue else l.queue })).marks }
    else if fill + r.bytes.length ≤ mereSize then
      heedFill { out with archive := (out.archive.modTier t (TierLog.takeIn r)).marks }
    else if s.archive.starved then
      if t = 2 && !(s.archive.tier 1).queue.isEmpty then discardPool s
      else discard
    else s

/-! ### Cutting frames and programming pages -/

/-- Bytes that the open block of a log still takes: its unprogrammed pages less what waits for them; `none`
without an open block. -/
def Archive.room (a : Archive) (t : Nat) : Option Nat :=
  let l := a.tier t
  match l.blocks.getLast? with
  | none => none
  | some lb =>
    let p := (a.block lb).pages.length
    some ((64 - p) * a.pageSize - (if p = 0 then 48 else 0) - (l.buffer.map (fun f => f.bytes.length)).foldl (· + ·) 0)

/-- The fragments of a block of the pinned tier that must be copied forward: of a record of a host pin, of a segment such a
pin covers, or of evidence (R301); all of them until the pin table has been rebuilt (R281). -/
def Archive.protectedFrags (a : Archive) (lb : Nat) : List Frag :=
  let host := a.pins.filter (fun p => p.reason < 0x10)
  let all := a.frags 3
  ((a.block lb).frags 3).filterMap (fun f =>
    match joinFrags f.number all with
    | some r =>
      let ty := getU r 0 1
      if a.state == .scan2 || ty == 0x41 || (ty == 0x40 && (getU r 1 1 < 0x10 || getU r 1 1 == 0xFF)) ||
          (ty == 0x10 && host.any (fun p => p.covers.contains (getU r 4 4))) then some { f with time := recordTick r }
      else none
    | none => none)

/-- Segments with a fragment in a seep block that still await their copy. -/
def Archive.awaits (a : Archive) (lb : Nat) : List Nat :=
  let all := a.frags 0
  let segs := ((a.block lb).frags 0).filterMap (fun f => (joinFrags f.number all).map (fun r => getU r 4 4))
  segs.filter (fun g => a.pinCopies.any (fun c => c.seg == g))

/-- The oldest block of a log leaves it to be erased (R274). A seep block whose segments await a copy stays, and
the copies are promoted (R298); a pinned block leaves once its protected frames are copied forward (R301). -/
def Archive.reclaim (t : Nat) (a : Archive) : Archive :=
  let l := a.tier t
  match l.blocks with
  | [] => a
  | lb :: rest =>
    let waiting := if t = 0 then a.awaits lb else []
    let keep := if t = 3 then a.protectedFrags lb else []
    if !waiting.isEmpty then
      { a with
        pinCopies := a.pinCopies.map (fun c => if waiting.contains c.seg then { c with promoted := true } else c)
        flow.promoted := a.flow.promoted +
          BitVec.ofNat 32 (a.pinCopies.filter (fun c => waiting.contains c.seg && !c.promoted)).length }
    else if l.leaving.isSome then a
    else if keep.isEmpty then { a.modTier t (fun l => { l with blocks := rest }) with toErase := a.toErase ++ [lb] }
    else a.modTier t (fun l => { l with forward := keep, leaving := some lb })

/-- A pinned block whose protected frames have all been programmed again leaves its log. -/
def Archive.leave (t : Nat) (a : Archive) : Archive :=
  let l := a.tier t
  match l.leaving with
  | some lb =>
    if l.forward.isEmpty && l.buffer.isEmpty then
      { a.modTier t (fun l => { l with blocks := l.blocks.filter (· != lb), leaving := none }) with toErase := a.toErase ++ [lb] }
    else a
  | none => a

/-- The record of a pin waits to reach flash. -/
def Archive.pinWaiting (a : Archive) (n : Nat) : Bool :=
  (a.offered.any (fun o => o.1 == 3 && getU o.2.bytes 0 1 == 0x40 && getU o.2.bytes 4 4 == n)) ||
  ((a.tier 3).queue.any (fun r => getU r.bytes 0 1 == 0x40 && getU r.bytes 4 4 == n)) ||
  ((a.tier 3).buffer.any (fun f => getU f.bytes 16 1 == 0x40 && getU f.bytes 20 4 == n))

/-- Reclaimable pins whose pin record is no longer held leave the table (R301). -/
def Archive.prunePins (a : Archive) : Archive :=
  let held := (a.records 3).filter (fun r => getU r.2 0 1 == 0x40)
  { a with pins := a.pins.filter (fun p => p.reason < 0x10 || held.any (fun r => getU r.2 4 4 == p.number) ||
                                          a.pinWaiting p.number) }

/-- The newest block of a log is in use: something is queued for it or waits for its next page. -/
def TierLog.inUse (l : TierLog) : Bool := !l.queue.isEmpty || !l.buffer.isEmpty || !l.forward.isEmpty

/-- A tier reclaims its oldest blocks until it holds `most`, as far as they can leave now (R275): a block with segments or
frames that must be copied first goes once they are. -/
def Archive.shrink (t most : Nat) (a : Archive) : Archive :=
  let l := a.tier t
  let b := Nat.repeat (Archive.reclaim t) (min (l.blocks.length - most) (l.blocks.length - flag l.inUse)) a
  if t = 3 && (b.tier t).blocks.length < l.blocks.length then b.prunePins else b

/-- Every tier over its quota reclaims its oldest blocks at once (R275). -/
def Archive.trim (v : View) (a : Archive) : Archive :=
  (List.range 4).foldl (fun a t => a.shrink t (a.quotaOf v t)) a

/-- A block is marked bad, and the quotas follow (R275, R284). -/
def Archive.markBad (v : View) (a : Archive) (lb : Nat) : Archive :=
  (a.setBlock { a.block lb with bad := true, pages := [], badPages := [] }).trim v

/-- The head of the free list, past blocks with a factory marker, which are bad when first drawn (R284). -/
def Archive.takeFree (v : View) : Nat → Archive → Option (Nat × Archive)
  | 0, _ => none
  | fuel + 1, a =>
    match a.free with
    | [] => none
    | lb :: rest =>
      if a.factoryBad lb then Archive.takeFree v fuel ({ a with free := rest }.markBad v lb)
      else some (lb, { a with free := rest })

/-- A block drawn from the free list for a log, with its header (R276). -/
def Archive.draw (v : View) (a : Archive) (t number time : Nat) : Option (Nat × Bytes × Archive) :=
  match a.takeFree v (a.free.length + 1) with
  | none => none
  | some (lb, a) =>
    let seq := a.blockSeq + 1
    let h := headerBytes { tier := t, archiveId := a.archiveId, seq := seq.toNat, erases := (a.block lb).erases
                           firstRec := number, firstTick := time }
    some (lb, h, { a with blockSeq := seq })

/-- A log takes a new open block (R274, R276). -/
def Archive.openBlock (v : View) (a : Archive) (t number time : Nat) : Option Archive :=
  (a.draw v t number time).map (fun x => x.2.2.modTier t (fun l => { l with blocks := l.blocks ++ [x.1], header := x.2.1 }))

/-- The next bytes of a log to be framed: record number, offset, the bytes, whether the record ends with them, and
whether more will still be added; `time`, `evidence` and `urgent` as of the record. -/
structure Piece where
  number : Nat
  offset : Nat
  data : Bytes
  ends : Bool
  grows : Bool
  time : Nat
  evidence : Option Nat
  urgent : Bool
  seg : Option Nat := none
deriving DecidableEq, Repr

/-- The next piece of a log: fragments copied forward, then header bytes framed again, then the oldest record; of a record
still growing its last byte is kept back. -/
def TierLog.next (l : TierLog) : Option Piece :=
  match l.forward, l.queue with
  | f :: _, _ => some { number := f.number, offset := f.offset, data := f.data, ends := f.last, grows := false, time := f.time
                        evidence := none, urgent := true }
  | [], [] => none
  | [], r :: _ =>
    let number := r.number.getD l.nextRecord
    match r.head with
    | some (off, h) => some { number := number, offset := off, data := h, ends := false, grows := false, time := r.time
                              evidence := none, urgent := r.urgent, seg := r.seg }
    | none =>
      let rest := r.bytes.drop r.framed
      some { number := number, offset := r.framed, data := if r.complete then rest else rest.dropLast, ends := r.complete
             grows := !r.complete, time := r.time, evidence := r.evidence, urgent := r.urgent, seg := r.seg }

/-- The log after `size` bytes of its next piece have been framed; `last` says that the record ends with them. -/
def TierLog.took (size : Nat) (last : Bool) (l : TierLog) : TierLog :=
  match l.forward, l.queue with
  | f :: fs, _ =>
    { l with forward := if f.data.length ≤ size then fs
                        else { f with first := false, offset := f.offset + size, data := f.data.drop size } :: fs }
  | [], [] => l
  | [], r :: rs =>
    match r.head with
    | some (off, h) =>
      { l with queue := { r with head := if size < h.length then some (off + size, h.drop size) else none } :: rs }
    | none =>
      { l with
        queue := if last then rs else { r with framed := r.framed + size, number := some (r.number.getD l.nextRecord) } :: rs
        nextRecord := if r.number.isNone then (l.nextRecord + 1) % 2 ^ 32 else l.nextRecord }

/-- A new open block for a log, which begins with the piece that is then next (R276), once the log is below its quota or a
block that leaves it has frames to be copied forward (R274, R301). -/
def Archive.nextBlock (v : View) (t : Nat) (a : Archive) : Option Archive :=
  let b := a.shrink t (a.quotaOf v t - 1)
  let l := b.tier t
  if a.quotaOf v t ≤ l.blocks.length && 1 < l.blocks.length && l.forward.isEmpty then (if b = a then none else some b)
  else l.next.bind (fun p => b.openBlock v t p.number p.time)

/-- One frame cut from the front of a log, where that is possible now (R278): the fragment takes what the block leaves,
at most `cap` bytes. `none` says that nothing can be cut. -/
def Archive.cut (v : View) (t cap : Nat) (a : Archive) : Option Archive :=
  let l := a.tier t
  match l.next with
  | none => none
  | some p =>
    if p.data.isEmpty then none else
    match a.room t with
    | none => a.openBlock v t p.number p.time
    | some room =>
      if room < 24 then (if l.buffer.isEmpty then a.nextBlock v t else none)
      else
        let most := min cap (room - 20)
        if p.grows && p.data.length < most then none else
        let size := min p.data.length most
        let last := p.ends && size == p.data.length
        let own := last && l.forward.isEmpty
        let f : BufFrame := { number := p.number, last := own, time := p.time, evidence := if own then p.evidence else none, seg := p.seg
                              bytes := frameBytes t (flag (p.offset == 0) + 2 * flag last) p.number p.offset (p.data.take size) }
        some (a.modTier t (fun l =>
          { l.took size last with buffer := l.buffer ++ [f], flush := l.flush || (last && p.urgent) }))

/-- Bytes that the next page of a log takes. -/
def Archive.pageRoom (a : Archive) (t : Nat) : Nat :=
  match (a.tier t).blocks.getLast? with
  | some lb => a.pageSize - (if (a.block lb).pages.isEmpty then 48 else 0)
  | none => a.pageSize

/-- Frames are cut until a page's worth waits or nothing more can be cut. -/
def Archive.fillPage (v : View) (t : Nat) : Nat → Archive → Archive
  | 0, a => a
  | fuel + 1, a =>
    if a.pageRoom t ≤ ((a.tier t).buffer.map (fun f => f.bytes.length)).foldl (· + ·) 0 then a
    else
      match a.cut v t 65536 with
      | some b => Archive.fillPage v t fuel b
      | none => a

/-- A log has a page to program: a full one, or one that must not wait (R277), or the rest of its block. -/
def Archive.pageReady (a : Archive) (t : Nat) : Bool :=
  let l := a.tier t
  let n := (l.buffer.map (fun f => f.bytes.length)).foldl (· + ·) 0
  0 < n && (a.pageRoom t ≤ n || l.flush || (match a.room t with | some r => decide (r < 24) | none => false))

/-- The first `n` bytes of the waiting frames, and what is left. -/
def takeFrames : Nat → List BufFrame → Bytes × List BufFrame × List BufFrame
  | _, [] => ([], [], [])
  | n, f :: fs =>
    if n = 0 then ([], [], f :: fs)
    else if f.bytes.length ≤ n then
      let t := takeFrames (n - f.bytes.length) fs
      (f.bytes ++ t.1, f :: t.2.1, t.2.2)
    else (f.bytes.take n, [], { f with bytes := f.bytes.drop n } :: fs)

/-- The next page of a log is on flash: the frames that end in it are whole. -/
def Archive.programPage (a : Archive) (t : Nat) : Archive × List BufFrame :=
  let l := a.tier t
  match l.blocks.getLast? with
  | none => (a, [])
  | some lb =>
    let r := takeFrames (a.pageRoom t) l.buffer
    if r.1.isEmpty then (a, []) else
    let b := a.block lb
    let page := makePage t b.pages.length (getU l.header 16 4) l.header r.1
    let done := r.2.1.filter (·.last)
    ((((a.setBlock { b with pages := b.pages ++ [page] }).modTier t (fun l =>
      { l with buffer := r.2.2, flush := l.flush && !r.2.2.isEmpty
               written := l.written + BitVec.ofNat 32 done.length })).leave t).marks, done)

/-- One page of a record of its own is programmed in a log whose buffer is empty: a frame of what the page takes, of the
record `r`. Answers the record with what is left, or nothing where no page could be had. -/
def Archive.putPage (v : View) (t : Nat) (r : MereRec) (a : Archive) : Option (Archive × Option MereRec × List BufFrame) :=
  let queue := (a.tier t).queue
  let one := fun (b : Archive) => if (b.tier t).buffer.isEmpty then (b.cut v t (b.pageRoom t - 20)).getD b else b
  let b := Nat.repeat one 3 (a.modTier t (fun l => { l with queue := [r] }))
  if (b.tier t).buffer.isEmpty then none
  else
    let rest := (b.tier t).queue.head?
    let x := (b.modTier t (fun l => { l with queue := queue })).programPage t
    some (x.1, rest, x.2)

/-! ### The order of work (R290, R291, R293) -/

/-- The controller writes: the archive is mounted or in phase 2 (R281). -/
def ArchiveState.writes : ArchiveState → Bool
  | .mounted | .scan2 => true
  | .probing | .mounting | .scan1 | .mismatch | .failed | .noDevice | .formatting => false

/-- A checkpoint may be written now: due, and not deferred, or deferred for 10 min (R288). -/
def State.checkpointNow (s : State) : Bool :=
  let c := s.archive.checkpoint
  c.due && (!s.archive.at50 || (match c.deferredSec with | some d => decide (d + 600 ≤ s.sec) | none => false))

/-- The device that the next page of a log goes to: that of its open block, or of the next free block. -/
def Archive.logDevice (a : Archive) (t : Nat) : Nat :=
  let next := match a.free with | lb :: _ => a.deviceOf lb | [] => 0
  match (a.tier t).blocks.getLast? with
  | some lb => if (a.room t).any (· < 24) && (a.tier t).buffer.isEmpty then next else a.deviceOf lb
  | none => next

/-- A segment stands whole on flash. -/
def Archive.segmentOnFlash (a : Archive) (seg : Nat) : Bool :=
  (a.records 0).any (fun r => getU r.2 0 1 == 0x10 && getU r.2 4 4 == seg)

/-- A log that programs on a device, in the order of R290. -/
def Archive.programFor (a : Archive) (d : Nat) (ts : List Nat) : Option FlashOp :=
  (ts.find? (fun t => a.pageReady t && a.logDevice t == d)).map FlashOp.program

/-- A page of its own can be programmed in a log: nothing else of it waits for one. -/
def Archive.idle (a : Archive) (t : Nat) : Bool := (a.tier t).buffer.isEmpty && (a.tier t).forward.isEmpty

/-- The record of a pin that covers a segment is on flash: its copies may follow (R298). -/
def Archive.pinWritten (a : Archive) (seg : Nat) : Bool :=
  a.pins.any (fun p => p.covers.contains seg && !a.pinWaiting p.number)

/-- A pin copy that can be made now. -/
def Archive.copyFor (a : Archive) (d : Nat) (promoted : Bool) : Option FlashOp :=
  if a.logDevice 3 ≠ d || !a.idle 3 then none else
  (a.pinCopies.find? (fun c => c.promoted == promoted && a.segmentOnFlash c.seg && a.pinWritten c.seg)).map
    (fun c => FlashOp.copy c.seg)

/-- An erase on a device. -/
def Archive.eraseFor (a : Archive) (d : Nat) : Option FlashOp :=
  (a.toErase.find? (fun lb => a.deviceOf lb == d)).map FlashOp.erase

/-- A host or audit page read on a device. -/
def Archive.readFor (a : Archive) (d : Nat) : Option FlashOp :=
  (a.reads.find? (fun r => r.device == d && 0 < r.left)).map (fun r => FlashOp.read r.tag)

/-- Writes from the queues wait (R291). -/
def Archive.writesWait (a : Archive) : Bool := (List.range 4).any a.pageReady

/-- A device may read a page for the host or an audit (R288, R291). -/
def Archive.mayRead (a : Archive) (x : FlashDevice) : Bool :=
  !a.at75 && ((!a.at50 && !a.writesWait) || 1 ≤ x.sinceRead)

/-- A device may copy a page of a pin that is not promoted (R288, R291). -/
def Archive.mayCopy (a : Archive) (x : FlashDevice) : Bool := !a.at50 && (!a.writesWait || 4 ≤ x.sinceCopy)

/-- A device may copy a page of a static move or a refresh (R288, R291). -/
def Archive.mayMove (a : Archive) (x : FlashDevice) : Bool := !a.at50 && (!a.writesWait || 64 ≤ x.sinceMove)

/-- The first waiting operation for a device (R290), within the shares of R291. After the supply-fail warning only the
peat page that is not full is still programmed (R293). -/
def State.nextWork (s : State) (d : Nat) : Option FlashOp :=
  let a := s.archive
  let x := a.devices.getD d {}
  if s.power.warning then a.programFor d [2]
  else
    ((a.relocations.find? (fun r => a.deviceOf r.1 == d)).map (fun r => FlashOp.relocate r.1 r.2))
    <|> (if a.free.length < a.reserve then a.eraseFor d else none)
    <|> a.copyFor d true
    <|> a.programFor d [2, 1, 3, 0]
    <|> (if a.mayRead x then a.readFor d else none)
    <|> (if a.mayCopy x then a.copyFor d false else none)
    <|> (if (a.checkpoint.run.isSome || s.checkpointNow) && a.logDevice 4 == d then some FlashOp.checkpoint else none)
    <|> (if a.mayMove x then (a.moves.find? (fun m => a.deviceOf m.lb == d)).map (fun m => FlashOp.move m.lb) else none)
    <|> a.eraseFor d

/-- A segment may still come to flash: it is being coded, offered, or in the mere. -/
def State.segmentComing (s : State) (seg : Nat) : Bool :=
  s.recording.segment.any (fun g => g.seq == seg && !g.dropped) ||
    s.archive.offered.any (fun o => o.2.seg == some seg) || (s.archive.tier 0).queue.any (fun r => r.seg == some seg) ||
    (s.archive.tier 0).buffer.any (fun f => f.seg == some seg)

/-- A segment that is no longer held when its copy's turn comes is skipped (R298): its pins cover it no more. -/
def skipCopies (s : State) : State :=
  let gone := (s.archive.pinCopies.filter (fun c => !s.archive.segmentOnFlash c.seg && !s.segmentComing c.seg)).map (·.seg)
  if gone.isEmpty then s else
  { s with
    archive.pinCopies := s.archive.pinCopies.filter (fun c => !gone.contains c.seg)
    archive.pins := s.archive.pins.map (fun p => { p with covers := p.covers.filter (fun g => !gone.contains g) }) }

/-- Every log cuts what it can for its next page. -/
def Archive.fillPages (v : View) (a : Archive) : Archive :=
  (List.range 4).foldl (fun a t => a.fillPage v t (a.pageSize / 24 + 4)) a

/-- The 75 % watermark holds the page reads that commands wait for, and each command so held is counted (R288, R297,
R305); below it none is held. -/
def Archive.holdReads (now : Nat) (a : Archive) : Archive :=
  if !a.at75 then { a with reads := a.reads.map (fun r => { r with heldFrom := none }) } else
  let held := (a.reads.filter (fun r => r.heldFrom.isNone)).foldl (fun l r => insertNat r.tag l) []
  let fresh := held.filter (fun t => !a.reads.any (fun r => r.tag == t && r.heldFrom.isSome))
  { a with reads := a.reads.map (fun r => { r with heldFrom := some (r.heldFrom.getD now) })
           flow.readsHeld := a.flow.readsHeld + BitVec.ofNat 32 fresh.length }

/-- Tiers over their quota give way, pages are filled, and every free device takes the first waiting operation. -/
def giveWork (s : State) : State :=
  let s := { s with archive := s.archive.holdReads s.micros }
  if !s.archive.state.writes then s else
  let a := if s.archive.state == .mounted then s.archive.trim s.view else s.archive
  let s := skipCopies { s with archive := a.fillPages s.view }
  (List.range 4).foldl (fun s d =>
    let dev := s.archive.devices.getD d {}
    if dev.part.isSome && !dev.failed && dev.op.isNone then
      match s.nextWork d with
      | some op => { s with archive.devices := modAt s.archive.devices d (fun x => { x with op := some op, retried := false }) }
      | none => s
    else s) s

end Sys2Proof.Machine
end

