-- ==== Sys2Proof/Machine/Archive.lean ====
section
/-! DEFINITION. Archive.lean: the events of the archive (chapter "Archive storage and flow control"): admission,
flash operations, probing and mounting, formats, pins, and the reads of R294–R305. -/

namespace Sys2Proof.Machine
open Sys2Proof

/-! ### Evidence copies and pins that complete -/

/-- Records that have reached flash whole: evidence entries so copied are counted (R506). -/
def noteDone (done : List BufFrame) (s : State) : State :=
  done.foldl (fun s f =>
    match f.evidence with
    | some n =>
      { s with evidence.copied := max s.evidence.copied n
               evidence.overflow := s.evidence.overflow + BitVec.ofNat 32 (n - s.evidence.copied) }
    | none => s) s

/-- A pin is done: its record is on flash and none of its segments awaits a copy (R298). -/
def Archive.pinDone (a : Archive) (n : Nat) : Bool :=
  !a.pinWaiting n &&
    !a.pinCopies.any (fun c => a.pins.any (fun p => p.number == n && p.covers.contains c.seg))

/-- The place of an event among the recent records. -/
def State.recentPlace (s : State) (number : Nat) : Nat := (s.xa.recentNumbers.takeWhile (· != number)).length

/-- The pin outcome of an event (R220, R230): in its recent record, or with the event while it is open. -/
def setOutcome (number outcome : Nat) (s : State) : State :=
  { s with
    xa.recent := modAt s.xa.recent (s.recentPlace number) (fun r => patch r 23 [BitVec.ofNat 8 outcome])
    xa.buses := s.xa.buses.map (fun (x : XaBus) =>
      ({ x with openEvents := x.openEvents.map (fun (e : OpenEvent) =>
          (if e.number = number then { e with outcome := outcome } else e : OpenEvent)) } : XaBus)) }

/-- The extension that an alarm pin's completion appends (R500): outcome and pin number. -/
def pinExtension (code seq outcome pin : Nat) (s : State) : State :=
  s.raiseExt code seq ([2, BitVec.ofNat 8 outcome] ++ leBytes 4 pin)

/-- Event and alarm pins that are done report their outcome (R220, R500). -/
def settlePins (s : State) : State :=
  let done := s.xa.asked.filter (fun p => s.archive.pinDone p.1)
  let s := done.foldl (fun s p => setOutcome p.2 1 s) { s with xa.asked := s.xa.asked.filter (fun p => !s.archive.pinDone p.1) }
  let ready := fun (p : AlarmPin) => match p.asked with | some n => s.archive.pinDone n | none => false
  let fin := s.evidence.pins.filter ready
  fin.foldl (fun s p => pinExtension p.code p.seq 1 (p.asked.getD 0) s)
    { s with evidence.pins := s.evidence.pins.filter (fun p => !ready p) }

/-! ### The mere -/

/-- MERE_ADMIT (R287–R289, R292). -/
def execMereAdmit (s : State) : Outcome := edge (fun s => giveWork (mereTake s)) s

/-! ### Flash operations -/

/-- A page of the copy of a segment is programmed in the pinned tier (R298): the segment's record, unchanged. -/
def copyPage (seg : Nat) (s : State) : State :=
  match (s.archive.records 0).find? (fun r => getU r.2 0 1 == 0x10 && getU r.2 4 4 == seg),
      s.archive.pinCopies.find? (fun c => c.seg == seg) with
  | some r, some c =>
    match s.archive.putPage s.view 3 { bytes := r.2, framed := c.done, number := c.number, time := seepStart r.2 } with
    | none => s
    | some (a, rest, done) =>
      let copies := match rest with
        | some q => a.pinCopies.map (fun x => if x.seg = seg then { x with done := q.framed, number := q.number } else x)
        | none => a.pinCopies.filter (fun x => x.seg != seg)
      noteDone done { s with archive := { a with pinCopies := copies } }
  | _, _ => s

/-- The index checkpoint (R279): the sections in their order. The widths that R279 leaves open are the model's
(log entry 26). -/
def checkpointBytes (s : State) : Bytes :=
  let a := s.archive
  let seq := a.checkpoint.seq.toNat + 1
  let lengths := tab 5 (fun t => (a.tier t).blocks.length)
  let head := leBytes 8 a.archiveId ++ leBytes 4 seq ++ leBytes 6 s.sec ++ [BitVec.ofNat 8 a.count] ++
    leBytes 2 a.pageSize ++ leBytes 4 a.blocks ++ tab 4 (fun t => BitVec.ofNat 8 (s.view.quota t)) ++ leBytes 4 a.blockSeq.toNat
  let logs := tabBytes 5 (fun t =>
    let l := a.tier t
    let lb := l.blocks.getLast?.getD 0xFFFF
    leBytes 2 lb ++ [BitVec.ofNat 8 (a.block lb).pages.length] ++ leBytes 4 l.nextRecord ++
      leBytes 4 (((l.blocks.head?.bind a.headerOf).map (·.firstRec)).getD l.nextRecord) ++ leBytes 2 l.blocks.length)
  let counts := leBytes 2 a.free.length ++ leBytes 2 a.pins.length
  let list := tabBytes 5 (fun t => (a.tier t).blocks.flatMap (leBytes 2)) ++ a.free.flatMap (leBytes 2)
  let bad := tabBytes ((a.blocks + 7) / 8) (fun k =>
    [BitVec.ofNat 8 (((List.range 8).map (fun i => flag (a.block (8 * k + i)).bad * 2 ^ i)).foldl (· + ·) 0)])
  let sparse := tabBytes 5 (fun t =>
    let bs := (a.tier t).blocks
    tabBytes ((bs.length + 15) / 16) (fun k =>
      let h := a.headerOf (bs.getD (16 * k) 0)
      leBytes 4 ((h.map (·.firstRec)).getD 0) ++ leBytes 6 ((h.map (·.firstTick)).getD 0 / tps) ++
        leBytes 2 ((lengths.take t).foldl (· + ·) 0 + 16 * k)))
  let pins := a.pins.flatMap (fun p => leBytes 4 p.number ++ leBytes 6 p.fromSec ++ leBytes 6 p.toSec)
  let r := head ++ logs ++ counts ++ list ++ bad ++ sparse ++ pins
  r ++ leBytes 4 (crc32c r)

/-- A page of the index checkpoint is programmed in the meta tier; after its last one the locator is written (R279). -/
def checkpointPage (s : State) : State :=
  let run := s.archive.checkpoint.run.getD { bytes := checkpointBytes s }
  match s.archive.putPage s.view 4 { bytes := run.bytes, framed := run.done, number := run.number, time := s.ticks } with
  | none => s
  | some (a, rest, _) =>
    let lb := (a.tier 4).blocks.getLast?.getD 0
    let place := run.place.getD (lb, (a.block lb).pages.length - 1)
    match rest with
    | some q =>
      { s with archive := { a with checkpoint :=
          { a.checkpoint with run := some { run with done := q.framed, number := q.number, place := some place } } } }
    | none =>
      let seq := a.checkpoint.seq + 1
      let body := leBytes 2 place.1 ++ [BitVec.ofNat 8 place.2, 0] ++ leBytes 4 seq.toNat ++ leBytes 8 a.archiveId
      { s with archive := { a with checkpoint := { seq := seq } }
               store := s.store.record Ring.locator body }

/-- The header of a block's copy: a new block number, and the erase count of the block drawn (R276, R284, R285). -/
def Archive.copyHeader (a : Archive) (lb nb : Nat) : Bytes :=
  match a.headerOf lb with
  | some h => headerBytes { h with seq := a.blockSeq.toNat, erases := (a.block nb).erases }
  | none => []

/-- A block drawn to take a block's place. -/
def Archive.drawFor (v : View) (a : Archive) (lb : Nat) : Option (Nat × Bytes × Archive) :=
  (a.takeFree v (a.free.length + 1)).map (fun x =>
    let a := { x.2 with blockSeq := x.2.blockSeq + 1 }
    (x.1, a.copyHeader lb x.1, a))

/-- Page `i` of a block as it is programmed in the block that takes its place; a page that cannot be read stays so. -/
def Archive.copyPageOf (a : Archive) (lb nb i : Nat) (header : Bytes) : Archive :=
  let old := a.block lb
  match old.pages[i]? with
  | none => a
  | some p =>
    let b := a.block nb
    a.setBlock { b with
      pages := b.pages ++ [makePage (getU header 4 1) i (getU header 16 4) header (p.frames i)]
      badPages := if old.pageOk i p then b.badPages else b.badPages ++ [i] }

/-- A block takes another's place in its log. -/
def Archive.replaceBlock (a : Archive) (lb nb : Nat) (header : Bytes) : Archive :=
  match a.logOf lb with
  | none => a
  | some t =>
    a.modTier t (fun l =>
      { l with header := if l.blocks.getLast? = some lb then header else l.header
               blocks := l.blocks.map (fun x => if x = lb then nb else x) })

/-- A page of a static move or a refresh copy (R284, R285); after the last one the copy takes the block's place, and the old
block is to be erased. -/
def Archive.movePage (v : View) (lb : Nat) (a : Archive) : Archive :=
  match a.moves.find? (fun m => m.lb == lb) with
  | none => a
  | some m =>
    let others := a.moves.filter (fun x => x.lb != lb)
    if (a.logOf lb).isNone then
      { a with moves := others, toErase := a.toErase ++ (m.target.map (·.1)).toList }
    else
      match (match m.target with | some x => some (x.1, x.2, a) | none => a.drawFor v lb) with
      | none => a
      | some (nb, header, a) =>
        let a := a.copyPageOf lb nb m.done header
        if m.done + 1 < (a.block lb).pages.length then
          { a with moves := a.moves.map (fun (x : BlockMove) =>
              if x.lb = lb then ({ x with target := some (nb, header), done := m.done + 1 } : BlockMove) else x) }
        else
          let a := a.replaceBlock lb nb header
          { a with moves := others, toErase := a.toErase ++ [lb]
                   flow.refreshed := if m.refresh then a.flow.refreshed + 1 else a.flow.refreshed }

/-- Mean erase count of the good blocks (R305). -/
def Archive.meanErases (a : Archive) : Nat :=
  ((a.flash.filter (fun b => !b.bad)).map (·.erases)).foldl (· + ·) 0 / max 1 a.good

/-- After 64 blocks reclaimed the least-worn block of the tier whose turn it is moves, when it lies more than
2,000 below the mean (R285). -/
def Archive.staticMove (a : Archive) : Archive :=
  if a.reclaimed < 64 then a else
  let t := a.moveTier
  let low := (a.tier t).blocks.foldl (fun (best : Option Nat) lb =>
    match best with
    | none => some lb
    | some x => if (a.block lb).erases < (a.block x).erases then some lb else some x) none
  let a := { a with reclaimed := 0, moveTier := match t with | 2 => 1 | 1 => 3 | _ => 2 }
  match low with
  | some lb =>
    if (a.block lb).erases + 2000 < a.meanErases && !a.moves.any (fun m => m.lb == lb) then
      { a with moves := a.moves ++ [{ lb := lb, refresh := false }] }
    else a
  | none => a

/-- An erase is counted on its chronicle day; the last 30 days are kept (R286). -/
def noteErase (day : Nat) (l : List (Nat × Nat)) : List (Nat × Nat) :=
  let old := l.filter (fun x => x.1 + 30 > day)
  match old with
  | (d, n) :: rest => if d = day then (d, n + 1) :: rest else (day, 1) :: old
  | [] => [(day, 1)]

/-- Days that the present wear leaves (R286, R305): the erases that the good blocks still have to their rated endurance, at
the rate of the last 30 days, or of those of them that are known; saturated where nothing has been erased (log entry 202). -/
def Archive.lifeDays (a : Archive) (endurance today : Nat) : Nat :=
  let l := a.erasedDays.filter (fun x => x.1 + 30 > today)
  let n := (l.map (·.2)).foldl (· + ·) 0
  let days := (l.map (fun x => today + 1 - x.1)).foldl max 1
  if n = 0 then 2 ^ 32 - 1 else min ((endurance - a.meanErases) * a.good * days / n) (2 ^ 32 - 1)

/-- A block has been erased on a chronicle day: it joins the tail of the free list (R274). -/
def Archive.erased (day : Nat) (a : Archive) (lb : Nat) : Archive :=
  let a := a.setBlock { lb := lb, erases := (a.block lb).erases + 1 }
  let a := { a with erasedDays := noteErase day a.erasedDays }
  { a with toErase := a.toErase.filter (fun x => x != lb), free := a.free ++ [lb], reclaimed := a.reclaimed + 1 }.staticMove

/-- A block whose program failed is replaced (R284): its pages and the page that failed stand in a fresh block, each at its
page index (log entry 168). -/
def relocateBlock (lb t : Nat) (s : State) : State :=
  match s.archive.drawFor s.view lb with
  | none => s
  | some (nb, header, a) =>
    let a := (List.range (a.block lb).pages.length).foldl (fun a i => a.copyPageOf lb nb i header) a
    let a := (a.replaceBlock lb nb header).markBad s.view lb
    let r := { a with relocations := a.relocations.filter (fun r => r.1 != lb) }.programPage t
    noteDone r.2 { s with archive := r.1 }

/-- A device has programmed a page from the queues (R291). -/
def countPage (d : Nat) (s : State) : State :=
  { s with archive.devices := modAt s.archive.devices d (fun (x : FlashDevice) =>
      ({ x with sinceRead := 1, sinceCopy := min 4 (x.sinceCopy + 1), sinceMove := min 64 (x.sinceMove + 1) } : FlashDevice)) }

/-- One page less to read on a device for a command. -/
def takeRead (d tag : Nat) : List PageReads → List PageReads
  | [] => []
  | r :: rs =>
    if r.tag = tag && r.device = d then (if r.left ≤ 1 then rs else { r with left := r.left - 1 } :: rs)
    else r :: takeRead d tag rs

/-- A page read for a command is over. -/
def readDone (d tag : Nat) (s : State) : State :=
  { s with
    archive.devices := modAt s.archive.devices d (fun (x : FlashDevice) => ({ x with sinceRead := 0 } : FlashDevice))
    archive.reads := takeRead d tag s.archive.reads }

/-- An operation of a device ends well. -/
def applyOp (d : Nat) (op : FlashOp) (s : State) : State :=
  match op with
  | .program t =>
    let r := s.archive.programPage t
    countPage d (noteDone r.2 { s with archive := r.1 })
  | .erase lb => { s with archive := s.archive.erased (s.sec / 86400) lb }
  | .relocate lb t => relocateBlock lb t s
  | .read tag => readDone d tag s
  | .copy seg =>
    let promoted := s.archive.pinCopies.any (fun c => c.seg == seg && c.promoted)
    copyPage seg (if promoted then s else { s with
      archive.devices := modAt s.archive.devices d (fun (x : FlashDevice) => ({ x with sinceCopy := 0 } : FlashDevice)) })
  | .checkpoint => checkpointPage s
  | .move lb =>
    let s := { s with
      archive.devices := modAt s.archive.devices d (fun (x : FlashDevice) => ({ x with sinceMove := 0 } : FlashDevice)) }
    { s with archive := s.archive.movePage s.view lb }

/-- A block in which a program failed is bad, and is logged (R284). -/
def badProgram (lb : Nat) (s : State) : State :=
  { s with archive.flow.programFails := s.archive.flow.programFails + 1 }.raise 0x52 (leBytes 2 lb ++ [1])

/-- A block drawn from the free list fails to take its first page: it is marked bad, and another one will be drawn. -/
def drawFailed (s : State) : State :=
  match s.archive.takeFree s.view (s.archive.free.length + 1) with
  | none => { s with archive.flow.programFails := s.archive.flow.programFails + 1 }
  | some (nb, a) => badProgram nb { s with archive := a.markBad s.view nb }

/-- A program of a log fails: its open block is to be relocated, and is logged as a bad block (R284). A page that would
have been the first of a new block fails there. -/
def programFailed (t : Nat) (s : State) : State :=
  match (s.archive.tier t).blocks.getLast? with
  | some lb =>
    if (s.archive.tier t).buffer.isEmpty && (s.archive.room t).any (· < 24) then drawFailed s
    else badProgram lb { s with archive.relocations := s.archive.relocations ++ [(lb, t)] }
  | none => drawFailed s

/-- A page of a move fails: the block drawn for it is bad, and the move begins again with another one. -/
def moveFailed (lb : Nat) (s : State) : State :=
  match (s.archive.moves.find? (fun m => m.lb == lb)).bind (·.target) with
  | none => drawFailed s
  | some (nb, _) =>
    let a := { s.archive with moves := s.archive.moves.map (fun (x : BlockMove) =>
      if x.lb = lb then ({ x with target := none, done := 0 } : BlockMove) else x) }
    badProgram nb { s with archive := a.markBad s.view nb }

/-- An operation fails (R284). A relocation that fails is begun again with another block. -/
def failOp (op : FlashOp) (s : State) : State :=
  match op with
  | .program t => programFailed t s
  | .copy _ => programFailed 3 s
  | .checkpoint => programFailed 4 s
  | .read _ => s
  | .relocate _ _ => drawFailed s
  | .move lb => moveFailed lb s
  | .erase lb =>
    let a := { s.archive with toErase := s.archive.toErase.filter (fun x => x != lb) }.markBad s.view lb
    { s with archive := { a with flow := { a.flow with eraseFails := a.flow.eraseFails + 1 } } }.raise 0x52 (leBytes 2 lb ++ [2])

/-- A page read ends with what it found; another operation that reads goes on. -/
def endRead (d : Nat) (s : State) : State :=
  match (s.archive.devices.getD d {}).op with
  | some (.read tag) =>
    readDone d tag { s with archive.devices := modAt s.archive.devices d (fun x => { x with op := none }) }
  | _ => s

/-- FLASH_OPERATION_DONE: the operation's effect, or what a read found, and the next waiting operation. One that a mount or
a format performs only ends its retry (R292). -/
def flashDone (d : Nat) (result : FlashResult) (s : State) : State :=
  let op := (s.archive.devices.getD d {}).op
  let free := { s with archive.devices := modAt s.archive.devices d (fun x => { x with op := none }) }
  let s :=
    match result with
    | .ok => match op with
      | some o => applyOp d o free
      | none => { s with archive.devices := modAt s.archive.devices d (fun x => { x with retried := false }) }
    | .failed => match op with | some o => failOp o free | none => s
    | .highCount lb =>
      let u := s.archive.useOf lb
      let s := endRead d s
      if (u == .peat || u == .pinned) && !s.archive.moves.any (fun m => m.lb == lb) then
        { s with archive.moves := s.archive.moves ++ [{ lb := lb, refresh := true }] }
      else s
    | .unreadable lb page =>
      let s := endRead d s
      let b := s.archive.block lb
      { s with archive := { s.archive.setBlock { b with badPages := insertNat page b.badPages } with
                            flow.pageFails := s.archive.flow.pageFails + 1 } }
  giveWork (settlePins s)

/-- FLASH_OPERATION_DONE (R284, R290). -/
def execFlashOperationDone (device : Nat) (result : FlashResult) (s : State) : Outcome := edge (flashDone device result) s

/-- The commands that read or pin the archive. -/
def Work.usesArchive : Work → Bool
  | .archiveRead _ _ _ _ | .pinSegment _ _ _ | .audit _ _ _ => true
  | .replied | .heldRead _ _ _ | .snapshot _ | .latchNow _ _ | .commit _ | .zlinkSend _ _ _ | .selftest _ _ | .abortHeld _ => false

/-- The archive leaves its state for another in which it is not mounted: an unmount is an interrupt (R67, R68). -/
def unmount (next : ArchiveState) (s : State) : State :=
  let was := s.archive.state == .mounted
  let s := { s with archive.state := next, archive.checkpoint.run := none, archive.reads := [] }
  if was then s.setIrq .archive else s

/-- The archive fails (R292): its outstanding commands end with FAULT, event and alarm pins fail. -/
def archiveFail (d : Nat) (s : State) : State :=
  let s := { s with archive.devices := (modAt s.archive.devices d (fun x => { x with failed := true })).map
                      (fun (x : FlashDevice) => ({ x with op := none } : FlashDevice)) }
  let s := s.xa.asked.foldl (fun s p =>
    { setOutcome p.2 2 s with xa.counters := modAt s.xa.counters 7 (· + 1) }) s
  let s := s.evidence.pins.foldl (fun s p =>
    if p.asked.isSome then pinExtension p.code p.seq 2 (p.asked.getD 0) s else s) s
  let s := { s with xa.asked := [], evidence.pins := s.evidence.pins.filter (fun p => p.asked.isNone) }
  ((unmount .failed { s with archive.stuck := true }).raise 0x50 [BitVec.ofNat 8 d]).completeAll Work.usesArchive .fault

/-- A mount or a format is under way: a write of the archive command member is refused (R283). -/
def ArchiveState.busy : ArchiveState → Bool
  | .probing | .mounting | .scan1 | .scan2 | .formatting => true
  | .mounted | .mismatch | .failed | .noDevice => false

/-- FLASH_TIMEOUT: one retry after a reset of the device; then the archive has failed. While the archive is probed,
mounted or formatted the controller itself operates the devices present. -/
def flashTimeout (d : Nat) (s : State) : State :=
  let x := s.archive.devices.getD d {}
  if x.op.isNone && !(x.part.isSome && s.archive.state.busy) then s
  else if x.retried then archiveFail d s
  else { s with archive.devices := modAt s.archive.devices d (fun x => { x with retried := true }) }

/-- FLASH_TIMEOUT (R292). -/
def execFlashTimeout (device : Nat) (s : State) : Outcome := edge (flashTimeout device) s

/-- PAGE_FLUSH_TIMER: the page of the pool or peat log is programmed though it is not full. -/
def pageFlush (t : Nat) (s : State) : State :=
  if t ≠ 1 && t ≠ 2 then s
  else if !s.archive.state.writes then s
  else
    let a := s.archive.fillPage s.view t (s.archive.pageSize / 24 + 4)
    giveWork { s with archive := a.modTier t (fun l => { l with flush := l.flush || !l.buffer.isEmpty }) }

/-- PAGE_FLUSH_TIMER (R277). -/
def execPageFlushTimer (tier : Nat) (s : State) : Outcome := edge (pageFlush tier) s

/-- CHECKPOINT_DUE: a checkpoint is due; above 50 % it is deferred from now on (R288). -/
def checkpointDue (s : State) : State :=
  if !s.archive.state.writes then s else
  let c := s.archive.checkpoint
  let defer := if s.archive.at50 then some (c.deferredSec.getD s.sec) else none
  giveWork { s with archive.checkpoint := { c with due := true, deferredSec := defer } }

/-- CHECKPOINT_DUE (R279, R288). -/
def execCheckpointDue (s : State) : Outcome := edge checkpointDue s

/-! ### Probing and mounting (R272, R280–R283) -/

/-- Blocks of a device of a density code (R270, R305). -/
def blocksOf (density pageSize : Nat) : Nat :=
  if density = 0 || pageSize = 0 then 0 else 2 ^ 27 * 2 ^ (density - 1) / (64 * pageSize)

/-- A chip select holds a device: its read ID is neither all zeros nor all ones (R272). -/
def ProbeAnswer.toPart (p : ProbeAnswer) : Option FlashPart :=
  if p.id = 0 || p.id = 0xFFFF then none
  else some { id := p.id, density := p.density, pageSize := p.pageSize, blocks := blocksOf p.density p.pageSize
              conforms := p.conforms, ddrFails := p.ddrFails, endurance := p.endurance, factoryBad := p.factoryBad }

/-- The devices as the probe finds them. -/
def probeDevices (flash : List ProbeAnswer) : List FlashDevice :=
  tab 4 (fun i => { part := (flash[i]?).bind ProbeAnswer.toPart })

/-- A part meets R270: the rows that are numbers here, and the others as its parameter page reports them. -/
def FlashPart.meets (p : FlashPart) : Bool :=
  p.conforms && (p.pageSize = 2048 || p.pageSize = 4096) && 1 ≤ p.density && p.density ≤ 4 && 60000 ≤ p.endurance &&
    50 * p.factoryBad.length ≤ p.blocks

/-- The devices present cannot be mounted: a hole, unlike parts, or a part that does not conform (R272). -/
def Archive.mismatched (a : Archive) : Bool :=
  let ps := a.devices.map (·.part)
  (List.range 3).any (fun i => (ps.getD i none).isNone && (ps.getD (i + 1) none).isSome) ||
  (match ps.headD none with
   | some f => ps.any (fun p => match p with
      | some p => p.id != f.id || p.density != f.density || p.pageSize != f.pageSize || !p.meets
      | none => false)
   | none => false)

/-- The blocks that carry a valid header of an archive, with it, in the order of their sequence numbers (R281). -/
def Archive.headed (a : Archive) (ok : BlockHeader → Bool) : List (Nat × BlockHeader) :=
  let bs := a.flash.filterMap (fun b => match b.header with
    | some h => if ok h then some (b.lb, h) else none
    | none => none)
  bs.foldl (fun l x => l.takeWhile (fun y => y.2.seq ≤ x.2.seq) ++ x :: l.dropWhile (fun y => y.2.seq ≤ x.2.seq)) []

/-- The record of a log that begins on a page of a block, as its fragments on flash give it. -/
def Archive.recordAt (a : Archive) (t lb page : Nat) : Option Bytes :=
  let b := a.block lb
  let skip := ((b.pages.zipIdx.take page).map (fun x => (x.1.frames x.2).length)).foldl (· + ·) 0
  match frameAt t (b.readable.drop skip) with
  | some (f, _) => joinFrags f.number ((a.headed (fun h => h.tier == t)).flatMap (fun x => (a.block x.1).frags t))
  | none => none

/-- The index checkpoint that the locator names, where both are valid (R280). -/
def State.checkpointFound (s : State) : Option Bytes :=
  match newestSlot s.store.seen Ring.locator with
  | none => none
  | some (_, _, body) =>
    match s.archive.recordAt 4 (getU body 0 2) (getU body 2 1) with
    | none => none
    | some r =>
      let n := r.length - 4
      if getU r n 4 = crc32c (r.take n) && getU r 8 4 = getU body 4 4 && getU r 0 8 = getU body 8 8 &&
          getU r 18 1 = s.archive.count && getU r 19 2 = s.archive.pageSize && getU r 21 4 = s.archive.blocks then some r
      else none

/-- The controller begins to mount what the probe found (R272, R280, R281, R283). A warm start, or a unit released
from limp (R547), mounts from the checkpoint. Only as the unit starts does the device format by itself, never for a command
(log entry 203). -/
def beginMount (atStart warm : Bool) (s : State) : State :=
  let s := if warm then countRing Ring.locator s else s
  let a := s.archive
  let ddr := s.view.xspiDdr
  let bad := a.mismatched
  let devices := a.devices.map (fun (d : FlashDevice) =>
    ({ d with
       mismatch := bad && d.part.isSome, failed := false, op := none, retried := false
       ddrOff := ddr && (match d.part with | some p => p.ddrFails | none => false) } : FlashDevice))
  let st : ArchiveState :=
    if a.devices.all (fun d => d.part.isNone) then .noDevice
    else if bad then .mismatch
    else if atStart && a.flash.all (fun b => b.header.isNone) then .formatting
    else if warm && s.checkpointFound.isSome then .mounting
    else .scan1
  { s with archive := { a with devices := devices, state := st } }

/-- Logs and the free list taken over, each log's blocks oldest first: record numbers go on behind what stands on flash, the
header of each newest block is at hand, and what is neither held nor erased is to be erased (R280, R281). -/
def Archive.take (a : Archive) (id : Nat) (logs : Nat → List Nat) (free : List Nat) : Archive :=
  let a := { a with
    archiveId := id
    blockSeq := BitVec.ofNat 32 (((a.headed (fun h => h.archiveId == id)).map (fun (x : Nat × BlockHeader) => x.2.seq)).foldl max 0)
    tiers := tab 5 (fun t =>
      let l := a.tier t
      let header := match (logs t).getLast? with
        | some lb => ((a.block lb).pages.head?.map (fun (p : FlashPage) => p.data.take 48)).getD []
        | none => []
      ({ l with blocks := logs t, header := header, forward := [], leaving := none } : TierLog)) }
  let used := (List.range 5).flatMap (fun t => (a.tier t).blocks)
  let rest := (List.range a.blocks).filter (fun lb => !used.contains lb && !free.contains lb && !(a.block lb).bad)
  let a := { a with
    free := free ++ rest.filter (fun lb => (a.block lb).pages.isEmpty)
    toErase := rest.filter (fun lb => !(a.block lb).pages.isEmpty) }
  (List.range 5).foldl (fun a t =>
    a.modTier t (fun l => { l with nextRecord := (((a.frags t).map (·.number + 1)).foldl max l.nextRecord) })) a

/-- The archive ID in force: that of the newest block header. -/
def Archive.newestId (a : Archive) : Nat := (((a.headed (fun _ => true)).getLast?).map (fun x => x.2.archiveId)).getD 0

/-- The logs, the free list and the record numbers rebuilt from the headers of every block (R281). -/
def Archive.rebuild (a : Archive) : Archive :=
  let id := a.newestId
  let all := a.headed (fun h => h.archiveId == id)
  let a := a.take id (fun t => (all.filter (fun x => x.2.tier == t)).map (·.1)) []
  { a with checkpoint.seq :=
      BitVec.ofNat 32 (((a.records 4).map (fun r => getU r.2 8 4)).foldl max a.checkpoint.seq.toNat) }

/-- Logical blocks of a checkpoint's block list: `n` of them behind `skip` others. -/
def checkpointList (r : Bytes) (skip n : Nat) : List Nat := tab n (fun k => getU r (102 + 2 * (skip + k)) 2)

/-- Blocks of log `t` that a checkpoint lists. -/
def checkpointLog (r : Bytes) (t : Nat) : List Nat :=
  let n := fun i => getU r (33 + 13 * i + 11) 2
  checkpointList r (((List.range t).map n).foldl (· + ·) 0) (n t)

/-- The tables of a checkpoint, rolled forward (R280): a block of a log stays while it carries a header of its tier that the
checkpoint can know, and the blocks drawn since, whose headers are newer, follow in their order. -/
def Archive.load (r : Bytes) (a : Archive) : Archive :=
  let id := getU r 0 8
  let known := getU r 29 4
  let logs := fun t => checkpointLog r t
  let listed := ((List.range 5).map (fun t => (logs t).length)).foldl (· + ·) 0
  let free := checkpointList r listed (getU r 98 2)
  let newer := a.headed (fun h => h.archiveId == id && serialNewer h.seq known)
  let stays := fun (t lb : Nat) => match (a.block lb).header with
    | some h => h.archiveId == id && h.tier == t && !serialNewer h.seq known
    | none => false
  let a := { a with flash := a.flash, checkpoint.seq := BitVec.ofNat 32 (getU r 8 4) }
  a.take id (fun t => (logs t).filter (stays t) ++ (newer.filter (fun x => x.2.tier == t)).map (·.1))
    (free.filter (fun lb => (a.block lb).pages.isEmpty && !(a.block lb).bad))

/-- The pin table rebuilt from the pinned tier (R281): a release record ends the host pins within its span. -/
def Archive.rebuildPins (a : Archive) : Archive :=
  let rs := (a.records 3).map (·.2)
  let copies := (rs.filter (fun r => getU r 0 1 == 0x10)).map (fun r => getU r 4 4) ++ a.pinCopies.map (·.seg)
  let pins := (rs.filter (fun r => getU r 0 1 == 0x40)).foldl (fun (l : List Pin) r =>
    let f := getU r 8 6
    let t := getU r 16 6
    if getU r 1 1 = 0xFF then l.filter (fun p => !(p.reason < 0x10 && f ≤ p.fromSec && p.toSec ≤ t))
    else l ++ [{ number := getU r 4 4, reason := getU r 1 1, fromSec := f, toSec := t, firstSeg := getU r 24 4
                 lastSeg := getU r 28 4, evidence := getU r 32 4
                 covers := copies.filter (fun g => getU r 24 4 ≤ g && g ≤ getU r 28 4) }]) []
  let next := ((rs.filter (fun r => getU r 0 1 == 0x40)).map (fun r => getU r 4 4 + 1)).foldl max a.nextPin
  { a with pins := pins, nextPin := next % 2 ^ 32 }

/-- The end that a gap marker after a start takes (R282): the save point of a recovered power-down save, else the cut
recorded after the resume point (R454), else the first sample of the start. -/
def State.gapEnd (s : State) : Nat :=
  if s.store.source = 2 then s.start.resumeSec * tps + s.start.resumeTick
  else s.cutTime.getD (s.timeOf s.firstRaw)

/-- Fragments of the seep tier as the blocks of the newest archive on flash hold them, whether or not it is mounted. -/
def Archive.seepFrags (a : Archive) : List Frag :=
  let id := a.newestId
  (a.headed (fun h => h.archiveId == id && h.tier == 0)).flatMap (fun x => (a.block x.1).frags 0)

/-- The records of the seep tier of which flash holds the beginning: record number and the bytes from it on. -/
def seepHeads (fs : List Frag) : List (Nat × Bytes) :=
  (fs.foldl (fun l f => insertNat f.number l) []).map (fun n => (n, (fragsOf n fs).1))

/-- Sequence numbers that stand on flash, of segments, their fragments or gap markers (R282). -/
def Archive.seepNumbers (a : Archive) : List Nat :=
  ((seepHeads a.seepFrags).filter (fun x => 8 ≤ x.2.length)).map (fun x => getU x.2 4 4)

/-- The greatest of sequence numbers in serial arithmetic, at least `n`. -/
def serialMax (n : Nat) (l : List Nat) : Nat := l.foldl (fun m x => if serialNewer x m then x else m) n

/-- The last segment number opened before this start (R282). -/
def State.lastOpened (s : State) : Nat :=
  if s.store.source = 2 then s.recording.lastSeq
  else
    match s.archive.seepNumbers with
    | [] => s.recording.lastSeq
    | n :: ns => if s.store.source = 0 then serialMax n ns else serialMax s.recording.lastSeq (n :: ns)

/-- The end of the newest segment stored whole; where none is, the end that the markers take. -/
def State.wholeEnd (s : State) : Nat :=
  match ((s.archive.records 0).filter (fun r => getU r.2 0 1 == 0x10)).getLast? with
  | some r => segmentEnd r.2
  | none => s.gapEnd

/-- A segment cut short by power becomes dropped, with a gap marker where it has none yet (R282). Its start is in its first 16
bytes, or else the end of the newest whole segment; a number that is not on flash is one of the missing ones. -/
def dropOneTorn (marked : List Nat) (x : Nat × Bytes) (s : State) : State :=
  let s := { s with archive := s.archive.modTier 0 (fun l => { l with droppedRecs := l.droppedRecs ++ [x.1] }) }
  let seq := getU x.2 4 4
  if x.2.length < 8 || marked.contains seq then s
  else offerGap 2 seq (if x.2.length < 16 then s.wholeEnd else seepStart x.2) s.gapEnd s

/-- Segments cut short by power (R282). -/
def dropTorn (s : State) : State :=
  let fs := s.archive.frags 0
  let marked := (s.archive.records 0).filterMap (fun r => if getU r.2 0 1 = 0x11 then some (getU r.2 4 4) else none)
  let torn := (seepHeads fs).filter (fun x => getU x.2 0 1 == 0x10 && !x.2.isEmpty &&
    !(s.archive.tier 0).queue.any (fun r => r.number == some x.1) &&
    !(s.archive.tier 0).buffer.any (fun f => f.number == x.1) &&
    !(s.archive.tier 0).droppedRecs.contains x.1 && (joinFrags x.1 fs).isNone)
  torn.foldl (fun s x => dropOneTorn marked x s) s

/-- Gap markers with reason 2 for `n` numbers from `seq` on: the first begins at a tick, each next one where the one before
it ends, at the aligned boundary or at `stop` (R282). -/
def offerMissing (stop : Nat) : Nat → Nat → Nat → State → State
  | 0, _, _, s => s
  | n + 1, seq, from_, s =>
    let upTo := min (nextAligned from_) stop
    offerMissing stop n ((seq + 1) % 2 ^ 32) upTo (offerGap 2 seq (min from_ stop) upTo s)

/-- The end of the span of the segment that a seep record stands for, whole or not: its last boundary known. -/
def seepReach (r : Bytes) : Nat :=
  if getU r 0 1 = 0x11 then seepEnd r else if r.length < 28 then nextAligned (seepStart r) else segmentEnd r

/-- Where the missing segments begin: behind the newest seep record of which flash holds 16 bytes. -/
def State.missingFrom (s : State) : Nat :=
  match ((seepHeads s.archive.seepFrags).filter (fun x => 16 ≤ x.2.length)).getLast? with
  | some x => seepReach x.2
  | none => s.gapEnd

/-- Gap markers for segments of which nothing is left (R282), once for each start: after a power-down save one for every
number up to the last one opened; otherwise one for the number after it. -/
def markMissing (s : State) : State :=
  if s.recording.missingMarked then s else
  let s := { s with recording.missingMarked := true }
  match s.archive.seepNumbers with
  | [] => s
  | n :: ns =>
    let top := serialMax n ns
    if s.store.source = 2 then
      if !serialNewer s.recording.openedBefore top then s
      else offerMissing s.gapEnd ((s.recording.openedBefore + 2 ^ 32 - top) % 2 ^ 32) ((top + 1) % 2 ^ 32) s.missingFrom s
    else offerGap 2 ((s.recording.openedBefore + 1) % 2 ^ 32) s.wholeEnd s.gapEnd s

/-- The archive is mounted (R280 step 7, R281): cursors of the former mount expire with the mount count. -/
def mountDone (s : State) : State :=
  let s := { s with archive.state := .mounted, archive.stuck := false, archive.mountCount := s.archive.mountCount + 1
                    start.mounted := if s.start.mounted = 0xFFFFFFFF then s.sinceRelease 1000 else s.start.mounted }
  giveWork (s.setIrq .archive)

/-- MOUNT_FROM_CHECKPOINT: the tables of the checkpoint, rolled forward, with the pin table as its pin records give it,
then torn records, and writing begins (R280, R282). -/
def mountCheckpoint (s : State) : State :=
  match s.archive.state with
  | .mounting =>
    let a := s.archive
    let a := match s.checkpointFound with
      | some r => a.load r
      | none => a.rebuild
    mountDone (markMissing (dropTorn { s with archive := a.rebuildPins }))
  | _ => s

/-- MOUNT_FROM_CHECKPOINT (R280, R282). -/
def execMountFromCheckpoint (s : State) : Outcome := edge mountCheckpoint s

/-- SCAN_PHASE1_END: the logs are rebuilt, torn records dealt with, and writing begins (R281, R282). -/
def scanPhase1 (s : State) : State :=
  match s.archive.state with
  | .scan1 =>
    let s := { s with archive := s.archive.rebuild }
    let s := markMissing (dropTorn s)
    giveWork { s with archive.state := .scan2 }
  | _ => s

/-- SCAN_PHASE1_END (R281, R282). -/
def execScanPhase1End (s : State) : Outcome := edge scanPhase1 s

/-- SCAN_PHASE2_END: the pin table is rebuilt, the archive is mounted and a checkpoint is written (R281). -/
def scanPhase2 (s : State) : State :=
  match s.archive.state with
  | .scan2 =>
    let s := { s with archive := { s.archive.rebuildPins with checkpoint := { s.archive.checkpoint with due := true } } }
    mountDone s
  | _ => s

/-- SCAN_PHASE2_END (R281). -/
def execScanPhase2End (s : State) : Outcome := edge scanPhase2 s

/-- FORMAT_END: a new archive ID, every block free, those with data to be erased before use, and a checkpoint (R283). How the ID is drawn from the
chronicle count and the identity word is open: a free value (log entry 27). -/
def formatEnd (s : State) : State :=
  match s.archive.state with
  | .formatting =>
    let id := s.freeValue % 2 ^ 64
    let a := s.archive
    let good := (List.range a.blocks).filter (fun lb => !(a.block lb).bad)
    let a := { a with
      archiveId := id, pins := [], pinCopies := [], nextPin := 0, moves := [], relocations := []
      checkpoint := { seq := a.checkpoint.seq, due := true }
      tiers := a.tiers.map (fun (l : TierLog) =>
        ({ queue := l.queue.map (fun (r : MereRec) => ({ r with framed := 0, number := none, head := none } : MereRec)) } : TierLog))
      free := good.filter (fun lb => (a.block lb).pages.isEmpty)
      toErase := good.filter (fun lb => !(a.block lb).pages.isEmpty) }
    let s := { s.nextFree with archive := a }.raise 0x51 (leBytes 8 id)
    if a.mismatched then { s with archive.state := .mismatch } else mountDone s
  | _ => s

/-- FORMAT_END (R283). -/
def execFormatEnd (s : State) : Outcome := edge formatEnd s

/-- A write of the archive command member (R283, R305). -/
def archiveCommand (value : Nat) (s : State) : Answer × State :=
  if value ≠ 0x464D && value ≠ 0x4D54 then (refuse .badParam, s)
  else if s.archive.state.busy then (refuse .wrongState, s)
  else if value = 0x464D then
    if s.archive.count = 0 then (refuse .wrongState, s)
    else (.done .ok [], unmount .formatting { s with
      archive.devices := s.archive.devices.map (fun (d : FlashDevice) => ({ d with op := none } : FlashDevice)) })
  else (.done .ok [], beginMount false false (unmount .probing s))

/-! ### The coder's fault -/

/-- CODER_SELFTEST_END: a coder that fails its test is out of service (R246); the segment in progress becomes a
gap marker too (log entry 25). -/
def coderSelftestEnd (passed : Bool) (s : State) : State :=
  if !s.recording.coderTesting then s else
  let s := { s with recording.coderTesting := false }
  if passed then s else
  let seq := match s.recording.segment with
    | some g => g.seq
    | none => s.recording.lastSeq
  let s := { s with recording.coderOk := false }.raise 0x54 (leBytes 4 seq)
  abandonSegment 3 { s with archive := s.archive.dropSegment seq }

/-- CODER_SELFTEST_END (R246). -/
def execCoderSelftestEnd (passed : Bool) (s : State) : Outcome := edge (coderSelftestEnd passed) s

/-! ### Pins (R219, R220, R298–R301, R500) -/

/-- The segments that a pin can name: on flash, in the mere or in its page buffer, and those pinned already: number, start and end. -/
def State.segments (s : State) : List (Nat × Nat × Nat) :=
  let a := s.archive
  let one := fun (r : Bytes) => (getU r 4 4, seepStart r, seepEnd r)
  ((a.records 0).map (·.2)).filterMap (fun r => if getU r 0 1 = 0x10 then some (one r) else none) ++
  (a.tier 0).queue.filterMap (fun r => r.seg.map (fun g => (g, r.time, nextAligned r.time))) ++
  (a.tier 0).buffer.filterMap (fun f => f.seg.map (fun g => (g, f.time, nextAligned f.time))) ++
  ((a.records 3).map (·.2)).filterMap (fun r => if getU r 0 1 = 0x10 then some (one r) else none)

/-- The numbers of the segments whose span overlaps an interval of ticks, ascending. -/
def State.overlapping (s : State) (a b : Nat) : List Nat :=
  (s.segments.filter (fun x => x.2.1 < b && a < x.2.2)).foldl (fun l x => insertNat x.1 l) []

/-- Segments whose copy stands in the pinned tier. -/
def Archive.pinnedSegs (a : Archive) : List Nat :=
  (a.records 3).filterMap (fun r => if getU r.2 0 1 = 0x10 then some (getU r.2 4 4) else none)

/-- A pin record (R300). -/
def pinRecord (p : Pin) : Bytes :=
  [0x40, BitVec.ofNat 8 p.reason, 0, 0] ++ leBytes 4 p.number ++ leBytes 6 p.fromSec ++ zeros 2 ++ leBytes 6 p.toSec ++
    zeros 2 ++ leBytes 4 p.firstSeg ++ leBytes 4 p.lastSeg ++ leBytes 4 p.evidence ++ zeros 4

/-- A pin is made (R298): its record, then a copy of each segment not yet pinned; the pin's number. -/
def makePin (fromTick toTick reason evidence : Nat) (segs : List Nat) (s : State) : State × Nat :=
  let a := s.archive
  let n := a.nextPin
  let p : Pin := { number := n, reason := reason, fromSec := fromTick / tps, toSec := (toTick + tps - 1) / tps
                   firstSeg := segs.headD 0, lastSeg := segs.getLast?.getD 0, evidence := evidence, covers := segs }
  let have_ := a.pinnedSegs ++ a.pinCopies.map (·.seg)
  let a := { a with nextPin := (n + 1) % 2 ^ 32, pins := a.pins ++ [p]
                    pinCopies := a.pinCopies ++ (segs.filter (fun g => !have_.contains g)).map (fun g => { seg := g }) }
  ({ s with archive := a }.offer 3 { bytes := pinRecord p, time := p.fromSec * tps, urgent := true }, n)

/-- The host pins whose span lies wholly within an interval of seconds (R299). -/
def Archive.hostPins (a : Archive) (f t : Nat) : List Pin :=
  a.pins.filter (fun p => p.reason < 0x10 && f ≤ p.fromSec && p.toSec ≤ t)

/-- The segments that the release of a span releases, each once (R299). -/
def Archive.releasedSegs (a : Archive) (f t : Nat) : List Nat :=
  ((a.hostPins f t).flatMap (·.covers)).foldl (fun l g => insertNat g l) []

/-- Bytes of a segment on flash, in the seep or the pinned tier, or of what the mere holds of it. -/
def State.segmentBytes (s : State) (g : Nat) : Nat :=
  let stands := fun (r : Nat × Bytes) => getU r.2 0 1 == 0x10 && getU r.2 4 4 == g
  match (s.archive.records 0).find? stands <|> (s.archive.records 3).find? stands with
  | some r => r.2.length
  | none =>
    (((s.archive.tier 0).queue.filter (fun r => r.seg == some g)).map (fun r => r.bytes.length - r.framed)).foldl (· + ·) 0 +
      (((s.archive.tier 0).buffer.filter (fun f => f.seg == some g)).map (fun f => f.bytes.length)).foldl (· + ·) 0

/-- A host pin of segments fits in 75 % of the pinned quota (R301). -/
def State.hostPinFits (s : State) (segs : List Nat) : Bool :=
  let host := (s.archive.pins.filter (fun p => p.reason < 0x10)).flatMap (·.covers)
  let all := segs.foldl (fun l g => insertNat g l) (host.foldl (fun l g => insertNat g l) [])
  let size := (all.map s.segmentBytes).foldl (· + ·) 0
  decide (4 * size ≤ 3 * (s.archive.quotaOf s.view 3 * 64 * s.archive.pageSize))

/-- The archive answers its commands (R281, R292): BUSY until it is mounted, WRONG_STATE where it cannot be. -/
def State.archiveGate (s : State) : Option Status :=
  match s.archive.state with
  | .mounted => none
  | .probing | .mounting | .scan1 | .scan2 | .formatting => some .busy
  | .failed | .mismatch | .noDevice => some .wrongState

/-- PIN_SEGMENT (R298, R299, R301): the segments are looked up at once; one that finds none, or no room, completes
behind its ACCEPTED. The second component of the answer is a completion owed at once. -/
def pinSegment (p : Bytes) (s : State) : (Answer × Option Status) × State :=
  let f := getU p 0 6
  let t := getU p 6 6
  let reason := getU p 12 1
  if !([1, 2, 3, 0xFF].contains reason) || t ≤ f || 3600 < t - f || s.sec < t then ((refuse .badParam, none), s)
  else
    match s.archiveGate with
    | some st => ((refuse st, none), s)
    | none =>
      if reason = 0xFF then
        let segs := s.archive.releasedSegs f t
        let n := s.archive.nextPin
        let rel : Pin := { number := n, reason := 0xFF, fromSec := f, toSec := t
                           firstSeg := (segs.foldl min (2 ^ 32 - 1)) % (2 ^ 32 - 1)
                           lastSeg := segs.foldl max 0, evidence := 0 }
        (((.long (.pinSegment n segs.length (some (f, t)))), none),
          { s with archive.nextPin := (n + 1) % 2 ^ 32 }.offer 3 { bytes := pinRecord rel, time := f * tps, urgent := true })
      else
        let segs := s.overlapping (f * tps) (t * tps)
        if segs.isEmpty then ((.long (.pinSegment 0 0 none), some .notFound), s)
        else if 1024 ≤ s.archive.pins.length || !s.hostPinFits segs then ((.long (.pinSegment 0 0 none), some .overflow), s)
        else
          let r := makePin (f * tps) (t * tps) reason 0 segs s
          ((.long (.pinSegment r.2 segs.length none), none), r.1)

/-- A PIN_SEGMENT aborted before its pin record was written: nothing is pinned (R79). -/
def unpin (n : Nat) (s : State) : State :=
  { s with archive := { s.archive.modTier 3 (fun l =>
      { l with queue := l.queue.filter (fun r => !(getU r.bytes 0 1 == 0x40 && getU r.bytes 4 4 == n))
               buffer := l.buffer.filter (fun f => !(getU f.bytes 16 1 == 0x40 && getU f.bytes 20 4 == n)) }) with
    pins := s.archive.pins.filter (fun p => p.number != n)
    pinCopies := s.archive.pinCopies.filter (fun c =>
      s.archive.pins.any (fun p => p.number != n && p.covers.contains c.seg))
    offered := s.archive.offered.filter (fun o => !(o.1 == 3 && getU o.2.bytes 0 1 == 0x40 && getU o.2.bytes 4 4 == n)) } }

/-- The pin record of a PIN_SEGMENT is being written or stands on flash: its point of no return (R79). -/
def State.pinBegun (s : State) (n : Nat) : Bool :=
  !s.archive.pinWaiting n ||
    ((s.archive.tier 3).buffer.any (fun f => getU f.bytes 16 1 == 0x40 && getU f.bytes 20 4 == n) &&
      s.archive.devices.any (fun d => d.op == some (.program 3)))

/-- Host pins of a span end (R299). -/
def releasePins (f t : Nat) (s : State) : State :=
  let gone := s.archive.hostPins f t
  { s with archive := { s.archive with
      pins := s.archive.pins.filter (fun p => !gone.contains p)
      pinCopies := s.archive.pinCopies.filter (fun c =>
        s.archive.pins.any (fun p => !gone.contains p && p.covers.contains c.seg)) } }

/-- PIN_SEGMENT_COMPLETE: the first PIN_SEGMENT whose pin is done completes with the segments it covers or
releases, and is logged (R298, R299). -/
def pinComplete (s : State) : State :=
  match s.link.outstanding.find? (fun c => match c.work with
      | .pinSegment n _ _ => s.archive.pinDone n
      | _ => false) with
  | none => s
  | some c =>
    match c.work with
    | .pinSegment n count none =>
      let pin := s.archive.pins.find? (fun p => p.number == n)
      let count := match pin with | some p => p.covers.length | none => count
      let body := match pin with
        | some p => [BitVec.ofNat 8 p.reason] ++ leBytes 4 p.firstSeg ++ leBytes 4 p.lastSeg
        | none => zeros 9
      (s.complete c.tag .ok (leBytes 2 count)).raise 0x53 (leBytes 4 n ++ body)
    | .pinSegment n _ (some (f, t)) =>
      let segs := s.archive.releasedSegs f t
      let body := [0xFF] ++ leBytes 4 ((segs.foldl min (2 ^ 32 - 1)) % (2 ^ 32 - 1)) ++ leBytes 4 (segs.foldl max 0)
      ((releasePins f t s).complete c.tag .ok (leBytes 2 segs.length)).raise 0x53 (leBytes 4 n ++ body)
    | _ => s

/-- PIN_SEGMENT_COMPLETE (R298). -/
def execPinSegmentComplete (s : State) : Outcome := edge pinComplete s

/-- A pin of any kind finds space: host pins and evidence are kept, the rest can give way (R301). -/
def State.pinFits (s : State) (segs : List Nat) : Bool :=
  let kept := ((s.archive.tier 3).blocks.flatMap (fun lb => (s.archive.protectedFrags lb).map (fun f => f.data.length))).foldl (· + ·) 0
  let size := (segs.map s.segmentBytes).foldl (· + ·) 0
  decide (kept + size ≤ s.archive.quotaOf s.view 3 * 64 * s.archive.pageSize)

/-- The outcome of a pin the device asks for itself (R219, R301, R500): the pin's number, or nothing when it fails. -/
def devicePin (fromTick toTick reason evidence : Nat) (s : State) : State × Option Nat :=
  let segs := s.overlapping fromTick toTick
  if segs.isEmpty || 1024 ≤ s.archive.pins.length || !s.pinFits segs then (s, none)
  else
    let r := makePin fromTick toTick reason evidence segs s
    (r.1, some r.2)

/-- An event pin is asked for or skipped (R219, R220). -/
def askEventPin (p : PinRequest) (s : State) : State :=
  let n := s.pinsThisHour
  if 32 ≤ n then { setOutcome p.event 3 s with xa.counters := modAt s.xa.counters 6 (· + 1) }
  else
    let s := { s with xa.pinsHour := n + 1, xa.pinHour := s.sec / 3600 }
    let seq := ((s.xa.numbers.find? (fun x => x.1 == p.event)).map (·.2)).getD 0
    let r := if s.archiveGate.isSome then (s, none) else devicePin p.fromTick p.toTick p.reason seq s
    match r.2 with
    | some k => { r.1 with xa.asked := r.1.xa.asked ++ [(k, p.event)] }
    | none => { setOutcome p.event 2 r.1 with xa.counters := modAt r.1.xa.counters 7 (· + 1) }

/-- The first pin of an event still open at start + PIN_POST + 30 s (R219). -/
def State.longEvent (s : State) : Option (Nat × OpenEvent) :=
  (List.range 8).findSome? (fun b =>
    ((s.xa.buses.getD b {}).openEvents.find? (fun e =>
      e.pinnedTo.isNone && s.view.pinsKind e.kind &&
        decide (e.start + (s.view.pinPost + 30) * tps ≤ s.ticks))).map (fun e => (b, e)))

/-- EVENT_PIN_DUE: the first pin request whose instant has come is made or skipped; else that of a long event.
While the archive mounts, event pins wait (R281). -/
def eventPinDue (s : State) : State :=
  if s.archiveGate = some .busy then s else
  match s.xa.pins.find? (fun p => decide (p.due ≤ s.ticks)) with
  | some p => askEventPin p { s with xa.pins := s.xa.pins.erase p }
  | none =>
    match s.longEvent with
    | some (b, e) =>
      let to_ := e.start + s.view.pinPost * tps
      askEventPin { fromTick := e.start - s.view.pinPre * tps, toTick := to_, reason := 0x0F + e.kind.code, event := e.number
                    due := s.ticks } (modEvent b e.kind (fun e => { e with pinnedTo := some to_ }) s)
    | none => s

/-- EVENT_PIN_DUE (R219, R220). -/
def execEventPinDue (s : State) : Outcome := edge (fun s => giveWork (eventPinDue s)) s

/-! ### Reading (R294–R297) -/

/-- A cursor (R295). -/
def cursorOf (s : State) (tier rec_ off : Nat) : Nat :=
  tier * 2 ^ 62 + s.archive.mountCount.toNat * 2 ^ 56 + rec_ % 2 ^ 28 * 2 ^ 28 + off % 2 ^ 28

/-- The record of a span list that holds a time, the earliest written of them; or else the first that follows it; or else
nothing (R296): record number, start and end. A time before all of them takes the oldest record. -/
def spanAt (l : List (Nat × Nat × Nat)) (t : Nat) : Option Nat :=
  match l.find? (fun x => x.2.1 ≤ t && t < x.2.2) with
  | some x => some x.1
  | none =>
    if l.all (fun x => t < x.2.1) then l.head?.map (·.1) else
    (l.foldl (fun (best : Option (Nat × Nat × Nat)) x =>
      if x.2.1 ≤ t then best
      else match best with
        | none => some x
        | some b => if x.2.1 < b.2.1 then some x else best) none).map (·.1)

/-- The record that a read by time begins at (R296): `t` in ticks. -/
def Archive.byTime (a : Archive) (tier t : Nat) : Option Nat :=
  let rs := a.records tier
  match tier with
  | 0 => spanAt (rs.map (fun r => (r.1, seepStart r.2, seepReach r.2))) t
  | 1 =>
    match rs.find? (fun r => getU r.2 0 1 == 0x21 && decide (t ≤ getU r.2 8 6 * tps + getU r.2 14 2)) with
    | none => none
    | some w =>
      let before := rs.filter (fun r => r.1 ≤ w.1 && getU r.2 0 1 == 0x20)
      let last := (List.range 8).filterMap (fun b => ((before.filter (fun r => getU r.2 1 1 % 8 == b)).getLast?).map (·.1))
      some (last.foldl min w.1)
  | 2 => spanAt (rs.map (fun r => (r.1, getU r.2 8 6 * tps, getU r.2 16 6 * tps))) t
  | _ =>
    match a.pins.find? (fun p => t < p.toSec * tps) with
    | none => none
    | some p => (rs.find? (fun r => getU r.2 0 1 == 0x40 && getU r.2 4 4 == p.number)).map (·.1)

/-- Bytes of the record stream from an offset in its first record on, at most `n`, and the place after them; `at_` is the
place where nothing follows. -/
def streamFrom : List (Nat × Bytes) → Nat → Nat → Nat × Nat → Bytes × Nat × Nat
  | [], _, _, at_ => ([], at_)
  | (k, bs) :: rs, off, n, _ =>
    let rest := bs.drop off
    if n < rest.length then (rest.take n, k, off + n)
    else
      let t := streamFrom rs 0 (n - rest.length) (k, bs.length)
      (rest ++ t.1, t.2)

/-- The fragments of a block's bytes with the places of their data. -/
def placesIn (tier : Nat) : Nat → Nat → Bytes → List (Nat × Frag)
  | 0, _, _ => []
  | fuel + 1, at_, bs =>
    if bs.length < 24 then []
    else
      match frameAt tier bs with
      | some (f, n) => (at_ + 16, f) :: placesIn tier fuel (at_ + n) (bs.drop n)
      | none => placesIn tier fuel (at_ + 4) (bs.drop 4)

/-- The pages of a block that hold bytes from one place to another of its frame bytes. -/
def FlashBlock.pagesAt (b : FlashBlock) (from_ upTo : Nat) : List Nat :=
  let r := b.pages.zipIdx.foldl (fun (acc : Nat × List Nat) p =>
    let e := acc.1 + (p.1.frames p.2).length
    (e, if from_ < e && acc.1 < upTo then acc.2 ++ [p.2] else acc.2)) (0, [])
  r.2

/-- The pages of a log that hold what is wanted of its fragments: `want` gives the part of one, from and up to. -/
def Archive.pagesFor (a : Archive) (t : Nat) (want : Frag → Nat × Nat) : List (Nat × Nat) :=
  (a.tier t).blocks.flatMap (fun lb =>
    let b := a.block lb
    let bs := b.readable
    let pages := (placesIn t (bs.length / 4 + 1) 0 bs).flatMap (fun x =>
      let w := want x.2
      if w.1 < w.2 then b.pagesAt (x.1 + w.1) (x.1 + w.2) else [])
    (pages.foldl (fun l p => insertNat p l) []).map (fun p => (lb, p)))

/-- A command waits for page reads, device by device (R291). -/
def Archive.askReads (tag : Nat) (pages : List (Nat × Nat)) (a : Archive) : Archive :=
  { a with reads := a.reads ++ (List.range 4).filterMap (fun d =>
      let n := (pages.filter (fun p => a.deviceOf p.1 == d)).length
      if n = 0 then none else some { tag := tag, device := d, left := n }) }

/-- The page reads of a command are done. -/
def Archive.readsDone (a : Archive) (tag : Nat) : Bool := !a.reads.any (fun r => r.tag == tag && 0 < r.left)

/-- ARCHIVE_READ is taken (R294–R297): tier, mode, position and length are checked, then the cursor. -/
def archiveRead (p : Bytes) (s : State) : Answer × State :=
  let tier := getU p 0 1
  let mode := getU p 1 1
  let pos := getU p 2 8
  let len := getU p 10 2
  if 3 < tier || 1 < mode || len = 0 || 4000 < len then (refuse .badParam, s)
  else
    match s.archiveGate with
    | some st => (refuse st, s)
    | none =>
      let go : Answer × State := (.long (.archiveRead tier mode len pos), s)
      if mode = 0 then (if 32768 ≤ getU p 8 2 then (refuse .badParam, s) else go)
      else if pos / 2 ^ 62 ≠ tier then (refuse .badParam, s)
      else if field 61 56 pos ≠ s.archive.mountCount.toNat then (refuse .notFound, s)
      else
        match (s.archive.records tier).find? (fun r => r.1 % 2 ^ 28 == field 55 28 pos) with
        | some r => if r.2.length < pos % 2 ^ 28 then (refuse .badParam, s) else go
        | none => go

/-- Numbers of 28 bits in serial order: `a` lies before `b`. -/
def before28 (a b : Nat) : Bool := a % 2 ^ 28 != b % 2 ^ 28 && (b + 2 ^ 28 - a % 2 ^ 28) % 2 ^ 28 < 2 ^ 27

/-- Where a read begins (R295, R296): the record, the offset in it, and whether its cursor's record has been reclaimed
or cannot be read (R284). One on a record that the stream leaves out goes on at the next (R294). -/
def State.readBegin (s : State) (tier mode pos : Nat) : Option Nat × Nat × Bool :=
  let rs := s.archive.records tier
  if mode = 0 then (s.archive.byTime tier (pos % 2 ^ 48 * tps + pos / 2 ^ 48), 0, false)
  else
    let k := field 55 28 pos
    match rs.find? (fun r => r.1 % 2 ^ 28 == k) with
    | some r => (some r.1, pos % 2 ^ 28, false)
    | none =>
      match rs.find? (fun r => before28 k r.1) with
      | none => (none, 0, false)
      | some r =>
        (some r.1, 0, !(s.archive.tier tier).droppedRecs.any (fun n => n % 2 ^ 28 == k))

/-- The newest record of a log: its number, 0 where it holds none. -/
def Archive.newest (a : Archive) (tier : Nat) : Nat := ((a.records tier).map (·.1)).foldl max 0

/-- A record from one number to another is missing because a page of its log fails its checks (R284). -/
def Archive.skips (a : Archive) (tier from_ upTo : Nat) : Bool :=
  let l := a.tier tier
  let nums := (a.records tier).map (·.1)
  l.blocks.any (fun lb => let b := a.block lb; b.pages.zipIdx.any (fun p => !b.pageOk p.2 p.1)) &&
    (List.range (upTo + 1 - from_)).any (fun i => !nums.contains (from_ + i) && !l.droppedRecs.contains (from_ + i))

/-- What a read returns: next cursor, data, and whether it is degraded (R294–R296). -/
def State.readArchive (s : State) (tier mode len pos : Nat) : Status × Bytes :=
  let b := s.readBegin tier mode pos
  match b.1 with
  | none => (.ok, leBytes 8 (cursorOf s tier (s.archive.newest tier) 0))
  | some k =>
    let d := streamFrom ((s.archive.records tier).filter (fun r => k ≤ r.1)) b.2.1 len (k, 0)
    (if b.2.2 || s.archive.skips tier k d.2.1 then .degraded else .ok, leBytes 8 (cursorOf s tier d.2.1 d.2.2) ++ d.1)

/-- The pages that a read takes its data from. -/
def State.readPages (s : State) (tier mode len pos : Nat) : List (Nat × Nat) :=
  let b := s.readBegin tier mode pos
  match b.1 with
  | none => []
  | some k =>
    let d := streamFrom ((s.archive.records tier).filter (fun r => k ≤ r.1)) b.2.1 len (k, 0)
    s.archive.pagesFor tier (fun f =>
      let from_ := if f.number = k then b.2.1 - f.offset else 0
      let upTo := if f.number < d.2.1 then f.data.length else if f.number = d.2.1 then d.2.2 - f.offset else 0
      if f.number < k then (0, 0) else (from_, min upTo f.data.length))

/-- An ARCHIVE_READ under tag `own`: taken, its page reads begin. -/
def readRequest (own : Nat) (p : Bytes) (s : State) : Answer × State :=
  let r := archiveRead p s
  match r.1 with
  | .long (.archiveRead tier mode len pos) =>
    (r.1, giveWork { r.2 with archive := r.2.archive.askReads own (s.readPages tier mode len pos) })
  | _ => r

/-- The page reads of a command end with it. -/
def dropReads (tag : Nat) (s : State) : State :=
  { s with archive.reads := s.archive.reads.filter (fun r => r.tag != tag) }

/-- ARCHIVE_READ_COMPLETE: the data has been gathered; its page reads wait at the 75 % watermark (R288). -/
def archiveReadComplete (tag : Nat) (s : State) : State :=
  match s.command tag with
  | some c =>
    match c.work with
    | .archiveRead tier mode len pos =>
      if !s.archive.readsDone tag then s
      else
        let r := s.readArchive tier mode len pos
        s.complete tag r.1 r.2
    | _ => s
  | none => s

/-- ARCHIVE_READ_COMPLETE (R294–R297). -/
def execArchiveReadComplete (tag : BitVec 16) (s : State) : Outcome := edge (archiveReadComplete tag.toNat) s

/-- ARCHIVE_READ_TIMEOUT: a read held for 10 s completes with TIMEOUT and no data (R297). -/
def archiveReadTimeout (tag : Nat) (s : State) : State :=
  match s.command tag with
  | some c =>
    match c.work with
    | .archiveRead _ _ _ _ =>
      if s.archive.reads.any (fun r => r.tag == tag && r.heldFrom.any (fun t => decide (t + 10000000 ≤ s.micros))) then
        (dropReads tag { s with archive.flow.readsTimedOut := s.archive.flow.readsTimedOut + 1 }).complete tag .timeout []
      else s
    | _ => s
  | none => s

/-- ARCHIVE_READ_TIMEOUT (R297). -/
def execArchiveReadTimeout (tag : BitVec 16) (s : State) : Outcome := edge (archiveReadTimeout tag.toNat) s

/-! ### Objects (R302–R305) -/

/-- STATE of R303. -/
def ArchiveState.code : ArchiveState → Nat
  | .probing => 0
  | .mounting => 1
  | .scan1 => 2
  | .scan2 => 3
  | .mounted => 4
  | .mismatch => 5
  | .failed => 6
  | .noDevice => 7
  | .formatting => 8

/-- The watermark level of R303. -/
def Archive.level (a : Archive) : Nat := if a.at90 then 3 else if a.at75 then 2 else if a.at50 then 1 else 0

/-- Reads of class 4 instance 0 but for the settings. -/
def State.readArchiveObj (s : State) (m : Nat) : Bytes :=
  let a := s.archive
  match m with
  | 0 =>
    [BitVec.ofNat 8 a.state.code,
     BitVec.ofNat 8 (((List.range 4).map (fun i => flag ((a.devices.getD i {}).part.isSome) * 2 ^ i)).foldl (· + ·) 0),
     BitVec.ofNat 8 a.level, a.mountCount.zeroExtend 8] ++ leBytes 4 a.fill ++ leBytes 8 a.archiveId
  | 2 => zeros 2
  | 3 => tabBytes 4 (fun t =>
      let l := a.tier t
      let oldest := ((l.blocks.head?.bind a.headerOf).map (·.firstTick)).getD 0 / tps
      leBytes 2 l.blocks.length ++ leBytes 2 (a.quotaOf s.view t) ++ leBytes 6 oldest ++ zeros 2 ++ leBytes 4 l.written.toNat)
  | 4 => tabBytes 4 (fun i =>
      let d := a.devices.getD i {}
      let bad := (a.flash.filter (fun b => b.bad && a.deviceOf b.lb == i)).length
      match d.part with
      | none => zeros 8
      | some p => leBytes 2 p.id ++ [BitVec.ofNat 8 p.density,
          BitVec.ofNat 8 (1 + 2 * flag d.ddrOff + 4 * flag d.failed + 8 * flag d.mismatch)] ++ leBytes 2 bad ++ zeros 2)
  | 5 =>
    let top := (a.flash.map (·.erases)).foldl max 0
    let life := match a.part with | some p => p.endurance | none => 0
    leBytes 4 top ++ leBytes 4 a.meanErases ++ leBytes 4 (a.lifeDays life (s.sec / 86400)) ++ leBytes 4 life
  | 6 =>
    let f := a.flow
    [f.dropped, f.gaps, f.discarded, f.readsHeld, f.readsTimedOut, f.promoted, f.programFails, f.eraseFails, f.pageFails,
     f.refreshed].flatMap (fun c => leBytes 4 c.toNat)
  | _ => []

end Sys2Proof.Machine
end

