-- ==== Sys2Proof/Machine/Audit.lean ====
section
/-! DEFINITION. Audit.lean: decoding of seep segments (R240–R245) and the replay audit (R261–R265). -/

namespace Sys2Proof.Machine
open Sys2Proof

/-! ### Decoding -/

/-- The bits of bytes, most significant first. -/
def bitsOf (bs : Bytes) : List Bool := bs.flatMap (fun b => msbBits 8 b.toNat)

/-- A number read from the front of a bit string. -/
def bitsValue (l : List Bool) : Nat := l.foldl (fun a x => 2 * a + flag x) 0

/-- The value a mapped z stands for (R245). -/
def unzigzag (z : Nat) : Int := if z % 2 = 0 then (z / 2 : Nat) else -((z + 1) / 2 : Nat)

/-- Zeros before the first one, and what follows that one. -/
def unary : List Bool → Nat × List Bool
  | [] => (0, [])
  | true :: l => (0, l)
  | false :: l => let r := unary l; (r.1 + 1, r.2)

/-- `n` values of a partition under PARAM `p`, or under an escape of WIDTH `w`. -/
def readValues (p w : Nat) : Nat → List Bool → List Int × List Bool
  | 0, l => ([], l)
  | n + 1, l =>
    let r :=
      if p = 31 then (bitsValue (l.take w), l.drop w)
      else
        let u := unary l
        (u.1 * 2 ^ p + bitsValue (u.2.take p), u.2.drop p)
    let t := readValues p w n r.2
    (unzigzag r.1 :: t.1, t.2)

/-- `n` coded values in partitions of 64. -/
def readPartitions : Nat → Nat → List Bool → List Int
  | 0, _, _ => []
  | fuel + 1, n, l =>
    if n = 0 then [] else
    let p := bitsValue (l.take 5)
    let w := if p = 31 then bitsValue ((l.drop 5).take 5) else 0
    let r := readValues p w (min n 64) (l.drop (if p = 31 then 10 else 5))
    r.1 ++ readPartitions fuel (n - 64) r.2

/-- Samples rebuilt from coded values, and the last four of them, newest first. -/
def rebuildSamples (order k : Nat) : List Int → List Int → List Int × List Int
  | h, [] => ([], h)
  | h, r :: rs =>
    let x := nearRecon k (predict order h) r
    let t := rebuildSamples order k (x :: h.take 3) rs
    (x :: t.1, t.2)

/-- `n` samples of 20 bits. -/
def readSamples : Nat → List Bool → List Int
  | 0, _ => []
  | n + 1, l => toSigned 20 (bitsValue (l.take 20)) :: readSamples n (l.drop 20)

/-- A block of `n` samples decoded (R244, R245): its samples and the last four, newest first. -/
def decodeBlock (k n : Nat) (h : List Int) (block : Bytes) : List Int × List Int :=
  let l := bitsOf (block.drop 2)
  let mode := bitsValue (l.take 2)
  let order := bitsValue ((l.drop 2).take 3)
  let body := l.drop 8
  if mode = 2 then rebuildSamples order k h (readPartitions 5 n body)
  else
    let xs := if mode = 1 then List.replicate n (toSigned 20 (bitsValue (body.take 20))) else readSamples n body
    (xs, (xs.reverse ++ h).take 4)

/-- The blocks of a segment body, cut by their LENGTH. -/
def splitBlocks : Nat → Bytes → List Bytes
  | 0, _ => []
  | fuel + 1, bs =>
    let n := getU bs 0 2
    if n < 3 || bs.length < n then [] else bs.take n :: splitBlocks fuel (bs.drop n)

/-- A channel's blocks decoded in turn; `left` counts the samples still to come. -/
def decodeBlocks (k : Nat) : Nat → List Int → List Bytes → List Int
  | _, _, [] => []
  | left, h, b :: bs =>
    let r := decodeBlock k (min 256 left) h b
    r.1 ++ decodeBlocks k (left - 256) r.2 bs

/-- Channels of a segment's mask, ascending. -/
def segmentChannels (seg : Bytes) : List Nat := (List.range 56).filter (fun c => bit c (getU seg 32 8))

/-- Services of a segment's table. -/
def segmentServices (seg : Bytes) : List Nat := (List.range 16).filter (fun n => bit n (getU seg 40 2))

/-- The table entry of a service in a segment (R248). -/
def segmentEntry (seg : Bytes) (n : Nat) : Option Bytes :=
  ((segmentServices seg).findIdx? (fun x => x == n)).map (fun i => (seg.drop (64 + 36 * i)).take 36)

/-- The recording samples of a channel of a segment (R247). -/
def segmentSamples (seg : Bytes) (c : Nat) : List Int :=
  let chans := segmentChannels seg
  match chans.findIdx? (fun x => x == c) with
  | none => []
  | some j =>
    let blocks := splitBlocks seg.length (seg.drop (64 + 36 * (segmentServices seg).length))
    let own := (blocks.zipIdx.filter (fun x => x.2 % chans.length == j)).map (·.1)
    decodeBlocks (getU seg 2 1 % 8) (getU seg 24 4) [] own

/-! ### Recomputing (R262) -/

/-- The five lengths of the audit's direction filter. -/
def auditLengths : List Nat := [160, 150, 142, 134, 128]

/-- Their product. -/
def auditGain : Nat := 160 * 150 * 142 * 134 * 128

/-- An element of the audit as the segment's table gives it: channels, INVERT, K_e. -/
structure AuditElem where
  cur : Nat
  volt : Nat
  invert : Bool
  weight : Nat
deriving DecidableEq, Repr

/-- The elements of a service entry. -/
def auditElems (e : Bytes) : List AuditElem :=
  (List.range (getU e 1 1)).filterMap (fun k =>
    if getU e (6 + 2 * k) 1 = 0xFF then none
    else some { cur := getU e (6 + 2 * k) 1, volt := getU e (7 + 2 * k) 1, invert := bit (5 + k) (getU e 3 1)
                weight := getU e (12 + 8 * k) 8 })

/-- Filters and live state of one element of the audit. -/
structure AuditState where
  fp : List Box := List.replicate 5 {}
  fi : List Box := List.replicate 5 {}
  live : Bool := false
deriving DecidableEq, Repr

/-- One recording sample of one element: its power when live, in 2^−48 quanta. -/
def AuditState.step (start : Nat) (e : AuditElem) (u i : Int) (a : AuditState) : AuditState × Int :=
  let u := 16 * u
  let i := if e.invert then -(16 * i) else 16 * i
  let p := boxesPush auditLengths a.fp (roundEven (2 * e.weight * (u * i)) (2 ^ 34))
  let q := boxesPush auditLengths a.fi (i * i)
  let live := liveNext a.live start (rmsOf (roundEven q.2 auditGain).toNat)
  ({ fp := p.1, fi := q.1, live := live }, if live then roundEven p.2 (auditGain * 2 ^ 12) else 0)

/-- Sums of the audit: import and export in 2^−48 of 1 nWh, halves kept by doubling. -/
structure AuditSum where
  states : List AuditState := List.replicate 3 {}
  next : Nat := 0
  imported : Nat := 0
  exported : Nat := 0
deriving DecidableEq, Repr

/-- Periods of the audit sample at recording strobe `s` that lie in the span (R262): 0, 1 or 2. -/
def auditPeriods (b0 b1 s : Nat) : Nat :=
  flag (decide (b0 + 710 ≤ s && s < b1 + 710)) + flag (decide (b0 + 709 ≤ s && s < b1 + 709))

/-- One recording sample of the service: `us` and `is` are those of its elements. -/
def AuditSum.step (b0 b1 start scale : Nat) (es : List AuditElem) (strobe : Nat) (us is : List Int) (a : AuditSum) :
    AuditSum :=
  let r := (es.zipIdx).map (fun x =>
    (a.states.getD x.2 {}).step start x.1 (us.getD x.2 0) (is.getD x.2 0))
  let p : Int := (r.map (·.2)).foldl (fun x y => x + y) 0
  let part := auditPeriods b0 b1 strobe * scale * p.natAbs
  { states := r.map (·.1), next := strobe + 2
    imported := if 0 ≤ p then a.imported + part else a.imported
    exported := if 0 ≤ p then a.exported else a.exported + part }

/-- The samples of a segment run through the sums; filters start empty where the recording does not follow on. -/
def auditSamples (b0 b1 start scale : Nat) (es : List AuditElem) :
    Nat → Nat → List (List Int) → List (List Int) → AuditSum → AuditSum
  | 0, _, _, _, a => a
  | fuel + 1, strobe, us, is, a =>
    if us.all (·.isEmpty) then a
    else
      auditSamples b0 b1 start scale es fuel (strobe + 2) (us.map (·.drop 1)) (is.map (·.drop 1))
        (a.step b0 b1 start scale es strobe (us.map (·.headD 0)) (is.map (·.headD 0)))

/-- One segment of the recording, its samples from strobe `b0` on and below `b1` counted. -/
def auditSegment (svc : Nat) (a : AuditSum) (seg : Bytes) (b0 b1 : Nat) : AuditSum :=
  match segmentEntry seg svc with
  | none => a
  | some e =>
    let es := auditElems e
    let strobe := getU seg 16 6
    let a := if a.next = strobe then a else { a with states := List.replicate 3 {} }
    auditSamples b0 b1 (field 4 1 (getU e 3 1)) (10 ^ (getU e 4 1 + 3)) es (getU seg 24 4 + 1) strobe
      (es.map (fun x => segmentSamples seg x.volt)) (es.map (fun x => segmentSamples seg x.cur)) a

/-! ### The command and its result -/

/-- The profile records on flash, in order. -/
def State.profiles (s : State) : List Bytes := (s.archive.records 2).map (·.2)

/-- The entry of a service in a profile record (R258). -/
def profileOf (r : Bytes) (svc : Nat) : Option Bytes :=
  if bit svc (getU r 14 2) then
    let k := ((List.range svc).filter (fun n => bit n (getU r 14 2))).length
    some ((r.drop (32 + 92 * k)).take 92)
  else none

/-- The profile records of a span (R261): the one that ends at its start, and those after it up to the one that
ends at its end. -/
def State.spanProfiles (s : State) (start stop : Nat) : Option (Bytes × List Bytes) :=
  let rs := s.profiles
  match rs.dropWhile (fun r => getU r 16 6 != start) with
  | [] => none
  | a :: rest =>
    let upTo := rest.takeWhile (fun r => getU r 16 6 != stop)
    match rest.drop upTo.length with
    | z :: _ => some (a, upTo ++ [z])
    | [] => none

/-- The ends of a span may be audited (R261). -/
def spanOk (svc : Nat) (x : Bytes × List Bytes) : Bool :=
  let z := x.2.getLast?.getD []
  let nums := (x.1 :: x.2).map (fun r => getU r 4 4)
  (nums.zip (nums.drop 1)).all (fun p => p.2 == (p.1 + 1) % 2 ^ 32) &&
    (profileOf x.1 svc).isSome && (profileOf z svc).isSome && getU x.1 24 6 != 2 ^ 48 - 1 && getU z 24 6 != 2 ^ 48 - 1

/-- The segments of the seep and pinned tiers that overlap a span of ticks, by number. -/
def State.spanSegments (s : State) (a b : Nat) : List Bytes :=
  let all := ((s.archive.records 0).map (·.2) ++ (s.archive.records 3).map (·.2)).filter (fun r =>
    getU r 0 1 == 0x10 && decide (seepStart r < b) && decide (a < segmentEnd r))
  let nums := all.foldl (fun l r => insertNat (getU r 4 4) l) []
  nums.filterMap (fun n => all.find? (fun r => getU r 4 4 == n))

/-- AUDIT_REPLAY (R261). -/
def auditReplay (p : Bytes) (s : State) : Answer × State :=
  let svc := getU p 0 1
  let start := getU p 1 6
  let dur := getU p 7 4
  if !s.view.auditOn then (refuse .wrongState, s)
  else if 15 < svc || dur = 0 || 3600 < dur then (refuse .badParam, s)
  else if s.link.outstanding.any (fun c => match c.work with | .audit _ _ _ => true | _ => false) then (refuse .busy, s)
  else
    match s.archiveGate with
    | some st => (refuse st, s)
    | none =>
      match s.spanProfiles start (start + dur) with
      | none => (refuse .badParam, s)
      | some x =>
        if !spanOk svc x then (refuse .badParam, s)
        else if (s.spanSegments (start * tps) ((start + dur) * tps)).isEmpty then (refuse .notFound, s)
        else (.long (.audit svc start dur), s)

/-- Ticks before a span whose samples fill the audit's filters, and after it, whose samples bring the last of its
energy out (R262): 1,418 and 710 strobes. -/
def auditLead : Nat := 2905
/-- The ticks after it. -/
def auditTail : Nat := 1455

/-- The segments that an audit reads. -/
def State.auditSegments (s : State) (start stop : Nat) : List Bytes :=
  s.spanSegments (start * tps - auditLead) (stop * tps + auditTail)

/-- The pages that an audit reads in a tier: those of its segments. -/
def State.auditPages (s : State) (start stop t : Nat) : List (Nat × Nat) :=
  let nums := (s.auditSegments start stop).map (fun r => getU r 4 4)
  let recs := ((s.archive.records t).filter (fun r => getU r.2 0 1 == 0x10 && nums.contains (getU r.2 4 4))).map (·.1)
  s.archive.pagesFor t (fun f => if recs.contains f.number then (0, f.data.length) else (0, 0))

/-- An AUDIT_REPLAY under tag `own`: taken, its page reads begin. -/
def auditRequest (own : Nat) (p : Bytes) (s : State) : Answer × State :=
  let r := auditReplay p s
  match r.1 with
  | .long (.audit _ start dur) =>
    let pages := fun t => s.auditPages start (start + dur) t
    (r.1, giveWork { r.2 with archive := (r.2.archive.askReads own (pages 0)).askReads own (pages 3) })
  | _ => r

/-- Increase of two registers between profile entries, in nWh, to nearest (R262, R264). -/
def billedIncrease (a z : Bytes) (i j : Nat) : Nat :=
  let reg := fun (e : Bytes) (k : Nat) => getU e (4 + 7 * k) 7 * 256 + getU e (88 + k) 1
  let d := fun k => (reg z k + 2 ^ 64 - reg a k) % 2 ^ 64
  ((d i + d j) * 10 ^ (getU z 1 1 + 3) + 128) / 256

/-- An element's rated power exceeds 100 kW (R264): 0.28125 of full code squared, from K_e and the quantum. -/
def ratedLarge (k quantum : Nat) : Bool := 10 ^ 16 * 2 ^ 48 < 28125 * k * 10 ^ quantum * 57600000

/-- A segment that the audit needs is still being coded or in the mere. -/
def State.auditWaits (s : State) (stop : Nat) : Bool :=
  let t := stop * tps + auditTail
  s.recording.segment.any (fun g => !g.dropped && decide (g.startTick < t)) ||
    s.recording.cuts.any (fun c => decide (s.timeOf c.strobe < t)) ||
    ((s.archive.tier 0).queue.any (fun r => r.seg.isSome && decide (r.time < t)))

/-- The device started with this segment, within the span that is read (R247): its strobe counts and those of the segments
before it belong to different runs. -/
def beginsRun (seg : Bytes) : Bool := bit 5 (getU seg 2 2)

/-- The strobe counts of each segment read that lie in the span: those from `b0` on in its first run, and those below `b1`
in its last one. -/
def segmentBounds (b0 b1 : Nat) : Bool → List Bytes → List (Bytes × Nat × Nat)
  | _, [] => []
  | first, seg :: rest =>
    (seg, if first then b0 else 0, if rest.any beginsRun then 2 ^ 48 else b1) ::
      segmentBounds b0 b1 (first && !(rest.head?.any beginsRun)) rest

/-- Even strobe counts from `a` on and below `b`. -/
def evenIn (a b : Nat) : Nat := (b + 1) / 2 - (a + 1) / 2

/-- Recording samples of the span that a segment holds. -/
def samplesHeld (x : Bytes × Nat × Nat) : Nat :=
  let k := getU x.1 16 6
  evenIn (max k x.2.1) (min (k + 2 * getU x.1 24 4) x.2.2)

/-- The audit result record (R264) and whether it is incomplete. The conditions are those of the span's own segments; the
others only bring the filters in and out (R262). -/
def State.auditResult (s : State) (svc start dur : Nat) : Bytes × Bool :=
  match s.spanProfiles start (start + dur) with
  | none => (List.replicate 80 0, true)
  | some x =>
    let a := (profileOf x.1 svc).getD []
    let zr := x.2.getLast?.getD []
    let z := (profileOf zr svc).getD []
    let b0 := getU x.1 24 6
    let b1 := getU zr 24 6
    let segs := s.auditSegments start (start + dur)
    let own := s.spanSegments (start * tps) ((start + dur) * tps)
    let bounds := segmentBounds b0 b1 true segs
    let gaps := ((s.archive.records 0).map (·.2)).filter (fun r =>
      getU r 0 1 == 0x11 && decide (seepStart r < (start + dur) * tps) && decide (start * tps < seepEnd r))
    let covered := (bounds.map samplesHeld).foldl (· + ·) 0
    let whole := covered = evenIn b0 b1 && !(own.drop 1).any beginsRun
    let sum := bounds.foldl (fun (a : AuditSum) y => auditSegment svc a y.1 y.2.1 y.2.2) {}
    let imp := billedIncrease a z 0 3
    let exp := billedIncrease a z 1 2
    let rimp : Nat := (sum.imported + 2 ^ 48) / 2 ^ 49
    let rexp : Nat := (sum.exported + 2 ^ 48) / 2 ^ 49
    let flags := (x.2.map (fun r => getU ((profileOf r svc).getD []) 2 2)).foldl (· ||| ·) 0
    let entries := own.filterMap (fun r => segmentEntry r svc)
    let q := getU z 1 1
    let gap := !gaps.isEmpty || !whole
    let cond := flag gap + 2 * flag (bit 8 flags) + 4 * flag (bit 7 flags) +
      8 * flag (bit 11 flags || entries.any (fun e => e != entries.headD [])) +
      16 * flag (x.2.any (fun r => bit 1 (getU r 2 2)) || own.any (fun r => bit 3 (getU r 2 2))) +
      32 * flag (own.any (fun r => getU r 2 1 % 8 != 0)) + 64 * flag (decide (4 < q)) + 128 * flag (bit 4 flags) +
      256 * flag (entries.any (fun e => (auditElems e).any (fun y => ratedLarge y.weight (getU e 4 1))))
    let diff : Int := (Int.ofNat rimp - Int.ofNat rexp) - (Int.ofNat imp - Int.ofNat exp)
    let bound := (imp + exp + 2500) / 5000 + 1000000
    let verdict := if gap then 3
      else if cond / 2 % 64 ≠ 0 || bit 8 cond then 2
      else if diff.natAbs ≤ bound then 0 else 1
    ([BitVec.ofNat 8 svc, BitVec.ofNat 8 verdict] ++ leBytes 2 cond ++ leBytes 6 start ++ zeros 2 ++ leBytes 4 dur ++
      leBytes 8 imp ++ leBytes 8 exp ++ leBytes 8 rimp ++ leBytes 8 rexp ++ leInt 8 diff ++ leBytes 8 bound ++
      leBytes 4 (if whole then dur else min dur (covered / 8000)) ++ leBytes 2 segs.length ++ leBytes 2 gaps.length ++ zeros 8, gap)

/-- AUDIT_REPLAY_COMPLETE: the result record returns with the completion and is kept; its page reads wait
at the 75 % watermark, and it waits for the segment that holds the end of its span. -/
def auditComplete (s : State) : State :=
  match s.link.outstanding.find? (fun c => match c.work with | .audit _ _ _ => true | _ => false) with
  | none => s
  | some c =>
    match c.work with
    | .audit svc start dur =>
      if !s.archive.readsDone c.tag || s.auditWaits (start + dur) then s else
      let r := s.auditResult svc start dur
      { s with recording.lastAudit := r.1 }.complete c.tag (if r.2 then .degraded else .ok) r.1
    | _ => s

/-- AUDIT_REPLAY_COMPLETE (R262–R264). -/
def execAuditReplayComplete (s : State) : Outcome := edge auditComplete s

end Sys2Proof.Machine
end

