-- ==== Sys2Proof/Machine/Save.lean ====
section
/-! DEFINITION. Save.lean: the persistent store's records (chapter "Persistent store"): block protection, the
device state record, billing saves, recovery at a start, the energy gap and the scrub. -/

namespace Sys2Proof.Machine
open Sys2Proof

/-! ### Device state record (R444, R445) -/

/-- KIND code of a start (R565). -/
def StartKind.code : StartKind → Nat
  | .cold => 0
  | .warm => 1
  | .limp => 2

/-- The start of a KIND code. -/
def StartKind.ofCode (n : Nat) : StartKind := if n = 0 then .cold else if n = 1 then .warm else .limp

/-- A recorded failure (R566). -/
def Failure.bytes (f : Failure) : Bytes :=
  leBytes 6 f.sec ++ [BitVec.ofNat 8 f.cause, BitVec.ofNat 8 f.kind.code]

/-- The body of the device state record. The spec fixes its length and its first item; the places of the others
are a DESIGN CHOICE (log entry 30). -/
def State.deviceBody (s : State) : Bytes :=
  let e := fun (k : Nat) => flag (s.engines.engines.getD k {}).retired
  leBytes 8 s.start.startCount.toNat ++
    [BitVec.ofNat 8 (e 0 + 2 * e 1 + 4 * flag s.start.limp), BitVec.ofNat 8 s.store.level.toNat] ++
    leBytes 2 s.store.scrubPage.toNat ++
    [BitVec.ofNat 8 (min 3 s.start.failures.length), BitVec.ofNat 8 s.start.limpLevel, 0, 0] ++
    fit 36 ((s.start.failures.take 3).flatMap Failure.bytes)

/-- The device state record written. -/
def saveDevice (s : State) : State := { s with store := s.store.record Ring.device s.deviceBody }

/-- The device state record of the last start taken up. -/
def loadDevice (s : State) : State :=
  let s := countRing Ring.device s
  match newestSlot s.store.seen Ring.device with
  | none => s
  | some (_, _, b) =>
    let f := getU b 8 1
    let n := min 3 (getU b 12 1)
    { s with
      start.startCount := BitVec.ofNat 64 (getU b 0 8)
      start.limp := bit 2 f
      start.limpLevel := getU b 13 1
      start.failures := tab n (fun k =>
        { sec := getU b (16 + 8 * k) 6, cause := getU b (22 + 8 * k) 1, kind := StartKind.ofCode (getU b (23 + 8 * k) 1) })
      store.level := BitVec.ofNat 2 (getU b 9 1)
      store.scrubPage := BitVec.ofNat 13 (getU b 10 2)
      engines.engines := tab 2 (fun k => { s.engines.engines.getD k {} with retired := bit k f }) }

/-! ### Latched alarms (R497) -/

/-- The latched alarm record written. -/
def saveLatched (s : State) : State :=
  { s with store := s.store.record Ring.latched (leBytes 32 s.evidence.latched.toNat) }

/-- The latched alarm record taken up. -/
def loadLatched (s : State) : State :=
  let s := countRing Ring.latched s
  match newestSlot s.store.seen Ring.latched with
  | some (_, _, b) => { s with evidence.latched := BitVec.ofNat 256 (getU b 0 32) }
  | none => s

/-! ### Protection (R446, R447) -/

/-- The protection level covers an address. -/
def State.protects (s : State) (a : Nat) : Bool :=
  let l := s.store.level.toNat
  l = 3 || (l = 2 && 0x40000 ≤ a) || (l = 1 && 0x60000 ≤ a)

/-- A command refused as protected is counted (R446, R460). -/
def refuseProtected (s : State) : Status × State := (.isProtected, s.countStore 6)

/-- A write of the protection member (R447, R459). -/
def setProtection (value : Nat) (s : State) : Status × State :=
  let l := field 31 30 value
  let old := s.store.level.toNat
  if field 29 16 value ≠ 0 then (.badParam, s)
  else if l < old && field 15 0 value ≠ 0x554C then refuseProtected s
  else if l = old then (.ok, s)
  else (.ok, (saveDevice { s with store.level := BitVec.ofNat 2 l }).raise 0x43 [BitVec.ofNat 8 old, BitVec.ofNat 8 l])

/-! ### The billing save (R448, R449) -/

/-- The maxima of a demand state once its formed windows are counted in: the effect of every sample the state
holds (R448). -/
def Demand.settled (d : Demand) : List MaxDemand :=
  d.formed.foldl (fun ms x =>
    let w := x.2
    tab 4 (fun k => (ms.getD k {}).next (w.values.getD k 0) w.endSec w.partialFlag)) d.maxima

/-- A service entry of a billing save. -/
def serviceSave (c : Capture) (smax : List Nat) (n : Nat) : Bytes :=
  let x := c.services.getD n {}
  regCounts x.regs ++ regResidues x.regs ++ netBytes x.netP x.netQ ++
    tabBytes 4 (fun k => (x.demand.settled.getD k {}).bytes) ++ leBytes 8 (smax.getD n 0) ++
    [BitVec.ofNat 8 (c.quanta.getD n 3)] ++ zeros 3

/-- The owed count of an output for a save (R175, R177): converted pulses not begun, and the tail. An origin that
moved after the record was taken has put them all in the tail. -/
def State.saveOwed (s : State) (c : Capture) (o : Nat) : Nat :=
  let p := c.pulses.getD o {}
  let x := s.sluice.pulses.getD o {}
  let unbegun := if p.origin = (s.billing.pulses.getD o {}).origin then p.converted.toNat - x.lastBegun.toNat else 0
  min owedMax (unbegun + x.tail.length)

/-- A pulse output's 36 bytes of a billing save. -/
def State.outputSave (s : State) (c : Capture) (o : Nat) : Bytes :=
  let p := c.pulses.getD o {}
  leBytes 8 p.converted.toNat ++ leBytes 8 p.acc.count.toNat ++ leBytes 6 p.acc.res.toNat ++ zeros 2 ++
    leBytes 4 (s.saveOwed c o) ++ fit 8 (c.settings.getD o [])

/-- The body of a billing save of what `c` holds, its save point the boundary of `c` (R449). -/
def State.saveBody (s : State) (kind writer : Nat) (c : Capture) (smax : List Nat) : Bytes :=
  let ns := (List.range 16).filter (fun n => bit n c.mask)
  [BitVec.ofNat 8 kind, BitVec.ofNat 8 writer] ++ leBytes 2 s.sluice.heldClaim.toNat ++ leBytes 6 c.boundary.b ++
    leBytes 6 c.sec ++ leBytes 2 c.tick ++ leBytes 2 c.mask ++ leBytes 4 c.cfgSeq ++
    leBytes 4 s.recording.profileSeq.toNat ++
    leBytes 4 (match s.recording.segment with | some g => g.seq | none => s.recording.lastSeq) ++
    leBytes 4 s.archive.nextPin ++ zeros 4 ++
    ns.flatMap (serviceSave c smax) ++ tabBytes 8 (s.outputSave c) ++
    tabBytes 60 (fun i => ((s.sense.slices.getD (sliceOf i) {}).coef).bytes)

/-- Slot and sequence number that the next record of a ring takes (R444). -/
def Store.nextSlot (st : Store) (r : Ring) : Nat × Nat :=
  match newestSlot st.seen r with
  | none => (0, 1)
  | some (k, q, _) => ((k + 1) % r.slots, (q + 1) % 2 ^ 32)

/-- SAVE_STATE while a save of a KIND is written (R458). -/
def saveStateOf (kind : Nat) : BitVec 2 := if kind = 1 then 1 else if kind = 2 then 2 else 3

/-- The closed profile intervals that end at or before a save point are written first, so that the save states
their sequence numbers. -/
def flushProfiles (point : Nat) : Nat → State → State
  | 0, s => s
  | fuel + 1, s =>
    match s.billing.profileClosed with
    | c :: cs => if c.b ≤ point then flushProfiles point fuel (writeProfile c { s with billing.profileClosed := cs }) else s
    | [] => s

/-- A billing save is written (R448, R461). The time of its last byte counts 1.2 µs for each page, those
before it among them (R439). -/
def billingSave (kind writer : Nat) (c : Capture) (smax : List Nat) (s : State) : State :=
  let s := flushProfiles c.boundary.b s.billing.profileClosed.length s
  let body := s.saveBody kind writer c smax
  let slot := s.store.nextSlot Ring.billing
  let pages := s.store.waiting.length + (body.length + 12 + 63) / 64
  let took := s.micros - c.boundary.b * 125 / 2 + pages * 6 / 5
  let counter := if kind = 1 then 1 else 2
  let st := { s.store with
    saveState := saveStateOf kind
    lastSave := [BitVec.ofNat 8 kind, BitVec.ofNat 8 slot.1, 0, 0] ++ leBytes 4 slot.2 ++ leBytes 6 c.sec ++
      leBytes 2 c.tick ++ leBytes 4 (min took (2 ^ 32 - 1)) ++ zeros 4
    counters := if kind ≤ 2 then modAt s.store.counters counter (· + 1) else s.store.counters }
  { s with store := st.record Ring.billing body }

/-- The capture of the billing state as it stands: one past the last reckoned sample accumulated (R448). -/
def State.liveCapture (s : State) : Capture := s.captureNow { b := s.billing.stamp + 1, cycles := 0 }

/-- The saves of everything accumulated: power-down (2) and commanded (3). The pairs whose coil is being driven are
recorded as unknown with the power-down save (R181). -/
def saveLive (kind : Nat) (s : State) : State :=
  let smax := match s.store.saveOf with
    | some (_, l) => tab 16 (fun n => max (l.getD n 0) (s.store.smax.getD n 0))
    | none => s.store.smax
  billingSave kind s.engines.active s.liveCapture smax s

/-- The Warden's save of the last published latch, with the load-control states (R333 step 3). Before the first latch of
a start there is none to save: the load-control states alone are written, and the records recovered remain the newest
(DEDUCED, log entry 84). -/
def wardenSave (s : State) : State :=
  let s := if s.link.generation = 0 then s else billingSave 4 2 s.billing.latch.published s.store.smax s
  s.savePairsUnknown true

/-- PERIODIC_SAVE: the save that waited for its latch is written through the billing port; during HOLD no new
write starts (R317). -/
def periodicSave (s : State) : State :=
  match s.store.saveOf with
  | none => s
  | some (c, smax) =>
    if s.sluice.hold || s.store.closed then s
    else billingSave 1 s.engines.active c smax { s with store.saveOf := none }

/-- PERIODIC_SAVE (R448, R449). -/
def execPeriodicSave (s : State) : Outcome := edge periodicSave s

/-! ### Reading a billing save -/

/-- Services of a save's mask. -/
def saveServices (b : Bytes) : List Nat := (List.range 16).filter (fun n => bit n (getU b 18 2))

/-- The entry of a service. -/
def saveEntry (b : Bytes) (n : Nat) : Option Bytes :=
  if bit n (getU b 18 2) then
    some ((b.drop (40 + 272 * ((saveServices b).filter (· < n)).length)).take 272)
  else none

/-- The 36 bytes of a pulse output. -/
def saveOutput (b : Bytes) (o : Nat) : Bytes := (b.drop (40 + 272 * (saveServices b).length + 36 * o)).take 36

/-- The coefficients of channel instance `i`. -/
def saveCoef (b : Bytes) (i : Nat) : SliceCoef :=
  let x := b.drop (328 + 272 * (saveServices b).length + 12 * i)
  { gain := getU x 0 4, offset := toSigned 32 (getU x 4 4), delay := toSigned 32 (getU x 8 4) }

/-- Register `k` of a service entry. -/
def entryReg (e : Bytes) (k : Nat) : Acc :=
  { count := BitVec.ofNat 64 (getU e (8 * k) 8), res := BitVec.ofNat 48 (getU e (96 + 6 * k) 6) }

/-- A net register of a service entry, 0 active, 1 reactive. -/
def entryNet (e : Bytes) (k : Nat) : Acc :=
  { count := BitVec.ofNat 64 (getU e (168 + 14 * k) 8), res := BitVec.ofNat 48 (getU e (176 + 14 * k) 6) }

/-- Maximum demand `k` of a service entry. -/
def entryMax (e : Bytes) (k : Nat) : MaxDemand :=
  { value := getU e (196 + 16 * k) 8, endSec := getU e (204 + 16 * k) 6, partialFlag := bit 15 (getU e (210 + 16 * k) 2) }

/-- S_MAX of a service entry. -/
def entrySmax (e : Bytes) : Nat := getU e 260 8

/-- QUANTUM code of a service entry. -/
def entryQuantum (e : Bytes) : Nat := getU e 268 1

/-! ### Change of quantum (R139) -/

/-- A sum in 2^−48 quanta converted from one QUANTUM code to another. -/
def convertSum (old new : Nat) (x : Int) : Int :=
  if new ≤ old then x * 10 ^ (old - new) else roundEven x (10 ^ (new - old))

/-- A register converted. -/
def convertAcc (old new : Nat) (a : Acc) : Acc := if old = new then a else Acc.of (convertSum old new a.total)

/-- A net register converted. -/
def convertNet (old new : Nat) (a : Acc) : Acc := if old = new then a else Acc.of (convertSum old new a.signedTotal)

/-! ### Recovery (R453) -/

/-- What recovery found of a service: its QUANTUM code, registers, net registers, maxima and S_MAX. -/
structure FoundService where
  quantum : Nat := 3
  regs : List Acc := List.replicate 12 {}
  netP : Acc := {}
  netQ : Acc := {}
  maxima : List MaxDemand := List.replicate 4 {}
  smax : Nat := 0
  /-- what each register gained between the billing save and the mirror, 2^−48 of that save's quanta -/
  gained : List Int := List.replicate 12 0
deriving DecidableEq, Repr

/-- A service as a billing save holds it. -/
def foundInSave (e : Bytes) : FoundService :=
  { quantum := entryQuantum e, regs := tab 12 (entryReg e), netP := entryNet e 0, netQ := entryNet e 1
    maxima := tab 4 (entryMax e), smax := entrySmax e }

/-- A full count from the stored 56 bits of a profile record and an older count (R259). -/
def fullCount (h l : Nat) : Nat := h / 2 ^ 56 * 2 ^ 56 + l + (if l < h % 2 ^ 56 then 2 ^ 56 else 0)

/-- Register `k` from a profile entry, its older count given (R259, R453). -/
def mirrorReg (p : Bytes) (h : Nat) (k : Nat) : Acc :=
  { count := BitVec.ofNat 64 (fullCount h (getU p (4 + 7 * k) 7))
    res := if k < 4 then BitVec.ofNat 48 (getU p (88 + k) 1 * 2 ^ 40) else 0 }

/-- A service moved on to a newer mirror entry (R453): the older registers are first put into its quanta. -/
def FoundService.advance (f : FoundService) (p : Bytes) : FoundService :=
  let q := getU p 1 1
  let was := f.regs.map (convertAcc f.quantum q)
  let now := tab 12 (fun k => mirrorReg p (was.getD k {}).count.toNat k)
  let d := fun (k : Nat) => ((now.getD k {}).total : Int) - ((was.getD k {}).total : Int)
  { f with
    quantum := q, regs := now
    netP := Acc.of ((convertNet f.quantum q f.netP).signedTotal + d 0 + d 3 - d 1 - d 2)
    netQ := Acc.of ((convertNet f.quantum q f.netQ).signedTotal + d 4 + d 5 - d 6 - d 7)
    gained := tab 12 (fun k => convertSum q f.quantum (d k)) }

/-- What a pulse quantity sums out of gains of the twelve registers (R169). -/
def gainOf (qty : Nat) (d : Nat → Int) : Int :=
  match qty with
  | 1 => d 0 + d 3
  | 2 => d 1 + d 2
  | 3 => d 0 + d 1 + d 2 + d 3
  | 4 => d 4 + d 5
  | 5 => d 6 + d 7
  | 6 => d 8 + d 11
  | 7 => d 9 + d 10
  | _ => 0

/-- A pulse output as recovered (R175): its record, its owed count and its settings, moved on by what the summed
registers gained. -/
structure FoundOutput where
  converted : Nat := 0
  acc : Acc := {}
  owed : Nat := 0
  settings : Nat := 0
deriving DecidableEq, Repr

/-- W of a settings member with the quantum of its services (R170). -/
def weightOfSettings (w quantum : Nat) : Nat :=
  if field 47 44 w = 0 || field 36 17 w = 0 then 0 else 10 ^ (9 - quantum) / field 36 17 w

/-- An output from a billing save, moved on by the gains of its services. -/
def foundOutput (x : Bytes) (found : List (Option FoundService)) (quantumOf : Nat → Nat) : FoundOutput :=
  let w := getU x 28 8
  let svcs := (List.range 16).filter (fun n => bit (48 + n) w)
  let gain := sumBy (fun n =>
    match found.getD n none with
    | some f => gainOf (field 47 44 w) (fun k => f.gained.getD k 0)
    | none => 0) svcs
  let weight := weightOfSettings w (quantumOf (svcs.headD 0)) * 2 ^ 48
  let acc : Acc := { count := BitVec.ofNat 64 (getU x 8 8), res := BitVec.ofNat 48 (getU x 16 6) }
  let total := ((acc.total : Int) + gain).toNat
  let owed := getU x 24 4
  let more := if weight = 0 then 0 else min (total / weight) (owedMax - owed)
  { converted := getU x 0 8 + more, acc := Acc.of ((total - more * weight : Nat) : Int), owed := owed + more, settings := w }

/-- A service takes what recovery found, in the quanta of the configuration in force (R453, R556). -/
def Service.recovered (quantum : Nat) (f : FoundService) (sv : Service) : Service :=
  { sv with
    regs := f.regs.map (convertAcc f.quantum quantum)
    netP := convertNet f.quantum quantum f.netP
    netQ := convertNet f.quantum quantum f.netQ
    demand := { sv.demand with maxima := f.maxima } }

/-- The fields of a pulse output's settings that name its origin (R177): SERVICES, QUANTITY and CONSTANT. -/
def originKey (w : Nat) : Nat × Nat := (field 63 44 w, field 36 17 w)

/-- A pulse output of the engine and of the sluice as recovered (R175, R176): every owed pulse is due. Where more
are owed than were converted since the origin, the rest is the tail. -/
def recoverOutput (o : Nat) (f : FoundOutput) (s : State) : State :=
  let k := min f.owed f.converted
  let begun := BitVec.ofNat 64 (f.converted - k)
  let s := s.modEnginePulse o (fun x =>
    { x with acc := f.acc, converted := BitVec.ofNat 64 f.converted, due := List.replicate k 0 })
  s.modPulse o (fun x => { x with lastBegun := begun, emitted := begun, tail := List.replicate (f.owed - k) 0 })

/-- The outputs whose origin moves at this start (R177): their settings or the quantum of a service in their mask
differ from those recorded. -/
def movedOutputs (v : View) (outs : List FoundOutput) (found : List (Option FoundService)) : List Nat :=
  (List.range 8).filter (fun o =>
    let w := (outs.getD o {}).settings
    originKey w != originKey (v.po o) ||
      (List.range 16).any (fun n => bit (48 + n) w &&
        (match found.getD n none with
         | some f => f.quantum != v.svcQuantum n
         | none => false)))

/-- Recovery of the billing state at a start, the configuration in force being chosen (R453). Without a valid billing save
every slice is measured, as a cold start measures them (R112, R536). -/
def recoverBilling (s : State) : State :=
  let s := countRing Ring.mirror (countRing Ring.billing s)
  let m := s.store.seen
  let v := s.view
  let save := (newestSlot m Ring.billing).map (·.2.2)
  let mirror := (newestSlot m Ring.mirror).map (·.2.2)
  let newer : Option Bytes := match save, mirror with
    | some b, some p => if serialNewer (getU p 4 4) (getU b 24 4) then some p else none
    | none, p => p
    | _, none => none
  let base := tab 16 (fun n => (save.bind (fun b => saveEntry b n)).map foundInSave)
  let found := tab 16 (fun n =>
    match newer.bind (fun p => profileOf p n) with
    | some e => some (((base.getD n none).getD { quantum := getU e 1 1 }).advance e)
    | none => base.getD n none)
  let services := tab 16 (fun n =>
    match found.getD n none with
    | some f => (s.billing.services.getD n {}).recovered (v.svcQuantum n) f
    | none => s.billing.services.getD n {})
  let smax := tab 16 (fun n => ((base.getD n none).getD {}).smax)
  let s := { s with
    billing := { s.billing with services := services }
    store.smax := smax
    start.recovered := save.isSome || newer.isSome
    recording.profileSeq := BitVec.ofNat 32 (match newer, save with
      | some p, _ => getU p 4 4
      | none, some b => getU b 24 4
      | none, none => 0) }
  let s := match newer with
    | some p => { s with store.source := 5, start.resumeSec := getU p 16 6, start.resumeTick := 0 }
    | none =>
      match save with
      | some b => { s with store.source := BitVec.ofNat 3 (getU b 0 1), start.resumeSec := getU b 10 6
                           start.resumeTick := getU b 16 2 }
      | none => { s with store.source := 0 }
  match save with
  | none =>
    let s := if s.start.kind = .cold then s else { s with sense.slices := measureAll (s.sense.strobe + 1) s.sense.slices }
    if newer.isNone && s.start.startCount ≠ 0 then s.raise 0x41 [] else s
  | some b =>
    let outs := tab 8 (fun o =>
      foundOutput (saveOutput b o) found (fun n => ((base.getD n none).getD {}).quantum))
    let s := (List.range 8).foldl (fun s o => recoverOutput o (outs.getD o {}) s) s
    let s := (List.range 60).foldl (fun s i => s.modSlice (sliceOf i) (fun x => { x with coef := saveCoef b i })) s
    { s with
      start.originMoves := movedOutputs v outs base
      recording.lastSeq := getU b 28 4
      archive.nextPin := getU b 32 4 }

/-- The profile interval that the start goes on with began before it (R256): its start, in seconds. -/
def State.cutInterval (s : State) : Nat :=
  (s.cutTime.getD (s.start.resumeSec * tps + s.start.resumeTick)) / tps / s.view.profile * s.view.profile

/-- The interval of the profile that power cut short (R256): it goes on with PARTIAL, START and CUT when the start
falls in it; otherwise its record is closed now, with its aligned end. -/
def resumeProfile (s : State) : State :=
  let v := s.view
  let len := v.profile
  let now := s.sec / len * len
  let inCut := s.cutInterval
  let power := s.start.mainLost || s.store.source == 2 || s.start.cause == 0
  let flags := 1 + 4 + 8 * flag (power && inCut == now)
  let s := if s.start.recovered && inCut < now && !s.held 2 then
      let s := closeProfile (2 ^ 48 - 1) ((inCut + len) * tps) 9 0 { s with billing.profileStart := inCut }
      { s with billing.profileClosed := s.billing.profileClosed.map (fun (c : ProfileClose) =>
          ({ c with flags := 9 } : ProfileClose)) }
    else s
  let first := flushProfiles (2 ^ 48) s.billing.profileClosed.length s
  { first with billing.profileStart := now, billing.profileEnd := some (v.profileEndAfter s.ticks)
               billing.profileFlags := if s.start.recovered && inCut == now then flags else 5 }

/-! ### The energy gap (R454, R461) -/

/-- The rated apparent power of a service in µVA: 9/32 of the product of its scales, element by element. -/
def View.ratedApparent (v : View) (n : Nat) : Nat :=
  ((v.elements n).map (fun e => v.vfs n e * v.ifs n e * 9 / 32)).foldl (· + ·) 0

/-- The bound of a service in µWh over a gap in ticks. -/
def serviceBound (smax gap : Nat) : Nat := (roundEven ((smax * gap : Nat) : Int) (tps * 3600)).toNat

/-- At the first reckoned sample, at chronicle tick `first`, the energy not registered since the resume point is
bounded and logged (R454). -/
def energyGap (first : Nat) (s : State) : State :=
  if !s.start.recovered then s else
  let resume := s.start.resumeSec * tps + s.start.resumeTick
  let release := s.start.releaseSec * tps + s.start.releaseTick
  let cut := s.cutTime
  let unbounded := s.start.porAtStart || s.start.oscStoppedAtStart || decide (first ≤ resume) ||
    (s.start.mainLost && cut.isNone)
  let gap := match cut with
    | some c => (c - resume) + (first - release)
    | none => first - resume
  let bounds := tab 16 (fun n =>
    if s.view.svcOn n then
      serviceBound (if s.store.source = 5 && (newestSlot s.store.seen Ring.billing).isNone then s.view.ratedApparent n
        else s.store.smax.getD n 0) gap
    else 0)
  let mask := ((List.range 16).map (fun n => flag (bounds.getD n 0 != 0) * 2 ^ n)).foldl (· + ·) 0
  let total := if unbounded then 2 ^ 64 - 1 else bounds.foldl (· + ·) 0
  let member := [BitVec.ofNat 8 s.store.source.toNat, BitVec.ofNat 8 (flag unbounded + 2 * flag cut.isNone)] ++
    leBytes 2 (if unbounded then 0 else mask) ++ timeBytes resume ++ timeBytes (cut.getD 0) ++ timeBytes first ++
    leBytes 4 (if unbounded then 2 ^ 32 - 1 else min (gap * 1000 / tps) (2 ^ 32 - 1)) ++ leBytes 8 total ++ zeros 8
  { s with store.unbounded := unbounded, store.lastRecovery := member }.raise 0x42 (timeBytes resume ++ timeBytes first)

/-! ### Scrub and commits -/

/-- STORE_COMMIT_DONE: the page in the buffer is in the array; a save ends with its last page. -/
def storeCommitDone (s : State) : State :=
  let st := s.store.commitDone
  { s with store := { st with saveState := if st.waiting.isEmpty then 0 else st.saveState } }

/-- STORE_COMMIT_DONE (R439). -/
def execStoreCommitDone (s : State) : Outcome := edge storeCommitDone s

/-- SCRUB_PAGE: the next page is read twice; weak bytes make it be written again (R455). -/
def scrubPage (weak : Nat) (s : State) : State :=
  if !s.start.wardenReady || s.store.closed then s else
  let p := s.store.scrubPage.toNat
  let st := if weak = 0 then s.store else
    { s.store.put (p * pageSize) (s.store.seen.reads (p * pageSize) pageSize) with
      counters := modAt s.store.counters 3 (· + BitVec.ofNat 32 (min weak pageSize)) }
  { s with store := { st with
      scrubPage := s.store.scrubPage + 1
      passes := if p = 8191 then st.passes + 1 else st.passes } }

/-- SCRUB_PAGE (R455). -/
def execScrubPage (weak : Nat) (s : State) : Outcome := edge (scrubPage weak) s

/-! ### Reads (R457–R461) -/

/-- Reads of class 8 but for the settings. -/
def State.readStore (s : State) (m : Nat) : Bytes :=
  let t := s.store
  match m with
  | 0 => leBytes 8 (t.level.toNat * 2 ^ 62 + t.saveState.toNat * 2 ^ 60 + t.source.toNat * 2 ^ 57 +
      flag t.unbounded * 2 ^ 56 + t.scrubPage.toNat * 2 ^ 32 + t.passes.toNat * 2 ^ 16)
  | 2 => leBytes 4 (t.level.toNat * 2 ^ 30)
  | 3 => tabBytes 8 (fun k => leBytes 4 (t.counters.getD k 0).toNat)
  | 4 => fit 24 t.lastSave
  | 5 => fit 48 t.lastRecovery
  | _ => []

end Sys2Proof.Machine
end

