-- ==== Sys2Proof/Machine/Engines.lean ====
section
/-! DEFINITION. Engines.lean: heartbeats and verdicts, claims, digests, checkpoints, self-tests and rejoining
(chapter "Twin engines and the sluice"). What a takeover does to billing when it ends stands in Takeover.lean. -/

namespace Sys2Proof.Machine
open Sys2Proof

/-! ### Engines -/

/-- An engine. -/
def State.engine (s : State) (e : Nat) : Engine := s.engines.engines.getD e {}

/-- The other engine. -/
def otherEngine (e : Nat) : Nat := 1 - e

/-- The partner. -/
def State.partner (s : State) : Nat := otherEngine s.engines.active

/-- An engine is in service (R306). -/
def State.inService (s : State) (e : Nat) : Bool :=
  match (s.engine e).role with
  | .active => true
  | .lockstep | .standby => s.engines.partnerOk
  | .resync | .arbitration | .selftest | .retired | .notStarted => false

/-- The heartbeat monitor takes beats of an engine (R310), once the start has placed it. -/
def State.beats (s : State) (e : Nat) : Bool :=
  e < 2 && s.awake &&
    match (s.engine e).role with
    | .selftest | .retired | .notStarted => false
    | .active | .lockstep | .standby | .resync | .arbitration => true

/-- The monitor watches an engine: one that resynchronises, from its first beat on (R310). -/
def State.isWatched (s : State) (e : Nat) : Bool := s.beats e && ((s.engine e).beatF.isSome || (s.engine e).beatW.isSome)

/-- The silence of a path in µs: the time since its last valid beat (R308), as the heartbeat member holds it (R341). -/
def State.silence (s : State) (beat : Option Nat) : Nat :=
  match beat with
  | some b => min (s.micros - b) (2 ^ 32 - 1)
  | none => 0

/-- The silences of an engine for which the monitor declares a verdict (R309): both paths for 3 ms, one for 10 ms, or for
3 ms the one that is left. -/
def State.drawsVerdict (s : State) (e : Nat) : Bool :=
  let x := s.engine e
  let f := s.silence x.beatF
  let w := s.silence x.beatW
  (3000 ≤ f && 3000 ≤ w) || (x.fFault && !x.wFault && 3000 ≤ w) || (x.wFault && !x.fFault && 3000 ≤ f) ||
    (!x.fFault && !x.wFault && (10000 ≤ f || 10000 ≤ w))

/-- The present silences count as far as the longest ones of paths in service go (R341). -/
def State.noteSilence (e : Nat) (s : State) : State :=
  s.modEngine e (fun x =>
    { x with
      longestF := if x.fFault then x.longestF else max x.longestF (s.silence x.beatF)
      longestW := if x.wFault then x.longestW else max x.longestW (s.silence x.beatW) })

/-- An engine begins to resynchronise (R336) with what it holds of billing void. -/
def startResync (e : Nat) (s : State) : State :=
  { s.modEngine e (fun x => { x with role := .resync }) with
    engines.partnerOk := false, engines.resync := none, engines.joining := false, engines.mirror := none }

/-- An engine whose self-test has ended begins to resynchronise: it is watched from its first beat on (R310, R336). -/
def rejoin (e : Nat) (s : State) : State :=
  startResync e ((s.noteSilence e).modEngine e (fun x => { x with intake := none, beatF := none, beatW := none }))

/-- A counter of an engine rises (R341). -/
def Engine.count (k : Nat) (x : Engine) : Engine := { x with counters := modAt x.counters k (· + 1) }

/-! ### Claims (R312–R315) -/

/-- The claim that follows the held claim, for an ID; none where it would need EPOCH 32,768 (R331). -/
def nextClaim (held : BitVec 16) (id : Nat) : Option (BitVec 16) :=
  let epoch := held.toNat / 2 + 1
  if epoch ≤ 32767 then some (BitVec.ofNat 16 (epoch * 2 + id)) else none

/-- A claim is presented to the sluice (R313): accepted when it exceeds the held claim. Writes that wait under the former
claim are not kept. -/
def presentClaim (c : BitVec 16) (s : State) : State :=
  if s.sluice.heldClaim < c then
    { s with sluice.heldClaim := c, sluice.acceptedSec := s.sec, sluice.acceptedTick := s.backup.tick.toNat, sluice.writes := [] }
  else s

/-- An engine presents a claim of its own. -/
def engineClaims (e : Nat) (c : BitVec 16) (s : State) : State :=
  presentClaim c (s.modEngine e (fun x => { x with claim := c, read := none }))

/-! ### Heartbeats (R308, R341) -/

/-- Beats within 3 ms of the acceptance withdraw the verdict against the winner of a race of claims (R330). -/
def withdrawVerdict (e : Nat) (s : State) : State :=
  let x := s.engine e
  match s.engines.takeover with
  | some t =>
    if x.verdict && (s.engine (otherEngine e)).verdict && t.survivor = e && x.claim = s.sluice.heldClaim &&
        t.stage != .verdict && s.micros ≤ t.accepted + 3000 then
      (s.modEngine e (fun x => { x with verdict := false })).raise 0x38 (leBytes 2 s.sluice.heldClaim.toNat)
    else s
  | none => s

/-- A path-F beat is valid: its intake count is newer than that of the last valid beat (R308). -/
def intakeNewer (prev : Option (BitVec 32)) (new : BitVec 32) : Bool :=
  match prev with
  | none => true
  | some p => serialNewer new.toNat p.toNat

/-- The longest time in µs between two valid beats that does not break their run: two periods of the path (R308, R309). A
DESIGN CHOICE, log entry 172. -/
def beatGap (path : Nat) : Nat := if path = 0 then 2000 else 1000

/-- A valid beat of an engine on a path, 0 F or 1 W, ends the silence of the path (R308). The silence of the other path of
an engine not watched before begins with it (R310). -/
def hearBeat (e path : Nat) (s : State) : State :=
  let now := s.micros
  let since := fun (beat : Option Nat) (from_ : Nat) => if beat.isSome && s.silence beat ≤ beatGap path then from_ else now
  withdrawVerdict e ((s.noteSilence e).modEngine e (fun x =>
    if path = 0 then { x with beatF := some now, sinceF := since x.beatF x.sinceF, beatW := x.beatW.orElse (fun _ => some now) }
    else { x with beatW := some now, sinceW := since x.beatW x.sinceW, beatF := x.beatF.orElse (fun _ => some now) }))

/-- HEARTBEAT_F: a valid beat is heard; a beat that is not valid leaves the path silent. -/
def heartbeatF (e : Nat) (intake : BitVec 32) (s : State) : State :=
  if s.beats e && intakeNewer (s.engine e).intake intake then
    hearBeat e 0 (s.modEngine e (fun x => { x with intake := some intake }))
  else s

/-- HEARTBEAT_F (R308, R341). -/
def execHeartbeatF (engine : Nat) (intake : BitVec 32) (s : State) : Outcome := edge (heartbeatF engine intake) s

/-- HEARTBEAT_W: each edge is one beat. -/
def heartbeatW (e : Nat) (s : State) : State := if s.beats e then hearBeat e 1 s else s

/-- HEARTBEAT_W (R308, R341). -/
def execHeartbeatW (engine : Nat) (s : State) : Outcome := edge (heartbeatW engine) s

/-! ### Verdicts (R309, R311, R314, R316, R326, R330) -/

/-- A checkpoint is valid at a verdict (R326). -/
def State.checkpointOk (s : State) (r : StateRecord) : Bool :=
  r.crcOk && r.kind = 1 && r.cfgSeq = s.start.config.seq.toNat && r.claim = s.sluice.heldClaim &&
    (match s.engines.ring.getLast? with
     | some f => decide (f.strobe + 1223 ≤ r.resume)
     | none => false)

/-- The checkpoint that a survivor uses (R326): the valid one with the higher sequence number. -/
def State.bestCheckpoint (s : State) : Option StateRecord :=
  s.engines.buffers.foldl (fun best b =>
    match b with
    | none => best
    | some r =>
      if !s.checkpointOk r then best else
      match best with
      | none => some r
      | some q => if serialNewer r.seq.toNat q.seq.toNat then some r else some q) none

/-- SOURCE of R342, mirror, checkpoint or the published latch, and the checkpoint chosen (R326, R328). -/
def State.takeoverSource (s : State) : Nat × Option StateRecord :=
  if !s.engines.split then (0, none)
  else
    match s.bestCheckpoint with
    | some r => (1, some r)
    | none => (2, none)

/-- The claim that the engine receiving a verdict will present; 0 when it is not in service or has none left. -/
def State.claimToCome (s : State) (e : Nat) : Nat :=
  if s.inService e then ((nextClaim s.sluice.heldClaim e).getD 0).toNat else 0

/-- An engine is put under self-test: it leaves service. -/
def underTest (e : Nat) (s : State) : State :=
  let s := s.modEngine e (fun x => { x with role := .selftest, read := none })
  if e = s.engines.active then s
  else { s with engines.partnerOk := false, engines.digests := none, engines.arbitration := none, engines.mirror := none
                engines.joining := false }

/-- An engine that runs is put under self-test; one that is under test or out of service stays so. -/
def standDown (e : Nat) (s : State) : State :=
  match (s.engine e).role with
  | .selftest | .retired | .notStarted => s
  | .active | .lockstep | .standby | .resync | .arbitration => underTest e s

/-- A takeover begins: the sluice enters HOLD at once (R316), and the survivor's source is chosen (R326). -/
def beginTakeover (survivor cause source : Nat) (record : Option StateRecord) (s : State) : State :=
  { s.enterHold with
    engines.takeover := some { survivor := survivor, cause := cause, sec := s.sec, tick := s.backup.tick.toNat, at_ := s.micros
                               split := s.engines.split, source := source, record := record } }.setIrq .takeover

/-- An engine is named as failed (R309, R518, R524); `both` tells the verdict of two silent paths from the others. The other
one, in service, reads the held claim to present its own (R314). A verdict that meets one against the other engine makes the
takeover's cause mutual verdicts (R330, R342). -/
def declareFailed (e : Nat) (both : Bool) (s : State) : State :=
  if !s.isWatched e || (s.engine e).verdict then s else
  let o := otherEngine e
  let meets := (s.engine o).verdict
  let cause := if meets then 4 else if both then 1 else 2
  let s := s.raise 0x30 ([BitVec.ofNat 8 e, BitVec.ofNat 8 cause] ++ leBytes 2 (s.claimToCome o))
  let may := s.inService o
  let held := s.sluice.heldClaim
  let s := s.modEngine e (fun x => { x.count 1 with verdict := true, verdictAt := s.micros })
  let s := if may then s.modEngine o (fun x => { x with read := some held }) else s
  let s := if s.engines.split && !s.xa.suspended then suspendXa s else s
  match s.engines.takeover with
  | some t => if meets then { s with engines.takeover := some { t with cause := cause } } else s
  | none => if e = s.engines.active then beginTakeover o cause s.takeoverSource.1 s.takeoverSource.2 s else s

/-- VERDICT: the monitor names an engine as failed, for its silence and its still read pointer. -/
def verdict (e : Nat) (s : State) : State :=
  if s.drawsVerdict e then
    declareFailed e (3000 ≤ s.silence (s.engine e).beatF && 3000 ≤ s.silence (s.engine e).beatW) s
  else s

/-- VERDICT (R309, R311, R316). -/
def execVerdict (engine : Nat) (s : State) : Outcome := edge (verdict engine) s

/-- One path of an engine is declared faulty. -/
def faultPath (e path : Nat) (s : State) : State :=
  let x := s.engine e
  if (if path = 0 then x.fFault else x.wFault) then s
  else
    ((s.noteSilence e).modEngine e (fun x =>
      if path = 0 then { x.count 2 with fFault := true } else { x.count 3 with wFault := true })).raise 0x33
      [BitVec.ofNat 8 e, BitVec.ofNat 8 path]

/-- PATH_FAULT: one path silent for 10 ms while the other beats, or both for 3 ms with WATCH_LOST, the read pointer advancing
meanwhile. -/
def pathFault (e path : Nat) (s : State) : State :=
  let x := s.engine e
  let f := s.silence x.beatF
  let w := s.silence x.beatW
  if !s.isWatched e then s
  else if path = 2 then
    if 3000 ≤ f && 3000 ≤ w then (((faultPath e 1 (faultPath e 0 s))).raise 0x35 [BitVec.ofNat 8 e]).setIrq .takeover else s
  else if !x.fFault && !x.wFault && ((path = 0 && 10000 ≤ f && w < 3000) || (path = 1 && 10000 ≤ w && f < 3000)) then
    (faultPath e path s).setIrq .takeover
  else s

/-- PATH_FAULT (R309). -/
def execPathFault (engine path : Nat) (s : State) : Outcome := edge (pathFault engine path) s

/-- A faulty path has given valid beats without a break for 100 ms (R309). -/
def State.pathSound (s : State) (e path : Nat) : Bool :=
  let x := s.engine e
  let beat := if path = 0 then x.beatF else x.beatW
  (if path = 0 then x.fFault else x.wFault) && s.isWatched e && s.silence beat ≤ beatGap path &&
    decide ((if path = 0 then x.sinceF else x.sinceW) + 100000 ≤ s.micros)

/-- One faulty path returns to service. -/
def restorePath (e path : Nat) (s : State) : State :=
  if s.pathSound e path then
    (s.modEngine e (fun x => if path = 0 then { x with fFault := false } else { x with wFault := false })).raise 0x34
      [BitVec.ofNat 8 e, BitVec.ofNat 8 path]
  else s

/-- PATH_RESTORED: after 100 ms of unbroken valid beats; 2 names both paths. -/
def pathRestored (e path : Nat) (s : State) : State :=
  if e < 2 then
    if path = 2 then restorePath e 1 (restorePath e 0 s) else if path < 2 then restorePath e path s else s
  else s

/-- PATH_RESTORED (R309). -/
def execPathRestored (engine path : Nat) (s : State) : Outcome := edge (pathRestored engine path) s

/-! ### Claims on a verdict -/

/-- CLAIM_PRESENT: at a start the active engine presents EPOCH 1; later an engine presents one claim for a verdict against
the other, or for the arbitration it won, formed from the held claim that it read on it. One that is refused has lost
(R315). The holder's own claim is a renewal (R332). -/
def claimPresent (e : Nat) (s : State) : State :=
  if 2 ≤ e || !s.awake then s
  else if s.sluice.heldClaim = 0 then
    if (s.engine e).role == .active then engineClaims e (BitVec.ofNat 16 (2 + e)) s else s
  else if s.sluice.wardenHolds then s
  else
    match (s.engine e).read with
    | none => s
    | some held =>
      match nextClaim held e with
      | none => s.modEngine e (fun x => { x with read := none })
      | some c =>
        let lost := c ≤ s.sluice.heldClaim
        let s := engineClaims e c s
        if lost then standDown e s
        else
          let s := if e = s.engines.active then s.modEngine e (fun x => x.count 7) else s
          match s.engines.takeover with
          | none => s
          | some t => { s with engines.takeover := some { t with survivor := e, stage := .settling, accepted := s.micros } }

/-- CLAIM_PRESENT (R313, R314, R332). -/
def execClaimPresent (engine : Nat) (s : State) : Outcome := edge (claimPresent engine) s

/-- CLAIM_SETTLE_END: the held claim is still the engine's own, or it stands down (R315). Once a renewal is confirmed, the
partner under the verdict is tested (R311). -/
def claimSettleEnd (e : Nat) (s : State) : State :=
  if 2 ≤ e then s else
  let c := (s.engine e).claim
  if c = 0 then s
  else if c < s.sluice.heldClaim then
    match s.engines.takeover with
    | some _ => standDown e s
    | none => s
  else
    match s.engines.takeover with
    | some t =>
      if t.survivor = e && t.stage == .settling then { s with engines.takeover := some { t with stage := .holding } } else s
    | none =>
      if e = s.engines.active && (s.engine (otherEngine e)).verdict then standDown (otherEngine e) s else s

/-- CLAIM_SETTLE_END (R315). -/
def execClaimSettleEnd (engine : Nat) (s : State) : Outcome := edge (claimSettleEnd engine) s

/-- The Warden takes charge (R330, R331, R333): no claim is confirmed within 5 ms of a verdict, the survivor of a takeover is
under a verdict that no beat has withdrawn within 3 ms of its claim's acceptance, or no further claim exists. -/
def State.wardenDue (s : State) : Bool :=
  let spent := (nextClaim s.sluice.heldClaim 0).isNone
  match s.engines.takeover with
  | some t =>
    spent || (t.stage != .holding && t.at_ + 5000 ≤ s.micros) ||
      (t.stage != .verdict && (s.engine t.survivor).verdict && (t.cause ≠ 4 || t.accepted + 3000 < s.micros))
  | none =>
    (List.range 2).any (fun e => (s.engine e).verdict &&
      (spent || ((s.engine (otherEngine e)).read.isSome && (s.engine e).verdictAt + 5000 ≤ s.micros)))

/-- WARDEN_TAKES_CHARGE: ENGINES_LOST is raised, and the Warden's claim is presented (R333). Its save and the warm
start follow when the entry is committed (R499). -/
def wardenTakesCharge (s : State) : State :=
  if !s.wardenDue || s.sluice.wardenHolds then s else
  let s := s.raise 0x32 (leBytes 2 s.sluice.heldClaim.toNat)
  let s := { s with engines.engines := s.engines.engines.map (fun (x : Engine) => ({ x with read := none } : Engine)) }
  let s := match nextClaim s.sluice.heldClaim 0 with
    | some c => presentClaim c s
    | none => s
  { s.enterHold with sluice.wardenHolds := true }

/-- WARDEN_TAKES_CHARGE (R333). -/
def execWardenTakesCharge (s : State) : Outcome := edge wardenTakesCharge s

/-! ### Mirror mode: digests and arbitration (R320–R322) -/

/-- The digest of block `k` of a billing state at the end of the block (R320). -/
def Billing.digest (v : View) (k : Nat) (b : Billing) : BitVec 64 :=
  let bs := leBytes 6 (64 * k) ++
    ((List.range 16).filter v.svcOn).flatMap (fun n =>
      let x := b.services.getD n {}
      regCounts x.regs ++ regResidues x.regs ++ (if v.svcNetting n then netBytes x.netP x.netQ else [])) ++
    ((List.range 8).filter (fun o => v.poQty o != 0)).flatMap (fun o =>
      let p := b.pulses.getD o {}
      leBytes 8 p.converted.toNat ++ leBytes 8 p.acc.count.toNat ++ leBytes 6 p.acc.res.toNat)
  BitVec.ofNat 64 (crc32 bs * 2 ^ 32 + crc32c bs)

/-- The billing state that an engine holds (R319). -/
def State.ownBilling (s : State) (e : Nat) : Billing :=
  if e = s.engines.active then s.billing else s.engines.mirror.getD s.billing

/-- A writer writes a state record of a billing state with resume point `c`, under the next number of its kind (R324). -/
def State.writeRecord (kind writer c : Nat) (crcOk : Bool) (body : Billing) (pairs : List RelayPair) (s : State) :
    StateRecord × State :=
  let k := 4 * writer + kind
  let n := s.engines.sequences.getD k 0
  ({ seq := n, kind := kind, writer := writer, claim := s.sluice.heldClaim, resume := c, cfgSeq := s.start.config.seq.toNat
     generation := s.link.generation, crcOk := crcOk, body := body, pairs := pairs },
   { s with engines.sequences := modAt s.engines.sequences k (fun _ => n + 1) })

/-- A state record as it stands in SRAM (R324). The spec gives the sections of the body and not their bytes: those are a free
value, at most 32,736 of them. A record that did not arrive whole has another check. -/
def StateRecord.bytes (r : StateRecord) : Bytes :=
  let body := (Config.recordBody r.writer r.kind r.seq.toNat).take 32736
  let head := leBytes 4 r.seq.toNat ++ [BitVec.ofNat 8 r.kind, BitVec.ofNat 8 r.writer] ++ leBytes 2 r.claim.toNat ++
    leBytes 6 r.resume ++ zeros 2 ++ leBytes 4 r.cfgSeq ++ leBytes 4 r.generation.toNat ++ leBytes 4 body.length ++ zeros 4
  head ++ body ++ leBytes 4 (crc32 (head ++ body) + flag (!r.crcOk))

/-- An engine keeps the agreed record of a block in its SRAM (R320). -/
def agreeRecord (e : Nat) (x : BlockEnd) (s : State) : State :=
  let r := s.writeRecord 2 e (64 * x.block + 64) true (if e = 0 then x.body0 else x.body1) s.sluice.pairs
  { r.2 with engines.agreed := modAt r.2.engines.agreed e (fun _ => some r.1) }

/-- Both digests of a block have arrived (R321). -/
def compareDigests (x : BlockEnd) (d0 d1 : BitVec 64) (s : State) : State :=
  let s := { s with engines.digests := none }
  if d0 = d1 then agreeRecord 1 x (agreeRecord 0 x s)
  else
    let entry := s.nextEntry
    let s := s.raise 0x36 (leBytes 8 d0.toNat ++ leBytes 8 d1.toNat)
    let s := (s.modEngine 0 (fun x => x.count 4)).modEngine 1 (fun x => x.count 4)
    { s.modEngine s.partner (fun x => { x with role := .arbitration }) with
      engines.partnerOk := false
      engines.arbitration := some
        { block := x.block, entry := entry, own := if s.partner = 0 then x.digest0 else x.digest1, digest0 := d0, digest1 := d1 } }

/-- Engines in lockstep form and compare block digests. -/
def State.inLockstep (s : State) : Bool :=
  !s.engines.split && (s.engine s.partner).role == .lockstep && s.engines.takeover.isNone

/-- The partner that has caught up joins lockstep at a block boundary (R336). -/
def joinLockstep (s : State) : State :=
  if s.engines.joining && !s.engines.split && s.engines.takeover.isNone && (s.engine s.partner).role == .resync then
    { s.modEngine s.partner (fun x => { x with role := .lockstep }) with
      engines.partnerOk := true, engines.joining := false, engines.resync := none }
  else s

/-- The sample stamped `a` has been accumulated: the last one of a block gives the digests of both engines (R320). -/
def noteBlock (a : Nat) (s : State) : State :=
  if a % 64 ≠ 63 then s
  else
    let s := joinLockstep s
    if s.inLockstep then
      let v := s.view
      let b0 := s.ownBilling 0
      let b1 := s.ownBilling 1
      { s with engines.blocks := (({ block := a / 64, digest0 := b0.digest v (a / 64), digest1 := b1.digest v (a / 64)
                                     body0 := b0, body1 := b1 } : BlockEnd) :: s.engines.blocks).take 2 }
    else s

/-- A billing state in which an engine has erred: registers, residues and pulse accumulators are free values from the `n`-th
on, 512 at most (DESIGN CHOICE, log entry 198). -/
def Billing.erred (n : Nat) (b : Billing) : Billing :=
  let acc := fun (k : Nat) => Acc.of (Config.freeValue (n + k) % 2 ^ 112 : Nat)
  { b with
    services := b.services.zipIdx.map (fun x =>
      let k := 14 * x.2
      ({ x.1 with regs := tab 12 (fun i => acc (k + i)), netP := acc (k + 12), netQ := acc (k + 13) } : Service))
    pulses := b.pulses.zipIdx.map (fun x => ({ x.1 with acc := acc (224 + x.2) } : PulseEngine)) }

/-- The converted pulses that the sluice has not begun, its record being `begun` (R319). -/
def PulseEngine.unbegun (begun : Nat) (x : PulseEngine) : PulseEngine :=
  { x with due := x.due.drop (begun - (x.converted.toNat - x.due.length)) }

/-- A billing state of an engine beside the active engine's at the same sample: line cycles, ends of sub-intervals and the
count towards N are common to both, and what the active engine has handed over, latches, profile intervals, demand windows
and pulses, the other does not keep (R319, R327). -/
def State.following (s : State) (b : Billing) : Billing :=
  let live := s.billing
  { b with
    buses := live.buses, trackers := live.trackers, subEnds := live.subEnds
    latch := { live.latch with
      captured := b.latch.captured.filter (fun c => live.latch.captured.any (fun d => d.boundary.b == c.boundary.b))
      gapUntil := b.latch.gapUntil }
    profileClosed := b.profileClosed.filter (fun c => live.profileClosed.any (fun d => d.b == c.b))
    services := b.services.zipIdx.map (fun x =>
      let d := (live.services.getD x.2 {}).demand
      ({ x.1 with demand := { x.1.demand with
          formed := x.1.demand.formed.filter (fun w => d.formed.any (fun u => u.1 == w.1))
          last := d.last, maxima := d.maxima, inRun := d.inRun } } : Service))
    pulses := b.pulses.zipIdx.map (fun x =>
      let y := live.pulses.getD x.2 {}
      ({ x.1.unbegun (s.sluice.pulses.getD x.2 {}).lastBegun.toNat with
          lagSeen := y.lagSeen, lateness := y.lateness, origin := y.origin } : PulseEngine)) }

/-- An engine has erred: its own billing state departs from the other's. -/
def errEngine (e : Nat) (s : State) : State :=
  let own := (s.ownBilling e).erred s.free
  let other := s.ownBilling (otherEngine e)
  { s with
    free := s.free + 512
    billing := if e = s.engines.active then own else other
    engines.mirror := some (if e = s.engines.active then other else own) }

/-- BLOCK_DIGEST: an engine's digest of a block is that of its state at the block's end, but for the bits in which the engine
has erred since the last one. They are compared when the second of a block arrives. -/
def blockDigestArrives (e block : Nat) (flips : BitVec 64) (s : State) : State :=
  match s.engines.blocks.find? (fun x => x.block == block) with
  | none => s
  | some x =>
  if 2 ≤ e || !s.inLockstep then s else
  let digest := (if e = 0 then x.digest0 else x.digest1) ^^^ flips
  let s := if flips = 0 then s else errEngine e s
  let have_ : Option (BitVec 64) × Option (BitVec 64) := match s.engines.digests with
    | some (b, a, c) => if b = block then (a, c) else (none, none)
    | none => (none, none)
  let now := if e = 0 then (some digest, have_.2) else (have_.1, some digest)
  match now with
  | (some a, some b) => compareDigests x a b s
  | (a, b) => { s with engines.digests := some (block, a, b) }

/-- BLOCK_DIGEST (R320, R321). -/
def execBlockDigest (engine block : Nat) (flips : BitVec 64) (s : State) : Outcome :=
  edge (blockDigestArrives engine block flips) s

/-- DIGEST_LATE: the second digest has not followed within 4 ms; it is logged and counted, and nothing else. -/
def digestLate (s : State) : State :=
  match s.engines.digests with
  | some (_, a, _) =>
    let late := if a.isSome then 1 else 0
    ({ s with engines.digests := none }.modEngine late (fun x => x.count 5)).raise 0x37 [BitVec.ofNat 8 late]
  | none => s

/-- DIGEST_LATE (R321). -/
def execDigestLate (s : State) : Outcome := edge digestLate s

/-- An engine is retired (R334): it is remembered in the device state record. -/
def retireEngine (e : Nat) (s : State) : State :=
  let s := s.modEngine e (fun x => { x with role := .retired, retired := true, hostTest := false, read := none })
  let s := if e = s.engines.active then s else { s with engines.partnerOk := false, engines.mirror := none }
  saveDevice (s.raise 0x31 [BitVec.ofNat 8 e])

/-- An engine begins to resynchronise after a pass (R336), the event logged as transient and counted. -/
def resyncEngine (e duration : Nat) (s : State) : State :=
  (rejoin e (s.modEngine e (fun x => { x.count 6 with verdict := false }))).raise 0x3A
    (BitVec.ofNat 8 e :: leBytes 4 (resultWord 0 2 duration))

/-! ### Split mode: checkpoints (R324–R326) -/

/-- The samples below strobe `c` have been accumulated: at a line-cycle boundary of the pacing bus the state there is what
the next checkpoint of split mode holds (R325), and the active engine writes the resynchronisation record that the partner
waits for (R336). -/
def recordBoundary (c : Nat) (s : State) : State :=
  let s := if s.engines.split then { s with engines.cut := some (c, s.billing, s.sluice.pairs) } else s
  if (s.engine s.partner).role == .resync && s.engines.resync.isNone then
    let r := s.writeRecord 3 s.engines.active c true s.billing s.sluice.pairs
    { r.2 with engines.resync := some r.1 }
  else s

/-- The samples below strobe `c` have been accumulated, which may be a line-cycle boundary of the pacing bus. -/
def noteBoundary (c : Nat) (s : State) : State :=
  let bus := s.billing.buses.getD s.view.latchBus {}
  if bus.waiting.any (fun m => strobeOf m.instant == c) then recordBoundary c s else s

/-- The active engine writes a checkpoint of the last boundary into the buffer of its number (R325). Its check counts once it
has arrived whole. -/
def writeBilling (s : State) : State :=
  let p := s.engine s.partner
  if !s.engines.split || !s.engines.partnerOk || s.engines.takeover.isSome || p.role != .standby || p.verdict then s
  else
    match s.engines.cut with
    | none => s
    | some (c, body, pairs) =>
      let r := s.writeRecord 1 s.engines.active c false body pairs
      let s := r.2.modEngine s.engines.active (fun x => x.count 8)
      { s with engines.buffers := modAt s.engines.buffers (r.1.seq.toNat % 2) (fun _ => some r.1), engines.cut := none }

/-- CHECKPOINT, from billing ready on (R326). -/
def execCheckpoint (s : State) : Outcome := edge (fun s => if s.ready then writeBilling s else s) s

/-- CHECKPOINT_ARRIVAL: the partner checks the latest checkpoint's CRC; three bad ones in a row raise
CHECKPOINT_INVALID (R325). -/
def checkpointArrival (intact : Bool) (s : State) : State :=
  let n := (s.engines.sequences.getD (4 * s.engines.active + 1) 0).toNat
  if n = 0 || !s.engines.split || !s.engines.partnerOk then s else
  let k := (n - 1) % 2
  match s.engines.buffers.getD k none with
  | none => s
  | some r =>
    let s := { s with engines.buffers := modAt s.engines.buffers k (fun _ => some { r with crcOk := intact }) }
    if intact then { s with engines.badRun := 0 }
    else
      let run := s.engines.badRun + 1
      let s := s.modEngine s.partner (fun x => x.count 9)
      if run = 3 then { s with engines.badRun := 0 }.raise 0x39 (leBytes 4 r.seq.toNat)
      else { s with engines.badRun := run }

/-- CHECKPOINT_ARRIVAL (R325). -/
def execCheckpointArrival (intact : Bool) (s : State) : Outcome := edge (checkpointArrival intact) s

/-! ### Self-test and rejoining (R334–R336) -/

/-- The last self-test member (R528) after a test. -/
def noteTest (word unit : Nat) (s : State) : State :=
  { s with evidence.lastTest := leBytes 4 word ++ leBytes 2 unit ++ zeros 2 ++ timeBytes s.ticks }

/-- The outstanding SELFTEST of a unit completes with its result word (R525). -/
def completeTest (unit word : Nat) (s : State) : State :=
  let s := noteTest word unit s
  s.link.outstanding.foldl (fun s c =>
    match c.work with
    | .selftest u _ => if u = unit then s.complete c.tag .ok (leBytes 4 word) else s
    | _ => s) s

/-- The unit index of an engine's SELFTEST. -/
def engineUnit (e : Nat) : Nat := idx 10 e 0

/-- An engine's full self-test ends: a pass within 400 ms resynchronises it and clears its retirement, a fail
retires it (R334, R335). A test that the host asked for completes its command; its pass is no event. -/
def engineTested (e : Nat) (passed : Bool) (duration : Nat) (s : State) : State :=
  let x := s.engine e
  if x.role != .selftest then s else
  let ok := passed && decide (duration ≤ 400)
  let s := if ok then
      if x.hostTest then
        let s := rejoin e (s.modEngine e (fun x => { x with retired := false, verdict := false, hostTest := false }))
        if x.retired then saveDevice s else s
      else resyncEngine e duration s
    else retireEngine e s
  if x.hostTest then completeTest (engineUnit e) (resultWord (flag (!ok)) 2 duration) s else s

/-- ENGINE_SELFTEST_END (R334, R335). -/
def execEngineSelftestEnd (engine : Nat) (passed : Bool) (duration : BitVec 16) (s : State) : Outcome :=
  edge (engineTested engine passed duration.toNat) s

/-! ### Reads (R339–R343) -/

/-- ROLE of R340. -/
def Role.code : Role → Nat
  | .active => 0
  | .lockstep => 1
  | .standby => 2
  | .resync => 3
  | .arbitration => 4
  | .selftest => 5
  | .retired => 6
  | .notStarted => 7

/-- Reads of class 10. -/
def State.readEngine (s : State) (e m : Nat) : Bytes :=
  let x := s.engine e
  match m with
  | 0 => leBytes 4 (x.role.code * 2 ^ 28 + flag x.verdict * 2 ^ 27 + flag x.fFault * 2 ^ 26 + flag x.wFault * 2 ^ 25 +
      x.claim.toNat)
  | 1 =>
    let f := s.silence x.beatF
    let w := s.silence x.beatW
    leBytes 4 f ++ leBytes 4 w ++ leBytes 4 (if x.fFault then x.longestF else max x.longestF f) ++
      leBytes 4 (if x.wFault then x.longestW else max x.longestW w)
  | 2 => tabBytes 10 (fun k => leBytes 4 (x.counters.getD k 0).toNat)
  | 3 => fit 32 x.lastTakeover
  | _ => []

/-- The sluice status (R343). -/
def State.sluiceStatus (s : State) : Bytes :=
  leBytes 2 s.sluice.heldClaim.toNat ++ [BitVec.ofNat 8 (flag s.sluice.hold + 2 * flag s.sluice.wardenHolds), 0] ++
    leBytes 4 s.sluice.refused.toNat ++ leBytes 6 s.sluice.acceptedSec ++ leBytes 2 s.sluice.acceptedTick

end Sys2Proof.Machine
end

