-- ==== Sys2Proof/Machine/Modem.lean ====
section
/-! DEFINITION. Modem.lean: tones, symbols, codewords and frames of four-tone mode (R348–R357). -/

namespace Sys2Proof.Machine
open Sys2Proof

/-! ### The field of R353 -/

/-- The sum of two elements of GF(256). -/
def gfAdd (a b : Nat) : Nat := a ^^^ b

/-- An element times α, modulo x^8 + x^4 + x^3 + x^2 + 1. -/
def gfAlpha (a : Nat) : Nat := if a < 128 then 2 * a else (2 * a) ^^^ 0x11D

/-- The product of two elements. -/
def gfMul (a b : Nat) : Nat :=
  (List.range 8).reverse.foldl (fun acc i => gfAdd (gfAlpha acc) (if b.testBit i then a else 0)) 0

/-- The n-th power of an element. -/
def gfPow (a : Nat) : Nat → Nat
  | 0 => 1
  | n + 1 => gfMul a (gfPow a n)

/-- The inverse of an element other than 0. -/
def gfInv (a : Nat) : Nat := gfPow a 254

/-- A power of the primitive element α = 2. -/
def alphaPow (n : Nat) : Nat := gfPow 2 (n % 255)

/-- The sum of two polynomials, lowest degree first. -/
def polyAdd : List Nat → List Nat → List Nat
  | [], q => q
  | p, [] => p
  | a :: p, b :: q => gfAdd a b :: polyAdd p q

/-- A polynomial times an element. -/
def polyScale (c : Nat) (p : List Nat) : List Nat := p.map (gfMul c)

/-- The product of two polynomials, lowest degree first. -/
def polyMul : List Nat → List Nat → List Nat
  | [], _ => []
  | a :: p, q => polyAdd (polyScale a q) (0 :: polyMul p q)

/-- The value of a polynomial, lowest degree first. -/
def polyAt (x : Nat) (p : List Nat) : Nat := p.foldr (fun a acc => gfAdd a (gfMul x acc)) 0

/-- The formal derivative: the odd coefficients move down. -/
def polyDiff (p : List Nat) : List Nat := (p.drop 1).zipIdx.map (fun x => if x.2 % 2 = 0 then x.1 else 0)

/-! ### Codewords (R353) -/

/-- The generator polynomial with the roots α^0 to α^15, lowest degree first. -/
def rsGenerator : List Nat := (List.range 16).foldl (fun g i => polyMul g [alphaPow i, 1]) [1]

/-- One data byte through the division by the generator: the remainder so far, highest degree first. -/
def rsShift (g : List Nat) (rem : List Nat) (d : Nat) : List Nat :=
  let f := gfAdd d (rem.headD 0)
  (rem.drop 1 ++ [0]).zipWith (fun r c => gfAdd r (gfMul f c)) g

/-- The 16 parity bytes of the data bytes. -/
def rsParity (data : List Nat) : List Nat := data.foldl (rsShift (rsGenerator.take 16).reverse) (List.replicate 16 0)

/-- A codeword: data bytes first, then parity, highest degree first. -/
def rsEncode (data : List Nat) : List Nat := data ++ rsParity data

/-- The 16 syndromes of a word, all 0 for a codeword. -/
def syndromes (w : List Nat) : List Nat := tab 16 (fun j => polyAt (alphaPow j) w.reverse)

/-- The locator of position `i` of a word of `n` bytes. -/
def locator (n i : Nat) : Nat := alphaPow (n - 1 - i)

/-- The polynomial that vanishes at the inverse locators of the erasures. -/
def erasureLocator (n : Nat) (erased : List Nat) : List Nat :=
  erased.foldl (fun g i => polyMul g [1, locator n i]) [1]

/-- Where the search for the error locator stands: the locator, the correction polynomial and the length. -/
structure Berlekamp where
  sigma : List Nat
  b : List Nat
  len : Nat

/-- One syndrome more: step `r` of 1 to 16, with `e` erasures (the algorithm of Berlekamp and Massey). -/
def Berlekamp.step (syn : List Nat) (e r : Nat) (k : Berlekamp) : Berlekamp :=
  let d := (List.range r).foldl (fun acc i => gfAdd acc (gfMul (k.sigma.getD i 0) (syn.getD (r - 1 - i) 0))) 0
  if d = 0 then { k with b := 0 :: k.b }
  else
    let sigma := polyAdd k.sigma (polyScale d (0 :: k.b))
    if 2 * k.len ≤ r + e - 1 then { sigma := sigma, b := polyScale (gfInv d) k.sigma, len := r + e - k.len }
    else { sigma := sigma, b := 0 :: k.b, len := k.len }

/-- The error and erasure locator of a word with `erased` positions. -/
def errorLocator (syn : List Nat) (n : Nat) (erased : List Nat) : List Nat :=
  let g := erasureLocator n erased
  let e := erased.length
  ((List.range 16).foldl (fun k i => if i < e then k else k.step syn e (i + 1))
    ({ sigma := g, b := g, len := e } : Berlekamp)).sigma

/-- The word with the value that the locator gives put right at its roots (Forney's formula). -/
def rsCorrect (syn : List Nat) (sigma : List Nat) (w : List Nat) : List Nat :=
  let n := w.length
  let omega := (polyMul syn sigma).take 16
  let diff := polyDiff sigma
  w.zipIdx.map (fun x =>
    let l := locator n x.2
    let y := gfInv l
    if polyAt y sigma = 0 then gfAdd x.1 (gfMul l (gfMul (polyAt y omega) (gfInv (polyAt y diff)))) else x.1)

/-- A codeword decoded with its erasures (R353, R357): the data bytes and the bytes corrected, where some codeword lies
within e errors and s erasures with 2e + s ≤ 16. -/
def rsDecode (w : List Nat) (erased : List Nat) : Option (List Nat × Nat) :=
  let syn := syndromes w
  let r := if syn.all (· == 0) then w else rsCorrect syn (errorLocator syn w.length erased) w
  let changed := (List.range w.length).filter (fun i => w.getD i 0 != r.getD i 0 && !erased.contains i)
  if (syndromes r).all (· == 0) && 2 * changed.length + erased.length ≤ 16 then
    some (r.take (w.length - 16), changed.length + erased.length)
  else none

/-! ### Interleaving (R354) -/

/-- The data bytes of the C = ceil(L / 96) codewords of a payload of `l` bytes. -/
def cutSizes (l : Nat) : List Nat :=
  let c := (l + 95) / 96
  tab c (fun i => if i < l % c then (l + c - 1) / c else l / c)

/-- A payload cut into data bytes by sizes. -/
def cutBy {α : Type} : List Nat → List α → List (List α)
  | [], _ => []
  | n :: ns, p => p.take n :: cutBy ns (p.drop n)

/-- The order in which the bytes of codewords of these lengths are sent: codeword of each byte, position by position. -/
def sendOrder (lengths : List Nat) : List Nat :=
  (List.range (lengths.foldl max 0)).flatMap (fun p => (List.range lengths.length).filter (fun c => decide (p < lengths.getD c 0)))

/-- Codewords sent by position. -/
def interleave (words : List (List Nat)) : List Nat :=
  (List.range ((words.map List.length).foldl max 0)).flatMap (fun p => words.filterMap (fun w => w[p]?))

/-- What was received of each codeword. -/
def deinterleave {α : Type} (lengths : List Nat) (xs : List α) : List (List α) :=
  (List.range lengths.length).map (fun c => ((xs.zip (sendOrder lengths)).filter (fun x => x.2 == c)).map (·.1))

/-! ### Tones and frames (R348, R351, R352) -/

/-- The bit pairs of a byte, most significant first. -/
def bitPairs (b : Nat) : List Nat := [b / 64 % 4, b / 16 % 4, b / 4 % 4, b % 4]

/-- The tone of a bit pair: 00, 01, 11 and 10 are tones 0 to 3. -/
def toneOfPair (p : Nat) : Nat := if p = 2 then 3 else if p = 3 then 2 else p

/-- The bit pair of a tone. -/
def pairOfTone (t : Nat) : Nat := toneOfPair t

/-- The tones of bytes. -/
def tonesOf (bs : List Nat) : List Nat := bs.flatMap (fun b => (bitPairs b).map toneOfPair)

/-- Cycles of a tone in 320 µs: 56.25, 62.5, 68.75 and 75 kHz. -/
def toneCycles (t : Nat) : Nat := 18 + 2 * t

/-- The preamble: tones 0 to 3, six times. -/
def preamble : List Nat := tab 24 (fun i => i % 4)

/-- The start delimiter 0x5A93. -/
def delimiter : List Nat := tonesOf [0x5A, 0x93]

/-- The header bytes of R352. -/
def lineHeader (length slotSym : Nat) (relayed : Bool) : List Nat := [length, slotSym * 4 + 2 * flag relayed]

/-- The tones of a frame (R351): preamble, delimiter, header codeword and interleaved payload codewords. -/
def frameTones (payload : List Nat) (slotSym : Nat) (relayed : Bool) : List Nat :=
  preamble ++ delimiter ++ tonesOf (rsEncode (lineHeader payload.length slotSym relayed)) ++
    tonesOf (interleave ((cutBy (cutSizes payload.length) payload).map rsEncode))

/-- Symbols of a frame of `l` payload bytes (R351). -/
def frameSymbols (l : Nat) : Nat := 104 + 4 * (l + 16 * (cutSizes l).length)

/-! ### Times. The unit is 1/144 µs, in which a sample at 384 ksps, a symbol and its window are whole. -/

/-- The symbol period T_s = 1 / (48 × f_nom). -/
def symbolTime (fnom : Nat) : Nat := 144000000 / (48 * fnom)

/-- A sample period at 384 ksps. -/
def lineSample : Nat := 375

/-- The detection window of 320 µs. -/
def windowTime : Nat := 46080

/-- Where the window of symbol `k` begins: T_s − 328 µs after the symbol does (R350). -/
def windowStart (fnom k : Nat) : Nat := (k + 1) * symbolTime fnom - 47232

/-- A transmit sample of a tone `t` at full level, unit 2^−62 (R348): the burst starts at zero phase, and rises and
falls over 8 µs as raised cosines. `x` is the time since the symbol began. -/
def toneBurst (fnom t x : Nat) : Int :=
  let last := symbolTime fnom
  let edge := fun (y : Nat) => (2 ^ 62 - cosTurn (min y 1152) 2304) / 2
  roundEven (sinTurn (toneCycles t * x) windowTime * edge (min x (last - x))) (2 ^ 62)

/-! ### The receiver (R350, R355, R356) -/

/-- What the correlators give for one symbol: the energies of the four tones, and how much of its window is blanked. -/
structure LineSymbol where
  energies : List Nat
  blanked : Nat
deriving DecidableEq, Repr

/-- The part of a sample that begins at `t` and lies inside the window (R350). -/
def windowWeight (t : Int) : Int := clamp 0 windowTime (t + lineSample) - clamp 0 windowTime t

/-- Samples of a window: the start of each against that of the window, its code, and whether it is blanked. -/
def correlate (xs : List (Int × Int × Bool)) (tone : Nat) : Nat :=
  let part := fun (f : Nat → Nat → Int) => sumBy (fun (x : Int × Int × Bool) =>
    windowWeight x.1 * (if x.2.2 then 0 else x.2.1) * f (toneCycles tone * (x.1 + lineSample).toNat) windowTime) xs
  ((part cosTurn) ^ 2 + (part sinTurn) ^ 2).toNat

/-- The symbols of a frame, from symbol `k` on: `rest` are the samples from number `base` on, and the frame begins
`skew` after the first sample does. -/
def readSymbols (fnom skew : Nat) (blank : Int → Bool) : Nat → Nat → Nat → List Int → List LineSymbol
  | 0, _, _, _ => []
  | n + 1, k, base, rest =>
    let w := windowStart fnom k
    let j := (w + skew) / lineSample
    let xs := (rest.drop (j - base))
    let own := (xs.take 124).zipIdx.map (fun x =>
      ((((j + x.2) * lineSample : Nat) : Int) - ((skew + w : Nat) : Int), x.1, blank x.1))
    { energies := tab 4 (correlate own)
      blanked := (sumBy (fun x => if x.2.2 then windowWeight x.1 else 0) own).toNat } ::
      readSymbols fnom skew blank n (k + 1) j xs

/-- The tone of greatest energy. -/
def LineSymbol.tone (y : LineSymbol) : Nat :=
  [1, 2, 3].foldl (fun b t => if y.energies.getD b 0 < y.energies.getD t 0 then t else b) 0

/-- The greatest energy and the next greatest. -/
def LineSymbol.two (y : LineSymbol) : Nat × Nat :=
  (y.energies.getD y.tone 0, ((List.range 4).filter (· != y.tone)).foldl (fun m t => max m (y.energies.getD t 0)) 0)

/-- A symbol is an erasure (R356). -/
def LineSymbol.erased (y : LineSymbol) : Bool :=
  decide (windowTime < 4 * y.blanked) || decide (y.two.1 < 2 * y.two.2)

/-- A byte as received: its value, whether it is an erasure, and the lowest tone-energy ratio of its symbols. -/
structure LineByte where
  value : Nat
  erased : Bool
  ratio : Nat × Nat

/-- One ratio is below another. -/
def ratioLess (a b : Nat × Nat) : Bool := decide (a.1 * b.2 < b.1 * a.2)

/-- Bytes of symbols, four to a byte. -/
def bytesOfSymbols : List LineSymbol → List LineByte
  | a :: b :: c :: d :: rest =>
    let ys := [a, b, c, d]
    { value := ys.foldl (fun v y => 4 * v + pairOfTone y.tone) 0
      erased := ys.any LineSymbol.erased
      ratio := ys.foldl (fun r y => if ratioLess y.two r then y.two else r) a.two } :: bytesOfSymbols rest
  | _ => []

/-- The lowest of two positions by tone-energy ratio. -/
def lowestRatio (w : List LineByte) (is : List Nat) : Option Nat :=
  is.foldl (fun best i =>
    match best with
    | none => some i
    | some b => if ratioLess (w.getD i ⟨0, false, 0, 0⟩).ratio (w.getD b ⟨0, false, 0, 0⟩).ratio then some i else some b) none

/-- The `n` positions of lowest ratio. -/
def lowestRatios (w : List LineByte) : Nat → List Nat → List Nat
  | 0, _ => []
  | n + 1, is =>
    match lowestRatio w is with
    | none => []
    | some i => i :: lowestRatios w n (is.filter (· != i))

/-- A codeword decoded with its erasures: where more than 16 bytes are, the 16 of lowest ratio (R357). -/
def decodeWord (w : List LineByte) : Option (List Nat × Nat) :=
  let er := (List.range w.length).filter (fun i => (w.getD i ⟨0, false, 0, 0⟩).erased)
  rsDecode (w.map (·.value)) (if 16 < er.length then lowestRatios w 16 er else er)

/-- The codewords of a frame decoded: their data bytes in turn and the bytes corrected. -/
def decodeWords (ws : List (List LineByte)) : Option (List Nat × Nat) :=
  ws.foldl (fun acc w =>
    match acc, decodeWord w with
    | some (p, n), some (q, m) => some (p ++ q, n + m)
    | _, _ => none) (some ([], 0))

/-- The L nearest to 100 lg(num/den), from −999 to 3,095: a ratio of powers in units of 0.1 dB. -/
def tenthDecibels (num den : Nat) : Int :=
  ((List.range 12).reverse.foldl (fun v k =>
    let u := v + 2 ^ k
    if 10 ^ (2 * u - 1) * den ^ 200 ≤ num ^ 200 * 10 ^ 2000 then u else v) 0 : Nat) - 1000

/-- The level at ZRX_P/ZRX_N of an energy of the correlators, in 0.1 dBµV: full scale is ±2.0 V at gain step 0, and a
step is 6 dB (R355). -/
def levelOf (gain : Nat) (energy : Nat) : Int :=
  tenthDecibels (2 * energy * 15625 ^ 2) (16 ^ 2 * (windowTime * 2 ^ 62) ^ 2) - 60 * gain

/-- The samples that carry preamble symbols after the gain is set (R355). -/
def gainedPreamble (fnom skew : Nat) (samples : List Int) : List Int :=
  let at_ := fun (k : Nat) => (k * symbolTime fnom + skew) / lineSample
  (samples.drop (at_ 8)).take (at_ 24 - at_ 8)

/-- The preamble peak of a frame. -/
def preamblePeak (fnom skew : Nat) (samples : List Int) : Nat :=
  (gainedPreamble fnom skew samples).foldl (fun m x => max m x.natAbs) 0

/-- A sample is blanked (R356): its magnitude reaches 0.95 of full scale, or 4 times the preamble peak. -/
def blankedBy (peak : Nat) (x : Int) : Bool := decide (19 * 2048 ≤ 20 * x.natAbs) || decide (4 * peak ≤ x.natAbs)

/-- What comes of a reception in four-tone mode (R351–R357). -/
inductive Reception where
  /-- no delimiter follows the preamble: no frame -/
  | nothing
  | header
  | truncated
  | codeword
  | frame (payload : List Nat) (corrected slotSym : Nat) (relayed : Bool)

/-- Some 8 consecutive symbols lie below the squelch (R357). -/
def fadesOut (low : LineSymbol → Bool) (ys : List LineSymbol) : Bool :=
  decide (8 ≤ (ys.foldl (fun (r : Nat × Nat) y => let n := if low y then r.1 + 1 else 0; (n, max r.2 n)) (0, 0)).2)

/-- The frame that the symbols carry. `low` tells a symbol below the squelch: 8 of them in a row, from where the gain is held
to the end that LENGTH implies, truncate the frame (R352, R357). -/
def readTones (low : LineSymbol → Bool) (ys : List LineSymbol) : Reception :=
  if ((ys.drop 24).take 8).map LineSymbol.tone ≠ delimiter then .nothing
  else
    match decodeWord (bytesOfSymbols ((ys.drop 32).take 72)) with
    | none => .header
    | some (h, n) =>
      let l := h.getD 0 0
      let b := h.getD 1 0
      if l = 0 || 240 < l || 48 ≤ b / 4 || b % 2 = 1 then .header
      else
        let own := ys.take (frameSymbols l)
        if own.length < frameSymbols l || fadesOut low (own.drop 8) then .truncated
        else
          match decodeWords (deinterleave ((cutSizes l).map (· + 16)) (bytesOfSymbols (own.drop 104))) with
          | none => .codeword
          | some (p, m) => .frame p (n + m) (b / 4) (b / 2 % 2 = 1)

end Sys2Proof.Machine
end

