-- ==== Sys2Proof/Machine/Line.lean ====
section
/-! DEFINITION. Line.lean: the power-line unit up to the frame (chapter "Zorrus power-line physical layer"). -/

namespace Sys2Proof.Machine
open Sys2Proof

/-- The unit is in service: fitted, enabled by the configuration and not held off (R369, R400). -/
def State.lineOn (s : State) : Bool := s.part.fitZlk && s.view.zlOn && !s.held 4

/-- The line and its driver may send (R365, R364). -/
def Line.usable (l : Line) : Bool := l.state != .off && l.state != .heldOff && l.state != .cut

/-- The rest state of the unit: off, held off or listening. -/
def Line.rest (on : Bool) (l : Line) : LineState :=
  if !on then .off else if l.vplcLow || l.thermal then .heldOff else .listening

/-- A configuration in force switches the unit; a cut lasts until the next start. -/
def lineEffect (s : State) : State :=
  if s.line.state = .cut then s
  else if s.lineOn then (if s.line.state = .off then { s with line.state := s.line.rest true } else s)
  else { s with line := { s.line with state := .off, sending := none, anchor := .none } }

/-- A line counter rises (R370). -/
def countLine (k : Nat) (s : State) : State := { s with line.counters := modAt s.line.counters k (· + 1) }

/-- Strobe time now, unit 2^−16 metering period. -/
def State.instantNow (s : State) : Nat := s.sense.modCount.toNat * 256

/-- Symbols a second (R348, R359): 48 f_nom, or the bits of two-tone mode at SFSK_RATE. -/
def View.symbolRate (v : View) : Nat :=
  let fnom := v.busFnom v.zlBus
  if v.zlTwoTone then 6 * fnom * 2 ^ v.sfskRate else 48 * fnom

/-- The time of `n` symbols, unit 2^−16 metering period, to nearest. -/
def View.symbolSpan (v : View) (n : Nat) : Nat := (2 * n * 16000 * 65536 + v.symbolRate) / (2 * v.symbolRate)

/-- The check of a network frame is right (R374): it stands behind a header of 16 bytes and the body, low byte first. -/
def checkOk (p : Bytes) : Bool :=
  decide (18 ≤ p.length) && leNat (p.drop (p.length - 2)) == crc16 (p.take (p.length - 2))

/-- The bits of a byte, most significant first. -/
def bitList (b : Nat) : List Nat := (List.range 8).reverse.map (fun i => b / 2 ^ i % 2)

/-- The bits of a two-tone frame: the preamble and the start delimiter of IEC 61334-5-1, then the frame. PRESUMED (log
entry 175: R359 names that standard without writing it out). -/
def twoToneBits (frame : List Nat) : List Nat := ([0xAA, 0xAA, 0x54, 0xC7] ++ frame).flatMap bitList

/-- A start command passes the sluice: the engine that has the billing commands it under the held claim, and no takeover
holds it back (R313, R317, R347). -/
def State.startPasses (s : State) : Bool :=
  !s.sluice.hold && (s.engine s.engines.active).claim == s.sluice.heldClaim

/-- A frame is sent at its anchor, SLOT_SYM being 0 (R347, R349, R373): only where its start command passes the sluice and
with the control lane in service (R524), and a reception in progress is abandoned and counted. -/
def transmit (frame : Bytes) (anchor : Nat) (s : State) : State :=
  if !s.line.usable || !s.startPasses || s.power.warning || s.line.state = .transmitting ||
      (s.sense.lanes.getD 5 {}).faulty then s
  else
    let s := if s.line.state = .receiving then countLine 6 s else s
    let bytes := frame.map BitVec.toNat
    let tones := if s.view.zlTwoTone then twoToneBits bytes else frameTones bytes 0 false
    { s with line.state := .transmitting, line.txLimit := false
             line.sending := some { payload := frame, tones := tones, start := anchor } }

/-- TX_LEVEL as a part of full level, unit 2^−62, truncated: 1 dB a step, so that its 20th power is 10^−TX_LEVEL (R346). -/
def levelPart (level : Nat) : Nat :=
  (List.range 63).reverse.foldl (fun v k =>
    let u := v + 2 ^ k
    if u ^ 20 * 10 ^ level ≤ 2 ^ (62 * 20) then u else v) 0

/-- The waveform of the frame in progress `x`/144 µs after it began, unit 2^−62 of full level: in four-tone mode a burst a
symbol (R348), in two-tone mode the space or the mark frequency through each bit (R359). -/
def State.lineWave (s : State) (f : LineSend) (x : Nat) : Int :=
  let v := s.view
  if v.zlTwoTone then
    match f.tones[x * v.symbolRate / 144000000]? with
    | some b => sinTurn (x * field (if b = 1 then 9 else 19) (if b = 1 then 0 else 10) (v.num 0x5001)) 1440000
    | none => 0
  else
    let fnom := v.busFnom v.zlBus
    match f.tones[x / symbolTime fnom]? with
    | some t => toneBurst fnom t (x % symbolTime fnom)
    | none => 0

/-- The output of the line driver `x`/144 µs after the frame in progress began, unit 2^−62 of full level, at TX_LEVEL (R346). -/
def State.driverOut (s : State) (x : Nat) : Int :=
  match s.line.sending with
  | some f => roundEven (s.lineWave f x * levelPart (field 26 22 (s.view.num 0x5001))) (2 ^ 62)
  | none => 0

/-- A condition of R365 cuts the frame in progress and holds the unit off. -/
def holdLineOff (s : State) : State :=
  let s := if s.line.state = .transmitting then countLine 8 s else s
  if s.line.usable then { s with line.state := .heldOff, line.sending := none } else s

/-- The unit listens again once neither condition stands. -/
def lineBack (s : State) : State :=
  if s.line.state = .heldOff && !s.line.vplcLow && !s.line.thermal then { s with line.state := .listening } else s

/-- VPLC_LOW (R365). -/
def execVplcLow (s : State) : Outcome :=
  edge (fun s => holdLineOff { s with line.vplcLow := true }) s

/-- VPLC_RECOVERED (R365). -/
def execVplcRecovered (s : State) : Outcome :=
  edge (fun s => lineBack { s with line.vplcLow := false }) s

/-- THERMAL (R365). -/
def execThermal (s : State) : Outcome := edge (fun s => holdLineOff { s with line.thermal := true }) s

/-- THERMAL_CLEAR (R365). -/
def execThermalClear (s : State) : Outcome := edge (fun s => lineBack { s with line.thermal := false }) s

/-- TX_LIMIT: the frame continues, the flag is set and the event counted. -/
def txLimit (s : State) : State :=
  if s.line.state = .transmitting then countLine 7 { s with line.txLimit := true } else s

/-- TX_LIMIT (R365). -/
def execTxLimit (s : State) : Outcome := edge txLimit s

/-- ZL_TRANSMIT_END: the last symbol has been sent, and the receiver listens again after one symbol more (R347). -/
def transmitEnd (s : State) : State :=
  match s.line.sending with
  | some f =>
    let last := f.start + s.view.symbolSpan f.tones.length
    if s.line.state = .transmitting && last ≤ s.instantNow then
      countLine 0 { s with line.state := .listening, line.sending := none
                           line.deafUntil := s.instantNow + s.view.symbolSpan 1 }
    else s
  | none => s

/-- ZL_TRANSMIT_END (R347). -/
def execZlTransmitEnd (s : State) : Outcome := edge transmitEnd s

/-- The receiver hears: the unit is neither sending nor out of service (R347, R364), and the service lane that brings
its samples is in service (R524). -/
def State.hears (s : State) : Bool :=
  (s.line.state = .listening || s.line.state = .receiving) && !(s.sense.lanes.getD 4 {}).faulty

/-- The gain step that puts a preamble peak, in µV, between 1/4 and 1/2 of full scale: the greatest that keeps it at or below
1.0 V, 6 dB a step (R355). -/
def gainStep (peak : Nat) : Nat := ((List.range 8).filter (fun g => peak ^ 10 * 10 ^ (3 * g) ≤ 10 ^ 60)).getLast?.getD 0

/-- ZL_FRAME_DETECTED: where the in-band energy exceeds the noise floor by 6 dB a reception begins, and the gain that its
preamble peak gives is held (R355). While the driver is active, and for one symbol after, the receiver discards its input
(R347). -/
def frameDetected (peak : Nat) (level noise : Int) (s : State) : State :=
  if s.hears && s.line.state = .listening && s.line.deafUntil ≤ s.instantNow && noise + 60 < level then
    { s with line.state := .receiving, line.gain := gainStep peak, line.noise := noise }
  else s

/-- ZL_FRAME_DETECTED (R355). -/
def execZlFrameDetected (peak : Nat) (level noise : Int) (s : State) : Outcome := edge (frameDetected peak level noise) s

/-- A frame is heard: it did not begin while the receiver discarded its input (R347). -/
def State.hearsFrame (s : State) (f : LineFrame) : Bool := s.hears && decide (s.line.deafUntil ≤ f.start)

/-- The samples of a reception that are blanked (R356). -/
def State.blankedSamples (s : State) (f : LineFrame) : Nat :=
  let peak := preamblePeak (s.view.busFnom s.view.zlBus) f.skew f.samples
  (f.samples.filter (blankedBy peak)).length

/-- The symbols of a reception in four-tone mode (R350). -/
def State.symbolsOf (s : State) (f : LineFrame) : List LineSymbol :=
  let fnom := s.view.busFnom s.view.zlBus
  let n := (f.samples.length * lineSample - f.skew) / symbolTime fnom
  readSymbols fnom f.skew (blankedBy (preamblePeak fnom f.skew f.samples)) n 0 0 f.samples

/-- A symbol lies below the squelch, 6 dB above the noise floor (R355, R357). -/
def State.belowSquelch (s : State) (y : LineSymbol) : Bool :=
  decide (levelOf s.line.gain (y.energies.foldl (· + ·) 0) < s.line.noise + 60)

/-- The level of a frame in 0.1 dBµV: the mean energy of its preamble symbols once the gain is set, or as the two-tone
demodulator gives it (R357). -/
def State.frameLevel (s : State) (f : LineFrame) : Int :=
  if s.view.zlTwoTone then f.level
  else levelOf s.line.gain (((((s.symbolsOf f).take 24).drop 8).map (fun y => y.two.1)).foldl (· + ·) 0 / 16)

/-- The margin of a level in dB above the sensitivity of R358, saturated at 63 (R375). -/
def State.marginOf (s : State) (level : Int) : Nat := min 63 ((level - (if s.view.zlTwoTone then 495 else 400)) / 10).toNat

/-- What the receiver passes on with an accepted frame (R357): its payload, the bytes corrected, the level, SLOT_SYM and
RELAYED, and the anchor, which its start gives less SLOT_SYM symbol periods (R349), with its chronicle tick (R30). -/
structure HeardFrame where
  payload : Bytes
  corrected : Nat
  level : Int
  slotSym : Nat := 0
  relayed : Bool := false
  anchor : Nat
  tick : Nat
deriving DecidableEq, Repr

/-- A reception judged: the frame where it is accepted, and the counter of R370 that it raises. One whose check fails is as
though it had not been received (R374); in two-tone mode the check alone decides (R359). -/
def State.judgeFrame (s : State) (f : LineFrame) : Option HeardFrame × Option Nat :=
  if s.view.zlTwoTone then
    if checkOk f.bytes then
      (some { payload := f.bytes, corrected := 0, level := f.level, anchor := f.start, tick := s.timeNear f.start }, some 1)
    else (none, none)
  else
    match readTones s.belowSquelch (s.symbolsOf f) with
    | .nothing => (none, none)
    | .header => (none, some 4)
    | .truncated => (none, some 5)
    | .codeword => (none, some 3)
    | .frame p n slotSym relayed =>
      let payload := p.map (BitVec.ofNat 8)
      let anchor := f.start - s.view.symbolSpan slotSym
      if checkOk payload then
        (some { payload := payload, corrected := n, level := s.frameLevel f, slotSym := slotSym, relayed := relayed
                anchor := anchor, tick := s.timeNear anchor }, some (if n = 0 then 1 else 2))
      else (none, none)

/-- A reception ends: it is counted with its blanked samples, and the line monitor keeps an accepted frame (R352, R357,
R370). -/
def endReception (f : LineFrame) (s : State) : State :=
  let r := s.judgeFrame f
  let blanked := if s.view.zlTwoTone then 0 else s.blankedSamples f
  let s := match r.2 with
    | some k => countLine k s
    | none => s
  let s := { s with line.state := .listening, line.counters := modAt s.line.counters 9 (· + BitVec.ofNat 32 blanked) }
  match r.1 with
  | some h => { s with line.level := h.level, line.corrected := h.corrected, line.lastSec := s.sec }
  | none => s

/-- ZL_FRAME_REJECT: a reception that ends without a frame for the network. -/
def frameReject (f : LineFrame) (s : State) : State := if s.hearsFrame f then endReception f s else s

/-- ZL_FRAME_REJECT (R352, R356, R357, R374). -/
def execZlFrameReject (f : LineFrame) (s : State) : Outcome := edge (frameReject f) s

/-! ### Anchors and bins (R349, R361–R363) -/

/-- The offset of an instant behind a crossing of L1, unit 2^−16 cycle: behind the nearest that precedes it (R361). -/
def State.offsetAt (s : State) (instant : Nat) : Nat :=
  let p := periodOf (s.billing.buses.getD s.view.zlBus {}).freq
  match (s.line.crossings.find? (fun c => decide (c ≤ instant))), s.line.crossings.getLast? with
  | some c, _ => angleBehind p c instant
  | none, some c => angleBehind p c instant
  | none, none => 0

/-- The distance of two angles in 2^−16 cycle. -/
def angleGap (a b : Nat) : Nat :=
  let d := (a + 65536 - b % 65536) % 65536
  min d (65536 - d)

/-- The measured angle of L1, L2 or L3 against L1, 0 while absent (R362, R370). -/
def State.lineAngle (s : State) (k : Nat) : Nat :=
  match s.view.lineChans[k]? with
  | some u => if k = 0 then 0 else s.line.angles.getD u 0
  | none => 0

/-- The bin centres of R362: bin code and angle. -/
def State.binCentres (s : State) : List (Nat × Nat) :=
  let n := min 3 s.view.lineChans.length
  let at_ := s.lineAngle
  ((List.range n).map (fun k => (k + 1, at_ k))) ++ ((List.range n).map (fun k => (k + 4, (at_ k + 32768) % 65536)))

/-- The bin a report is assigned to, none when it is uncertain (R362). -/
def State.assignBin (s : State) (theta check : Nat) : Option Nat :=
  if s.line.anchor != .fromL1 || 10 * 65536 < 360 * angleGap theta check then none
  else
    match s.binCentres.foldl (fun (best : Option (Nat × Nat)) c =>
        let d := angleGap theta c.2
        match best with
        | none => some (c.1, d)
        | some b => if d < b.2 then some (c.1, d) else best) none with
    | some (b, d) => if 360 * d ≤ 25 * 65536 then some b else none
    | none => none

/-! ### Reads (R367–R370) -/

/-- STATE of R368. -/
def LineState.code : LineState → Nat
  | .off => 0
  | .listening => 1
  | .receiving => 2
  | .transmitting => 3
  | .heldOff => 4
  | .cut => 5

/-- Reads of class 5 instance 0 but for the settings. The noise floor, VPLC and the driver temperature are
measurements made as they are read: free values. -/
def State.readLine (s : State) (m : Nat) : Bytes :=
  let l := s.line
  match m with
  | 0 => leBytes 4 (l.state.code * 2 ^ 29 + flag l.vplcLow * 2 ^ 28 + flag l.thermal * 2 ^ 27 + flag l.txLimit * 2 ^ 26 +
      (match l.anchor with | .none => 0 | .fromL1 => 1 | .synthesised => 2) * 2 ^ 24 + l.gain * 2 ^ 21)
  | 2 => tabBytes 10 (fun k => leBytes 4 (l.counters.getD k 0).toNat)
  | 3 => leInt 2 l.level ++ leBytes 2 (Config.freeValue s.free) ++ [BitVec.ofNat 8 l.corrected, 0] ++
      leBytes 2 (Config.freeValue (s.free + 1)) ++ leBytes 2 (Config.freeValue (s.free + 2)) ++ leBytes 6 l.lastSec
  | 4 =>
    let chans := s.view.lineChans
    leBytes 2 (s.lineAngle 1) ++ leBytes 2 (s.lineAngle 2) ++
      tab 3 (fun k => match chans[k]? with | some u => BitVec.ofNat 8 (48 + u) | none => 0xFF) ++ [0]
  | _ => []

end Sys2Proof.Machine
end

