-- ==== Sys2Proof/Machine/Net.lean ====
section
/-! DEFINITION. Net.lean: the Zorrus network (chapter "Zorrus network and loss reckoning"): superframes, frames,
nodes, neighbours and routes, transactions, collection and balances. -/

namespace Sys2Proof.Machine
open Sys2Proof

/-! ### Frames (R373–R376) -/

/-- A network frame as its fields stand in the header of R374. -/
structure NetFrame where
  type : Nat
  hop : Nat := 0
  hops : Nat
  bcast : Bool := false
  up : Bool := false
  src : Nat := 0
  dst : Nat := 0
  netId : Nat
  seq : Nat
  try_ : Nat := 0
  htry : Nat := 0
  cycles : Nat := 0
  route : List Nat := []
  body : Bytes := []
deriving DecidableEq, Repr

/-- The bytes of a frame with its check, sent low byte first (R374). -/
def NetFrame.bytes (f : NetFrame) : Bytes :=
  let b := [BitVec.ofNat 8 f.type, BitVec.ofNat 8 (f.hop * 32 + f.hops * 4 + 2 * flag f.bcast + flag f.up),
    BitVec.ofNat 8 f.src, BitVec.ofNat 8 f.dst] ++ leBytes 2 f.netId ++
    [BitVec.ofNat 8 f.seq, BitVec.ofNat 8 (f.try_ * 16 + f.htry)] ++ leBytes 2 f.cycles ++
    fit 6 (f.route.map (BitVec.ofNat 8)) ++ f.body
  b ++ leBytes 2 (crc16 b)

/-- A frame read from a payload, where its check is right (R374). -/
def readFrame (p : Bytes) : Option NetFrame :=
  let n := p.length
  if !checkOk p then none
  else
    let c := getU p 1 1
    some
      { type := getU p 0 1, hop := field 7 5 c, hops := field 4 2 c, bcast := bit 1 c, up := bit 0 c, src := getU p 2 1
        dst := getU p 3 1, netId := getU p 4 2, seq := getU p 6 1, try_ := getU p 7 1 / 16, htry := getU p 7 1 % 16
        cycles := getU p 8 2, route := (((p.drop 10).take 6).map (·.toNat)).filter (· != 0)
        body := (p.drop 16).take (n - 18) }

/-- Data slots that a frame of `n` payload bytes takes (R373). -/
def slotsFor (n : Nat) : Nat := if n ≤ 54 then 1 else if n ≤ 153 then 2 else 3

/-- Slot `slot` of superframe `n` is a data slot (R372). -/
def dataSlot (st : NetState) (n slot : Nat) : Bool :=
  slot == 2 || slot == 3 || (slot == 4 && st != .forming && n % 4 != 0)

/-- Consecutive data slots from a slot to the end of its superframe (R373). -/
def slotRoom (st : NetState) (n slot : Nat) : Nat :=
  ((List.range 5).filter (fun k => slot ≤ k && dataSlot st n k)).length

/-! ### Nodes (R381, R382) -/

/-- A node address. -/
def State.node (s : State) (a : Nat) : Node := s.net.nodes.getD a {}

/-- A node changed. -/
def State.modNode (a : Nat) (f : Node → Node) (s : State) : State := { s with net.nodes := modAt s.net.nodes a f }

/-- Addresses. -/
def addresses : List Nat := (List.range 256).drop 1

/-- Addresses in use. -/
def State.joined (s : State) : List Nat := addresses.filter (fun a => (s.node a).state != .free)

/-- A node takes part: present or rejoined. -/
def Node.live (n : Node) : Bool := n.state == .present || n.state == .rejoined

/-- A network counter rises (R408). -/
def countNet (k : Nat) (s : State) : State := { s with net.counters := modAt s.net.counters k (· + 1) }

/-- The record of a node as the store keeps it (R382, R445). -/
def Node.body (n : Node) : Bytes :=
  [BitVec.ofNat 8 (flag (n.state != .free) + 2 * flag n.repeater), BitVec.ofNat 8 n.relayPhase, BitVec.ofNat 8 n.order,
    BitVec.ofNat 8 n.bin] ++ leBytes 8 n.uid ++ fit 6 (n.route.map (BitVec.ofNat 8))

/-- A node record written. -/
def saveNode (a : Nat) (s : State) : State := { s with store := s.store.record (Ring.node a) (s.node a).body }

/-- The network head written: NET_ID and FORM (R445). -/
def saveHead (s : State) : State :=
  { s with store := s.store.record Ring.network (leBytes 2 s.view.netId ++ [BitVec.ofNat 8 s.net.form.toNat]) }

/-- The payload of a node's evidence entry (R503). -/
def Node.evidence (a : Nat) (n : Node) : Bytes := BitVec.ofNat 8 a :: leBytes 8 n.uid

/-- Depth in hops. -/
def Node.depth (n : Node) : Nat := n.route.length + 1

/-- Addresses by depth, then by address. -/
def State.byDepth (s : State) (as : List Nat) : List Nat :=
  (List.range 9).flatMap (fun d => as.filter (fun a => (s.node a).depth == d))

/-! ### Neighbours (R387) -/

/-- The links of a route from the device to a node, pairwise. -/
def routeLinks (route : List Nat) (a : Nat) : List (Nat × Nat) :=
  let path := 0 :: route ++ [a]
  path.zip (path.drop 1)

/-- A link lies between two addresses, in either direction. -/
def Neighbour.between (x y : Nat) (l : Neighbour) : Bool :=
  (l.hearing == x && l.heard == y) || (l.hearing == y && l.heard == x)

/-- The links on routes in use. -/
def State.usedLinks (s : State) : List (Nat × Nat) := s.joined.flatMap (fun a => routeLinks (s.node a).route a)

/-- Q of a new entry (R387). -/
def firstQ (margin : Nat) : Nat := if 12 ≤ margin then 255 else 64 + 16 * margin

/-- Greatest number of entries of the neighbour table. -/
def neighbourMax : Nat := 1536

/-- The entry of lowest Q that lies on no route. -/
def worstFree (used : List (Nat × Nat)) (l : List Neighbour) : Option Neighbour :=
  l.foldl (fun best x =>
    if used.any (fun u => x.between u.1 u.2) then best
    else
      match best with
      | none => some x
      | some b => if x.q < b.q then some x else some b) none

/-- A margin heard enters or refreshes a directed link (R387). -/
def hearLink (hearing heard margin : Nat) (s : State) : State :=
  let m := min margin 63
  let same := fun (x : Neighbour) => x.hearing == hearing && x.heard == heard
  let fresh : Neighbour := { hearing := hearing, heard := heard, margin := m, q := firstQ m }
  if hearing = heard then s
  else if s.net.neighbours.any same then
    { s with net.neighbours := s.net.neighbours.map (fun (x : Neighbour) => (if same x then { x with margin := m } else x : Neighbour)) }
  else if s.net.neighbours.length < neighbourMax then { s with net.neighbours := s.net.neighbours ++ [fresh] }
  else
    match worstFree s.usedLinks s.net.neighbours with
    | some w => { s with net.neighbours := s.net.neighbours.map (fun (x : Neighbour) => (if x = w then fresh else x : Neighbour)) }
    | none => countNet 9 s

/-- Q of the links of a route after a transaction (R387). -/
def gradeRoute (ok : Bool) (route : List Nat) (a : Nat) (s : State) : State :=
  let ls := routeLinks route a
  { s with net.neighbours := s.net.neighbours.map (fun (x : Neighbour) =>
      (if ls.any (fun l => x.between l.1 l.2) then
        { x with q := if ok then x.q + (255 - x.q) / 8 else x.q - x.q / 8 }
      else x : Neighbour)) }

/-! ### Routes (R388) -/

/-- Q of the link between two addresses: the better of its two directions, 0 where neither is known. -/
def State.linkQ (s : State) (x y : Nat) : Nat :=
  ((s.net.neighbours.filter (Neighbour.between x y)).map (·.q)).foldl max 0

/-- The cost of a link, none while it is not usable (R387, R388). -/
def linkCost (q : Nat) : Option Nat := if 64 ≤ q then some ((1024 + q - 1) / q) else none

/-- A way to a node: cost and repeaters. -/
structure Way where
  cost : Nat
  route : List Nat
deriving DecidableEq, Repr

/-- Lists of addresses in order. -/
def lexLess : List Nat → List Nat → Bool
  | x :: xs, y :: ys => x < y || (x == y && lexLess xs ys)
  | [], _ :: _ => true
  | _, [] => false

/-- A way is better: least cost, then fewer hops, then lower addresses (R388). -/
def Way.better (a b : Way) : Bool :=
  a.cost < b.cost || (a.cost == b.cost &&
    (a.route.length < b.route.length || (a.route.length == b.route.length && lexLess a.route b.route)))

/-- One round: the ways of one more hop to every node. `ways` holds the best way of each address so far. -/
def routeRound (s : State) (nodes : List Nat) (ways : List (Nat × Way)) : List (Nat × Way) :=
  nodes.filterMap (fun a =>
    let own := (ways.find? (fun w => w.1 == a)).map (·.2)
    let best := ways.foldl (fun (best : Option Way) w =>
      let relays := w.1 == 0 || (w.1 != a && (s.node w.1).live)
      match (if relays then linkCost (s.linkQ w.1 a) else none) with
      | none => best
      | some c =>
        let way : Way := { cost := w.2.cost + c, route := if w.1 = 0 then [] else w.2.route ++ [w.1] }
        match best with
        | none => some way
        | some b => if way.better b then some way else some b) own
    best.map (fun w => (a, w)))

/-- The best ways of at most `n` hops (R388). -/
def routesOf (s : State) (nodes : List Nat) : Nat → List (Nat × Way)
  | 0 => []
  | n + 1 => routeRound s nodes ((0, { cost := 0, route := [] }) :: routesOf s nodes n)

/-- The cost of a route in use, none when one of its links is not usable or a repeater of it is absent. -/
def State.routeCost (s : State) (route : List Nat) (a : Nat) : Option Nat :=
  if !route.all (fun r => (s.node r).live) then none else
  (routeLinks route a).foldl (fun (acc : Option Nat) l =>
    match acc, linkCost (s.linkQ l.1 l.2) with
    | some c, some d => some (c + d)
    | _, _ => none) (some 0)

/-- Addresses that share a neighbour with `a`. -/
def State.sharesNeighbour (s : State) (a b : Nat) : Bool :=
  let near := fun (x : Nat) => s.net.neighbours.filterMap (fun l =>
    if l.hearing = x then some l.heard else if l.heard = x then some l.hearing else none)
  (near a).any (fun x => (near b).contains x)

/-- The relay phase of a new repeater (R380): held by the fewest repeaters that share a neighbour with it. -/
def State.phaseFor (s : State) (a : Nat) : Nat :=
  let count := fun (r : Nat) => (s.joined.filter (fun b =>
    b != a && (s.node b).repeater && (s.node b).relayPhase == r && s.sharesNeighbour a b)).length
  [1, 2, 3].foldl (fun best r => if count r < count best then r else best) 0

/-- A node gains or loses the role of repeater (R388). -/
def setRole (a : Nat) (on : Bool) (s : State) : State :=
  if (s.node a).repeater = on then s
  else
    let ph := if on then s.phaseFor a else 0xFF
    saveNode a (s.modNode a (fun n => { n with repeater := on, relayPhase := ph, order := if on then n.order else 0, roleDue := true }))

/-- The roles that the routes give, then the broadcast orders (R388). -/
def setRoles (s : State) : State :=
  let named := s.joined.flatMap (fun a => (s.node a).route)
  let s := s.joined.foldl (fun s a => setRole a (named.contains a) s) s
  let reps := s.byDepth (s.joined.filter (fun a => (s.node a).repeater))
  (reps.zip (List.range reps.length)).foldl (fun s x =>
    if (s.node x.1).order = x.2 + 1 then s
    else saveNode x.1 (s.modNode x.1 (fun n => { n with order := x.2 + 1, roleDue := true }))) s

/-- The routes computed again (R388): a present route stays unless a link of it is not usable or a new one costs
less than 3/4 of it. -/
def reroute (s : State) : State :=
  let ways := routesOf s s.joined s.view.maxHops
  setRoles (s.joined.foldl (fun s a =>
    match ways.find? (fun w => w.1 == a) with
    | none => s
    | some (_, w) =>
      let keep : Bool := match s.routeCost (s.node a).route a with
        | some c => decide (3 * c ≤ 4 * w.cost)
        | none => false
      if keep || w.route = (s.node a).route then s
      else saveNode a (countNet 8 (s.modNode a (fun n => { n with route := w.route })))) s)

/-- The role that ROLE_SET gives a node (R375). -/
def Node.role (n : Node) : Bytes := [BitVec.ofNat 8 (flag n.repeater), BitVec.ofNat 8 n.relayPhase, BitVec.ofNat 8 n.order, 0]

/-- A node has a usable route. -/
def State.reachable (s : State) (a : Nat) : Bool := (s.routeCost (s.node a).route a).isSome

/-! ### Presence (R392) -/

/-- A node becomes absent: it is logged, and every node left without a usable route goes with a repeater. -/
def loseNode (a : Nat) (s : State) : State :=
  if !(s.node a).live then s
  else
    (countNet 7 ((s.modNode a (fun n => { n with state := .absent, absentSince := s.upSec, awaited := false })).raise 0x81
      ((s.node a).evidence a))).setIrq .zlink

/-- A node is lost after its third failure; when it was a repeater, nodes that then have no usable route are lost
at once, and the routes are computed again whenever a node has become absent (R388, R392). -/
def nodeAbsent (a : Nat) (s : State) : State :=
  let rep := (s.node a).repeater
  let s := reroute (loseNode a s)
  if rep then
    reroute (s.joined.foldl (fun s b => if (s.node b).live && !s.reachable b then loseNode b s else s) s)
  else s

/-- A frame was heard from a node (R392): its failures are cleared, and an absent or rejoined node is present. -/
def nodeHeard (a : Nat) (s : State) : State :=
  let st := (s.node a).state
  if a = 0 || st == .free then s
  else
    let s := s.modNode a (fun n => { n with state := .present, failures := 0, heardSec := s.sec })
    if st == .absent then reroute s else s

/-! ### Forming and restoring (R382, R385, R408) -/

/-- The node table is discarded and the network forms (R385). -/
def formNetwork (s : State) : State :=
  let used := s.joined
  let s := { s with net :=
    { s.net with
      state := .forming, form := s.net.form + 1, nodes := List.replicate 256 {}, neighbours := [], candidates := []
      trans := none, lastJoinSec := s.upSec, firstBeaconSec := none } }
  saveHead (used.foldl (fun s a => saveNode a s) s)

/-- A node as its record restores it (R382): rejoined until it is heard. -/
def nodeOf (b : Bytes) : Node :=
  if bit 0 (getU b 0 1) then
    { state := .rejoined, repeater := bit 1 (getU b 0 1), relayPhase := getU b 1 1, order := getU b 2 1
      awaited := bit 1 (getU b 0 1), bin := getU b 3 1, uid := getU b 4 8, route := (((b.drop 12).take 6).map (·.toNat)).filter (· != 0) }
  else {}

/-- The node table restored from the store. -/
def restoreNodes (s : State) : State :=
  let s := (List.range 255).foldl (fun s a => countRing (Ring.node (a + 1)) s) s
  let m := s.store.seen
  { s with net.nodes := tab 256 (fun a =>
      if a = 0 then {} else
        match newestSlot m (Ring.node a) with
        | some (_, _, b) => nodeOf b
        | none => {}) }

/-- The network at a start (R385, R536): a warm start rejoins the saved table when its head names the configured
NET_ID; otherwise the table is discarded and the network forms, whether or not ZL_ENABLE is 1 yet (R378, R382). A unit held
off keeps its table for its release (R547). -/
def startNetwork (warm : Bool) (s : State) : State :=
  let s := countRing Ring.network s
  let head := (newestSlot s.store.seen Ring.network).map (·.2.2)
  let s := { s with net.form := BitVec.ofNat 8 (match head with | some b => getU b 2 1 | none => 0) }
  if !s.part.fitZlk || s.held 4 then { s with net.state := .off }
  else
    let match_ : Bool := match head with
      | some b => getU b 0 2 == s.view.netId
      | none => false
    if warm && match_ then { (restoreNodes s) with net.state := .rejoining }
    else formNetwork (restoreNodes s)

/-- While rejoining, the network is steady once every repeater of the saved table has answered or become absent (R385). -/
def endRejoin (s : State) : State :=
  if s.net.state == .rejoining && s.joined.all (fun a => !(s.node a).awaited) then { s with net.state := .steady } else s

/-! ### Reports of θ (R361–R363) -/

/-- The check offset of a node is measured on every frame of its own that the device receives, relayed or not (R361). -/
def noteCheck (a check : Nat) (s : State) : State :=
  if a = 0 || (s.node a).state == .free then s else s.modNode a (fun n => { n with thetaCheck := check })

/-- A report's bin: a node's bin changes after three consistent reports of a new one, and raises ZLINK. -/
def reportBin (a theta : Nat) (s : State) : State :=
  let s := s.modNode a (fun n => { n with theta := theta })
  match s.assignBin theta (s.node a).thetaCheck with
  | none => s
  | some b =>
    let n := s.node a
    if b = n.bin then s.modNode a (fun n => { n with binRun := 0 })
    else
      let run := if n.binCandidate = b && n.binRun ≠ 0 then n.binRun + 1 else 1
      if run = 3 then
        (saveNode a (s.modNode a (fun n => { n with bin := b, binRun := 0 }))).setIrq .zlink
      else s.modNode a (fun n => { n with binCandidate := b, binRun := run })

/-! ### Balances (R396–R399, R403) -/

/-- Balances are formed: enabled, both units fitted, and neither is held off. -/
def State.balanceOn (s : State) : Bool :=
  s.view.balOn && s.part.fitXa && s.part.fitZlk && !s.held 3 && !s.held 4

/-- A record of a node. -/
def Node.record (n : Node) (k : Nat) : Option NodeRecord := n.records.find? (fun r => r.latch == k)

/-- What a node gives to a balance (R396). -/
inductive NodeShare where
  | leftOut | missing | reset | energy (e : Int)
deriving DecidableEq, Repr

/-- The share of a node in balance `b`. -/
def Node.share (b : OpenBalance) (n : Node) : NodeShare :=
  let late : Bool := match n.joinedAt with
    | some t => decide (b.instantPrev < t)
    | none => false
  if late then .leftOut
  else
    match n.record b.kPrev, n.record b.k with
    | some r0, some r1 =>
      let di : Nat := (r1.imported + 2 ^ 48 - r0.imported) % 2 ^ 48
      let de : Nat := (r1.exported + 2 ^ 48 - r0.exported) % 2 ^ 48
      if 2 ^ 47 ≤ di || 2 ^ 47 ≤ de then .reset else .energy ((di : Int) - de)
    | _, _ => .missing

/-- A sum in 2^−48 quanta as mWh, to nearest (R397). -/
def milliWh (quantum : Nat) (x : Int) : Int := roundEven (x * 10 ^ quantum) (1000 * 2 ^ 48)

/-- The ratio of R398. -/
def lossRatio (d f : Int) : Bytes :=
  if f = 0 then [0, 0, 0, 0x80]
  else
    let r := if 0 < f then roundEven (d * 10 ^ 6) f.toNat else roundEven (-(d * 10 ^ 6)) (-f).toNat
    leInt 4 (clamp (-(2 ^ 31 - 1)) (2 ^ 31 - 1) r)

/-- One phase of a balance record (R403): feeder energy and the shares of the nodes of its two bins. -/
def phaseBytes (f : Int) (p : Nat) (shares : List (Nat × NodeShare)) : Bytes :=
  let mine := shares.filter (fun x => x.1 == p || x.1 == p + 3)
  let given := mine.filterMap (fun x => match x.2 with | .energy e => some (x.1, e) | _ => none)
  let n := sumBy (·.2) given
  leInt 8 f ++ leInt 8 n ++ leInt 8 (f - n) ++ lossRatio (f - n) f ++
    [BitVec.ofNat 8 given.length, BitVec.ofNat 8 (mine.filter (fun x => x.2 == .missing)).length,
      BitVec.ofNat 8 (given.filter (fun x => x.1 == p + 3)).length, 0]

/-- A balance record (R403). -/
def State.balanceBytes (s : State) (b : OpenBalance) (deadline : Bool) : Bytes :=
  let shares := b.nodes.map (fun x => (x.2.1, (s.node x.1).share b))
  let feed := fun (p : Nat) => sumBy (fun (x : FeedSum) => milliWh (s.view.svcQuantum x.service) x.sum)
    (b.feeds.filter (fun x => x.phase == p))
  let un := shares.filter (fun x => x.1 == 0)
  let unE := un.filterMap (fun x => match x.2 with | .energy e => some e | _ => none)
  let flags := b.flags ||| flag (shares.any (fun x => x.2 == .missing)) ||| 2 * flag deadline |||
    128 * flag (shares.any (fun x => x.2 == .reset))
  leBytes 2 b.k ++ [BitVec.ofNat 8 flags, 0] ++ timeBytes b.tickPrev ++ timeBytes b.tick ++
    phaseBytes (feed 1) 1 shares ++ phaseBytes (feed 2) 2 shares ++ phaseBytes (feed 3) 3 shares ++
    leInt 8 (sumBy id unE) ++
    [BitVec.ofNat 8 unE.length, BitVec.ofNat 8 (un.filter (fun x => x.2 == .missing)).length] ++ zeros 6

/-- The oldest open balance is published. A suspension of extended analysis forms none (R400). -/
def publishBalance (deadline : Bool) (s : State) : State :=
  match s.net.openBalances with
  | [] => s
  | b :: bs =>
    let r := s.balanceBytes b deadline
    let s := b.nodes.foldl (fun s x =>
      s.modNode x.1 (fun n => { n with reset := n.share b == .reset })) s
    { s with net.openBalances := bs
             net.balances := if s.balanceOn && !s.xa.suspended then (r :: s.net.balances).take 16 else s.net.balances }

/-- A node has nothing more to give to a balance (R395): it holds both records, or it has been lost; one that was absent at
the balance boundary is not waited for. -/
def Node.doneFor (b : OpenBalance) (wanted : Bool) (n : Node) : Bool :=
  !wanted || ((n.record b.kPrev).isSome && (n.record b.k).isSome) || !n.live ||
    (match n.joinedAt with | some t => decide (b.instantPrev < t) | none => false)

/-- The oldest open balance can be published: every node is done for it, and its feeder sums are in. -/
def State.balanceReady (s : State) : Bool :=
  match s.net.openBalances with
  | [] => false
  | b :: _ => b.handed && b.nodes.all (fun x => (s.node x.1).doneFor b x.2.2)

/-- Open balances are published, oldest first, as far as they are ready. -/
def publishReady : Nat → State → State
  | 0, s => s
  | fuel + 1, s => if s.balanceReady then publishReady fuel (publishBalance false s) else s

/-- Every open balance that is ready is published (R395). -/
def tryPublish (s : State) : State := publishReady s.net.openBalances.length s

/-- BALANCE_DEADLINE (R395). -/
def balanceDeadline (s : State) : State :=
  match s.net.openBalances with
  | [] => s
  | b :: _ => if b.handed && decide (b.deadline ≤ s.instantNow) then publishBalance true s else s

/-- BALANCE_DEADLINE (R395). -/
def execBalanceDeadline (s : State) : Outcome := edge balanceDeadline s

/-- The phase of an element of a feeder service (R362, R397). -/
def View.feedPhase (v : View) (u : Nat) : Nat :=
  match (v.lineChans.zip [1, 2, 3]).find? (fun x => x.1 == u) with
  | some x => x.2
  | none => 0

/-- A sum added to the running sums. -/
def addFeed (svc e p : Nat) (x : Int) (l : List FeedSum) : List FeedSum :=
  let same := fun (f : FeedSum) => f.service == svc && f.elem == e && f.phase == p
  if l.any same then l.map (fun (f : FeedSum) => (if same f then { f with sum := f.sum + x } else f : FeedSum))
  else l ++ [{ service := svc, elem := e, phase := p, sum := x }]

/-- Flags gathered for the balance whose sums are running: the open one whose boundary the samples have not reached,
else the next (R403). -/
def markFeed (flags : Nat) (s : State) : State :=
  if s.net.openBalances.any (fun b => !b.handed) then
    { s with net.openBalances := s.net.openBalances.map (fun (b : OpenBalance) =>
        (if b.handed then b else { b with flags := b.flags ||| flags } : OpenBalance)) }
  else { s with net.feedFlags := s.net.feedFlags ||| flags }

/-- The feeder elements take one reckoned sample (R397): the signed P̄_e of live elements; FEED_FLAGGED where a
channel of a feeder carried a flag. -/
def feedSample (flagged : Nat → Bool) (s : State) : State :=
  if !s.balanceOn then s else
  let v := s.view
  let plans := v.plans.filter (fun p => v.feeds p.n)
  let feeds := plans.foldl (fun l p =>
    p.elems.foldl (fun l e =>
      let x := (s.billing.services.getD p.n {}).elements.getD e.elem {}
      if x.live then addFeed p.n e.elem (v.feedPhase (e.volt - 48)) x.pbar l else l) l) s.net.feeds
  markFeed (8 * flag (plans.any (fun p => flagged p.n))) { s with net.feeds := feeds }

/-- The engine hands the sums of a balance over once every sample stamped below ceil(A_k) is in (R397). -/
def handFeeds (stamp : Nat) (s : State) : State :=
  if s.net.openBalances.any (fun b => !b.handed && decide (b.until_ ≤ stamp + 1)) then
    tryPublish
      { s with
        net.feeds := []
        net.openBalances := s.net.openBalances.map (fun (b : OpenBalance) =>
          (if !b.handed && decide (b.until_ ≤ stamp + 1) then { b with handed := true, feeds := s.net.feeds } else b : OpenBalance)) }
  else s

/-- A latch superframe begins (R393, R395): its anchor is the balance boundary A_k, and a balance opens. -/
def passLatch (number boundary anchor : Nat) (s : State) : State :=
  let tick := s.timeNear anchor
  let len := s.view.profile
  let synth := s.line.anchor == .synthesised
  let prev : Nat × Nat × Nat := match s.net.lastLatch with
    | some p => (p.number, p.tick, p.instant)
    | none =>
      let o := s.net.origin.getD (number - 1, (boundary - len) * tps)
      (o.1, o.2, 0)
  let nodes := s.joined.map (fun a => (a, (s.node a).bin, (s.node a).live))
  let b : OpenBalance :=
    { k := number, kPrev := prev.1, tickPrev := prev.2.1, instantPrev := prev.2.2, tick := tick, until_ := strobeOf anchor
      flags := s.net.feedFlags ||| 32 * flag synth, deadline := anchor + max len 900 * 16000 * 65536, nodes := nodes }
  { s with
    net.latchAt := none
    net.nodes := s.net.nodes.map (fun (n : Node) => ({ n with collected := none } : Node))
    net.lastLatch := some { number := number, instant := anchor, tick := tick }
    net.feedFlags := 32 * flag synth
    net.openBalances := s.net.openBalances ++ [b] }

/-- The next latch superframe is fixed when its predicted distance comes to 16 superframes (R393): 50 cycles at
f_b each. A boundary nearer than that to the first beacon gets none, and the span runs on from the latch before it. -/
def fixLatch (anchor : Nat) (s : State) : State :=
  let len := s.view.profile
  let t := s.timeNear anchor
  let bound := (t / tps / len + 1) * len
  let freq := (s.billing.buses.getD s.view.zlBus {}).freq
  let period := 50 * periodOf freq
  let left := (bound * tps - t) * 16000 * 65536
  let d := (left + tps * period - 1) / (tps * period)
  let silent := s.start.firstBeacon = 0xFFFFFFFF
  let s := match s.net.latchAt with
    | some (m, _, _) => if silent && m < s.net.superframe.toNat + 16 then { s with net.latchAt := none } else s
    | none => s
  if s.net.latchAt.isSome || bound ≤ s.net.lastBoundary || 16 < d then s
  else
    let s' := { s with
      net.lastBoundary := bound
      net.origin := some (s.net.origin.getD (bound / len - 1, (bound - len) * tps)) }
    if d < 16 && silent then s'
    else { s' with net.latchAt := some (s.net.superframe.toNat + d, bound / len, bound) }

/-! ### Superframes (R371, R378) -/

/-- f_b of ZL_BUS lies within ±5 % of nominal. -/
def State.lineFreqOk (s : State) : Bool :=
  let f := (s.billing.buses.getD s.view.zlBus {}).freq
  let n := freqOfHz (s.view.busFnom s.view.zlBus)
  95 * n ≤ 100 * f && 100 * f ≤ 105 * n

/-- The device may send (R378): the unit in service, neither held off nor cut, f_b near nominal, and the sluice not in
HOLD. -/
def State.netOpen (s : State) : Bool := s.lineOn && s.line.usable && s.lineFreqOk && !s.sluice.hold

/-- JOIN_OPEN of the beacons (R385). -/
def State.joinOpen (s : State) : Bool := s.net.state == .forming || (s.net.state != .off && s.view.joinOn)

/-- A beacon's body (R376). -/
def State.beaconBody (s : State) : Bytes :=
  let at_ := match s.net.latchAt with | some (m, _, _) => m | none => 0
  let k := match s.net.latchAt with | some (_, k, _) => k | none => 0
  leBytes 4 s.net.superframe.toNat ++
    [BitVec.ofNat 8 (flag s.joinOpen + 2 * flag (s.net.state == .forming) + 4 * flag (s.net.state == .rejoining) +
      8 * flag s.net.latchAt.isSome)] ++
    leBytes 4 at_ ++ leBytes 2 k ++ [BitVec.ofNat 8 s.net.form.toNat, 0]

/-- The crossing of L1 that is `n` cycles behind the last beacon anchor: as the newest known crossing and the period give
it. -/
def State.cycleInstant (s : State) (n : Nat) : Nat :=
  let p := periodOf (s.billing.buses.getD s.view.zlBus {}).freq
  let a := s.net.anchor
  match s.line.crossings.head? with
  | some c => if a ≤ c then ((c : Int) + ((n : Int) - ((2 * (c - a) + p) / (2 * p) : Nat)) * p).toNat else a + n * p
  | none => a + n * p

/-- The instant from which superframe 0 may begin: 2.000 s from the release of reset, with which the strobe count starts
(R378; log entry 183). -/
def networkStart : Nat := 32000 * 65536

/-- The beacon anchor of the superframe that begins (R371, R378): 50 cycles behind the last one, or the first crossing of
L1 at or after 2.000 s from the release of reset. -/
def State.beaconAnchor (s : State) : Nat :=
  if s.net.started then s.cycleInstant 50
  else
    match (s.line.crossings.filter (fun c => decide (networkStart ≤ c))).getLast?, s.line.crossings.head? with
    | some c, _ => c
    | none, some c => c + periodOf (s.billing.buses.getD s.view.zlBus {}).freq
    | none, none => s.instantNow

/-- A beacon is sent, or counted as not sent while a condition of R378 fails. -/
def beacon (s : State) : State :=
  let f : NetFrame := { type := 1, hops := 0, netId := s.view.netId, seq := 0, body := s.beaconBody }
  let s' := transmit f.bytes s.net.anchor s
  if s.netOpen && s'.line.state = .transmitting && s.line.state != .transmitting then
    let s' := countNet 0 { s' with net.beaconing := true }
    let s' := if s'.net.firstBeaconSec.isNone then { s' with net.firstBeaconSec := some s.upSec } else s'
    if s'.start.firstBeacon = 0xFFFFFFFF then
      { s' with start.firstBeacon := s.sinceRelease 1000 }
    else s'
  else countNet 1 { s with net.beaconing := false }

/-- SUPERFRAME_START: the superframe's number, its latch, and its beacon. They are counted while the network is held and
while ZL_ENABLE is 0 too (R378). -/
def superframeStart (s : State) : State :=
  if !s.awake || s.net.state == .off || (!s.net.started && s.instantNow < networkStart) then s else
  let n := if s.net.started then s.net.superframe + 1 else 0
  let anchor := s.beaconAnchor
  let s := { s with net.superframe := n, net.started := true, net.slot := 0, net.anchor := anchor }
  let s := match s.net.latchAt with
    | some (m, k, b) => if m % 2 ^ 32 = n.toNat then passLatch k b anchor s else s
    | none => s
  endRejoin (beacon (fixLatch anchor s))

/-- SUPERFRAME_START (R371, R378, R393). -/
def execSuperframeStart (s : State) : Outcome := edge superframeStart s

/-! ### Transactions (R389–R391) -/

/-- A STATUS_REQ is due to a node (R391 kind 6): every joined node while forming; otherwise repeaters and absent
nodes every 15 min. -/
def State.pollDue (s : State) (a : Nat) : Bool :=
  let n := s.node a
  match s.net.state with
  | .forming => true
  | .steady => (n.repeater || n.state == .absent) && n.polledSec + 900 ≤ s.upSec
  | .rejoining => n.state == .absent && n.polledSec + 900 ≤ s.upSec
  | .off => false

/-- The node polled longest ago. -/
def State.oldestPolled (s : State) (as : List Nat) : Option Nat :=
  as.foldl (fun best a =>
    match best with
    | none => some a
    | some b => if (s.node a).polledSec < (s.node b).polledSec then some a else some b) none

/-- The records to ask of a node in the sweep after the newest latch (R395): from the oldest one it does not yet hold, behind
what the sweep has covered, to the newest, at most 8. Of what lies before the records it holds, only the one before the
newest latch is asked. -/
def State.reportAsk (s : State) (a : Nat) : Option (Nat × Nat) :=
  match s.net.lastLatch with
  | none => none
  | some p =>
    let n := s.node a
    let low := max (p.number - 15) ((n.records.getLast?.map (·.latch)).getD (p.number - 1))
    let from_ := match n.collected with | some c => max low (c + 1) | none => low
    let lacking := (List.range 16).map (from_ + ·) |>.filter (fun k => k ≤ p.number && (n.record k).isNone)
    lacking.head?.map (fun k => (k, min 8 (p.number + 1 - k)))

/-- The address a candidate is given (R384): its own, the lowest free one, or that of the node absent longest, for
24 h at least. -/
def State.addressFor (s : State) (uid : Nat) : Option Nat :=
  match s.joined.find? (fun a => (s.node a).uid == uid) with
  | some a => some a
  | none =>
    match addresses.find? (fun a => (s.node a).state == .free) with
    | some a => some a
    | none =>
      s.joined.foldl (fun best a =>
        let n := s.node a
        if n.state == .absent && n.absentSince + 86400 ≤ s.upSec then
          match best with
          | none => some a
          | some b => if n.absentSince < (s.node b).absentSince then some a else some b
        else best) none

/-- The first ZLINK_SEND in arrival order (R401). -/
def State.sendCommand (s : State) : Option (Nat × Nat × Bytes) :=
  s.link.outstanding.foldl (fun best c =>
    match best, c.work with
    | none, .zlinkSend n p _ => some (c.tag, n, p)
    | b, _ => b) none

/-- The route of a candidate: to its proxy, with the candidate as the last hop (R384). -/
def State.candidateRoute (s : State) (c : Candidate) : List Nat :=
  if c.proxy = 0 then [] else (s.node c.proxy).route ++ [c.proxy]

/-- The next transaction by the order of R391: node, kind and route. A ZLINK_SEND to node 0 stands as its
broadcast. -/
def State.nextTransaction (s : State) : Option (Nat × TransKind × List Nat) :=
  match s.joined.find? (fun a => (s.node a).roleDue && (s.node a).live) with
  | some a => some (a, .roleSet (s.node a).role, (s.node a).route)
  | none =>
  match (if s.net.state == .rejoining then
      s.joined.find? (fun a => (s.node a).awaited && (s.node a).live) else none) with
  | some a => some (a, .statusReq, (s.node a).route)
  | none =>
  match s.sendCommand with
  | some (tag, n, p) => some (n, .data tag p, (s.node n).route)
  | none =>
  match (if s.joinOpen then s.net.candidates.head? else none) with
  | some c =>
    (s.addressFor c.uid).map (fun a =>
      (a, .joinAccept c.uid, s.candidateRoute c))
  | none =>
  match (s.byDepth (s.joined.filter (fun a => (s.node a).live))).find? (fun a => (s.reportAsk a).isSome) with
  | some a => some (a, .reportReq ((s.reportAsk a).getD (0, 1)).1 ((s.reportAsk a).getD (0, 1)).2, (s.node a).route)
  | none =>
    (s.oldestPolled (s.joined.filter s.pollDue)).map (fun a => (a, .statusReq, (s.node a).route))

/-- TYPE and body of a request (R375). -/
def State.requestBody (s : State) (t : Transaction) : Nat × Bytes :=
  match t.kind with
  | .roleSet r => (0x40, r)
  | .statusReq => (0x22, [])
  | .data _ p => (0x30, p)
  | .joinAccept uid => (0x11, leBytes 8 uid ++ [BitVec.ofNat 8 t.node, BitVec.ofNat 8 s.net.form.toNat])
  | .reportReq first count => (0x20, leBytes 2 first ++ [BitVec.ofNat 8 count])

/-- A candidate is not yet a node: its destination is 0 (R374). -/
def TransKind.unjoined : TransKind → Bool
  | .joinAccept _ => true
  | .roleSet _ | .statusReq | .data _ _ | .reportReq _ _ => false

/-- The device's frame of a transaction. -/
def State.requestFrame (s : State) (t : Transaction) : Bytes :=
  let b := s.requestBody t
  ({ type := b.1, hops := t.route.length + 1, dst := if t.kind.unjoined then 0 else t.node, netId := s.view.netId
     seq := t.seq.toNat, try_ := t.try_, htry := t.hop, route := t.route, body := b.2 } : NetFrame).bytes

/-- The slot after one, with its superframe. -/
def slotAfter (n k : Nat) : Nat × Nat := if k < 4 then (n, k + 1) else (n + 1, 0)

/-- Data slots from one slot on until a frame of `w` slots that may begin there has ended: the first place with room for it
(R373, R390). -/
def slotsUntil (st : NetState) (w : Nat) : Nat → Nat × Nat → Nat
  | 0, _ => w
  | fuel + 1, x =>
    if w ≤ slotRoom st x.1 x.2 && dataSlot st x.1 x.2 then w
    else flag (dataSlot st x.1 x.2) + slotsUntil st w fuel (slotAfter x.1 x.2)

/-- Data slots of the frame that follows the device's own (R390): the forwarded one, or the node's answer to a direct
request, of which only that of a REPORT_REQ is longer than a slot by what it asks. -/
def Transaction.following (t : Transaction) (w : Nat) : Nat :=
  if !t.route.isEmpty then w
  else match t.kind with
    | .reportReq _ count => slotsFor (22 + 14 * count)
    | _ => 1

/-- The frame of the transaction in flight is sent, where it fits the data slots left in the superframe (R373). -/
def sendRequest (t : Transaction) (s : State) : State :=
  let f := s.requestFrame t
  let w := slotsFor f.length
  if slotRoom s.net.state s.net.superframe.toNat s.net.slot < w then s
  else
    let s' := transmit f (s.cycleInstant (10 * s.net.slot)) s
    if s'.line.state = .transmitting && s.line.state != .transmitting then
      let due := w + slotsUntil s.net.state (t.following w) 20 (slotAfter s.net.superframe.toNat (s.net.slot + w - 1))
      let age := if t.sent then t.age else 0
      let t' : Transaction := { t with sent := true, heard := false, wait := 0, age := age, due := due }
      let s' := { s' with net.trans := some t' }
      match t.kind with
      | .data tag p => s'.setWork tag (.zlinkSend t.node p true)
      | _ => s'
    else s

/-- A broadcast of a host payload is sent (R401): each group of data slots is as long as the frame, one for the
device and one for each broadcast order. -/
def sendBroadcast (tag : Nat) (p : Bytes) (s : State) : State :=
  let f := ({ type := 0x30, hops := 0, bcast := true, netId := s.view.netId, seq := s.net.nextSeq.toNat, body := p } : NetFrame).bytes
  let w := slotsFor f.length
  if slotRoom s.net.state s.net.superframe.toNat s.net.slot < w then s
  else
    let s' := transmit f (s.cycleInstant (10 * s.net.slot)) s
    if s'.line.state = .transmitting && s.line.state != .transmitting then
      let orders := (s.joined.map (fun a => (s.node a).order)).foldl max 0
      { s'.setWork tag (.zlinkSend 0 p true) with
        net.nextSeq := s.net.nextSeq + 1, net.broadcastLeft := some (w * (1 + orders)) }
    else s

/-- The refused candidate is dropped and counted (R384). One whose proxy lies too deep for a hop more is no candidate
(log entry 209). -/
def refuseCandidate (s : State) : State :=
  let near := s.net.candidates.filter (fun c => (s.candidateRoute c).length < s.view.maxHops)
  let s := { s with net.candidates := near }
  match near with
  | c :: cs => if s.joinOpen && (s.addressFor c.uid).isNone then countNet 6 { s with net.candidates := cs } else s
  | [] => s

/-- The address of a node absent longest is reclaimed for another UID, and logged (R384): it is free from here on. -/
def reclaim (a uid : Nat) (s : State) : State :=
  let old := s.node a
  if old.state == .free || old.uid == uid then s
  else
    let s := (s.raise 0x82 (old.evidence a)).modNode a (fun _ => {})
    saveNode a { s with net.neighbours := s.net.neighbours.filter (fun l => l.hearing != a && l.heard != a) }

/-- A new transaction starts in a data slot (R391). -/
def startTransaction (s : State) : State :=
  let s := refuseCandidate s
  match s.nextTransaction with
  | none => s
  | some (0, .data tag p, _) => sendBroadcast tag p s
  | some (a, k, route) =>
    let gone : Bool := match k with
      | .data _ _ => (s.node a).state == .free
      | _ => false
    if gone then (match k with | .data tag _ => s.complete tag .timeout [] | _ => s)
    else
      let t : Transaction := { node := a, kind := k, route := route, seq := s.net.nextSeq }
      let s := match k with
        | .joinAccept uid => reclaim a uid s
        | _ => s
      let s := { s with net.nextSeq := s.net.nextSeq + 1, net.trans := some t
                        net.candidates := if k.unjoined then s.net.candidates.drop 1 else s.net.candidates }
      let polls : Bool := match k with | .statusReq => true | _ => false
      sendRequest t (if polls then s.modNode a (fun n => { n with polledSec := s.upSec }) else s)

/-- A data slot begins for the transaction in flight (R390): a frame not yet sent in this try is sent; one whose
following frame was not heard where it was due is sent again, at most twice. -/
def continueTransaction (t : Transaction) (s : State) : State :=
  if !t.sent then sendRequest t s
  else
    let t := { t with wait := t.wait + 1 }
    if t.heard || t.wait < t.due || 2 ≤ t.hop || s.line.state = .receiving then { s with net.trans := some t }
    else sendRequest { t with hop := t.hop + 1 } { s with net.trans := some t }

/-- SLOT_START: the next slot of the superframe; in a data slot the device sends what is due. -/
def slotStart (s : State) : State :=
  if !s.lineOn || !s.net.started || 4 ≤ s.net.slot then s else
  let s := { s with net.slot := s.net.slot + 1 }
  if !dataSlot s.net.state s.net.superframe.toNat s.net.slot then s else
  let s := { s with net.trans := s.net.trans.map (fun (t : Transaction) => ({ t with age := t.age + 1 } : Transaction)) }
  if !s.netOpen then s
  else
    match s.net.broadcastLeft with
    | some n =>
      if n ≤ 1 then
        let s := { s with net.broadcastLeft := none }
        match s.sendCommand with
        | some (tag, 0, _) => s.complete tag .ok []
        | _ => s
      else { s with net.broadcastLeft := some (n - 1) }
    | none =>
      match s.net.trans with
      | some t => continueTransaction t s
      | none => startTransaction s

/-- SLOT_START (R371–R373, R389–R391). -/
def execSlotStart (s : State) : Outcome := edge slotStart s

/-- A transaction has failed (R392). -/
def failTransaction (t : Transaction) (s : State) : State :=
  let s := gradeRoute false t.route t.node (countNet 3 { s with net.trans := none })
  let s := match t.kind with
    | .data tag _ => s.complete tag .timeout []
    | _ => s
  if t.kind.unjoined then reroute s
  else
    let s := s.modNode t.node (fun n => { n with failures := n.failures + 1 })
    let s := if 3 ≤ (s.node t.node).failures then nodeAbsent t.node s else reroute s
    tryPublish (endRejoin s)

/-- ZL_TRANSACTION_TIMEOUT: 6h data slots after the first frame the transaction is tried again, or has failed after three
tries (R390). -/
def transactionTimeout (s : State) : State :=
  match s.net.trans with
  | none => s
  | some t =>
    if !t.sent || t.age < 6 * (t.route.length + 1) then s
    else if 2 ≤ t.try_ then failTransaction t s
    else countNet 4 { s with net.trans := some { t with try_ := t.try_ + 1, hop := 0, sent := false } }

/-- ZL_TRANSACTION_TIMEOUT (R390, R392). -/
def execZlTransactionTimeout (s : State) : Outcome := edge transactionTimeout s

/-! ### Frames received -/

/-- The node whose transmission the device heard: the originator, or the repeater that has completed this many hops of the
route, which is read from its far end on the way up (R374). -/
def NetFrame.sender (f : NetFrame) : Nat :=
  if f.hop = 0 || f.bcast || f.type = 0x10 then f.src
  else if f.up then f.route.getD (f.route.length - f.hop) f.src
  else f.route.getD (f.hop - 1) f.src

/-- The node whose own frame this is: an answer of it, on its way up; a relay beacon keeps the anchor of the device's (R361,
R377). -/
def NetFrame.owner (f : NetFrame) : Nat := if f.up && f.type != 0x10 then f.src else 0

/-- A frame of a type arrives: the receiver accepts it (R357), the check and the NET_ID are judged (R374), the node that
sent it is heard (R392), and the link to it is entered or refreshed, after which the routes are computed again (R387,
R388). -/
def hear (types : List Nat) (f : LineFrame) (k : HeardFrame → NetFrame → State → State) (s : State) : State :=
  if !s.hearsFrame f || !s.lineOn then s
  else
    let heard := (s.judgeFrame f).1
    let s := endReception f s
    match heard with
    | none => s
    | some h =>
      match readFrame h.payload with
      | none => s
      | some n =>
        if n.netId ≠ s.view.netId || !types.contains n.type then s
        else
          let who := n.sender
          let s1 := noteCheck n.owner (s.offsetAt h.anchor) s
          let s' := k h n (if who = 0 || (s.node who).state == .free then s1 else nodeHeard who (hearLink 0 who (s.marginOf h.level) s1))
          if s'.net.neighbours = s.net.neighbours then s' else reroute s'

/-- A transaction succeeds (R387, R392). -/
def endTransaction (t : Transaction) (s : State) : State :=
  nodeHeard t.node (gradeRoute true t.route t.node (countNet 2 { s with net.trans := none }))

/-- The answer of the transaction in flight: from its node, under its SEQ. -/
def State.answers (s : State) (n : NetFrame) : Option Transaction :=
  match s.net.trans with
  | some t => if t.sent && n.up && n.seq = t.seq.toNat && (n.src = t.node || (t.kind.unjoined && n.src = 0)) then some t else none
  | none => none

/-- A candidate waits for admission, once (R384). -/
def addCandidate (uid proxy margin : Nat) (s : State) : State :=
  if !s.joinOpen || s.net.candidates.any (fun c => c.uid == uid) then s
  else { s with net.candidates := s.net.candidates ++ [{ uid := uid, proxy := proxy, margin := margin }] }

/-- JOIN_REQ: a request received directly. -/
def joinReq (f : LineFrame) (s : State) : State :=
  hear [0x10] f (fun h n s => addCandidate (getU n.body 0 8) 0 (s.marginOf h.level) s) s

/-- JOIN_REQ (R383, R384). -/
def execJoinReq (f : LineFrame) (s : State) : Outcome := edge (joinReq f) s

/-- The node of an admission is entered as present (R384). -/
def enterNode (t : Transaction) (uid : Nat) (s : State) : State :=
  let s := s.modNode t.node (fun n =>
    { n with state := .present, uid := uid, route := t.route, failures := 0, heardSec := s.sec, polledSec := s.upSec
             joinedAt := some s.instantNow, records := [], collected := none })
  let s := saveNode t.node (s.raise 0x80 ((s.node t.node).evidence t.node))
  (countNet 5 { s with net.lastJoinSec := s.upSec }).setIrq .zlink

/-- What a STATUS says (R375): θ, the margin of the request's last hop, the neighbours and the held requests. Every STATUS
of a node is taken so (R387). -/
def takeStatus (a : Nat) (route : List Nat) (b : Bytes) (s : State) : State :=
  let s := reportBin a (getU b 0 2) s
  let s := hearLink a (route.getLast?.getD 0) (getU b 2 1) s
  let m := min 8 (getU b 3 1)
  let s := (List.range m).foldl (fun s i => hearLink a (getU b (4 + 2 * i) 1) (getU b (5 + 2 * i) 1) s) s
  let j := min 2 (getU b (4 + 2 * m) 1)
  (List.range j).foldl (fun s i => addCandidate (getU b (5 + 2 * m + 9 * i) 8) a (getU b (13 + 2 * m + 9 * i) 1) s) s

/-- STATUS: the answer to a STATUS_REQ, or of a candidate to its JOIN_ACCEPT; one that answers nothing in flight still says
what its node hears. -/
def status (f : LineFrame) (s : State) : State :=
  hear [0x23] f (fun h n s =>
    match s.answers n with
    | none => if (s.node n.src).state == .free then s else takeStatus n.src n.route n.body (nodeHeard n.src s)
    | some t =>
      let s := match t.kind with
        | .joinAccept uid =>
          noteCheck t.node (s.offsetAt h.anchor) (enterNode t uid
            (gradeRoute true t.route t.node (countNet 2 { s with net.trans := none })))
        | _ => endTransaction t s
      let s := s.modNode t.node (fun x => { x with awaited := false })
      endRejoin (reroute (takeStatus t.node t.route n.body s))) s

/-- STATUS (R384, R387). -/
def execStatus (f : LineFrame) (s : State) : Outcome := edge (status f) s

/-- A latch number of 16 bits completed to the number nearest below the newest. -/
def fullLatch (newest x : Nat) : Nat := newest - (newest + 65536 - x % 65536) % 65536

/-- A record of a node kept, newest first, at most 16 (R394). -/
def keepRecord (r : NodeRecord) (n : Node) : Node :=
  if (n.record r.latch).isSome then n
  else
    { n with records :=
        (n.records.filter (fun x => r.latch < x.latch) ++ r :: n.records.filter (fun x => x.latch < r.latch)).take 16 }

/-- What a REPORT says (R375): θ and the records, which are kept also when they come late (R395). -/
def takeReport (a : Nat) (b : Bytes) (s : State) : State :=
  let s := reportBin a (getU b 1 2) s
  match s.net.lastLatch with
  | none => s
  | some p =>
    let n := min 8 (getU b 3 1)
    let rs := (List.range n).map (fun i =>
      ({ latch := fullLatch p.number (getU b (4 + 14 * i) 2), imported := getU b (6 + 14 * i) 6
         exported := getU b (12 + 14 * i) 6 } : NodeRecord))
    rs.foldl (fun s r => s.modNode a (keepRecord r)) s

/-- The sweep has covered a node's records up to a latch; one without the newest was out of step there (R394, R402). -/
def noteSwept (a last : Nat) (s : State) : State :=
  s.modNode a (fun x => { x with
    collected := some last
    outOfStep := match s.net.lastLatch with | some p => (x.record p.number).isNone | none => x.outOfStep })

/-- REPORT: the answer to a REPORT_REQ, or a late one. -/
def report (f : LineFrame) (s : State) : State :=
  hear [0x21] f (fun _ n s =>
    match s.answers n with
    | none => if (s.node n.src).state == .free then s else tryPublish (takeReport n.src n.body (nodeHeard n.src s))
    | some t =>
      let s := endTransaction t s
      match t.kind with
      | .reportReq first count => tryPublish (noteSwept t.node (first + count - 1) (takeReport t.node n.body s))
      | _ => s) s

/-- REPORT (R395). -/
def execReport (f : LineFrame) (s : State) : Outcome := edge (report f) s

/-- DATA_ACK: the ZLINK_SEND of the transaction completes. -/
def dataAck (f : LineFrame) (s : State) : State :=
  hear [0x31] f (fun _ n s =>
    match s.answers n with
    | none => nodeHeard n.src s
    | some t =>
      let s := endTransaction t s
      match t.kind with
      | .data tag _ => s.complete tag .ok []
      | _ => s) s

/-- DATA_ACK (R401). -/
def execDataAck (f : LineFrame) (s : State) : Outcome := edge (dataAck f) s

/-- A node has taken the role that it was sent; one that has changed since is owed still (R388). -/
def TransKind.roleTaken (k : TransKind) (n : Node) : Node :=
  match k with
  | .roleSet r => { n with roleDue := n.roleDue && n.role != r }
  | _ => n

/-- ROLE_ACK: the node has its role. -/
def roleAck (f : LineFrame) (s : State) : State :=
  hear [0x41] f (fun _ n s =>
    match s.answers n with
    | none => nodeHeard n.src s
    | some t => (endTransaction t s).modNode t.node t.kind.roleTaken) s

/-- ROLE_ACK (R388). -/
def execRoleAck (f : LineFrame) (s : State) : Outcome := edge (roleAck f) s

/-- ZL_FRAME_OVERHEARD: the next hop has sent the following frame of the transaction (R390). -/
def frameOverheard (f : LineFrame) (s : State) : State :=
  hear [0x40, 0x22, 0x30, 0x11, 0x20] f (fun _ n s =>
    match s.net.trans with
    | some t =>
      if t.sent && !n.up && n.seq = t.seq.toNat && 0 < n.hop then { s with net.trans := some { t with heard := true } } else s
    | none => s) s

/-- ZL_FRAME_OVERHEARD (R387, R390). -/
def execZlFrameOverheard (f : LineFrame) (s : State) : Outcome := edge (frameOverheard f) s

/-- RELAY_BEACON_HEARD: neighbours are refreshed, and an absent node returns (R387, R392). -/
def relayBeacon (f : LineFrame) (s : State) : State :=
  hear [0x02] f (fun _ n s => nodeHeard n.src s) s

/-- RELAY_BEACON_HEARD (R387, R392). -/
def execRelayBeaconHeard (f : LineFrame) (s : State) : Outcome := edge (relayBeacon f) s

/-- FORMING_END: the expected count is reached, 10 min have passed without a join since the first beacon, or 60 min since it
(R385). -/
def formingEnd (s : State) : State :=
  let count := s.view.nodesExpected ≠ 0 && s.view.nodesExpected ≤ s.joined.length
  let passed : Bool := match s.net.firstBeaconSec with
    | some t => decide (max t s.net.lastJoinSec + 600 ≤ s.upSec) || decide (t + 3600 ≤ s.upSec)
    | none => false
  if s.net.state == .forming && (count || passed) then { s with net.state := .steady } else s

/-- FORMING_END (R385). -/
def execFormingEnd (s : State) : Outcome := edge formingEnd s

/-! ### Commands (R399, R401, R402, R408) -/

/-- ZLINK_SEND (R401). -/
def zlinkSend (p : Bytes) (s : State) : Answer × State :=
  let n := getU p 0 1
  if !s.view.zlOn then (refuse .wrongState, s)
  else if n ≠ 0 && (s.node n).state == .free then (refuse .notFound, s)
  else (.long (.zlinkSend n (p.drop 1) false), s)

/-- STATE of R381. -/
def NodeState.code : NodeState → Nat
  | .free => 0
  | .present => 1
  | .rejoined => 2
  | .absent => 3

/-- The node record of an address (R402). -/
def State.nodeBytes (s : State) (a : Nat) : Bytes :=
  let n := s.node a
  if n.state == .free then zeros 48
  else
    let r := n.records.headD { latch := 0, imported := 0, exported := 0 }
    [BitVec.ofNat 8 a, BitVec.ofNat 8 n.state.code] ++ leBytes 8 n.uid ++
      [BitVec.ofNat 8 n.depth, BitVec.ofNat 8 n.bin,
        BitVec.ofNat 8 (flag n.repeater + 2 * flag n.outOfStep + 4 * flag n.reset), BitVec.ofNat 8 n.relayPhase,
        BitVec.ofNat 8 n.order, BitVec.ofNat 8 (s.linkQ a (n.route.getLast?.getD 0))] ++
      leBytes 2 n.theta ++ leBytes 2 n.thetaCheck ++ leBytes 6 n.heardSec ++ leBytes 2 r.latch ++ leBytes 6 r.imported ++
      leBytes 6 r.exported ++ fit 6 (n.route.map (BitVec.ofNat 8)) ++ [BitVec.ofNat 8 n.failures, 0]

/-- ZLINK_NODES (R402). -/
def zlinkNodes (p : Bytes) (s : State) : Answer :=
  let first := getU p 0 1
  let n := getU p 1 1
  if first = 0 || n = 0 || 32 < n || 255 < first + n - 1 then refuse .badParam
  else .done .ok ((List.range n).flatMap (fun i => s.nodeBytes (first + i)))

/-- BALANCE_GET (R399, R59). -/
def balanceGet (p : Bytes) (s : State) : Answer :=
  let age := getU p 0 1
  if 15 < age then refuse .badParam
  else if !s.view.balOn || !s.part.fitXa then refuse .notFound
  else
    match s.net.balances[if s.xa.suspended then 0 else age]? with
    | some b => .done (if s.xa.suspended then .degraded else .ok) b
    | none => refuse .notFound

/-- The network command member (R408). -/
def networkCommand (v : Nat) (s : State) : Status × State :=
  if v ≠ 0x464E then (.badParam, s) else if !s.view.zlOn then (.wrongState, s) else (.ok, formNetwork s)

/-! ### Reads (R404–R408) -/

/-- Reads of class 5 instance 1 but for the settings. -/
def State.readNet (s : State) (m : Nat) : Bytes :=
  let x := s.net
  let st := if x.state != .off && !s.netOpen then 4
    else match x.state with | .off => 0 | .forming => 1 | .rejoining => 2 | .steady => 3
  let j := s.joined
  match m with
  | 0 => leBytes 8 (st * 2 ^ 61 + flag s.joinOpen * 2 ^ 60 + x.form.toNat * 2 ^ 48 + j.length * 2 ^ 40 +
      (j.filter (fun a => (s.node a).state == .absent)).length * 2 ^ 32 +
      (j.filter (fun a => (s.node a).repeater)).length * 2 ^ 24 + x.superframe.toNat % 2 ^ 24)
  | 3 => tabBytes 10 (fun k => leBytes 4 (x.counters.getD k 0).toNat)
  | 4 => zeros 2
  | _ => []

end Sys2Proof.Machine
end

