-- ==== Sys2Proof/Machine/Converters.lean ====
section
/-! DEFINITION. Converters.lean: the auxiliary converters (chapter "Auxiliary converter unit"): sequence tables,
triggers, results, the queue of tagged words, comparators and the objects of class 6. -/

namespace Sys2Proof.Machine
open Sys2Proof

/-! ### Time and parts -/

/-- A converter changed. -/
def State.modConv (k : Nat) (f : Converter → Converter) (s : State) : State :=
  { s with aux.converters := modAt s.aux.converters k f }

/-- A converter. -/
def State.conv (s : State) (k : Nat) : Converter := s.aux.converters.getD k {}

/-- An event of the unit brings the aux time forward. -/
def auxAt (t : Nat) (s : State) : State :=
  if s.auxNow < t then { s with aux.auxTime := BitVec.ofNat 48 t } else s

/-- The first converter clock at or after an aux time: 24.576 of them to a µs (R410). -/
def clockOf (t : Nat) : Nat := (t * 3072 + 124) / 125

/-- The aux time of a converter clock. -/
def microsOf (c : Nat) : Nat := c * 125 / 3072

/-- Clocks of a conversion cycle, of which the first 8 are acquisition (R410). -/
def cycleClocks : Nat := 24

/-- The chronicle tick of an aux time (R411, R30). -/
def State.auxTick (s : State) (t : Nat) : Nat := s.timeNear (t * 131072 / 125)

/-! ### Table entries (R415) -/

/-- CH. -/
def entryCh (w : Nat) : Nat := field 31 27 w
/-- WIN. -/
def entryWin (w : Nat) : Nat := field 26 24 w
/-- REPEAT. -/
def entryRepeat (w : Nat) : Nat := field 23 16 w
/-- DELAY. -/
def entryDelay (w : Nat) : Nat := field 15 0 w

/-- An entry that a table may hold (R415, R427). -/
def entryOk (w : Nat) : Bool := entryCh w != 29 && (entryCh w < 30 || w % 2 ^ 27 == 0)

/-- Entry `e` of converter `k`. -/
def State.auxEntry (s : State) (k e : Nat) : Nat := (s.conv k).table.getD e 0xF8000000

/-- The table of a converter has a WAIT entry (R416, R422). -/
def Converter.waits (c : Converter) : Bool := c.table.any (fun w => entryCh w == 30)

/-! ### The queue (R422, R423) -/

/-- A loss mark of R422. -/
def lossMark (n : Nat) : Nat := 3 * 2 ^ 30 + min n 65535

/-- Once space has freed, the loss mark takes the place of the gap (R423). -/
def markLoss (a : Aux) : Aux :=
  if a.lost = 0 || 256 ≤ a.queue.length then a
  else { a with queue := a.queue ++ [lossMark a.lost], lost := 0 }

/-- A tagged word enters the queue, or is lost when the queue is full. -/
def pushWord (w : Nat) (a : Aux) : Aux :=
  let a := markLoss a
  if a.queue.length < 256 then { a with queue := a.queue ++ [w] }
  else { a with lost := a.lost + 1, queueLost := true }

/-- A time mark of R422. -/
def timeMark (k : Nat) (late loop : Bool) (t : Nat) : Nat :=
  2 ^ 31 + k * 2 ^ 29 + flag late * 2 ^ 28 + flag loop * 2 ^ 27 + t % 2 ^ 27

/-! ### Running a table (R416, R417, R420) -/

/-- Converter `k` begins entry `e` at converter clock `t`: a conversion starts; WAIT takes a pending trigger or
waits; END or the end of the table returns to entry 0. `fuel` bounds one pass; a table without conversion
and without WAIT comes to rest at entry 0. -/
def beginEntry (k t : Nat) : Nat → Nat → State → State
  | 0, _, s => s.modConv k (fun c => { c with entry := 0, done := 0, state := .converting, clock := t })
  | fuel + 1, e, s =>
    let c := s.conv k
    let w := s.auxEntry k e
    if 64 ≤ e || entryCh w = 31 then
      if !(c.waits || c.table.any (fun w => entryCh w < 30)) then
        s.modConv k (fun c => { c with entry := 0, done := 0, state := .converting, clock := t })
      else
        let s := if c.waits then s else { s with aux := pushWord (timeMark k false true (microsOf t)) s.aux }
        beginEntry k t fuel 0 s
    else
    let s := if e = 0 then s.modConv k (fun c => { c with begun := true }) else s
    if entryCh w = 30 then
      if c.pendingTrig then
        let s := s.modConv k (fun c => { c with pendingTrig := false, taken := c.taken + 1, late := c.late + 1 })
        beginEntry k t fuel (e + 1) { s with aux := pushWord (timeMark k true false (microsOf t)) s.aux }
      else s.modConv k (fun c => { c with entry := e, done := 0, state := .waiting })
    else s.modConv k (fun c => { c with entry := e, done := 0, state := .converting, clock := t, extra := 0, gap := 0 })

/-- In paired mode C1 stands where C0 stands (R417). -/
def pairUp (s : State) : State :=
  if !s.view.auxPaired then s else
  let c := s.conv 0
  s.modConv 1 (fun d => { d with state := c.state, entry := c.entry, done := c.done, badPass := c.badPass, clock := c.clock })

/-- A converter begins entry `e`, once an urgent conversion has ended. -/
def goEntry (k t e : Nat) (s : State) : State := pairUp (beginEntry k (max t (s.conv k).busy) 130 e s)

/-- A converter starts at entry 0; a table without WAIT queues its LOOP mark (R416, R422). -/
def startTable (k t : Nat) (s : State) : State :=
  let c := s.conv k
  let s :=
    if c.waits || !c.table.any (fun w => entryCh w < 30) then s
    else { s with aux := pushWord (timeMark k false true (microsOf (max t c.busy))) s.aux }
  goEntry k t 0 s

/-- The converters that act with converter `k`: in paired mode both (R417, R427, R437). -/
def State.auxGroup (s : State) (k : Nat) : List Nat := if s.view.auxPaired then [0, 1] else [k]

/-- The converter whose table and settings lead: C0 in paired mode (R417). -/
def State.auxLead (s : State) (k : Nat) : Nat := if s.view.auxPaired then 0 else k

/-- The converter clock at which the cycle in progress ends. -/
def Converter.cycleEnd (now : Nat) (c : Converter) : Nat :=
  if c.state = .converting && c.clock < now then
    max c.busy (c.clock + (now - c.clock + cycleClocks - 1) / cycleClocks * cycleClocks)
  else c.busy

/-- Cycles of the result in progress that have run once the cycle in progress has ended, without urgent ones (R421). -/
def Converter.cyclesRun (now : Nat) (c : Converter) : Nat :=
  if c.state = .converting && c.clock < now then (c.cycleEnd now - c.clock - c.extra - c.gap) / cycleClocks else 0

/-- The result in progress. -/
def State.thisResult (s : State) (k : Nat) : LastResult :=
  let c := s.conv k
  let n := s.view.auxOsr k
  { entry := c.entry, word := s.auxEntry k c.entry, codes := n, last := c.clock + cycleClocks * n + c.extra, bad := c.badPass
    pairWord := if s.view.auxPaired then some (s.auxEntry 1 c.entry) else none }

/-- The result that completes with the cycle in progress, where that is its last (R416, R437). -/
def State.lastResult (s : State) (k now : Nat) : Option LastResult :=
  let c := s.conv k
  if s.auxLead k = k && c.state = .converting && s.view.auxOsr k ≤ c.cyclesRun now then some (s.thisResult k) else c.closing

/-- A converter stops at a converter clock, at the end of its cycle in progress. What ran of an unfinished result counts as
conversion cycles (R437). -/
def State.stopAt (s : State) (k now : Nat) : State :=
  let lead := s.conv (s.auxLead k)
  let cut := if s.view.auxOsr (s.auxLead k) ≤ lead.cyclesRun now then 0 else lead.cyclesRun now
  let closing := s.lastResult k now
  s.modConv k (fun c => { c with
    state := .stopped, entry := 0, done := 0, begun := false, busy := c.cycleEnd now, closing := closing
    cycles := c.cycles + BitVec.ofNat 32 cut })

/-- The converters stop, each at the end of its cycle in progress; of a pair the leading one last, whose cycles both run. -/
def stopConv (ks : List Nat) (s : State) : State :=
  let now := clockOf s.auxNow
  ks.reverse.foldl (fun s k => s.stopAt k now) s

/-- A pending trigger is discarded (R426, R427). -/
def dropTrigger (ks : List Nat) (s : State) : State :=
  ks.foldl (fun s k => s.modConv k (fun c => { c with pendingTrig := false })) s

/-- A comparator as its settings record gives it (R433). -/
def comparatorOf (b : Bytes) (k : Nat) (c : Comparator) : Comparator :=
  { c with low := getU b (8 * k) 2, high := getU b (8 * k + 2) 2, hyst := getU b (8 * k + 4) 2
           enable := bit 15 (getU b (8 * k + 6) 2), log := bit 14 (getU b (8 * k + 6) 2) }

/-- The next multiple of a period after an aux time, 0 for a timer that is off (R418). -/
def nextFire (p t : Nat) : Nat := if p = 0 then 0 else (t / p + 1) * p

/-- The unit takes its tables, timers and comparators from the configuration in force and restarts its
converters (R426). In limp start it stays held off. -/
def loadAux (s : State) : State :=
  if s.held 1 then s else
  let v := s.view
  let s := dropTrigger [0, 1] (stopConv [0, 1] s)
  let comps := tab 8 (fun k => { comparatorOf (v 0x6012) k (s.aux.comparators.getD k {}) with state := .unknown })
  let tableOf : Nat → List Nat := fun k => tab 64 (fun e => getU (v (0x6022 + 8 * k)) (4 * e) 4)
  let s := (List.range 2).foldl (fun s k =>
    s.modConv k (fun c => { c with table := tableOf k, badPass := false })) s
  let s := { s with
    aux.loaded := true
    aux.periods := [v.auxPeriod 0, v.auxPeriod 1]
    aux.fires := [nextFire (v.auxPeriod 0) s.auxNow, nextFire (v.auxPeriod 1) s.auxNow]
    aux.comparators := comps }
  let t := clockOf s.auxNow
  let s := if v.auxRun 0 then startTable 0 t s else s
  if v.auxRun 1 && !v.auxPaired then startTable 1 t s else s

/-- The supply-fail warning stops the converters and loses what the unit holds (R428). -/
def auxSupplyFail (s : State) : State :=
  let s := dropTrigger [0, 1] (stopConv [0, 1] s)
  { s with
    aux.queue := []
    aux.lost := 0
    aux.queueLost := false
    aux.last := List.replicate 29 (0, 0)
    aux.converters := s.aux.converters.map (fun (c : Converter) => ({ c with due := [], closing := none } : Converter)) }

/-! ### Events of the unit -/

/-- A timer reaches a multiple of its period and fires (R418). -/
def auxTimerFire (k : Nat) (s : State) : State :=
  let p := s.aux.periods.getD k 0
  let t := s.aux.fires.getD k 0
  if s.aux.loaded && p != 0 && k < 2 then
    let s := (auxAt t s).auxEventAt t (1 + k)
    { s with aux.fires := modAt s.aux.fires k (fun _ => t + p) }
  else s

/-- AUX_TIMER_FIRE. -/
def execAuxTimerFire (timer : Nat) (s : State) : Outcome := edge (auxTimerFire timer) s

/-- A trigger acts: it is taken at a WAIT entry, becomes pending, or is an overrun (R420, R429). A stopped
converter, one whose table never waits, and C1 of a pair ignore it. -/
def auxTriggerAct (k : Nat) (s : State) : State :=
  let c := s.conv k
  if c.due.isEmpty || 2 ≤ k then s else
  let t := c.due.headD 0
  let s := auxAt t (s.modConv k (fun c => { c with due := c.due.drop 1 }))
  if c.state = .stopped || c.state = .heldOff || !c.waits || s.auxLead k != k then s
  else if c.state = .waiting then
    let s := s.modConv k (fun c => { c with taken := c.taken + 1 })
    goEntry k (clockOf t) (c.entry + 1)
      { s with aux := pushWord (timeMark k false false (microsOf (max (clockOf t) c.busy))) s.aux }
  else if c.pendingTrig then
    s.modConv k (fun c => { c with overrun := true, overruns := c.overruns + 1 })
  else s.modConv k (fun c => { c with pendingTrig := true })

/-- AUX_TRIGGER_ACT. -/
def execAuxTriggerAct (converter : Nat) (s : State) : Outcome := edge (auxTriggerAct converter) s

/-- VALUE of a result: the sum of n codes as UQ0.16 of full scale (R414). -/
def auxValue (codes : List (BitVec 12)) : Nat :=
  (codes.map (·.toNat)).foldl (· + ·) 0 * (16 / max codes.length 1)

/-- The next state of a comparator at a result (R424). -/
def Comparator.next (c : Comparator) (v : Nat) : CompState :=
  let within := decide (c.low ≤ v) && decide (v ≤ c.high)
  match c.state with
  | .unknown | .inside => if within then .inside else .outside
  | .outside => if c.low + c.hyst ≤ v && v + c.hyst ≤ c.high then .inside else .outside

/-- A result is checked by the comparator its entry names (R424): the state of the unit, OUT, and whether
the comparator fires. -/
def checkWindow (win v : Nat) (s : State) : State × Bool × Bool :=
  let c := s.aux.comparators.getD win {}
  if !c.enable then (s, false, false) else
  let st := c.next v
  let fires := st == .outside && c.state != .outside
  let s := { s with aux.comparators := modAt s.aux.comparators win (fun c =>
    { c with state := st, fired := c.fired || fires, count := if fires then c.count + 1 else c.count }) }
  (if fires then s.setIrq .aux else s, st == .outside, fires)

/-- The last result of a channel (R431). -/
def setLast (ch word t : Nat) (a : Aux) : Aux := { a with last := modAt a.last ch (fun _ => (word, t)) }

/-- One sequence result: checked, tagged, kept as the channel's last and queued (R422–R425). A code that is none came in a
flit that failed its check. -/
def oneResult (k ch win entry : Nat) (codes : List (Option (BitVec 12))) (lost : Bool) (t : Nat) (s : State) : State :=
  let bad := lost || codes.any Option.isNone
  let v := if bad then 0 else auxValue (codes.map (fun c => c.getD 0))
  let (s, out, fires) := if bad then (s, false, false) else checkWindow win v s
  let w := k * 2 ^ 29 + ch * 2 ^ 24 + entry * 2 ^ 18 + flag bad * 2 ^ 17 + flag out * 2 ^ 16 + v
  let s := { s with aux := pushWord w (setLast ch w t s.aux) }
  let s := s.modConv k (fun c => { c with cycles := c.cycles + BitVec.ofNat 32 codes.length })
  if fires && (s.aux.comparators.getD win {}).log then
    s.raiseAt (s.auxTick t) 0x90 (leBytes 4 w ++ leBytes 6 t)
  else s

/-- The channel that C1 converts with an entry of C0 (R417). -/
def pairedCh (w : Nat) : Nat := if 29 ≤ entryCh w then 28 else entryCh w

/-- The service lane that carries the codes is retired: every result is BAD (R20, R524). -/
def State.serviceLost (s : State) : Bool := (s.sense.lanes.getD 4 {}).faulty

/-- The result of an entry, or of both converters of a pair, C0's first: its instant is the sampling instant of the last of
its cycles, which run back to back but for urgent conversions (R410, R417, R421). -/
def putResult (k : Nat) (r : LastResult) (codes : List (Option (BitVec 12))) (s : State) : State :=
  let t := microsOf (r.last - 16)
  let lost := r.bad || s.serviceLost
  let s := oneResult k (entryCh r.word) (entryWin r.word) r.entry (codes.take r.codes) lost t (auxAt t s)
  match r.pairWord with
  | some w1 => oneResult 1 (pairedCh w1) (entryWin w1) r.entry (codes.drop r.codes) lost t s
  | none => s

/-- Codes of a result: n, or n of C0 and n of C1 when paired (R414, R417). -/
def LastResult.total (r : LastResult) : Nat := if r.pairWord.isSome then 2 * r.codes else r.codes

/-- After a result its entry goes on, its DELAY runs from the end of the last cycle, or the next entry begins (R416); an
urgent conversion placed behind the last cycle lengthens no delay that outlasts it (R421). -/
def afterResult (k : Nat) (r : LastResult) (s : State) : State :=
  let next := r.last + (s.conv k).gap
  let entry := (s.conv k).entry
  let s := s.modConv k (fun c => { c with clock := next, extra := 0, gap := 0, busy := max c.busy next, begun := false })
  if (s.conv k).done < entryRepeat r.word then pairUp (s.modConv k (fun c => { c with done := c.done + 1 }))
  else if entryDelay r.word != 0 then
    pairUp (s.modConv k (fun c => { c with state := .delay, clock := max next (r.last + clockOf (entryDelay r.word)) }))
  else goEntry k next (entry + 1) s

/-- A result completes (R414, R416, R417, R422): that which a stop left to complete, or the one in progress. -/
def auxResult (k : Nat) (codes : List (Option (BitVec 12))) (s : State) : State :=
  let c := s.conv k
  if s.auxLead k != k && c.closing.isNone then s
  else match c.closing with
  | some r =>
    if codes.length != r.total then s else putResult k r codes (s.modConv k (fun c => { c with closing := none }))
  | none =>
    let r := s.thisResult k
    if c.state != .converting || 29 ≤ entryCh r.word || codes.length != r.total then s
    else afterResult k r (putResult k r codes s)

/-- AUX_RESULT. -/
def execAuxResult (converter : Nat) (codes : List (Option (BitVec 12))) (s : State) : Outcome :=
  edge (auxResult converter codes) s

/-- A delay ends and the next entry begins (R416). -/
def auxDelayEnd (k : Nat) (s : State) : State :=
  let c := s.conv k
  if c.state != .delay || s.auxLead k != k then s else goEntry k c.clock (c.entry + 1) (auxAt (microsOf c.clock) s)

/-- AUX_DELAY_END. -/
def execAuxDelayEnd (converter : Nat) (s : State) : Outcome := edge (auxDelayEnd converter) s

/-- An alignment message at the start of entry 0 (R425): the copy disagrees when it stands elsewhere and has not just passed
a WAIT at entry 0 by a pending trigger; the pass then has every result marked BAD, and the copy realigns. -/
def alignmentMessage (k : Nat) (s : State) : State :=
  let c := s.conv k
  let agrees := c.done = 0 && (c.entry = 0 || c.begun)
  if c.state = .stopped || c.state = .heldOff || s.auxLead k != k || 2 ≤ k then s
  else
    let s := s.modConv k (fun c => { c with badPass := !agrees, begun := false })
    if agrees then pairUp s else (startTable k (clockOf s.auxNow) s).modConv k (fun c => { c with begun := false })

/-- ALIGNMENT_MESSAGE. -/
def execAlignmentMessage (converter : Nat) (s : State) : Outcome := edge (alignmentMessage converter) s

/-! ### Requests -/

/-- AUX_SEQ_LOAD (R427). -/
def auxSeqLoad (p : Bytes) (s : State) : Answer × State :=
  let k := getU p 0 1
  let first := getU p 1 1
  let count := getU p 2 1
  let words := tab count (fun i => getU p (3 + 4 * i) 4)
  if 2 ≤ k || 64 ≤ first || count = 0 || 64 < first + count || p.length != 3 + 4 * count || !words.all entryOk then
    (refuse .badParam, s)
  else
    let ks := s.auxGroup k
    let running := ks.filter (fun j => (s.conv j).state != .stopped)
    let s := dropTrigger ks (stopConv ks s)
    let s := s.modConv k (fun c =>
      { c with table := c.table.take first ++ words ++ c.table.drop (first + count), badPass := false })
    let t := clockOf s.auxNow
    let s := (running.filter (fun j => s.auxLead j == j)).foldl (fun s j => startTable j t s) s
    (.done .ok [], s)

/-- An urgent conversion is placed (R421): the converter clock at which its cycle begins. It begins at the end of the cycle
in progress and shifts what follows by one cycle; in a delay it lengthens the delay only where it outlasts it. -/
def placeUrgent (k : Nat) (s : State) : Nat × State :=
  let lead := s.auxLead k
  let c := s.conv lead
  let now := max (clockOf s.auxNow) c.busy
  let lastCycle := c.clock + c.extra + cycleClocks * (s.view.auxOsr lead - 1)
  match c.state with
  | .converting =>
    if lastCycle < now then
      let b := lastCycle + cycleClocks + c.gap
      (b, s.modConv lead (fun c => { c with gap := c.gap + cycleClocks, busy := b + cycleClocks }))
    else
      let b := c.clock + (now - c.clock + cycleClocks - 1) / cycleClocks * cycleClocks
      (b, s.modConv lead (fun c => { c with extra := c.extra + cycleClocks, busy := b + cycleClocks }))
  | .delay => (now, s.modConv lead (fun c => { c with busy := now + cycleClocks, clock := max c.clock (now + cycleClocks) }))
  | .stopped | .waiting | .heldOff => (now, s.modConv lead (fun c => { c with busy := now + cycleClocks }))

/-- AUX_URGENT (R421): one cycle on the named channel; `code` is what it converts, none where it comes in a flit that
fails its check (R425). -/
def auxUrgent (p : Bytes) (code : Option (BitVec 12)) (s : State) : Answer × State :=
  let k := getU p 0 1
  let ch := getU p 1 1
  if p.length != 2 || 2 ≤ k || 29 ≤ ch then (refuse .badParam, s)
  else
    let (b, s) := placeUrgent k s
    let v := match code with
      | some x => if s.serviceLost then 2 ^ 17 else 16 * x.toNat
      | none => 2 ^ 17
    let w := 2 ^ 30 + k * 2 ^ 29 + ch * 2 ^ 24 + v
    let s := { s with aux := setLast ch w (microsOf (b + 8)) s.aux }
    (.done .ok (leBytes 4 w), s.modConv k (fun c => { c with cycles := c.cycles + 1 }))

/-- The command member of a converter (R437): start at entry 0, stop, or clear OVERRUN. -/
def auxCommand (k value : Nat) (s : State) : Status × State :=
  if value = 0x5354 then
    (.ok, startTable (s.auxLead k) (clockOf s.auxNow) (stopConv (s.auxGroup k) s))
  else if value = 0x5350 then (.ok, stopConv (s.auxGroup k) s)
  else if value = 0x434C then (.ok, s.modConv k (fun c => { c with overrun := false }))
  else (.badParam, s)

/-- A record of the comparator settings obeys its ranges (R424, R433). -/
def comparatorOk (b : Bytes) (k : Nat) : Bool :=
  let lo := getU b (8 * k) 2
  let hi := getU b (8 * k + 2) 2
  let h := getU b (8 * k + 4) 2
  lo ≤ hi && lo + 2 * h ≤ hi && getU b (8 * k + 6) 2 % 2 ^ 14 == 0

/-- All eight records obey their ranges. -/
def comparatorsOk (b : Bytes) : Bool := b.length == 64 && (List.range 8).all (comparatorOk b)

/-- A write of the comparator settings member (R424): a comparator that becomes enabled is unknown. -/
def writeComparators (b : Bytes) (s : State) : Status × State :=
  if !comparatorsOk b then (.badParam, s)
  else
    let comps := tab 8 (fun k =>
      let c := s.aux.comparators.getD k {}
      let d := comparatorOf b k c
      if d.enable && !c.enable then { d with state := .unknown } else d)
    (.ok, { s with aux.comparators := comps })

/-! ### Objects (R430–R437) -/

/-- A read of a queue member with room for `n` words (R434). -/
def queueBytes (n : Nat) (q : List Nat) : Bytes :=
  let ws := q.take n
  leBytes 2 ws.length ++ [0, 0] ++ fit (4 * n) (ws.flatMap (leBytes 4))

/-- The words that a live read has returned leave the queue (R434, R423). -/
def takeWords (n : Nat) (s : State) : State :=
  let got := s.aux.queue.take n
  let rest := s.aux.queue.drop n
  let isLoss : Nat → Bool := fun w => field 31 30 w == 3
  let lostStill := s.aux.queueLost && (!got.any isLoss || s.aux.lost != 0 || rest.any isLoss)
  { s with aux := markLoss { s.aux with queue := rest, queueLost := lostStill } }

/-- The full scale of a channel in µV (R412). -/
def auxScale (ch : Nat) : Nat :=
  if [21, 22, 25].contains ch then 5000000 else if ch = 24 then 20000000 else 2500000

/-- A last result as 12 bytes (R431). -/
def State.lastBytes (s : State) (ch : Nat) : Bytes :=
  let r := s.aux.last.getD ch (0, 0)
  leBytes 4 r.1 ++ leBytes 6 r.2 ++ [0, 0]

/-- Unit status (R432). -/
def State.auxStatus (s : State) : Bytes :=
  let outside := (List.range 8).foldl (fun m k => m + flag ((s.aux.comparators.getD k {}).state == .outside) * 2 ^ k) 0
  let fired := (List.range 8).foldl (fun m k => m + flag (s.aux.comparators.getD k {}).fired * 2 ^ k) 0
  leBytes 8 (s.aux.queue.length * 2 ^ 55 + flag s.aux.queueLost * 2 ^ 54 + outside * 2 ^ 40 + fired * 2 ^ 32)

/-- A live read of the unit status clears FIRED (R432). -/
def clearFired (s : State) : State :=
  { s with aux.comparators := s.aux.comparators.map (fun (c : Comparator) => ({ c with fired := false } : Comparator)) }

/-- STATE of a converter (R437). -/
def State.convCode (s : State) (k : Nat) : Nat :=
  if s.held 1 then 4 else
  match (s.conv k).state with
  | .stopped => 0
  | .waiting => 1
  | .converting => 2
  | .delay => 3
  | .heldOff => 4

/-- Converter status (R437). -/
def State.convStatus (s : State) (k : Nat) : Bytes :=
  let c := s.conv k
  leBytes 4 (s.convCode k * 2 ^ 29 + flag c.pendingTrig * 2 ^ 28 + flag c.overrun * 2 ^ 27 + c.entry * 2 ^ 21)

/-- The comparator settings in force (R433). -/
def Comparator.bytes (c : Comparator) : Bytes :=
  leBytes 2 c.low ++ leBytes 2 c.high ++ leBytes 2 c.hyst ++ leBytes 2 (flag c.enable * 2 ^ 15 + flag c.log * 2 ^ 14)

/-- The members of class 6 (R430) but for the descriptors and the image-only settings. -/
def State.readAux (s : State) (inst m : Nat) : Option Bytes :=
  if 16 ≤ inst then none
  else if m = 0 then some (s.lastBytes inst)
  else if m = 1 then some (leBytes 4 (auxScale inst))
  else if inst != 0 then none
  else if m = 16 then some s.auxStatus
  else if m = 18 then some (s.aux.comparators.flatMap Comparator.bytes)
  else if m = 19 then some (s.aux.comparators.flatMap (fun c => leBytes 4 c.count.toNat))
  else if m = 20 then some (queueBytes 255 s.aux.queue)
  else if m = 21 then some (queueBytes 15 s.aux.queue)
  else if m = 22 then
    some (leBytes 6 s.auxNow ++ [0, 0] ++ timeBytes (s.auxTick s.auxNow))
  else if m = 23 then some (tabBytes 13 (fun i => s.lastBytes (16 + i)))
  else if m = 24 then
    some (tabBytes 13 (fun i => leBytes 4 (auxScale (16 + i))) ++ leBytes 4 (Config.v25 true) ++ leBytes 4 (Config.v25 false))
  else if m = 32 || m = 40 then some (s.convStatus ((m - 32) / 8))
  else if m = 34 || m = 42 then some ((s.conv ((m - 32) / 8)).table.flatMap (leBytes 4))
  else if m = 35 || m = 43 then
    let c := s.conv ((m - 32) / 8)
    some (leBytes 4 c.cycles.toNat ++ leBytes 4 c.taken.toNat ++ leBytes 4 c.late.toNat ++ leBytes 4 c.overruns.toNat)
  else if m = 36 || m = 44 then some [0, 0]
  else none

end Sys2Proof.Machine
end

