-- ==== Sys2Proof/Machine/Flags.lean ====
section
/-! DEFINITION. Flags.lean: the status words in which the block tells how it stands: RUN_STATE and the device
status word (R67), the time flags byte (R77) and the time status member (R487). -/

namespace Sys2Proof.Machine
open Sys2Proof

/-- RUN_STATE (R67, R536, R544). -/
def State.runState (s : State) : Nat :=
  if s.start.phase = .failed then 4
  else if s.limpFlag then 3
  else if s.start.phase = .running then 2
  else match s.start.kind with
    | .cold => 0
    | .warm => 1
    | .limp => 3

/-- The archive is mounted (R67, R280). -/
def State.archiveUp (s : State) : Bool := s.archive.state == .mounted

/-- The device status word (R67). -/
def State.statusWord (s : State) : Nat :=
  s.runState * 2 ^ 28 + flag s.engines.split * 2 ^ 27 + s.engines.active * 2 ^ 26 +
    flag s.engines.partnerOk * 2 ^ 25 + flag s.xa.suspended * 2 ^ 24 + flag s.start.cfgDefaulted * 2 ^ 23 +
    flag s.backup.oscStopped * 2 ^ 22 + flag s.archiveUp * 2 ^ 21 +
    flag (s.part.fitZlk && s.net.beaconing) * 2 ^ 20 + flag s.link.session.isSome * 2 ^ 19

/-- The time flags byte of TIME_GET (R77). -/
def State.timeFlags (s : State) : Byte := BitVec.ofNat 8 (flag s.backup.oscStopped + 2 * flag s.backup.halt)

/-- The time status member (R487). -/
def State.timeStatus (s : State) : Nat :=
  flag s.backup.oscStopped * 2 ^ 31 + flag s.backup.halt * 2 ^ 30 + flag s.backup.batLow * 2 ^ 29 +
    flag s.backup.curve.isSome * 2 ^ 28 + flag s.backup.bkpPor * 2 ^ 27 +
    s.time.transferred.length * 2 ^ 16 + s.time.transferredOverflow * 2 ^ 8

end Sys2Proof.Machine
end

