-- ==== Sys2Proof/Machine/Clock.lean ====
section
/-! DEFINITION. Clock.lean: the chronicle count, the calendar view, setting and reading the time, temperature
compensation, wake, and the backup evidence buffer (chapter "Timekeeping and the backup domain"). -/

namespace Sys2Proof.Machine
open Sys2Proof

/-! ### Gregorian dates (R466) -/

/-- A leap year of R466. -/
def leapYear (y : Nat) : Bool := y % 4 == 0 && y != 2100

/-- Days of a year. -/
def yearDays (y : Nat) : Nat := if leapYear y then 366 else 365

/-- Days of month `m` (1–12) of a year. -/
def monthDays (y m : Nat) : Nat :=
  if m = 2 then (if leapYear y then 29 else 28) else if [4, 6, 9, 11].contains m then 30 else 31

/-- Year and day of the year of a day number counted from `y`; `fuel` bounds the years. -/
def yearOf : Nat → Nat → Nat → Nat × Nat
  | 0, y, d => (y, d)
  | fuel + 1, y, d => if d < yearDays y then (y, d) else yearOf fuel (y + 1) (d - yearDays y)

/-- Month and day of the month of a day of the year; `fuel` bounds the months. -/
def monthOf (y : Nat) : Nat → Nat → Nat → Nat × Nat
  | 0, m, d => (m, d)
  | fuel + 1, m, d => if d < monthDays y m then (m, d) else monthOf y fuel (m + 1) (d - monthDays y m)

/-- A date and time. -/
structure DateTime where
  year : Nat
  month : Nat
  day : Nat
  hour : Nat
  minute : Nat
  second : Nat
  weekday : Nat
deriving DecidableEq, Repr

/-- The date and time of a chronicle second (R465, R466). -/
def dateOf (sec : Nat) : DateTime :=
  let d := sec / 86400
  let y := yearOf 200 2000 d
  let m := monthOf y.1 12 1 y.2
  { year := y.1, month := m.1, day := m.2 + 1, hour := sec / 3600 % 24, minute := sec / 60 % 60
    second := sec % 60, weekday := (d + 6) % 7 }

/-- The last chronicle second with a date, 2199-12-31 23:59:59 (R466). -/
def lastDated : Nat := 6311433599

/-- The last second that the calendar view takes, 2099-12-31 23:59:59 (R466). -/
def lastCalendar : Nat := 3155759999

/-! ### The calendar view (R467–R470) -/

/-- Two digits as BCD. -/
def bcd (n : Nat) : Nat := n / 10 * 16 + n % 10

/-- A date and time as calendar fields. -/
def DateTime.calendar (d : DateTime) : Calendar :=
  { seconds := BitVec.ofNat 7 (bcd d.second), minutes := BitVec.ofNat 7 (bcd d.minute)
    hours := BitVec.ofNat 6 (bcd d.hour), weekday := BitVec.ofNat 3 d.weekday, day := BitVec.ofNat 6 (bcd d.day)
    month := BitVec.ofNat 5 (bcd d.month), year := BitVec.ofNat 8 (bcd (d.year % 100)) }

/-- A field is stepped (R468): nine or more units carry into the tens. -/
def stepField {w : Nat} (x : BitVec w) : BitVec w :=
  if 9 ≤ x.toNat % 16 then BitVec.ofNat w ((x.toNat / 16 + 1) * 16) else x + 1

/-- The length code of a month (R469), on the raw fields. -/
def monthCode (month : BitVec 5) (year : BitVec 8) : Nat :=
  let leap := (10 * (year.toNat / 16) + year.toNat % 16) % 4 == 0
  if [0x04, 0x06, 0x09, 0x11].contains month.toNat then 0x30
  else if month.toNat = 0x02 then (if leap then 0x29 else 0x28)
  else 0x31

/-- The date advances (R468 rules 4 to 6). -/
def Calendar.nextDay (c : Calendar) : Calendar :=
  let c' := { c with weekday := if 6 ≤ c.weekday.toNat then 0 else c.weekday + 1 }
  if c.day.toNat < monthCode c.month c.year then { c' with day := stepField c.day }
  else if c.month.toNat < 0x12 then { c' with day := 1, month := stepField c.month }
  else if c.year.toNat < 0x99 then { c' with day := 1, month := 1, year := stepField c.year }
  else { c' with day := 1, month := 1, year := 0 }

/-- The calendar advances by one second (R468). -/
def Calendar.advance (c : Calendar) : Calendar :=
  if c.seconds.toNat < 0x59 then { c with seconds := stepField c.seconds }
  else if c.minutes.toNat < 0x59 then { c with seconds := 0, minutes := stepField c.minutes }
  else if c.hours.toNat < 0x23 then { c with seconds := 0, minutes := 0, hours := stepField c.hours }
  else Calendar.nextDay { c with seconds := 0, minutes := 0, hours := 0 }

/-- The calendar as its members read (R490). -/
def Calendar.bytes (c : Calendar) : Bytes :=
  [c.seconds.setWidth 8, c.minutes.setWidth 8, c.hours.setWidth 8, c.weekday.setWidth 8, c.day.setWidth 8,
   c.month.setWidth 8, c.year, 0]

/-- The calendar fields of the eight bytes of a write (R490). -/
def calendarOf (b : Bytes) : Calendar :=
  let g := fun k => getU b k 1
  { seconds := BitVec.ofNat 7 (g 0), minutes := BitVec.ofNat 7 (g 1), hours := BitVec.ofNat 6 (g 2)
    weekday := BitVec.ofNat 3 (g 3), day := BitVec.ofNat 6 (g 4), month := BitVec.ofNat 5 (g 5)
    year := BitVec.ofNat 8 (g 6) }

/-! ### Backup events (R481, R482) -/

/-- The events go to the evidence log (R481): the digital die runs and has transferred the buffer. -/
def State.logsDirect (s : State) : Bool :=
  (s.awake || s.start.phase == .failed) && s.start.wardenReady

/-- WAKE is driven low, its WAKE_HOLD time begun anew (R478). -/
def assertWake (s : State) : State :=
  if s.backup.onBattery then { s with backup.wake := true, backup.wakeSince := s.ticks } else s

/-- `a` stands before `b` in the order of R482. -/
def BackupEntry.before (a b : BackupEntry) : Bool :=
  a.code < b.code || (a.code == b.code && a.data < b.data)

/-- An entry put in its place among those of its edge, which lie at the end of the buffer (R482). -/
def insertBackup (e : BackupEntry) : List BackupEntry → List BackupEntry
  | [] => [e]
  | x :: xs => if x.sec = e.sec && x.tick = e.tick && e.before x then e :: x :: xs else x :: insertBackup e xs

/-- The entries of an instant numbered from 0 (R482), at most 7 for a buffer of eight. -/
def numberBackup (sec tick : Nat) : Nat → List BackupEntry → List BackupEntry
  | _, [] => []
  | n, x :: xs =>
    if x.sec = sec && x.tick = tick then { x with sub := n } :: numberBackup sec tick (n + 1) xs
    else x :: numberBackup sec tick n xs

/-- An event that the backup domain records (R481, R482): to the evidence log, or to the backup buffer, which
keeps its first eight entries; on the backup cell an alarm of class FLAG or above asserts WAKE, and any event restarts the
WAKE_HOLD time of a WAKE that is asserted (R478). -/
def backupEvent (code data cls : Nat) (s : State) : State :=
  if s.logsDirect then s.raise code (if code = 4 then [] else [BitVec.ofNat 8 data])
  else
    let sec := s.sec
    let tick := s.backup.tick.toNat
    let e : BackupEntry := { sec := sec, tick := tick, code := code, cls := cls, sub := 0, data := data }
    let s :=
      if s.backup.buffer.length < 8 then
        { s with backup.buffer := numberBackup sec tick 0 (insertBackup e s.backup.buffer) }
      else { s with backup.overflow := if s.backup.overflow = 255#8 then 255#8 else s.backup.overflow + 1 }
    if s.backup.wake || (1 ≤ cls && s.backup.wakeOnAlarm) then assertWake s else s

/-- The class of an event of R481 as the backup registers hold it. -/
def State.backupClass (s : State) (k : Nat) : Nat := s.backup.classes.getD k 0

/-! ### The count (R465) -/

/-- The seconds since the last accepted measurement of every channel rise (R120). -/
def ageChannels (l : List Channel) : List Channel :=
  l.map (fun (c : Channel) => ({ c with calAge := if c.calAge = 65535#16 then 65535#16 else c.calAge + 1 } : Channel))

/-- What the digital die does at a chronicle second: the causeway's counts of the second start again (R522), and the ages of
the coefficients rise (R120); the scrub position is stored at the hour (R455), and a periodic save may fall due (R448,
R615). -/
def digitalSecond (s : State) : State :=
  let s := { s with
    sense.lanes := s.sense.lanes.map (fun (l : Lane) => ({ l with failedNow := 0 } : Lane))
    sense.channels := ageChannels s.sense.channels }
  let s := if s.start.wardenReady && s.sec % 3600 == 0 then saveDevice s else s
  let p := 60 * s.view.savePeriod
  if s.ready && p != 0 && s.sec % p == 0 then { s with store.saveDue := some s.sec } else s

/-- CHRONICLE_SECOND: the prescaler overflows (R465): the seconds rise, the calendar advances or takes the value
that waits for it (R471), and, while the analogue die counts strobes, a chronicle pair is captured (R29). -/
def chronicleSecond (s : State) : State :=
  if s.backup.halt || s.backup.crystalStopped then s else
  let cal := s.backup.calendarLoad.getD s.backup.calendar.advance
  let m := s.sense.modCount.toNat
  let s := { s with
    backup.sec := s.backup.sec + 1
    backup.tick := 0
    backup.calendar := cal
    backup.calendarLoad := none
    backup.measureDue := (s.backup.sec + 1).toNat % 32 == 0
    backup.pairOut :=
      if s.awake then some { sec := (s.backup.sec + 1).toNat, strobe := m / 256, clock := m % 256 } else none }
  if s.awake then digitalSecond s else s

/-- CHRONICLE_SECOND. -/
def execChronicleSecond (s : State) : Outcome := edge chronicleSecond s

/-- CHRONICLE_PAIR: the digital die takes the pair that was captured from the service lane (R29, R30); a retired service
lane brings none (R524). Step pairs older than both pairs serve no sample any more. -/
def chroniclePair (s : State) : State :=
  if !s.awake || (s.sense.lanes.getD 4 {}).faulty then s else
  match s.backup.pairOut with
  | none => s
  | some p =>
    let ps := p :: s.time.pairs.take 1
    let oldest := (ps.map (fun p => p.strobe)).foldl min p.strobe
    { s with
      backup.pairOut := none
      time.pairs := ps
      time.steps := s.time.steps.filter (fun x => decide (oldest ≤ x.strobe)) }

/-- CHRONICLE_PAIR. -/
def execChroniclePair (s : State) : Outcome := edge chroniclePair s

/-! ### Time steps (R188, R211, R238, R256, R472) -/

/-- A time step before the first sample of a start (R256): an interval that goes on from before the start closes, and the
one that the first sample will fall in is that of the new time. -/
def stepBefore (strobe old : Nat) (s : State) : State :=
  if s.billing.profileEnd.isNone then s else
  let len := s.view.profile
  let goesOn := s.start.recovered && s.cutInterval == s.billing.profileStart
  let s := if goesOn then closeProfile strobe old 3 3 s
    else { s with billing.profileFlags := s.billing.profileFlags ||| 3 }
  { s with billing.profileStart := if goesOn then s.sec else s.sec / len * len
           billing.profileEnd := some (s.view.profileEndAfter s.ticks) }

/-- The chronicle count has moved from `old` ticks to the second it now holds (R472): the time line steps at the
strobe now due, and the demand, profile, flicker and seep intervals in progress close there. -/
def timeStep (old : Nat) (s : State) : State :=
  if !s.awake then s else
  let m := s.sense.modCount.toNat
  let σ := (m + 255) / 256
  let p : TimeStep := { oldSec := old / tps, oldTick := old % tps, newSec := s.sec, strobe := m / 256, clock := m % 256 }
  let s := { s with time.steps := s.time.steps ++ [p], net.lastBoundary := 0 }
  let s :=
    if s.sampling then { s with billing.subEnds := s.billing.subEnds ++ [{ tick := old, strobe := some σ }] }
    else s
  let s := if s.sampling then s else stepBefore σ old s
  let s := stepPst σ (old / tps) s.sec s
  if s.recording.segment.isSome then splitSegment σ old segStep segStep s else s

/-! ### Setting the time (R77, R471–R473) -/

/-- TIME_SET (R77, R471, R472): target and seconds. -/
def timeSet (p : Bytes) (s : State) : Answer × State :=
  let target := getU p 0 1
  let v := getU p 1 6
  if p.length != 7 || 2 < target || lastDated < v || (1 ≤ target && lastCalendar < v) then (refuse .badParam, s)
  else
    let cal := (dateOf v).calendar
    let payload : Nat → Bytes := fun old => timeBytes old ++ leBytes 6 v ++ [BitVec.ofNat 8 target]
    if target = 1 then
      let s := { s with backup.calendarLoad := some cal }
      (.done .ok [], s.raise 0x60 (payload ((s.sec + 1) * tps)))
    else
      let old := s.ticks
      let s' := { s with
        backup.sec := BitVec.ofNat 48 v
        backup.tick := 0
        backup.measureDue := if v = s.sec then s.backup.measureDue else v % 32 == 0
        backup.adjusted := v * tps
        backup.adjustFrom := v * tps + s.backup.adjustFrom - old
        backup.oscStopped := false
        backup.calendar := if target = 2 then cal else s.backup.calendar
        backup.calendarLoad := if target = 2 then none else s.backup.calendarLoad }
      let s' := if s.backup.halt || v = s.sec then s' else timeStep old s'
      (.done .ok [], s'.raise 0x60 (payload old))

/-- TIME_GET (R77). -/
def State.timeGet (s : State) (p : Bytes) : Answer :=
  if !p.isEmpty then refuse .badParam else .done .ok (timeBytes s.ticks ++ [s.timeFlags])

/-- The chronicle time that the samples run on with while the count stands (R473), in ticks. -/
def State.extrapolated (s : State) : Nat :=
  let f := s.timeFrac s.sense.modCount.toNat
  f.1 / f.2

/-- A write of the time control member (R473, R489). Clearing HALT restarts the count at tick 0, as a time step
from the extrapolated time unless the second is the same. -/
def haltWrite (value : Nat) (s : State) : Status × State :=
  if value % 2 ^ 31 ≠ 0 then (.badParam, s)
  else if bit 31 value then
    if [0, 1, 3, 4].contains s.runState || s.backup.oscStopped then
      (.ok, { s with backup.halt := true, backup.tick := 0 })
    else (.wrongState, s)
  else if s.backup.halt then
    let old := s.extrapolated
    let s := { s with backup.halt := false, backup.tick := 0 }
    (.ok, if old / tps = s.sec then s else timeStep old s)
  else (.ok, s)

/-- The fields of a calendar write lie within their widths (R490, R10). -/
def calendarOk (b : Bytes) : Bool :=
  b.length == 8 &&
    (List.zip [7, 7, 6, 3, 6, 5, 8, 0] b).all (fun x => decide (x.2.toNat < 2 ^ x.1))

/-- A write of the calendar write member (R471, R490): taken at the next second. -/
def calendarWrite (b : Bytes) (s : State) : Status × State :=
  if !calendarOk b then (.badParam, s)
  else (.ok, { s with backup.calendarLoad := some (calendarOf b), time.lastCalendarWrite := b })

/-- A write of the backup RAM write member (R484, R495). -/
def backupRamWrite (b : Bytes) (s : State) : Status × State :=
  let off := getU b 0 1
  let len := getU b 1 1
  if b.length != 68 || 128 ≤ off || len = 0 || 64 < len || 128 < off + len || getU b 2 2 ≠ 0 then (.badParam, s)
  else
    (.ok, { s with
      backup.ram := patch s.backup.ram off ((b.drop 4).take len)
      time.lastRamWrite := b })

/-! ### Compensation (R475, R476, R493) -/

/-- The points and TRIM of a curve record or member. -/
def curveOf (b : Bytes) : List Int × Int :=
  (tab 32 (fun j => toSigned 16 (getU b (2 * j) 2)), toSigned 16 (getU b 64 2))

/-- Every point and TRIM lie within ±800, the reserved bytes are 0 (R493). -/
def curveOk (b : Bytes) : Bool :=
  b.length == 68 && getU b 66 2 == 0 &&
    (List.range 33).all (fun j => decide (-800 ≤ toSigned 16 (getU b (2 * j) 2) ∧ toSigned 16 (getU b (2 * j) 2) ≤ 800))

/-- The curve record of the store (R475); none reads as zeros (R493). -/
def State.curveRecord (s : State) : Option Bytes :=
  match newestSlot s.store.seen Ring.curve with
  | some (_, _, b) => some b
  | none => none

/-- A write of the compensation curve member (R475, R493, R446): while a 32 s measurement is due the copy is used from
the next one (R485). -/
def curveWrite (b : Bytes) (s : State) : Status × State :=
  if !curveOk b then (.badParam, s)
  else if s.protects Ring.curve.base then refuseProtected s
  else
    let s := { s with store := s.store.record Ring.curve b }
    (.ok, if s.backup.measureDue then { s with backup.curveNext := some (curveOf b) }
          else { s with backup.curve := some (curveOf b), backup.curveNext := none })

/-- The curve copied into the backup registers at a start (R475). -/
def copyCurve (s : State) : State :=
  let s := countRing Ring.curve s
  match s.curveRecord with
  | some b => { s with backup.curve := some (curveOf b), backup.curveNext := none }
  | none => s

/-- The correction C of R476 at a temperature in 0.25 K: interpolated, TRIM added, rounded and saturated. -/
def correction (curve : Option (List Int × Int)) (temp : Int) : Int :=
  match curve with
  | none => 0
  | some (ps, trim) =>
    let x := (clamp 0 620 (temp + 240)).toNat
    let j := min 30 (x / 20)
    let r : Int := x - 20 * j
    clamp (-800) 800 (roundEven (ps.getD j 0 * (20 - r) + ps.getD (j + 1) 0 * r + 20 * trim) 20)

/-- COMPENSATION_MEASURE: the measurement of temperature and VBAT at a second that is a multiple of 32, once (R476,
R481). -/
def compensationMeasure (temp : Int) (vbat : Nat) (s : State) : State :=
  if !s.backup.measureDue || s.backup.crystalStopped then s else
  let c := correction s.backup.curve temp
  let a := s.backup.accumA + c * 262144
  let n := a.tdiv 1000000
  let low := decide (vbat < 2600)
  let event := low && (!s.backup.measured || !s.backup.batLow)
  let s := { s with
    backup.temp := temp
    backup.corrC := c
    backup.measureDue := false
    backup.curve := s.backup.curveNext.or s.backup.curve
    backup.curveNext := none
    backup.accumA := a - n * 1000000
    backup.adjust := s.backup.adjust + n
    backup.adjustFrom := s.ticks
    backup.adjustTotal := (s.backup.adjust + n).natAbs
    backup.vbat := vbat
    backup.batLow := low
    backup.measured := true }
  if event then backupEvent 3 (min 255 ((vbat - 2000) / 10)) (s.backupClass 5) s else s

/-- COMPENSATION_MEASURE. -/
def execCompensationMeasure (temp : Int) (vbat : Nat) (s : State) : Outcome := edge (compensationMeasure temp vbat) s

/-- The time in ticks from which the next adjustment is due: those of a measurement are spread at equal distances over its
32 s (R476; DEDUCED, log entry 213). -/
def Backup.adjustDue (b : Backup) : Nat :=
  max (b.adjusted + 128) (b.adjustFrom + (b.adjustTotal - b.adjust.natAbs) * 32 * tps / max 1 b.adjustTotal)

/-- TICK_ADJUST: one tick is added or removed, at its place in the 32 s and 128 ticks behind the last one or a TIME_SET
(R476, R485). Where it would cross a second it waits. -/
def tickAdjust (s : State) : State :=
  if s.backup.halt || s.backup.crystalStopped || s.ticks < s.backup.adjustDue then s
  else if 0 < s.backup.adjust && s.backup.tick != 32767#15 then
    { s with backup.tick := s.backup.tick + 1, backup.adjust := s.backup.adjust - 1, backup.adjusted := s.ticks }
  else if s.backup.adjust < 0 && s.backup.tick != 0#15 then
    { s with backup.tick := s.backup.tick - 1, backup.adjust := s.backup.adjust + 1, backup.adjusted := s.ticks }
  else s

/-- TICK_ADJUST. -/
def execTickAdjust (s : State) : Outcome := edge tickAdjust s

/-! ### Wake (R477, R478) -/

/-- PERIODIC_WAKE: the count of 1/256 s is a whole multiple of WAKE_PERIOD (R477). -/
def periodicWake (s : State) : State :=
  if s.backup.wakePeriod = 0 || s.ticks / 128 % s.backup.wakePeriod ≠ 0 then s
  else if s.backup.onBattery then (if s.backup.wakeOnTick then assertWake s else s)
  else if s.awake || s.start.phase == .failed then s.setIrq .time else s

/-- PERIODIC_WAKE. -/
def execPeriodicWake (s : State) : Outcome := edge periodicWake s

/-- WAKE_HOLD_EXPIRY: WAKE is released after WAKE_HOLD seconds, when that is not 0 (R478). -/
def wakeHoldExpiry (s : State) : State :=
  if s.backup.wakeHold = 0 || s.ticks < s.backup.wakeSince + s.backup.wakeHold * tps then s
  else { s with backup.wake := false }

/-- WAKE_HOLD_EXPIRY. -/
def execWakeHoldExpiry (s : State) : Outcome := edge wakeHoldExpiry s

/-! ### Reading the time (R474) -/

/-- A read sequence freezes the shadow copy: every TIME_GET and every GET_OBJ of a time member is one (R474). -/
def freezeShadow (s : State) : State :=
  let x : Shadow :=
    { sec := s.sec, tick := s.backup.tick.toNat, calendar := s.backup.calendar
      oscStopped := s.backup.oscStopped, halt := s.backup.halt }
  { s with backup.shadow := some x }

/-- SHADOW_RELEASE: the shadow copy is released (R474); a new sequence freezes it anew. -/
def shadowRelease (s : State) : State := { s with backup.shadow := none }

/-- SHADOW_RELEASE. -/
def execShadowRelease (s : State) : Outcome := edge shadowRelease s

/-! ### Stopped oscillator (R479) -/

/-- OSC_STOPPED: no crystal edge for 2 ms (R479). -/
def oscStopped (s : State) : State :=
  let first := !s.backup.oscStopped
  let s := { s with backup.crystalStopped := true, backup.oscStopped := true }
  if first && (s.awake || s.start.phase == .failed) then (s.setIrq .time).raise 0x05 [] else s

/-- OSC_STOPPED. -/
def execOscStopped (s : State) : Outcome := edge oscStopped s

/-- OSC_RESTART: counting resumes from the value held (R479). -/
def oscRestart (s : State) : State :=
  if s.backup.crystalStopped then
    backupEvent 4 0 (s.backupClass 6) { s with backup.crystalStopped := false }
  else s

/-- OSC_RESTART. -/
def execOscRestart (s : State) : Outcome := edge oscRestart s

/-! ### Tamper pins (R512, R513, R532) -/

/-- A tamper pin changed. -/
def State.modTamper (n : Nat) (f : TamperPin → TamperPin) (s : State) : State :=
  { s with tamper := modAt s.tamper n f }

/-- A pin is sampled: it is enabled, and the crystal counts ticks (R512, R513). -/
def State.sampled (s : State) (n : Nat) : Bool := (s.tamper.getD n {}).enable && !s.backup.crystalStopped

/-- Samples of a pin, newest first, that agree with a state: how many stand in a row (R512). -/
def TamperPin.agreeing (p : TamperPin) (asserted : Bool) (samples : List Bool) : Nat :=
  (samples.takeWhile (fun high => (high == p.activeHigh) == asserted)).length

/-- TAMPER_ASSERT: DEBOUNCE samples agree that the pin is asserted (R512, R513). -/
def tamperAssert (n : Nat) (samples : List Bool) (s : State) : State :=
  let p := s.tamper.getD n {}
  if !s.sampled n || p.asserted || p.agreeing true samples < p.debounce then s else
  backupEvent 1 n (s.backupClass n)
    (s.modTamper n (fun p => { p with asserted := true, assertions := p.assertions + 1 }))

/-- TAMPER_ASSERT. -/
def execTamperAssert (pin : Nat) (samples : List Bool) (s : State) : Outcome := edge (tamperAssert pin samples) s

/-- TAMPER_RELEASE: DEBOUNCE samples agree that the pin is released (R512, R513). -/
def tamperRelease (n : Nat) (samples : List Bool) (s : State) : State :=
  let p := s.tamper.getD n {}
  if !s.sampled n || !p.asserted || p.agreeing false samples < p.debounce then s else
  backupEvent 2 n (s.backupClass 4) (s.modTamper n (fun p => { p with asserted := false }))

/-- TAMPER_RELEASE. -/
def execTamperRelease (pin : Nat) (samples : List Bool) (s : State) : Outcome := edge (tamperRelease pin samples) s

/-- The samples end a change that did not last: the newest agrees with the accepted state again, behind at least one and
fewer than DEBOUNCE that do not (R512). -/
def TamperPin.glitched (p : TamperPin) (samples : List Bool) : Bool :=
  match samples with
  | [] => false
  | x :: past =>
    let n := p.agreeing (!p.asserted) past
    p.agreeing p.asserted [x] == 1 && n != 0 && n < p.debounce

/-- TAMPER_GLITCH: a change that does not last, counted on main power (R512). -/
def tamperGlitch (n : Nat) (samples : List Bool) (s : State) : State :=
  if !s.sampled n || s.backup.onBattery || !(s.tamper.getD n {}).glitched samples then s
  else s.modTamper n (fun p => { p with glitches := p.glitches + 1 })

/-- TAMPER_GLITCH. -/
def execTamperGlitch (pin : Nat) (samples : List Bool) (s : State) : Outcome := edge (tamperGlitch pin samples) s

/-- The tamper and time settings copied into the backup registers, at a start and when a configuration takes
effect (R513, R481, R488): the classes of the backup events with them. -/
def copyBackupSettings (s : State) : State :=
  let v := s.view
  let s := { s with tamper := tab 4 (fun n => v.tamperPin n (s.tamper.getD n {})) }
  let cls := fun code inst => (s.alarmClass code inst).getD 0
  { s with
    backup.classes := [cls 1 0, cls 1 1, cls 1 2, cls 1 3, cls 2 0, cls 3 0, cls 4 0]
    backup.wakePeriod := v.wakePeriod
    backup.wakeOnTick := v.wakeOnTick
    backup.wakeOnAlarm := v.wakeOnAlarm
    backup.wakeHold := v.wakeHold }

/-! ### Objects (R486–R495) -/

/-- A switch-over time as bytes; an invalid one reads 0 (R492). -/
def Switchover.bytes (x : Switchover) : Bytes :=
  if x.valid then leBytes 6 x.sec ++ leBytes 2 x.tick else zeros 8

/-- The chronicle date member (R491). -/
def State.chronicleDate (s : State) : Bytes :=
  let sec := s.sec
  let d := dateOf sec
  let valid := decide (sec ≤ lastDated)
  (if valid then
    leBytes 2 d.year ++ [BitVec.ofNat 8 d.month, BitVec.ofNat 8 d.day, BitVec.ofNat 8 d.hour, BitVec.ofNat 8 d.minute,
      BitVec.ofNat 8 d.second, BitVec.ofNat 8 d.weekday]
   else zeros 8) ++ leBytes 2 s.backup.tick.toNat ++ [BitVec.ofNat 8 (flag valid), 0]

/-- An entry of the backup buffer member (R494). -/
def BackupEntry.bytes (e : BackupEntry) : Bytes :=
  leBytes 6 e.sec ++ leBytes 2 e.tick ++ [BitVec.ofNat 8 e.code, BitVec.ofNat 8 (e.cls * 64 + e.sub), BitVec.ofNat 8 e.data, 0]

/-- The members of class 7 (R486) but for the descriptor and the image-only settings. -/
def State.readTime (s : State) (m : Nat) : Option Bytes :=
  match m with
  | 0 => some (leBytes 4 s.timeStatus)
  | 2 => some (leBytes 4 (flag s.backup.halt * 2 ^ 31))
  | 3 => some s.backup.calendar.bytes
  | 4 => some s.time.lastCalendarWrite
  | 5 => some s.chronicleDate
  | 6 =>
    some (s.backup.previous.bytes ++ s.backup.current.bytes ++
      [BitVec.ofNat 8 (flag s.backup.previous.valid + 2 * flag s.backup.current.valid)] ++ zeros 7)
  | 7 => some (fit 68 (s.curveRecord.getD []))
  | 8 => some (leInt 2 s.backup.temp ++ leInt 2 s.backup.corrC ++ leBytes 2 s.backup.vbat ++ [0, 0])
  | 9 =>
    some ([BitVec.ofNat 8 s.time.transferred.length, BitVec.ofNat 8 s.time.transferredOverflow, 0, 0] ++
      fit 96 (s.time.transferred.flatMap BackupEntry.bytes))
  | 10 => some s.backup.ram
  | 11 => some s.time.lastRamWrite
  | _ => none

/-- A live read of the time status member clears BKP_POR (R463, R487). -/
def clearPor (s : State) : State := { s with backup.bkpPor := false }

/-- The members of class 9 instance 1 but for the settings, the bittern status and the descriptor (R532). -/
def State.tamperStatus (s : State) : Bytes :=
  let b := fun (f : TamperPin → Bool) k => (List.range 4).foldl (fun m n => m + flag (f (s.tamper.getD n {})) * 2 ^ (k + n)) 0
  leBytes 4 (b (fun p => p.asserted) 28 + b (fun p => p.enable) 24)

/-- The tamper counters member (R532). -/
def State.tamperCounters (s : State) : Bytes :=
  tabBytes 4 (fun n =>
    let p := s.tamper.getD n {}
    leBytes 2 p.assertions.toNat ++ leBytes 2 p.glitches.toNat)

end Sys2Proof.Machine
end

