-- ==== Sys2Proof/Machine/Correct.lean ====
section
/-! DEFINITION. Correct.lean: the correction stages of a sample (R93–R105): slice correction, selection and cross-fade,
channel calibration, Rogowski integration and output, and their repetition from a latch boundary on (R25, R96). -/

namespace Sys2Proof.Machine
open Sys2Proof

/-! ### The stages -/

/-- Periods by which stage E delays a sample: the equaliser or the matching delay (R93). -/
def equaliserDelay : Nat := 4

/-- Periods from a raw sample to the metering sample of the same instant: both delay filters and stage E. -/
def stageDelay : Nat := 2 * bulkDelay + equaliserDelay

/-- Modulator clocks on either side of its strobe that the decimation window of a raw sample holds: 30 metering periods of
stages 2–4 and the 125 clocks of stage 1 (R90, R100). -/
def windowReach : Nat := 3902

/-- The window of the raw sample of strobe `k` includes one of the four clocks of the modulator reset that began at clock
`x` (R103). -/
def resetReaches (x k : Nat) : Bool := x ≤ 256 * k + windowReach && 256 * k ≤ x + 3 + windowReach

/-- A Q2.30 product rounded to Q1.31, half to even, and saturated. The rounding is a DESIGN CHOICE (log entry 145). -/
def gainMul (gain : Nat) (v : Int) : Int := satSigned 32 (roundEven (gain * v) (2 ^ 30))

/-- z = G × (x − O) in Q1.31 (R94 stages B and D); a value that saturates is clipped (R102). -/
def scaleOffset (gain : Nat) (offset : Int) (x : Marked) : Marked :=
  let d := satSigned 32 (x.v - offset)
  { x with
    v := gainMul gain d
    clip := x.clip || d != x.v - offset || gainMul gain d != roundEven (gain * d) (2 ^ 30) }

/-- The sum of a filter: taps and inputs, newest first, unit 2^−30, rounded to nearest, half to even. -/
def firSum (taps xs : List Int) : Int := roundEven (sumBy (fun x => x.1 * x.2) (taps.zip xs)) (2 ^ 30)

/-- A fractional-delay filter over the latest 32 values, newest first: its output belongs to the value `bulkDelay`
periods old, whose marks it carries. -/
def delayFilter (tau : Int) (hist : List Marked) : Marked :=
  let y := firSum (delayTaps tau) (hist.map (·.v))
  let m := hist.getD bulkDelay {}
  { m with v := satSigned 32 y, clip := m.clip || satSigned 32 y != y }

/-- Full code of a sign. -/
def fullCode (w : Nat) (positive : Bool) : Int := if positive then (2 ^ (w - 1) : Nat) - 1 else -(2 ^ (w - 1) : Nat)

/-- The raw sample of strobe `k` as the stages take it: zero in a lost run (R100), also where its window holds a modulator
reset (DESIGN CHOICE, log entry 190); full code of the sign of the last sample before a modulator reset, a sign that counts
as positive for zero (R103; DESIGN CHOICE, log entry 145); clipped from 0.9 of full code on (R102). -/
def rawMarked (sl : Slice) (raw : Int) (k : Nat) (lost : Bool) : Marked :=
  if lost then {}
  else if sl.resets.any (fun x => resetReaches x k) then
    { v := fullCode 32 (0 ≤ sl.lastRaw), clip := true, full := some (0 ≤ sl.lastRaw) }
  else
    let x := satSigned 32 raw
    { v := x, clip := 0x73333300 ≤ x.natAbs }

/-- Stage B of one slice, with the gathering of its reference measurement (R94, R108). A raw sample that is zero-filled, or
carries a full-scale code, is gathered at the value it carries (DESIGN CHOICE, log entry 190). -/
def sliceStage (sl : Slice) (raw : Int) (k : Nat) (lost : Bool) : Slice × Marked :=
  let x := rawMarked sl raw k lost
  let hist := (scaleOffset sl.coef.gain sl.coef.offset x :: sl.hist).take 32
  ({ sl with
     hist := hist
     lastRaw := if x.full.isSome then sl.lastRaw else x.v
     resets := sl.resets.filter (fun x => decide (256 * k ≤ x + 3 + windowReach))
     meas := sl.meas.map (fun m => m.gather k x.v) },
   delayFilter sl.coef.delay hist)

/-- Stage C (R94, R109): the value that the delivering slice or the cross-fade gives. The weighted difference is rounded
to nearest, half to even (DESIGN CHOICE, log entry 145). -/
def selectStage (x : Quarter) (p : Nat) (home wader : Marked) : Marked :=
  match x.fade with
  | some f =>
    if f.pos = p && f.wait = 0 then
      let zf := if f.toWader then home else wader
      let zt := if f.toWader then wader else home
      let y := zf.v + roundEven ((2 * f.n + 1) * (zt.v - zf.v)) 128
      { v := satSigned 32 y, clip := zf.clip || zt.clip || satSigned 32 y != y, full := zf.full.or zt.full }
    else if x.standIn = some p then wader else home
  | none => if x.standIn = some p then wader else home

/-- (1 − 2^−21) y, rounded to nearest, half to even (R97). -/
def leak (y : Int) : Int := roundEven ((2 ^ 21 - 1) * y) (2 ^ 21)

/-- K = 2 tan(π f_n / 16,000) of R97, unit 2^−40. -/
def rogowskiScale (fnom : Nat) : Nat := if fnom = 60 then 25907830998 else 21589553953

/-- Stage E on a Rogowski channel (R97): high-pass, leaky trapezoidal integrator, scale, equaliser; the
integrator's output is gathered for the seed (R99). A saturation clips the sample (R102). -/
def rogowskiStage (fnom : Nat) (st : Integrator) (v : Int) (valid : Bool) : Integrator × Int × Bool :=
  let h := v - st.hpIn + leak st.hpOut
  let hp := satSigned 32 h
  let a := leak st.acc + roundEven (hp + st.accIn) 2
  let acc := satSigned 64 a
  let c := roundEven (rogowskiScale fnom * acc) (2 ^ 40)
  let tail := (satSigned 32 c :: st.tail).take 9
  let e := firSum (tab 9 (fun i => (equaliserTaps fnom).getD ((i : Int) - equaliserDelay).natAbs 0)) tail
  let counting := valid && !st.seeded && st.seedCount < seedLength fnom
  ({ st with
     hpIn := v, hpOut := hp, acc := acc, accIn := hp, tail := tail
     seedCount := if counting then st.seedCount + 1 else st.seedCount
     seedSum := if counting then st.seedSum + acc else st.seedSum },
   satSigned 32 e,
   hp != h || acc != a || satSigned 32 c != c || satSigned 32 e != e)

/-- Stage E (R94): the integrator on a Rogowski channel, on every other the matching delay; the marks are those of the
value `equaliserDelay` periods old. -/
def stageE (rogowski : Bool) (fnom : Nat) (st : Integrator) (x : Marked) (valid : Bool) : Integrator × Marked :=
  let plain := (x :: st.plain).take (equaliserDelay + 1)
  let m := plain.getD equaliserDelay {}
  if rogowski then
    let r := rogowskiStage fnom st x.v valid
    ({ r.1 with plain := plain }, { m with v := r.2.1, clip := m.clip || r.2.2 })
  else ({ st with plain := plain }, m)

/-- Stage F (R94): Q1.23, rounded to nearest, half to even, and saturated; the full-scale code about a modulator reset
(R103). -/
def stageF (x : Marked) : Int × Bool :=
  let f := roundEven x.v 256
  (match x.full with
   | some p => fullCode 24 p
   | none => satSigned 24 f,
   x.clip || satSigned 24 f != f)

/-! ### The channels at a strobe -/

/-- τ_int of R98, unit 2^−20 metering period: 2 atan(f_c / f) / (2π f) with atan x = x, that is (16,000 / 2πf)² units;
the frequency in 2^−40 Hz, 6799549533373 being (16,000 / 2π)² in 2^−20. -/
def tauInt (freq : Nat) : Int := if freq = 0 then 0 else roundEven (6799549533373 * 2 ^ 60) (freq * freq)

/-- τ_int of a channel: at the frequency of its service's bus, or nominal for a monitor channel (R98). -/
def State.tauOf (s : State) (v : View) (c : Nat) : Int :=
  if v.chanSensor c ≠ 3 then 0
  else
    tauInt (if v.bound c then (s.billing.buses.getD (v.busOf (field 2 0 (v.bindingOf c))) {}).freq
      else freqOfHz (v.chanFnom c))

/-- The settings of stage E of a channel. -/
def View.stageKey (v : View) (c : Nat) : Bool × Nat := (v.chanSensor c == 3, v.chanFnom c)

/-- Stages D and E of a channel: `zs` its latest calibrated values, newest first, of the raw sample of strobe `k`; `st`
what stage E kept. The value that leaves the delay filter belongs to strobe k − 16: the settings are those of that
strobe, stage E begins afresh where they change, and an integrator at the first valid sample (R25, R97, R99). -/
def channelStage (s : State) (old new : View) (k : Nat) (zs : List Marked) (st : Integrator) (c : Nat) :
    Integrator × Marked :=
  let j := k - 2 * bulkDelay
  let w := delayFilter ((s.sense.channels.getD c {}).delay + s.tauOf new c) zs
  let key := new.stageKey c
  let st := if old.stageKey c = key then st else { plain := st.plain }
  let valid := !((s.sense.lanes.getD (quarterOf c) {}).marks j).2
  if key.1 && (!s.sense.connected || j < s.sense.first) then stageE false key.2 st w valid else stageE key.1 key.2 st w valid

/-- The channel stages of one strobe: what they leave, and the 56 values before stage F. `before` holds the strobes
before it, newest first, and `states` what stage E kept of the last one. -/
def channelRow (s : State) (before : List PastRow) (k : Nat) (selected : List Marked) (states : List Integrator) :
    PastRow × List Marked :=
  let z := selected.zipIdx.map (fun x =>
    let ch := s.sense.channels.getD x.2 {}
    scaleOffset ch.gain ch.offset x.1)
  let recent := z :: (before.take 31).map (·.calibrated)
  let new := s.viewAt (k - 2 * bulkDelay)
  let old := s.viewAt (k - 2 * bulkDelay - 1)
  let outs := tab 56 (fun c =>
    channelStage s old new k (recent.map (fun r => r.getD c {})) (states.getD c {}) c)
  ({ strobe := k, selected := selected, calibrated := z, stageE := outs.map (·.1) }, outs.map (·.2))

/-- Stage E of a channel as a redone strobe takes it: where the seed was applied before the strobe, it is applied again
(R99). -/
def reseed (was is : Integrator) (st : Integrator) : Integrator :=
  if is.seeded && !was.seeded then { st with acc := satSigned 64 (st.acc - is.seed), seeded := true, seed := is.seed } else st

/-- Samples and clip bits of the metering samples of a strobe (R94 stage F, R104); a lost channel gives zeros (R115). -/
def frameSamples (s : State) (outs : List Marked) : List Int × BitVec 56 :=
  let fs := outs.zipIdx.map (fun x => if (s.sense.channels.getD x.2 {}).lost then ((0 : Int), false) else stageF x.1)
  (fs.map (·.1), BitVec.ofNat 56 ((fs.zipIdx.map (fun x => flag x.1.2 * 2 ^ x.2)).foldl (· + ·) 0))

/-! ### A boundary that changes calibration or settings (R25, R96) -/

/-- The strobes `todo`, oldest first, redone with the calibration and settings now in force; `frames` collects the new
samples and clip bits, newest first. Settings hold for the calibrated values from strobe `b` on. -/
def redoRows (s : State) : List PastRow → List PastRow → List (Nat × List Int × BitVec 56) →
    List PastRow × List (Nat × List Int × BitVec 56)
  | [], done, frames => (done, frames)
  | r :: todo, done, frames =>
    let last := (done.head?.map (·.stageE)).getD []
    let was := ((s.sense.past.find? (fun x => x.strobe + 1 == r.strobe)).map (·.stageE)).getD []
    let states := tab 56 (fun c => reseed (was.getD c {}) (r.stageE.getD c {}) (last.getD c {}))
    let x := channelRow s done r.strobe r.selected states
    redoRows s todo (x.1 :: done) ((r.strobe - stageDelay, frameSamples s x.2) :: frames)

/-- The metering samples stamped `b` and later that stand in the ring are formed again: a calibration or a configuration
holds from the boundary on, which is fixed only after they have passed (R25, R96; DESIGN CHOICE, log entry 147). -/
def redoFrom (b : Nat) (s : State) : State :=
  let todo := (s.sense.past.takeWhile (fun r => decide (b + bulkDelay ≤ r.strobe))).reverse
  let r := redoRows s todo (s.sense.past.drop todo.length) []
  let newOf := fun (k : Nat) => r.2.find? (fun x => x.1 == k && decide (b ≤ k))
  { s with
    sense.past := r.1
    sense.channels := s.sense.channels.zipIdx.map (fun x =>
      match r.1.head? with
      | some h => ({ x.1 with stageE := h.stageE.getD x.2 {} } : Channel)
      | none => x.1)
    engines.ring := s.engines.ring.map (fun f =>
      match newOf f.strobe with
      | some n => ({ f with samples := n.2.1, clip := n.2.2 } : RingFrame)
      | none => f)
    sense.clipBits := s.sense.clipBits.zipIdx.map (fun x =>
      match (s.engines.ring[x.2]?).bind (fun f => newOf f.strobe) with
      | some n => n.2.2
      | none => x.1) }

/-- What was written before the latch boundary at strobe `b`, which has now been fixed, acts; what was written after it waits
on (R96). -/
def Channel.takeCalibration (b : Nat) (c : Channel) : Channel :=
  { (c.writes.filter (fun w => decide (w.strobe < b))).foldl Channel.apply c with
    writes := c.writes.filter (fun w => decide (b ≤ w.strobe)) }

/-- The calibration of every channel at a boundary `b` that has just been fixed. -/
def takeCalibrations (b : Nat) (s : State) : State :=
  { s with sense.channels := s.sense.channels.map (Channel.takeCalibration b) }

/-! ### One strobe -/

/-- Stage B of all sixty slices at strobe `k`. -/
def stageSlices (raw : List Int) (k : Nat) (s : State) : List (Slice × Marked) :=
  tab 60 (fun i =>
    sliceStage (s.sense.slices.getD i {}) (raw.getD i 0) k ((s.sense.lanes.getD (i / 15) {}).marks k).2)

/-- The position whose twin window is open in a quarter (R107, R113). -/
def Rotation.twinAt : Rotation → Option Nat
  | .twin1 p | .twin2 p | .pre p .twin _ => some p
  | _ => none

/-- A clipped, patched or zero-filled sample of either slice spoils the twin window; those of the settling before it do not
count (R107, R113). -/
def twinMarks (k : Nat) (outs : List (Slice × Marked)) (s : State) (q : Nat) (x : Quarter) : Quarter :=
  match x.rot.twinAt with
  | none => x
  | some p =>
    if k < x.twinFrom || x.twinFrom + x.rot.twinLength ≤ k then x else
    let clip : Nat → Bool := fun i => match outs[i]? with
      | some o => o.2.clip
      | none => false
    let marks := (s.sense.lanes.getD q {}).marks k
    { x with windowDirty := x.windowDirty || clip (sliceAt q p) || clip (sliceAt q waderSlot) || marks.1 || marks.2 }

/-- A mark of every channel by its quarter. -/
def quarterBits (f : Nat → Bool) : BitVec 56 :=
  BitVec.ofNat 56 (((List.range 56).map (fun c => flag (f (quarterOf c)) * 2 ^ c)).foldl (· + ·) 0)

/-- A mark of every channel. -/
def channelBits (f : Nat → Bool) : BitVec 56 :=
  BitVec.ofNat 56 (((List.range 56).map (fun c => flag (f c) * 2 ^ c)).foldl (· + ·) 0)

/-- Strobes that the channel stages can be redone for: the delay of the reckoned samples and the span of the filters. -/
def pastLength : Nat := 1280

/-- The frame of strobe `k` with its marks: PATCHED and LOST_RUN of its quarter's lane, or of a channel lost, and
CAL_STALE (R33, R104, R115, R149). -/
def frameOf (k : Nat) (outs : List Marked) (s : State) : RingFrame :=
  let x := frameSamples s outs
  let marks := tab 4 (fun q => (s.sense.lanes.getD q {}).marks k)
  { strobe := k, samples := x.1, clip := x.2
    patched := quarterBits (fun q => (marks.getD q (false, false)).1)
    lost := quarterBits (fun q => (marks.getD q (false, false)).2) ||| channelBits (fun c => (s.sense.channels.getD c {}).lost)
    stale := channelBits (fun c => (s.sense.channels.getD c {}).calStale) }

/-- The frame stands in the ring, its clip bits with the decimator blocks, and an interpolated sample is counted (R33,
R104, R124). -/
def pushFrame (f : RingFrame) (s : State) : State :=
  { s with
    sense.channels := s.sense.channels.zipIdx.map (fun x =>
      let hit := if x.2 < 56 then f.patched.getLsbD x.2
        else (s.sense.quarters.getD (x.2 - 56) {}).cover.isSome && f.patched.getLsbD (channelAt (x.2 - 56) 0)
      if hit then ({ x.1 with interpolated := x.1.interpolated + 1 } : Channel) else x.1)
    sense.clipBits := (f.clip :: s.sense.clipBits).take 6400
    sense.nextStrobe := (f.strobe + 1) % 2 ^ 48
    engines.ring := (f :: s.engines.ring).take 6241 }

/-- The raw samples of the next strobe pass the array (R94); the metering samples of `stageDelay` strobes before stand in
the ring once the first valid sample has come (R540). -/
def senseSample (raw : List Int) (s : State) : State :=
  let k := s.sense.nextRaw
  let outs := stageSlices raw k s
  let of : Nat → Marked := fun i => match outs[i]? with
    | some o => o.2
    | none => {}
  let selected := tab 56 (fun c =>
    let q := quarterOf c
    selectStage (s.sense.quarters.getD q {}) (positionOf c) (of (sliceOf c)) (of (sliceAt q waderSlot)))
  let r := channelRow s s.sense.past k selected (s.sense.channels.map (·.stageE))
  let s := { s with
    sense.slices := outs.map (·.1)
    sense.channels := s.sense.channels.zipIdx.map (fun x =>
      if x.2 < 56 then ({ x.1 with stageE := r.1.stageE.getD x.2 {} } : Channel) else x.1)
    sense.quarters := s.sense.quarters.zipIdx.map (fun x => twinMarks k outs s x.2 x.1)
    sense.past := (r.1 :: s.sense.past).take pastLength
    sense.nextRaw := (k + 1) % 2 ^ 48 }
  let s := if s.sense.connected && s.sense.first + stageDelay ≤ k then pushFrame (frameOf (k - stageDelay) r.2 s) s else s
  let s := { s with sense.lanes := s.sense.lanes.map (fun l => l.prune (k + 1)) }
  (List.range 4).foldl (fun s q => fadeSample q s) s

end Sys2Proof.Machine
end

