-- ==== Sys2Proof/Machine/Reset.lean ====
section
/-! DEFINITION. Reset.lean: recorded failures (R543–R548), entering reset (R534, R577–R580), and the begin of a
start (R535–R537, R544). -/

namespace Sys2Proof.Machine
open Sys2Proof

/-! ### Failures (R543, R545, R548) -/

/-- Three failures lie within 600 s, or the chronicle has gone back between them (R545). -/
def failuresClose (fs : List Failure) : Bool :=
  match fs with
  | [a, _, c] => decide (a.sec < c.sec) || decide (a.sec - c.sec ≤ 600)
  | _ => false

/-- A failure is recorded: the third within 600 s sets LIMP; one at LIMP_LEVEL 1 raises it to 2. -/
def recordFailure (cause : Nat) (s : State) : State :=
  let f : Failure := { sec := s.sec, cause := cause, kind := s.start.kind }
  let fs := (f :: s.start.failures).take 3
  let limp := s.start.limp || failuresClose fs
  let level := s.start.limpLevel
  saveDevice { s with
    start.failures := fs
    start.limp := limp
    start.limpLevel := if level = 1 then 2 else if level = 0 && limp then 1 else level
    start.cfgDefaulted := s.start.cfgDefaulted || level == 1 }

/-- The failure history, LIMP and LIMP_LEVEL are cleared (R549). -/
def clearFailures (s : State) : State :=
  saveDevice { s with start.failures := [], start.limp := false, start.limpLevel := 0 }

/-! ### Entering reset -/

/-- What becomes of the page writes that wait when reset comes (R439, R440). -/
inductive StoreEnd where
  /-- all are committed -/
  | drained
  /-- the commit in progress breaks after so many bytes, the rest is lost -/
  | torn (bytes : Nat)
deriving DecidableEq, Repr

/-- The array as reset leaves it. -/
def Store.atReset (st : Store) (e : StoreEnd) : List Host.Cell :=
  match e with
  | .drained => (Store.drain st.waiting.length st).cells
  | .torn p => (st.tear p).cells

/-- The archive as reset leaves it: the devices with what stands on them. The mount count goes on, so that cursors of an
earlier mount expire (log entry 166). -/
def Archive.atReset (a : Archive) : Archive :=
  { devices := a.devices.map (fun (d : FlashDevice) => ({ part := d.part, ddrOff := d.ddrOff } : FlashDevice))
    flash := a.flash, mountCount := a.mountCount }

/-- The digital die and the analogue die enter reset. What outlives it: the persistent store, the flash, the backup
domain with the tamper pins, the bittern's cause register (R515), the conditions of the supplies and of the line
driver, and the log's bookkeeping. `next` fixes the kind and cause of the start that follows; `power` says that
main power was lost. -/
def enterReset (next : Option (StartKind × Nat)) (e : StoreEnd) (power : Bool) (s : State) : State :=
  let r := State.reset
  let ev := { s.evidence with
    raised := [], queue := [], safePending := false, safeCommitted := false, safeSave := true
    pins := if power then [] else s.evidence.pins
    lastTest := List.replicate 16 0 }
  let cut := decide ((s.start.phase = .starting ∨ s.start.phase = .failed) ∧ s.start.kind = .cold) ||
    ((s.start.phase = .inReset || s.start.phase = .unpowered) && s.start.coldCut)
  { r with
    pending := s.pending
    free := s.free
    part := s.part
    stepLetter := s.stepLetter
    stepDigit := s.stepDigit
    archive := s.archive.atReset
    line := { vplcLow := s.line.vplcLow, thermal := s.line.thermal }
    store := { cells := s.store.atReset e }
    backup := s.backup
    tamper := s.tamper
    evidence := ev
    integrity := { cause := s.integrity.cause, holding := s.integrity.holding, heldWindows := s.integrity.heldWindows
                   spares := s.integrity.spares }
    start := { phase := .inReset, kind := s.start.kind, next := next, coldCut := cut
               mainLost := s.start.mainLost || power, unrecorded := s.start.unrecorded }
    power := s.power }

/-- A page in the buffer breaks at a place that no operand tells. -/
def State.tornFree (s : State) : StoreEnd := .torn (s.freeValue % 65)

/-- What waits when a supply is lost: the page in the buffer breaks, but one that was there at the supply-fail warning has
completed (R440, R578, R587). -/
def State.lostSupply (torn : Nat) (s : State) : StoreEnd :=
  .torn (if s.power.warning && s.store.firm then pageSize else torn)

/-- RESET_N low for 10 µs: everything but the backup domain is held in reset (R576, R587). -/
def resetNAssert (torn : Nat) (s : State) : State :=
  if s.start.phase = .unpowered then { s with power.resetN := false }
  else
    let next := if s.start.phase = .inReset then s.start.next else some (.warm, 1)
    { enterReset next (.torn torn) false s with
      power.resetN := false
      integrity.holding := s.integrity.holding }

/-- RESET_N_ASSERT. -/
def execResetNAssert (torn : Nat) (s : State) : Outcome := edge (resetNAssert torn) s

/-! ### Begin of a start (R535–R537) -/

/-- The kind and cause of the start that begins, `known` saying that a device state record was read: R534, R535, LIMP before
all. -/
def State.startKind (known : Bool) (s : State) : StartKind × Nat :=
  let byState : StartKind := if !known || s.start.coldCut then .cold else .warm
  let x : StartKind × Nat := match s.start.next with
    | none => (byState, 0)
    | some (k, c) => if c ≤ 1 then (byState, c) else (k, c)
  if s.start.limp then (.limp, x.2) else x

/-- Roles by the outcomes of the start self-tests (R306, R537); the mode follows with the configuration. -/
def placeEngines (ok0 ok1 : Bool) (s : State) : State :=
  let fit : Nat → Bool := fun e => (if e = 0 then ok0 else ok1) && !(s.engine e).retired
  let act := if fit 0 then 0 else 1
  let role : Nat → Role := fun e =>
    if (s.engine e).retired then .retired
    else if !fit e then .notStarted
    else if e = act then .active else .lockstep
  { s with
    engines.active := act
    engines.partnerOk := fit 0 && fit 1
    engines.engines := tab 2 (fun e => { s.engine e with role := role e, beatF := some s.micros, beatW := some s.micros, sinceF := s.micros, sinceW := s.micros }) }

/-- The units that the ordering code fits, in the layout of HELD: all of them are held off as a limp start begins (R546,
R610). -/
def Part.units (p : Part) : BitVec 5 := BitVec.ofNat 5 (7 + 8 * flag p.fitXa + 16 * flag p.fitZlk)

/-- Strobe count at which a cold start has every slice on the reference, 8 ms after the release of reset (R540 step 4). -/
def startMeasures : Nat := 128

/-- The slices as a start begins: a cold one measures them all at once (R112); a warm one, and a limp one, which runs
as a warm one (R546), takes the coefficients of the last save. -/
def startSlices (kind : StartKind) (l : List Slice) : List Slice :=
  if kind = .cold then measureAll startMeasures l else l

/-- The margin scan of a cold start reads every page and puts right the weak bytes, whose values stand (R455). How many
there are is a free value. -/
def marginScan (kind : StartKind) (s : State) : State :=
  if kind = .cold then
    { s.nextFree with store.counters := modAt s.store.counters 3 (· + BitVec.ofNat 32 (s.freeValue % (2 ^ 19 + 1))) }
  else s

/-- A start begins at the release of reset: the device state record is read, the kind chosen, the engines tested
and the flash probed. A restart by a clock alarm is recorded as a failure here, where the Warden first runs
(R515, R543). -/
def beginStart (ok0 ok1 : Bool) (devices : List FlashDevice) (s : State) : State :=
  let known := (newestSlot s.store.seen Ring.device).isSome
  let s := loadDevice s
  let s := match s.start.next with
    | some (_, 5) => recordFailure 4 s
    | _ => if s.start.unrecorded then recordFailure 3 s else s
  let kc := s.startKind known
  let s := marginScan kc.1 (placeEngines ok0 ok1 s)
  { s with
    archive.devices := devices
    sense.slices := startSlices kc.1 s.sense.slices
    tamper := s.tamper.map (fun (p : TamperPin) => ({ p with assertions := 0, glitches := 0 } : TamperPin))
    start.phase := .starting
    start.heldMask := if kc.1 = .limp then s.part.units else 0
    start.kind := kc.1
    start.cause := kc.2
    start.next := none
    start.unrecorded := false
    start.coldCut := false
    start.releaseSec := s.sec
    start.releaseTick := s.backup.tick.toNat
    start.porAtStart := s.backup.bkpPor
    start.oscStoppedAtStart := s.backup.oscStopped
    power.resetN := true }

/-- RESET_RELEASE (R515, R572, R576): not while the bittern holds the die, nor while TEST is high. -/
def resetRelease (ok0 ok1 test : Bool) (flash : List ProbeAnswer) (s : State) : State :=
  if s.start.phase != .inReset || s.integrity.holding.isSome || test then s
  else beginStart ok0 ok1 (probeDevices flash) s

/-- RESET_RELEASE. -/
def execResetRelease (e0 e1 test : Bool) (flash : List ProbeAnswer) (s : State) : Outcome :=
  edge (resetRelease e0 e1 test flash) s

/-- HOST_PORT_OPEN (R40). -/
def hostPortOpen (s : State) : State :=
  if s.awake || s.start.phase = .failed then { s with link.portOpen := true } else s

/-- HOST_PORT_OPEN. -/
def execHostPortOpen (s : State) : Outcome := edge hostPortOpen s

/-! ### Failed starts (R543, R544) -/

/-- A start fails: recorded, and in retry pending only the Warden, the host port, the store and the backup domain
run. The retry is due 2 s later, 60 s after a limp start at level 2 (R548). -/
def failStart (cause : Nat) (s : State) : State :=
  let wait := if s.start.kind = .limp && s.start.limpLevel = 2 then 60000000 else 2000000
  let s := recordFailure cause s
  let r := State.reset
  { s with
    sense := { modCount := s.sense.modCount }, billing := r.billing, xa := r.xa, recording := r.recording
    archive := s.archive.atReset
    engines := { engines := s.engines.engines.map (fun (x : Engine) => ({ retired := x.retired } : Engine)) }
    sluice := r.sluice
    line := { vplcLow := s.line.vplcLow, thermal := s.line.thermal }
    net := r.net
    aux := r.aux
    start.phase := .failed
    start.retryAt := s.micros + wait
    start.energyBegun := false }

/-- START_TIMEOUT: 5 s from the release of reset without billing ready (R543). -/
def startTimeout (s : State) : State :=
  if s.start.phase = .starting ∧ 5000000 ≤ s.micros then failStart 1 s else s

/-- START_TIMEOUT. -/
def execStartTimeout (s : State) : Outcome := edge startTimeout s

/-- START_RETRY: a retry begins with CAUSE 6 and the kind of the start that failed (R544). -/
def startRetry (ok0 ok1 : Bool) (s : State) : State :=
  if s.start.phase != .failed || s.power.warning || s.micros < s.start.retryAt then s
  else beginStart ok0 ok1 s.archive.devices (enterReset (some (s.start.kind, 6)) .drained false s)

/-- START_RETRY. -/
def execStartRetry (e0 e1 : Bool) (s : State) : Outcome := edge (startRetry e0 e1) s

end Sys2Proof.Machine
end

