-- ==== Sys2Proof/Machine/Evidence.lean ====
section
/-! DEFINITION. Evidence.lean: committing evidence entries and the responses to alarms, the objects and commands of
the evidence log (chapter "Tamper, integrity and faults", R496–R511, R527–R529). -/

namespace Sys2Proof.Machine
open Sys2Proof

/-! ### The log region (R504–R506) -/

/-- Entries that the region holds. -/
def logRoom : Nat := 4096

/-- Address of entry `n`. -/
def logAddress (n : Nat) : Nat := 32 * ((n - 1) % logRoom)

/-- Entry `n` as the region has it; the entry before the first is zero bytes. -/
def logEntry (m : Memory) (n : Nat) : Bytes := if n = 0 then zeros 32 else m.reads (logAddress n) 32

/-- The first 28 bytes of an entry (R504). -/
def Raised.head (r : Raised) (n : Nat) : Bytes :=
  leBytes 4 n ++ leBytes 6 r.time ++
    [BitVec.ofNat 8 r.code,
     BitVec.ofNat 8 ((if r.ext || !r.alarm then 0 else r.cls) * 64 + r.sub * 8 + flag r.ext * 4 + flag r.backup * 2 + flag r.host)] ++
    fit 16 r.payload

/-- The 32 bytes of an entry, chained to the one before it (R505). -/
def chainEntry (prev head : Bytes) : Bytes := head ++ (sha256 (prev ++ head)).take 4

/-- Entry `n` stands whole in the region and continues the chain. -/
def entryWhole (m : Memory) (n : Nat) : Bool :=
  let e := logEntry m n
  getU e 0 4 == n && e == chainEntry (logEntry m (n - 1)) (e.take 28)

/-- Slots of the region that have been written, ascending. -/
def logSlots : Memory → List Nat
  | [] => []
  | (k, _) :: m =>
    if 0x20000 ≤ k then []
    else
      let l := logSlots m
      if l.headD logRoom = k / 32 then l else k / 32 :: l

/-- The newest whole entry of the region, 0 when it holds none: the highest sequence number in its place, or the one
before it when that entry is torn. -/
def newestEntry (m : Memory) : Nat :=
  let top := (logSlots m).foldl (fun best i =>
    let q := leNat (m.reads (32 * i) 4)
    if 0 < q && (q - 1) % logRoom = i && best < q then q else best) 0
  if top = 0 || entryWhole m top then top else top - 1

/-- Entry `n` may be written (R506): what it would overwrite has been copied to the pinned tier, and the store writes. -/
def State.logHasRoom (s : State) (n : Nat) : Bool := !s.store.closed && decide (n ≤ logRoom + s.evidence.copied)

/-- A whole group of 64 entries, the last of them `n`, is queued to the pinned tier as one record of type 0x41
(R506, R507). -/
def queueGroup (n : Nat) (s : State) : State :=
  let es := s.store.seen.reads (logAddress (n - 63)) 2048
  let r := [0x41, 64, 0, 0] ++ leBytes 4 (n - 63) ++ es
  s.offer 3 { bytes := r, time := recordTick r, evidence := some n, urgent := true }

/-- One entry is written into the region with the next sequence number. -/
def writeEntry (r : Raised) (s : State) : State :=
  let n := s.evidence.newest + 1
  let e := chainEntry (logEntry s.store.seen (n - 1)) (r.head n)
  let s := { s with
    store := s.store.put (logAddress n) e
    evidence.newest := n
    evidence.head := sha256 e }
  let s := s.setIrq .log
  if n % 64 = 0 then queueGroup n s else s

/-! ### Latching and responses (R496, R497, R500–R502) -/

/-- The value of a key in a list of pairs replaced. -/
def setKey (k v : Nat) (l : List (Nat × Nat)) : List (Nat × Nat) := (k, v) :: l.filter (fun x => x.1 != k)

/-- The value of a key. -/
def getKey (k : Nat) (l : List (Nat × Nat)) : Nat := ((l.find? (fun x => x.1 == k)).map (·.2)).getD 0

/-- A code is latched (R497); the ring is written when its bit was clear. -/
def latchCode (code cls : Nat) (s : State) : State :=
  let was := s.evidence.latched.getLsbD code
  let top := if was then max cls (getKey code s.evidence.latchedClass) else cls
  let s := { s with
    evidence.latched := s.evidence.latched ||| (1#256 <<< code)
    evidence.latchedClass := setKey code top s.evidence.latchedClass }
  if was then s else saveLatched s

/-- The action of an alarm: its own, or that of an alarm response entry (R496, R501): pin, and relays to open. -/
def State.alarmAction (s : State) (code cls : Nat) : Bool × List Nat :=
  match s.view.response code with
  | some (_, a) => (bit 0 a, (List.range 2).filter (fun k => bit (1 + k) a))
  | none => (decide (2 ≤ cls), [])

/-- The response to an alarm whose entry has the number `seq`, 0 where it was lost. -/
def respond (r : Raised) (seq : Nat) (s : State) : State :=
  let cls := if r.backup then min 2 r.cls else r.cls
  let act := s.alarmAction r.code cls
  let s := if 1 ≤ cls then latchCode r.code r.cls (s.setIrq .alarm) else s
  let s := if seq = 0 then s else { s with evidence.latest := setKey r.code seq s.evidence.latest }
  let s := if act.1 && !r.backup then
      { s with evidence.pins := s.evidence.pins ++ [{ code := r.code, seq := seq, time := r.time }] }
    else s
  let s := act.2.foldl (fun s k => commandRelay (2 * k) .toOpen .alarm s) s
  if r.restarts then
    let sluiceCode := r.code == 0x14 && (r.payload.headD 0).toNat == 0
    { s with evidence.safeCommitted := true, evidence.safeSave := s.evidence.safeSave && !sluiceCode }
  else s

/-- The record of a voltage event gets the number of its entry (R230). -/
def numberEvent (event seq : Nat) (s : State) : State :=
  { s with
    xa.recent := modAt s.xa.recent (s.recentPlace event) (fun r => patch r 24 (leBytes 4 seq))
    xa.numbers := (s.xa.numbers ++ [(event, seq)]).drop (s.xa.numbers.length - 31) }

/-- An entry is committed, or lost where the region has no room (R506); its response runs either way (R526). An entry
of the backup buffer is cleared there only now (R483). -/
def commitEntry (r : Raised) (s : State) : State :=
  let lostBefore := s.evidence.lostNow
  let s :=
    if lostBefore != 0 && s.logHasRoom (s.evidence.newest + 1) then
      writeEntry { time := s.ticks, code := 0xF1, payload := leBytes 4 lostBefore }
        { s with evidence.lostNow := 0 }
    else s
  let n := s.evidence.newest + 1
  let fits := s.logHasRoom n && s.evidence.lostNow = 0
  let s :=
    if fits then writeEntry r s
    else { s with evidence.lost := s.evidence.lost + 1, evidence.lostNow := s.evidence.lostNow + 1 }
  let s := if r.backup then { s with backup.buffer := s.backup.buffer.drop 1 } else s
  let s := if r.code = 0x06 then { s with backup.overflow := 0 } else s
  let s := match r.recent with
    | some event => if fits then numberEvent event n s else s
    | none => s
  if r.alarm && !r.ext then respond r (if fits then n else 0) s else s

/-- Step 3 of R499: the Warden claims, where it does not hold the sluice yet (R333), and writes its save. Before the first
energy sample the step is skipped. -/
def wardenStep (s : State) : State :=
  if !s.start.energyBegun then s else
  let s :=
    if s.sluice.wardenHolds then s
    else
      let s := match nextClaim s.sluice.heldClaim 0 with
        | some c => presentClaim c s
        | none => s
      { s with sluice.wardenHolds := true }
  wardenSave s

/-- Steps 3 and 4 of R499, and of R333 for ENGINES_LOST: the Warden's claim and its save, the failure, the warm start.
After an invalid sluice code step 3 is skipped. -/
def safeRestart (s : State) : State :=
  let s := if s.evidence.safeSave then wardenStep s else s
  { enterReset (some (.warm, 4)) .drained false (recordFailure 3 s) with start.unrecorded := s.store.closed }

/-- EVIDENCE_COMMIT: the first entry that waits is committed (R509). When the last entry of a SAFE alarm's edge is
done, the restart follows, unless power is failing (R526); the last entry of a power-down save ends all writing
(R451). A blocked store loses and counts its entries, and their responses run (R518, R526; DEDUCED, log entry 214). -/
def evidenceCommit (s : State) : State :=
  if (s.store.closed && s.power.warning) || !(s.awake || s.start.phase == .failed) then s else
  match s.evidence.queue with
  | [] => s
  | r :: q =>
    let s := commitEntry r { s with evidence.queue := q }
    if s.power.warning then { s with store.closed := q.isEmpty }
    else if s.evidence.safeCommitted && (match q with | [] => true | x :: _ => x.sub == 0) then safeRestart s
    else s

/-- EVIDENCE_COMMIT. -/
def execEvidenceCommit (s : State) : Outcome := edge evidenceCommit s

/-! ### Alarm pins (R500) -/

/-- Alarm pins made in the chronicle hour in progress. -/
def State.alarmPinsThisHour (s : State) : Nat :=
  if s.evidence.pinHour = s.sec / 3600 then s.evidence.pinsHour else 0

/-- The alarm pin of an alarm is asked for, or skipped beyond the limit. -/
def askAlarmPin (p : AlarmPin) (s : State) : State :=
  let s := { s with evidence.pins := s.evidence.pins.erase p }
  let n := s.alarmPinsThisHour
  if 16 ≤ n then pinExtension p.code p.seq 3 0 s
  else
    let s := { s with evidence.pinsHour := n + 1, evidence.pinHour := s.sec / 3600 }
    let span := 30 * tps
    let r := if s.archiveGate.isSome then (s, none) else devicePin (p.time - span) (p.time + span) 0x20 p.seq s
    match r.2 with
    | some k => { r.1 with evidence.pins := r.1.evidence.pins ++ [{ p with asked := some k }] }
    | none => pinExtension p.code p.seq 2 0 r.1

/-- ALARM_PIN_DUE: 30 s after an alarm its pin is requested (R500). While the archive mounts, it waits. -/
def alarmPinDue (s : State) : State :=
  if !s.awake || s.archiveGate = some .busy then s else
  match s.evidence.pins.find? (fun p => p.asked.isNone && decide (p.time + 30 * tps ≤ s.ticks)) with
  | some p => askAlarmPin p s
  | none => s

/-- ALARM_PIN_DUE. -/
def execAlarmPinDue (s : State) : Outcome := edge (fun s => giveWork (alarmPinDue s)) s

/-! ### Commands of the log (R510, R511, R529) -/

/-- The oldest sequence number in the region, 0 while it is empty. -/
def State.oldestEntry (s : State) : Nat :=
  if s.evidence.newest = 0 then 0 else s.evidence.newest - (min logRoom s.evidence.newest - 1)

/-- LOG_READ (R510). -/
def State.logRead (s : State) (p : Bytes) : Answer :=
  let first := getU p 0 4
  let count := getU p 4 1
  if p.length != 5 || count = 0 || 64 < count then refuse .badParam
  else if first < s.oldestEntry || s.evidence.newest < first || first = 0 then refuse .notFound
  else
    let n := min count (s.evidence.newest + 1 - first)
    let m := s.store.seen
    .done .ok (tabBytes n (fun k => logEntry m (first + k)))

/-- LOG_APPENDs taken in the chronicle second in progress. -/
def State.appendsNow (s : State) : Nat := if s.evidence.appendSec = s.sec then s.evidence.appends else 0

/-- LOG_APPEND (R446, R511). -/
def logAppend (p : Bytes) (s : State) : Answer × State :=
  let n := s.appendsNow
  if p.isEmpty || 16 < p.length then (refuse .badParam, s)
  else if s.protects 0 then
    let r := refuseProtected s
    (refuse r.1, r.2)
  else if 8 ≤ n then (refuse .busy, s)
  else if !s.logHasRoom s.nextEntry then (refuse .overflow, s)
  else
    let seq := s.nextEntry
    let s := { s with evidence.appends := n + 1, evidence.appendSec := s.sec }
    (.done .ok (leBytes 4 seq), s.raiseEntry { time := s.ticks, code := 0xF0, payload := p, host := true })

/-- One latched code is cleared: its bit, and an extension to its most recent entry (R497). -/
def clearCode (code : Nat) (s : State) : State :=
  if !s.evidence.latched.getLsbD code then s
  else
    let s := { s with
      evidence.latched := s.evidence.latched &&& ~~~(1#256 <<< code)
      evidence.latchedClass := s.evidence.latchedClass.filter (fun x => x.1 != code) }
    s.raiseExt code (getKey code s.evidence.latest) [1]

/-- A write of the alarm clear member (R529). -/
def alarmClear (value : Nat) (s : State) : Status × State :=
  if 0x100 < value then (.badParam, s)
  else
    let codes := if value = 0x100 then List.range 256 else [value]
    let hit := codes.any (fun c => s.evidence.latched.getLsbD c)
    let s := codes.foldl (fun s c => clearCode c s) s
    (.ok, if hit then saveLatched s else s)

/-! ### Objects (R527, R528) -/

/-- The log status member. -/
def State.logStatus (s : State) : Bytes :=
  let e := s.evidence
  leBytes 4 e.newest ++ leBytes 4 s.oldestEntry ++ leBytes 2 (min logRoom e.newest) ++ [0, 0] ++ leBytes 4 e.copied ++
    leBytes 4 e.overflow.toNat ++ leBytes 4 e.lost.toNat ++ e.head

/-- The latched alarms member. -/
def State.latchedAlarms (s : State) : Bytes :=
  let codes := (List.range 256).filter (fun c => s.evidence.latched.getLsbD c)
  let top := (codes.map (fun c => getKey c s.evidence.latchedClass)).foldl max 0
  leBytes 32 s.evidence.latched.toNat ++ [BitVec.ofNat 8 top, BitVec.ofNat 8 (min 255 codes.length), 0, 0]

end Sys2Proof.Machine
end

