-- ==== Sys2Proof/Machine/Watches.lean ====
section
/-! DEFINITION. Watches.lean: the bittern, the wide-distance encodings, the bus code, the SRAM and Warden tests
(chapter "Tamper, integrity and faults", R514–R525, R530, R533). -/

namespace Sys2Proof.Machine
open Sys2Proof

/-! ### The bittern (R514–R516) -/

/-- High: above +2 %. -/
def windowHigh (c : Nat) : Bool := decide (6418 ≤ c)
/-- Low: below −2 %. -/
def windowLow (c : Nat) : Bool := decide (c ≤ 6165)
/-- Beyond ±10 %. -/
def windowWide (c : Nat) : Bool := decide (6921 ≤ c) || decide (c ≤ 5662)
/-- Good for release: within ±1 %. -/
def windowGood (c : Nat) : Bool := decide (6229 ≤ c) && decide (c ≤ 6354)

/-- The digital die runs, so that the bittern judges its clock. -/
def State.dieRuns (s : State) : Bool := s.awake || s.start.phase == .failed

/-- A clock alarm resets the die and holds it (R515): the cause register keeps its code and window count. -/
def holdDie (code count : Nat) (e : StoreEnd) (s : State) : State :=
  enterReset (some (.warm, 5)) e false
    { s with integrity.cause := some (code, count, 0), integrity.holding := some 0, integrity.heldWindows := 0 }

/-- CLK_HIGH or CLK_LOW: with all three windows within ±10 %, steps 1–3 of R499 run on the clock the device has; a
window beyond them skips the save, and so does a SAFE response in progress (R526). -/
def clockAlarm (code count : Nat) (wide : Bool) (s : State) : State :=
  if wide || s.evidence.safePending then
    let e := s.tornFree
    holdDie code count e s.nextFree
  else
    holdDie code count .drained (if s.power.warning then s else wardenStep s)

/-- A bittern window ends while the die runs: it is kept and judged (R514, R515, R533). -/
def judgeWindow (c : Nat) (s : State) : State :=
  let i := s.integrity
  let hi := windowHigh c && !i.watchOsc
  let lo := windowLow c && !i.watchOsc
  let wide := windowWide c || ((hi && i.highRun != 0 || lo && i.lowRun != 0) && i.runWide)
  let s := { s with
    integrity.lastCount := c
    integrity.lowCount := if i.anyWindow then min c i.lowCount else c
    integrity.highCount := if i.anyWindow then max c i.highCount else c
    integrity.anyWindow := true
    integrity.highRun := if hi then i.highRun + 1 else 0
    integrity.lowRun := if lo then i.lowRun + 1 else 0
    integrity.runWide := (hi || lo) && wide }
  if hi && i.highRun = 2 then clockAlarm 0x10 c wide s
  else if lo && i.lowRun = 2 then clockAlarm 0x11 c wide s
  else s

/-- A window ends while the bittern holds the die (R515): after 100 good windows in a row it may be released, and the
cause register tells the milliseconds from the detection. -/
def heldWindow (c run : Nat) (s : State) : State :=
  let n := s.integrity.heldWindows + 1
  let run := if windowGood c then run + 1 else 0
  { s with
    integrity.heldWindows := n
    integrity.holding := if run = 100 then none else some run
    integrity.cause := s.integrity.cause.map (fun x => (x.1, x.2.1, n * 1024 / 1000)) }

/-- A window ends between the last good one and the release of reset: the cause register goes on. -/
def releaseWindow (s : State) : State :=
  let n := s.integrity.heldWindows + 1
  { s with
    integrity.heldWindows := n
    integrity.cause := s.integrity.cause.map (fun x => (x.1, x.2.1, n * 1024 / 1000)) }

/-- BITTERN_WINDOW. -/
def bitternWindow (c : Nat) (s : State) : State :=
  match s.integrity.holding with
  | some run => heldWindow c run s
  | none =>
    if s.dieRuns then judgeWindow c s
    else if s.start.phase = .inReset && s.integrity.cause.isSome then releaseWindow s
    else s

/-- BITTERN_WINDOW. -/
def execBitternWindow (count : Nat) (s : State) : Outcome := edge (bitternWindow count) s

/-- CLK_GLITCH: a FAB period shorter than 6.10 ns resets the die; nothing is saved (R515). -/
def clkGlitch (s : State) : State :=
  if s.dieRuns then
    let e := s.tornFree
    holdDie 0x12 0 e s.nextFree
  else s

/-- CLK_GLITCH. -/
def execClkGlitch (s : State) : Outcome := edge clkGlitch s

/-- WATCH_OSC: the FAB-side check of the watch oscillator (R516). -/
def watchOsc (c : Nat) (s : State) : State :=
  if !s.dieRuns then s else
  let bad := decide (8602 ≤ c) || decide (c ≤ 7782)
  let was := s.integrity.watchOsc
  let s := { s with integrity.watchOsc := bad }
  if bad && !was then s.raise 0x13 (leBytes 2 c) else s

/-- WATCH_OSC. -/
def execWatchOsc (count : Nat) (s : State) : Outcome := edge (watchOsc count) s

/-- The entry of the bittern's cause register, written at a start (R515, R542), with the time of the start. -/
def raiseCause (s : State) : State :=
  match s.integrity.cause with
  | some (code, count, ms) =>
    { s.raise code ((if code = 0x12 then [] else leBytes 2 count) ++ leBytes 4 ms) with integrity.cause := none }
  | none => s

/-! ### Wide-distance encodings (R517–R519) -/

/-- The valid codes of a machine (R518). -/
def validCodes (machine : Nat) : List Nat :=
  [[0x0F, 0x33, 0x3C], [0x55, 0x5A, 0x66, 0x69], [0x96, 0x99, 0xA5, 0xAA, 0xC3, 0xCC, 0xF0, 0x0F],
   [0x33, 0x3C, 0x55, 0x5A], [0x66, 0x69, 0x96, 0x99, 0xA5]].getD machine []

/-- Addresses of the configuration slots: a page of them. -/
def slotPage (p : Nat) : Bool := decide (0x1000 ≤ p) && decide (p < 0x1600)

/-- The slot being written fails its check (R518): its pages that wait are not written, or, where all are, its last word is
spoilt, by a free value. -/
def spoilSlot (s : State) : State :=
  let rest := s.store.waiting.filter (fun w => !slotPage w.page)
  let image := s.start.committing
  if rest.length < s.store.waiting.length then { s with store.waiting := rest }
  else
    { s.nextFree with
      store := s.store.put (slotAddress s.start.commitSlot + image.length - 4)
        ((spoilImage image s.freeValue).drop (image.length - 4)) }

/-- The configuration commit machine enters idle (R518): the commit outstanding completes with FAULT, the slot being
written fails its check, and no image is pending. -/
def commitInvalid (s : State) : State :=
  let writing := s.start.commit = .writing
  let s := if writing then spoilSlot s else s
  let s := s.completeAll (fun w => match w with | .commit _ => true | _ => false) .fault
  { s with
    start.commit := .idle
    start.committing := []
    start.pending := s.start.pending.map (fun (p : Pended) => ({ p with image := none } : Pended))
    start.applying := []
    link.session := if writing then none else s.link.session }

/-- The safe state of a machine whose register holds an invalid code (R518, R519). -/
def invalidState (machine inst : Nat) (s : State) : State :=
  match machine with
  | 0 => s.enterHold
  | 1 =>
    let p := s.freeValue % 65
    let s := s.nextFree
    { s with store := { s.store.tear p with closed := true } }
  | 2 => declareFailed inst true s
  | 3 =>
    { s with
      store.saveState := 0
      store.waiting := if s.store.saveState = 2 then s.store.waiting.take 1 ++
          (s.store.waiting.drop 1).filter (fun w => !(decide (0x800 ≤ w.page) && decide (w.page < 0x980)))
        else s.store.waiting }
  | 4 => commitInvalid s
  | _ => s

/-- STATE_INVALID: a register of R518 holds a code that its machine does not have. -/
def stateInvalid (machine inst : Nat) (code : Byte) (s : State) : State :=
  if !s.dieRuns || 5 ≤ machine || (machine != 2 && inst != 0) || 2 ≤ inst || (validCodes machine).contains code.toNat then s
  else
    (invalidState machine inst (s.countIntegrity 10)).raise 0x14 [BitVec.ofNat 8 machine, BitVec.ofNat 8 inst, code]

/-- STATE_INVALID. -/
def execStateInvalid (machine inst : Nat) (code : Byte) (s : State) : Outcome := edge (stateInvalid machine inst code) s

/-! ### Targeted tests (R521, R523, R524) -/

/-- The bus code of a word of the fabric (R520): over bits [31:2] of its byte address with its KIND behind them, and over
its data, most significant byte first. -/
def busCodeOf (address : BitVec 32) (kind : BitVec 2) (data : BitVec 32) : Nat :=
  let head := address.toNat / 4 * 4 + kind.toNat
  crc8 ((leBytes 4 head).reverse ++ (leBytes 4 data.toNat).reverse)

/-- The consumer's check of a word, at the address and of the KIND that it awaits (R521). -/
def goodWord (w : BusWord) (address : BitVec 32) (kind : BitVec 2) : Bool :=
  busCodeOf address kind w.data == w.code.toNat

/-- BUS_CODE: a word that fails its code is not used and its transfer is repeated once; when the repeat fails too, the
path test runs (R521, R523). A KIND of 3 is reserved, and no word has it. -/
def busCode (address : BitVec 32) (kind : BitVec 2) (producer : Byte) (first again : BusWord) (s : State) : State :=
  if !s.dieRuns || kind = 3#2 || goodWord first address kind then s
  else
    let s := s.countIntegrity 6
    if goodWord again address kind then s
    else { s.countIntegrity 6 with integrity.fabricTests := s.integrity.fabricTests ++ [(address.toNat, producer.toNat)] }

/-- BUS_CODE. -/
def execBusCode (address : BitVec 32) (kind : BitVec 2) (producer : Byte) (first again : BusWord) (s : State) : Outcome :=
  edge (busCode address kind producer first again) s

/-- FABRIC_TEST_END: the oldest test ends; the event is logged with the outcome, and a fail raises FABRIC_FAULT. -/
def fabricTestEnd (passed : Bool) (s : State) : State :=
  match s.integrity.fabricTests with
  | [] => s
  | (a, p) :: rest =>
    let head := leBytes 4 a ++ [BitVec.ofNat 8 p]
    let s := { s with integrity.fabricTests := rest }.raise 0x15 (head ++ [BitVec.ofNat 8 (flag passed)])
    if passed then s.countIntegrity 11 else s.raise 0x16 head

/-- FABRIC_TEST_END. -/
def execFabricTestEnd (passed : Bool) (s : State) : Outcome := edge (fabricTestEnd passed) s

/-- Bytes of a ring frame: 56 samples of 24 bits, packed (R33). -/
def ringFrameBytes : Nat := 168

/-- Size of each region of R33 in bytes. -/
def regionSize (region : Nat) : Nat :=
  [512 * 1024, 512 * 1024, 1024 * 1024, 1536 * 1024, 256 * 1024, 256 * 1024].getD region 0

/-- One sample of a ring frame is zero and lost. -/
def RingFrame.lose (c : Nat) (f : RingFrame) : RingFrame :=
  { f with samples := f.samples.set c 0, lost := f.lost ||| (1#56 <<< c) }

/-- An uncorrectable word of the replay ring (R524): the two samples whose packed bytes the word holds are zero and lost.
Samples stand in a frame in channel order; which frame lies at the place the spec leaves open: a free choice among those
held. No frame lies in the bytes behind the last whole one. -/
def ringWordLost (address : Nat) (s : State) : State :=
  let n := s.engines.ring.length
  if n = 0 || regionSize 2 / ringFrameBytes * ringFrameBytes ≤ address then s else
  let w := address % ringFrameBytes / 4 * 4
  { s.nextFree with engines.ring := modAt s.engines.ring (s.freeValue % n) (fun f =>
      (f.lose (w / 3)).lose ((w + 3) / 3)) }

/-- A record of the mere is dropped (R289, R292, R524): which one lies at the place the spec leaves open. -/
def mereWordLost (s : State) : State :=
  let all := (List.range 4).flatMap (fun t => ((s.archive.tier t).queue.zipIdx).map (fun x => (t, x.2, x.1)))
  if all.isEmpty then s else
  match all[s.freeValue % all.length]? with
  | none => s
  | some (t, i, r) =>
    let s := s.nextFree
    match r.seg with
    | some seg => giveWay seg r.time s
    | none =>
      let a := s.archive.modTier t (fun l => { l with queue := l.queue.eraseIdx i })
      { s with archive := { a with flow := { a.flow with discarded := a.flow.discarded + 1 } } }

/-- What an uncorrectable word costs by its region (R33, R524). -/
def wordLost (region address : Nat) (s : State) : State :=
  match region with
  | 0 => declareFailed 0 true s
  | 1 => declareFailed 1 true s
  | 2 => ringWordLost address s
  | 3 => mereWordLost s
  | _ => s

/-- The row of 256 bytes in which an address of a region lies (R523). -/
def rowOf (region : Nat) (address : BitVec 32) : Nat × Nat := (region, address.toNat / 256 * 256)

/-- ECC_DOUBLE, at an address within a region of R33: logged and counted; the row's march test runs, and what the word
held is lost (R523, R524). A row under test is inaccessible, so that none of its words can fail again. -/
def eccDouble (region : Nat) (address : BitVec 32) (s : State) : State :=
  let row := rowOf region address
  if !s.dieRuns || regionSize region ≤ address.toNat || s.integrity.rowTests.contains row then s else
  let s := { s.countIntegrity 8 with integrity.rowTests := s.integrity.rowTests ++ [row] }
  wordLost region address.toNat (s.raise 0x17 (BitVec.ofNat 8 region :: leBytes 4 address.toNat))

/-- ECC_DOUBLE. -/
def execEccDouble (region : Nat) (address : BitVec 32) (s : State) : Outcome := edge (eccDouble region address) s

/-- SRAM_ROW_TEST_END: the row is restored, or mapped to a spare, or no spare is left (R523, R524). -/
def sramRowTestEnd (region : Nat) (address : BitVec 32) (passed : Bool) (s : State) : State :=
  let t := rowOf region address
  if !s.integrity.rowTests.contains t then s else
  let s := { s with integrity.rowTests := s.integrity.rowTests.erase t }
  let used := s.integrity.spares.getD region 0
  if passed then s.countIntegrity 11
  else if used < 8 then
    let s := { s.countIntegrity 9 with integrity.spares := modAt s.integrity.spares region (· + 1) }
    s.raise 0x18 (BitVec.ofNat 8 region :: leBytes 4 t.2 ++ [BitVec.ofNat 8 (7 - used)])
  else
    let s := s.raise 0x19 [BitVec.ofNat 8 region]
    if region < 2 then retireEngine region s else s

/-- SRAM_ROW_TEST_END. -/
def execSramRowTestEnd (region : Nat) (address : BitVec 32) (passed : Bool) (s : State) : Outcome :=
  edge (sramRowTestEnd region address passed) s

/-- WARDEN_LOCKSTEP: both cores are reset for their test; long commands end with FAULT, frames in progress are lost
(R523). -/
def wardenLockstep (s : State) : State :=
  if !s.dieRuns || s.integrity.wardenTesting then s else
  let s := s.completeAll Work.long .fault
  { s with
    integrity.wardenTesting := true
    link.uartRx := {}
    link.spiRx := none }.raise 0x1A []

/-- WARDEN_LOCKSTEP. -/
def execWardenLockstep (s : State) : Outcome := edge wardenLockstep s

/-- WARDEN_TEST_END: a pass is transient; a fail raises WARDEN_FAILED. -/
def wardenTestEnd (passed : Bool) (s : State) : State :=
  if !s.integrity.wardenTesting then s else
  let s := { s with integrity.wardenTesting := false }
  if passed then s.countIntegrity 11 else s.raise 0x1B []

/-- WARDEN_TEST_END. -/
def execWardenTestEnd (passed : Bool) (s : State) : Outcome := edge (wardenTestEnd passed) s

/-! ### Objects (R530, R533) -/

/-- The integrity counters member. -/
def State.integrityCounters (s : State) : Bytes := s.integrity.counters.flatMap (fun c => leBytes 4 c.toNat)

/-- The bittern status member. -/
def State.bitternStatus (s : State) : Bytes :=
  let i := s.integrity
  leBytes 2 i.lastCount ++ leBytes 2 i.lowCount ++ leBytes 2 i.highCount ++
    [BitVec.ofNat 8 (flag i.watchOsc + 2 * flag i.watchOsc + 4 * flag i.bitternFault), 0]

/-- The members of class 9 but for the descriptors and the settings (R527). -/
def State.readEvidence (s : State) (inst m : Nat) : Option Bytes :=
  match inst, m with
  | 0, 0 => some s.logStatus
  | 0, 1 => some s.latchedAlarms
  | 0, 2 => some [0, 0]
  | 0, 4 => some s.integrityCounters
  | 0, 5 => some (fit 16 s.evidence.lastTest)
  | 1, 0 => some s.tamperStatus
  | 1, 2 => some s.bitternStatus
  | 1, 3 => some s.tamperCounters
  | _, _ => none

end Sys2Proof.Machine
end

