-- ==== Sys2Proof/Machine/Settings.lean ====
section
/-! DEFINITION. Settings.lean: the checks of a configuration image (R551–R554, R557), the slots (R555, R564), and
the factory calibration record (R558). -/

namespace Sys2Proof.Machine
open Sys2Proof

/-! ### Field ranges of one member (R10, R554 check 4) -/

/-- A channel's settings member (R122). -/
def channelSettingOk (c w : Nat) : Bool :=
  w % 2 ^ 27 == 0 &&
    (if c < 48 then 1 ≤ field 30 28 w && field 30 28 w ≤ 3 else field 30 28 w == 0)

/-- A channel's binding member (R123). -/
def bindingOk (c w : Nat) : Bool :=
  if c < 48 then field 14 10 w == 0 && !bit 3 w && field 5 4 w != 3 else w < 8

/-- A service's settings member (R154, R132). -/
def serviceSettingOk (w : Nat) : Bool := field 28 26 w != 7 && !bit 25 w && w % 2 ^ 19 == 0

/-- A service's demand limit member (R193). -/
def limitOk (b : Bytes) : Bool := getU b 4 1 ≤ 1 && getU b 5 1 ≤ 1 && getU b 6 2 == 0

/-- A pulse output's settings member (R196, R169). -/
def pulseSettingOk (w : Nat) : Bool :=
  field 47 44 w ≤ 7 && 10 ≤ field 43 37 w && field 43 37 w ≤ 80 &&
    1 ≤ field 36 17 w && field 36 17 w ≤ 100000 && w % 2 ^ 16 == 0

/-- A load-control pair's settings member (R199). -/
def pairSettingOk (w : Nat) : Bool :=
  2 ≤ field 30 26 w && field 30 26 w ≤ 20 && field 25 22 w != 0 && w % 2 ^ 22 == 0

/-- The interval settings member (R190, R183). -/
def intervalSettingOk (w : Nat) : Bool := field 15 12 w ≤ 11 && field 11 8 w != 0 && w % 2 ^ 8 == 0

/-- One bus's record of the bus event settings member (R228). -/
def busEventOk (b : Bytes) (n : Nat) : Bool :=
  let udin := getU b (8 * n) 4
  let sag := getU b (8 * n + 4) 1
  let swell := getU b (8 * n + 5) 1
  let int := getU b (8 * n + 6) 1
  let rvc := getU b (8 * n + 7) 1
  50000 ≤ udin && udin ≤ 470000 && 50 ≤ sag && sag ≤ 98 && 102 ≤ swell && swell ≤ 150 &&
    1 ≤ int && int ≤ 20 && 10 ≤ rvc && rvc ≤ 60

/-- The pin settings member (R229). -/
def pinSettingOk (w : Nat) : Bool := field 27 22 w ≤ 60 && field 21 16 w ≤ 60 && w % 2 ^ 16 == 0

/-- The archive settings member (R304). -/
def archiveSettingOk (w : Nat) : Bool :=
  let pool := field 56 50 w
  let peat := field 49 43 w
  let pin := field 42 36 w
  field 63 57 w ≤ 64 && 1 ≤ pool && pool ≤ 64 && 1 ≤ peat && peat ≤ 64 && 1 ≤ pin && pin ≤ 64 &&
    field 35 34 w != 3 && w % 2 ^ 33 == 0

/-- The recording settings member (R267). -/
def recordingSettingOk (w : Nat) : Bool := field 31 28 w ≤ 11 && field 27 25 w != 7 && w % 2 ^ 23 == 0

/-- The line settings member (R369). -/
def lineSettingOk (w : Nat) : Bool :=
  400 ≤ field 19 10 w && field 19 10 w ≤ 900 && 400 ≤ field 9 0 w && field 9 0 w ≤ 900

/-- The network settings member (R406). -/
def networkSettingOk (w : Nat) : Bool :=
  1 ≤ field 63 48 w && field 63 48 w ≤ 0xFFFE && field 38 36 w != 0 && w % 2 ^ 36 == 0

/-- A converter's settings member (R436, R418). -/
def converterSettingOk (k w : Nat) : Bool :=
  (k == 0 || !bit 30 w) && field 29 27 w ≤ 4 && field 26 21 w ≤ 26 && field 20 16 w == 0

/-- The time settings member (R488). -/
def timeSettingOk (w : Nat) : Bool := field 63 32 w ≤ 22118400 && w % 2 ^ 24 == 0

/-- The store settings member (R459). -/
def storeSettingOk (w : Nat) : Bool := 1 ≤ field 31 26 w && field 31 26 w ≤ 60 && w % 2 ^ 26 == 0

/-- One alarm response entry (R529). -/
def responseOk (b : Bytes) (k : Nat) : Bool :=
  getU b (4 * k + 1) 1 ≤ 3 && getU b (4 * k + 2) 1 < 8 && getU b (4 * k + 3) 1 == 0

/-- One pin's record of the tamper settings member (R531). -/
def tamperSettingOk (w : Nat) : Bool := !bit 12 w && field 11 8 w != 0 && w % 2 ^ 6 == 0

/-- The value of a member that an image may set obeys R9, R10 and its field ranges. -/
def settingOk (i : Nat) (b : Bytes) : Bool :=
  let w := leNat b
  let n := idxInst i
  let m := idxMem i
  match idxClass i with
  | 1 => if m = 1 then channelSettingOk n w else bindingOk n w
  | 2 => if m = 1 then serviceSettingOk w else if m = 12 then limitOk b else true
  | 3 => if n < 8 then pulseSettingOk w else pairSettingOk w
  | 4 => if i = 0x4001 then archiveSettingOk w else recordingSettingOk w
  | 5 =>
    if i = 0x5001 then lineSettingOk w
    else if i = 0x5041 then networkSettingOk w else field 30 16 w == 0
  | 6 =>
    if i = 0x6011 then getU b 0 4 < 2 ^ 24 && getU b 4 4 < 2 ^ 24
    else if i = 0x6012 then comparatorsOk b
    else if i = 0x6021 then converterSettingOk 0 w
    else if i = 0x6029 then converterSettingOk 1 w
    else (List.range 64).all (fun k => entryOk (getU b (4 * k) 4))
  | 7 => timeSettingOk w
  | 8 => storeSettingOk w
  | 9 => if i = 0x9003 then (List.range 8).all (responseOk b) else (List.range 4).all (fun k => tamperSettingOk (getU b (2 * k) 2))
  | _ =>
    if i = 0x000A then intervalSettingOk w
    else if i = 0x0041 then w % 2 ^ 4 == 0
    else if i = 0x0042 then w % 2 ^ 32 == 0
    else if i = 0x0043 then (List.range 8).all (busEventOk b)
    else pinSettingOk w

/-! ### Rules across members (R554 check 5) -/

/-- The elements that an image's current channels name: service, element, current and voltage channel (R123). -/
def View.named (v : View) : List (Nat × Nat × Nat × Nat) :=
  ((List.range 48).filter v.bound).map (fun c =>
    let b := v.bindingOf c
    (field 9 6 b, field 5 4 b, c, field 2 0 b))

/-- No element of `l` stands in it twice. -/
def noRepeat : List Nat → Bool
  | [] => true
  | a :: as => !as.contains a && noRepeat as

/-- The binding rules (R22, R154): an element is named by one current channel, the elements of a service take
distinct voltage channels of one bus, and a service is enabled exactly when channels name it. -/
def View.bindingRules (v : View) : Bool :=
  let es := v.named
  noRepeat (es.map (fun e => 4 * e.1 + e.2.1)) &&
  (List.range 16).all (fun n =>
    let mine := es.filter (fun e => e.1 == n)
    let volts := mine.map (fun e => e.2.2.2)
    v.svcOn n == !mine.isEmpty && noRepeat volts &&
      volts.all (fun u => v.busOf u == v.busOf (volts.headD 0)))

/-- The bounds of R127 on an energy weight in UQ16.48: at least 2^−24 and below 2^16. -/
def weightOk (vfs ifs quantum : Nat) : Bool :=
  let k := energyWeight vfs ifs quantum
  decide (2 ^ 24 ≤ k) && decide (k < 2 ^ 64)

/-- The rules of R127. -/
def View.weightRules (v : View) : Bool :=
  let es := v.named
  es.all (fun e =>
    let vfs := v.vfs e.1 e.2.1
    let ifs := v.ifs e.1 e.2.1
    vfs != 0 && ifs != 0 && weightOk vfs ifs (v.svcQuantum e.1) && v.chanOn e.2.2.1 && v.chanOn (48 + e.2.2.2) &&
      es.all (fun f => f.2.2.2 != e.2.2.2 || v.vfs f.1 f.2.1 == vfs))

/-- One nominal frequency on a bus (R143), and a pacing bus that holds an enabled voltage channel unless none is
enabled (R162). -/
def View.busRules (v : View) : Bool :=
  (List.range 8).all (fun b => (v.busChans b).all (fun u => v.chanFnom (48 + u) == v.busFnom b)) &&
    (!(v.busChans v.latchBus).isEmpty || (List.range 8).all (fun u => !v.chanOn (48 + u)))

/-- The pulse output rules (R170). -/
def View.pulseRules (v : View) : Bool :=
  (List.range 8).all (fun o =>
    let svcs := v.poServices o
    let q := v.svcQuantum (svcs.headD 0)
    v.poQty o == 0 ||
      (!svcs.isEmpty && svcs.all (fun n => v.svcOn n && v.svcQuantum n == q) &&
        v.poConstant o != 0 && v.weightNum o % v.poConstant o == 0 && v.poConstant o ≤ v.weightNum o))

/-- The demand rules (R182, R183). -/
def View.demandRules (v : View) : Bool :=
  v.demandSub * v.demandK ≤ 3600 && (v.demandSliding || v.demandK == 1) &&
    (List.range 16).all (fun n => v.limit n == 0 || !v.lcLevel (v.limitRelay n))

/-- The analysis masks (R202), and the audit's reserve (R267). -/
def View.analysisRules (p : Part) (v : View) : Bool :=
  (List.range 56).all (fun c => !v.analysed c || v.chanOn c) &&
    (List.range 8).all (fun u => !(v.flicker u || v.watched u) || v.chanOn (48 + u)) &&
    (p.fitXa || !v.auditOn)

/-- The archive quotas (R304). -/
def View.quotaRules (v : View) : Bool :=
  v.quota 0 + v.quota 1 + v.quota 2 + v.quota 3 ≤ 64 && (!v.seepOn || v.quota 0 != 0)

/-- The power-line rules (R369, R359, R407). -/
def View.lineRules (p : Part) (v : View) : Bool :=
  let space := field 19 10 (v.num 0x5001)
  let mark := field 9 0 (v.num 0x5001)
  let feeds := (List.range 16).filter v.feeds
  (!v.zlOn || !(v.busChans v.zlBus).isEmpty) && (50 ≤ space - mark || 50 ≤ mark - space) &&
    (!v.balOn ||
      (v.zlOn && !feeds.isEmpty && feeds.all (fun n => v.svcOn n && v.svcBus n == some v.zlBus) && p.fitXa))

/-- The class an alarm response entry may not lower: that of its code, 0 where instances have their own (R501). -/
def responseFloor (s : State) (code : Nat) : Option Nat :=
  if code = 0x01 || code = 0x14 || code = 0x19 then some 0 else s.baseClass code 0

/-- The alarm response rules (R501). -/
def responseRules (s : State) (v : View) : Bool :=
  let b := v 0x9003
  let codes := ((List.range 8).map (fun k => getU b (4 * k) 1)).filter (· != 0)
  noRepeat codes &&
  (List.range 8).all (fun k =>
    let code := getU b (4 * k) 1
    let action := getU b (4 * k + 2) 1
    code == 0 ||
      ((match responseFloor s code with
        | some c => decide (c ≤ getU b (4 * k + 1) 1)
        | none => false) &&
        !(bit 1 action && v.lcLevel 0) && !(bit 2 action && v.lcLevel 1)))

/-- A change to a finer quantum leaves every register of a service below 2^62 (R139). -/
def State.quantumRule (s : State) (v : View) : Bool :=
  (List.range 16).all (fun n =>
    let old := s.view.svcQuantum n
    let new := v.svcQuantum n
    let sv := s.billing.services.getD n {}
    decide (old ≤ new) ||
      (sv.regs.map (fun a => a.count.toNat) ++ [sv.netP, sv.netQ].map (fun a => (toSigned 64 a.count.toNat).natAbs)).all
        (fun c => decide ((c + 1) * 10 ^ (old - new) < 2 ^ 62)))

/-- The rules across members that hold for an image whatever the registers stand at. -/
def memberRules (s : State) (v : View) : Bool :=
  v.bindingRules && v.weightRules && v.busRules && v.pulseRules && v.demandRules && v.analysisRules s.part &&
    v.quotaRules && v.lineRules s.part && responseRules s v

/-! ### The image (R551, R552) -/

/-- Entries of an image: index, SIZE, value and padding, in strictly ascending order of index, each of a member
that an image may set and of a unit that is fitted, its value within its ranges; `none` where one is not so. -/
def readEntries (p : Part) : Nat → Nat → Bytes → Option (List (Nat × Bytes))
  | 0, _, bs => if bs.isEmpty then some [] else none
  | n + 1, least, bs =>
    let i := getU bs 0 2
    let size := getU bs 2 2
    let span := (size + 3) / 4 * 4
    let value := (bs.drop 4).take size
    match cfgDefault i with
    | none => none
    | some d =>
      if decide (least ≤ i) && size == d.length && decide (4 + span ≤ bs.length) && fitted p i &&
          ((bs.drop (4 + size)).take (span - size)).all (· == 0) && settingOk i value then
        (readEntries p n (i + 1) (bs.drop (4 + span))).map ((i, value) :: ·)
      else none

/-- The header fields of check 2 of R554; in a slot the sequence number is nonzero (R557). -/
def imageHead (inSlot : Bool) (bs : Bytes) : Bool :=
  let len := getU bs 8 4
  getU bs 0 4 == 0x4643514B && getU bs 4 2 == 1 && getU bs 6 2 == 0 &&
    36 ≤ len && len ≤ 49152 && len % 4 == 0 && len == bs.length &&
    ((getU bs 12 4 == 0) == !inSlot) && getU bs 20 1 < 8 && getU bs 21 3 == 0 && getU bs 30 2 == 0

/-- CHECK (R551). -/
def imageCheck (bs : Bytes) : Bool :=
  getU bs (bs.length - 4) 4 == crc32 (patch (bs.take (bs.length - 4)) 12 (zeros 4))

/-- FIT names no unit that the ordering code does not fit (R554 check 4). -/
def fitOk (p : Part) (fit : Nat) : Bool := (!bit 2 fit || p.fitXa) && (!bit 0 fit || p.fitZlk)

/-- The entries of an image that passes check 4. -/
def imageEntries (p : Part) (bs : Bytes) : Option (List (Nat × Bytes)) :=
  if fitOk p (getU bs 20 1) then
    readEntries p (getU bs 18 2) 0 ((bs.take (bs.length - 4)).drop 32)
  else none

/-- Check 6 of R554. -/
def loadOk (p : Part) (bs : Bytes) (v : View) : Bool :=
  v.load == getU bs 16 2 && v.loadBilling ≤ 10000 && v.loadExtended ≤ 10000 && (p != .pa || v.load ≤ 10000)

/-! ### The slots (R445, R555, R557, R564) -/

/-- The image bytes in a slot, as long as its LENGTH says. -/
def State.slotBytes (s : State) (n : Nat) : Bytes :=
  let m := s.store.seen
  let len := leNat (m.reads (slotAddress n + 8) 4)
  m.reads (slotAddress n) (min len 49152)

/-- The configuration of a slot, where the slot is valid (R557). The register bound of R139 belongs to a commit and
is not judged here (DEDUCED, log entry 93). -/
def State.slotConfig (s : State) (n : Nat) : Option Configuration :=
  let bs := s.slotBytes n
  if imageHead true bs && imageCheck bs then
    match imageEntries s.part bs with
    | none => none
    | some es =>
      let v := viewOf es 0
      if memberRules s v && loadOk s.part bs v then
        some { entries := es, seq := BitVec.ofNat 32 (getU bs 12 4), source := if n = 0 then .slotA else .slotB, load := v.load }
      else none
  else none

/-- The newest valid slot (R557). -/
def State.newestConfig (s : State) : Option Configuration :=
  match s.slotConfig 0, s.slotConfig 1 with
  | some a, some b => if serialNewer b.seq.toNat a.seq.toNat then some b else some a
  | some a, none => some a
  | none, b => b

/-- The slot that a configuration came from, as CFG_TAKEN and CFG_COMMIT report it. -/
def CfgSource.code : CfgSource → Nat
  | .slotA => 0
  | .slotB => 1
  | .factory => 2

/-- The slot and the sequence number that a commit writes (R555). -/
def State.nextSlotWrite (s : State) : Nat × Nat :=
  match s.newestConfig with
  | none => (0, 1)
  | some c => (if c.source = .slotA then 1 else 0, let q := (c.seq.toNat + 1) % 2 ^ 32; if q = 0 then 1 else q)

/-- Only one engine is in service (R329). -/
def State.loneEngine (s : State) : Bool := (List.range 2).countP s.inService == 1

/-- The checks of R554 in order: the status of the first that fails, or the entries. -/
def State.commitCheck (s : State) (bs : Bytes) : Status × List (Nat × Bytes) :=
  if s.protects (slotAddress 0) then (.isProtected, [])
  else if !imageHead false bs || !imageCheck bs then (.badParam, [])
  else
    match imageEntries s.part bs with
    | none => (.badParam, [])
    | some es =>
      let v := viewOf es 0
      if !memberRules s v || !s.quantumRule v || !loadOk s.part bs v then (.badParam, [])
      else if 10000 < v.load && s.loneEngine then (.wrongState, [])
      else (.ok, es)

/-- An image in its slot, with the sequence number the device gives it. -/
def slotImage (bs : Bytes) (seq : Nat) : Bytes := patch bs 12 (leBytes 4 seq)

/-- The tag of the CFG_COMMIT outstanding. -/
def State.commitTag (s : State) : Option Nat :=
  (s.link.outstanding.find? (fun c => match c.work with | .commit _ => true | _ => false)).map (·.tag)

/-- The commit machine after a commit that ended without a new image: pending while an earlier one waits. -/
def State.commitRest (s : State) : CommitState :=
  if !s.start.applying.isEmpty then .applying else if s.start.pendingImage.isSome then .pending else .idle

/-- The checks have passed and the slot write begins: its point of no return (R79, R555). -/
def beginSlotWrite (tag : Nat) (s : State) : State :=
  let (slot, seq) := s.nextSlotWrite
  let image := slotImage s.start.committing seq
  { s.setWork tag (.commit true) with
    store := s.store.put (slotAddress slot) image
    start.commit := .writing
    start.committing := image
    start.commitSlot := slot }

/-- How far a commit has come when another command meets it: whether its checks have ended is a free value. -/
def reachSlotWrite (s : State) : State :=
  match s.commitTag with
  | none => s
  | some tag =>
    if s.start.commit = .checking && s.freeValue % 2 = 1 && (s.commitCheck s.start.committing).1 = .ok then
      beginSlotWrite tag s.nextFree
    else s.nextFree

/-- A commit ends without a new image. -/
def failCommit (tag : Nat) (st : Status) (s : State) : State :=
  let s := if st = .isProtected then s.countStore 6 else s
  { s with start.commit := s.commitRest, start.committing := [] }.complete tag st []

/-- The slot write of a commit has ended: read back as written the image is pending (R555, R556). -/
def endSlotWrite (tag : Nat) (readBack : Bool) (s : State) : State :=
  let image := s.start.committing
  let slot := s.start.commitSlot
  if !readBack then
    let bad := spoilImage image s.freeValue
    failCommit tag .fault { s.nextFree with store := s.store.put (slotAddress slot) bad }
  else
    let es := (imageEntries s.part image).getD []
    let c : Configuration :=
      { entries := es, seq := BitVec.ofNat 32 (getU image 12 4), source := if slot = 0 then .slotA else .slotB,
        load := (viewOf es 0).load }
    { s with
      start.pending := s.start.pending ++ [({ image := some c, strobe := s.sense.strobe } : Pended)]
      start.commit := .pending
      start.committing := [] }.complete tag .ok
      (leBytes 1 slot ++ leBytes 4 c.seq.toNat)

/-- The end of a commit (R554–R556). -/
def commitComplete (readBack : Bool) (s : State) : State :=
  match s.commitTag with
  | none => s
  | some tag =>
    if s.start.commit = .writing then endSlotWrite tag readBack s
    else
      match s.commitCheck s.start.committing with
      | (.ok, _) => endSlotWrite tag readBack (beginSlotWrite tag s)
      | (st, _) => failCommit tag st s

/-- CFG_COMMIT_COMPLETE (R555): whether the slot read back as written. Without a commit in progress nothing
happens. -/
def execCfgCommitComplete (readBack : Bool) (s : State) : Outcome := edge (commitComplete readBack) s

/-- STATE of a slot (R564). -/
def State.slotState (s : State) (n : Nat) : Nat :=
  if leNat (s.store.seen.reads (slotAddress n) 4) != 0x4643514B then 0
  else
    match s.slotConfig n with
    | none => 1
    | some c =>
      if c.seq = s.start.config.seq && c.source = s.start.config.source then 3
      else if s.start.pendingImage.any (fun p => p.seq = c.seq && p.source = c.source) then 4 else 2

/-- The slots member (R564). -/
def State.slotsBytes (s : State) : Bytes :=
  tabBytes 2 (fun n =>
    let a := slotAddress n
    let m := s.store.seen
    let len := leNat (m.reads (a + 8) 4)
    leBytes 1 (s.slotState n) ++ [0] ++ m.reads (a + 4) 2 ++ m.reads (a + 8) 4 ++ m.reads (a + 12) 4 ++
      (if 36 ≤ len && len ≤ 49152 then m.reads (a + len - 4) 4 else zeros 4))

/-! ### Factory calibration (R558, R559) -/

/-- The address of a copy. -/
def calAddress (k : Nat) : Nat := 0x60000 + 0x800 * k

/-- A copy of the calibration record as the device has written it, where it is valid (R558, log entry 212). -/
def State.calCopy (s : State) (k : Nat) : Option Bytes :=
  let b := s.store.seen.reads (calAddress k) 700
  if getU b 4 2 == 1 && getU b 0 4 != 0 && getU b 696 4 == crc32 (b.take 696) then some b else none

/-- The calibration record: the newest valid copy, with its place. -/
def State.calRecord (s : State) : Option (Nat × Bytes) :=
  match s.calCopy 0, s.calCopy 1 with
  | some a, some b => if serialNewer (getU b 0 4) (getU a 0 4) then some (1, b) else some (0, a)
  | some a, none => some (0, a)
  | none, some b => some (1, b)
  | none, none => none

/-- The coefficients of a start come from the record; where there is none every channel takes 1, 0 and 0 and
CAL_DEFAULTED is set (R559). -/
def loadCalibration (s : State) : State :=
  let r := s.calRecord
  let load := fun (c : Nat) (ch : Channel) =>
    match r with
    | none => { ch with gain := 2 ^ 30, offset := 0, delay := 0 }
    | some (_, b) =>
      let a := 24 + 12 * c
      { ch with gain := getU b a 4, offset := toSigned 32 (getU b (a + 4) 4), delay := toSigned 32 (getU b (a + 8) 4) }
  let s := (List.range 56).foldl (fun s c => s.modChannel c (load c)) s
  { s with start.calDefaulted := r.isNone }

/-- The record that a write starts from where no copy is valid: the defaults, with the serial number of
manufacture. -/
def calDefault : Bytes :=
  leBytes 4 0 ++ leBytes 2 1 ++ zeros 2 ++ leBytes 8 Config.serial ++ zeros 8 ++
    tabBytes 56 (fun _ => leBytes 4 (2 ^ 30) ++ zeros 8)

/-- A new copy with member 3, 4 or 5 of a channel changed, in the copy that does not hold the record (R559). -/
def saveCalibration (c m value : Nat) (s : State) : State :=
  let (k, old) : Nat × Bytes := match s.calRecord with
    | some (k, b) => (1 - k, b.take 696)
    | none => (0, calDefault)
  let q := (getU old 0 4 + 1) % 2 ^ 32
  let q := if q = 0 then 1 else q
  let b := patch old 0 (leBytes 4 q)
  let b := patch b 16 (leBytes 6 s.sec)
  let b := patch b (24 + 12 * c + 4 * (m - 3)) (leBytes 4 value)
  { s with store := s.store.put (calAddress k) (b ++ leBytes 4 (crc32 b)) }

end Sys2Proof.Machine
end

