-- ==== Sys2Proof/Machine/Start.lean ====
section
/-! DEFINITION. Start.lean: the steps of a start (R536–R542): records read, configuration chosen, entries of the
start written, inputs connected, first energy sample, billing ready; the Warden's patch and the objects of class 11
(R560–R568). -/

namespace Sys2Proof.Machine
open Sys2Proof

/-! ### What step 7 reads -/

/-- The log region is read: its newest entry, and whole groups of 64 that were not copied are queued again (R506). -/
def readLog (s : State) : State :=
  let m := s.store.seen
  let n := newestEntry m
  let s := { s with evidence.newest := n, evidence.head := if n = 0 then zeros 32 else sha256 (logEntry m n) }
  (List.range (n / 64 - s.evidence.copied / 64)).foldl (fun s k => queueGroup (64 * (s.evidence.copied / 64 + k + 1)) s) s

/-- The configuration in force at a start (R557); in a limp start units are held off, and at LIMP_LEVEL 2 the factory
defaults serve (R546, R548). -/
def chooseConfig (s : State) : State :=
  let limp := s.start.kind == .limp
  let level := if limp then max 1 s.start.limpLevel else s.start.limpLevel
  let found := if limp && level == 2 then none else s.newestConfig
  let c := found.getD {}
  { s with
    start.limpLevel := level
    start.heldMask := if limp then s.part.units else 0
    start.config := c
    start.cfgDefaulted := found.isNone }

/-- The address of the patch area (R445). -/
def patchArea : Nat := 0x70000

/-- The patch is loaded or skipped (R560, R568). The tests run in the order in which R560 names them (DEDUCED, log entry 97). -/
def loadPatch (s : State) : State :=
  let h := s.store.get patchArea 16
  let len := getU h 12 4
  let magic := getU h 0 4 == 0x5450514B
  let head := getU h 4 2 == 1 && getU h 6 2 == 0 && 20 ≤ len && len ≤ 65536
  let state : Nat :=
    if !magic then 0
    else if s.start.kind = .limp && s.start.limpLevel = 2 then 4
    else if !head then 2
    else if getU h 8 4 ≠ Config.romRev.toNat then 3
    else
      let b := s.store.get patchArea len
      if getU b (len - 4) 4 = crc32 (b.take (len - 4)) then 1 else 2
  { s with
    start.patchState := state
    start.patchRev := if magic then getU h 8 4 else 0
    start.patchLength := if magic then len else 0 }

/-- The recorded state of a pair is taken up (R181): no coil is driven, and levels wait for billing ready. A MODE
that differs from the recorded one takes effect at once (R612), unless the unit is held off. -/
def restorePair (p : Nat) (s : State) : State :=
  let s := countRing (Ring.relay p) s
  let s := match newestSlot s.store.seen (Ring.relay p) with
    | none => s.modPair p (fun x => { x with level := s.view.lcLevel p, state := if s.view.lcLevel p then .levelOff else .unknown })
    | some (_, _, b) =>
      let c := getU b 0 1
      s.modPair p (fun x =>
        { x with
          level := bit 4 c
          lowerOn := bit 4 c && bit 0 c
          upperOn := bit 4 c && bit 1 c
          state := if bit 4 c then .levelOff else if c = 1 then .closed else if c = 2 then .opened else .unknown
          operations := BitVec.ofNat 32 (getU b 1 4)
          superseded := BitVec.ofNat 32 (getU b 5 4) })
  if s.held 0 then s else modeEffect p s

/-- Every element takes the energy weight of the configuration in force (R127). -/
def setWeights (s : State) : State :=
  let v := s.view
  { s with billing := { s.billing with services := v.plans.foldl (fun ss p =>
      modAt ss p.n (fun sv => { sv with elements := p.elems.foldl (fun es e =>
        modAt es e.elem (fun x => { x with weight := v.weightOf p.n e.elem })) sv.elements })) s.billing.services } }

/-- The latched members before the first latch: the recovered values, the boundary 0. -/
def firstPublished (s : State) : State :=
  let c := { s.captureNow { b := 0, cycles := 0 } with sec := 0, tick := 0 }
  { s with billing := { s.billing with latch := { s.billing.latch with published := c } } }

/-! ### Entries of the start (R542) -/

/-- One entry of the start: an edge of its own. -/
def startEntry (code : Nat) (payload : Bytes) (s : State) : State := (s.raise code payload).endEdge

/-- An entry of the backup buffer as the log takes it, with its own time and sub-sequence number (R483). -/
def BackupEntry.raised (e : BackupEntry) : Raised :=
  { time := e.sec * tps + e.tick, code := e.code, payload := if e.code = 4 then [] else [BitVec.ofNat 8 e.data]
    cls := e.cls, alarm := true, backup := true, sub := e.sub }

/-- The backup buffer is transferred (R483): its entries, an overflow entry, and the copy that the member reads. -/
def transferBuffer (s : State) : State :=
  let es := s.backup.buffer
  let ovf := s.backup.overflow.toNat
  let s := { s with
    evidence.queue := s.evidence.queue ++ es.map BackupEntry.raised
    time.transferred := es
    time.transferredOverflow := ovf }
  if ovf = 0 then s else startEntry 0x06 [BitVec.ofNat 8 ovf] s

/-- The entries of the start in their order (R542). -/
def startEntries (s : State) : State :=
  let s := (raiseCause s).endEdge
  let s := transferBuffer s
  let s := if s.store.source = 2 then
      startEntry 0x62 (leBytes 6 s.start.resumeSec ++ leBytes 2 s.start.resumeTick) s else s
  let s := startEntry 0x61 (BitVec.ofNat 8 s.start.kind.code :: leBytes 8 s.start.startCount.toNat) s
  let s := if s.start.cfgDefaulted then startEntry 0x65 [] s else s
  let s := if s.start.kind = .limp then startEntry 0x63 [] s else s
  startEntry 0x64 (leBytes 4 s.start.config.seq.toNat ++ [BitVec.ofNat 8 s.start.config.source.code]) s

/-- The mode of the configuration in force is set, and the active engine presents EPOCH 1 (R36, R314, R537). A lone
engine cannot carry extended analysis in split mode (R329). -/
def setMode (s : State) : State :=
  let split := decide (10000 < s.view.load)
  let p := s.partner
  let s := { s with engines.split := split }
  let s := if split && (s.engine p).role == .lockstep then s.modEngine p (fun x => { x with role := .standby }) else s
  let s := if split && !s.engines.partnerOk then { s with xa.suspended := true } else s
  engineClaims s.engines.active (BitVec.ofNat 16 (2 + s.engines.active)) s

/-- WARDEN_READY: step 7 of R540 and what follows from it. A start at which no engine could be placed fails here. -/
def wardenReady (s : State) : State :=
  if s.start.phase != .starting || s.start.wardenReady then s else
  let s := loadLatched (readLog s)
  let s := loadCalibration (loadPatch (chooseConfig s))
  let s := (recoverBilling s).endEdge
  let s := firstPublished (setWeights s)
  let s := (List.range 2).foldl (fun s p => restorePair p s) s
  let s := copyBackupSettings (copyCurve s)
  let s := { s with start.wardenReady := true, start.startCount := s.start.startCount + 1 }
  let s := startEntries (saveDevice s)
  if (s.engine s.engines.active).role != .active then failStart 2 s
  else
    let s := loadAux (setMode (resumeProfile s))
    let s := startNetwork (s.start.kind != .cold) (lineEffect s)
    if s.held 2 then s else beginMount true (s.start.kind != .cold) s

/-- WARDEN_READY (R540). -/
def execWardenReady (s : State) : Outcome := edge wardenReady s

/-! ### From the inputs to billing ready -/

/-- INPUTS_CONNECTED: steps 9 and 10 of R540, at a cold start not before every slice has been measured (R112). The frequency of every bus begins nominal (R145), recording opens its
first segment (R238), the flicker meters begin, and the layout records of a start are written (R252). -/
def inputsConnected (s : State) : State :=
  if s.start.phase != .starting || !s.start.wardenReady || s.sense.connected || s.power.warning || !s.sense.measured then s
  else
  let s := connectInputs s
  let s1 := s.sense.first
  let v := s.view
  let opened := s.lastOpened
  let gapNumber : Nat := flag (s.store.source != 2 && !(s.archive.seepNumbers).isEmpty)
  let s := { s with
    billing.buses := tab 8 (fun b => (s.billing.buses.getD b {}).nominalFrom (v.busFnom b) s1)
    recording.openedBefore := opened
    recording.lastSeq := (opened + gapNumber) % 2 ^ 32 }
  let s := openSegment s1 segStart s
  writeLayouts true false s.ticks (restartMeters true s)

/-- INPUTS_CONNECTED (R112, R540). -/
def execInputsConnected (s : State) : Outcome := edge inputsConnected s

/-- FIRST_ENERGY_SAMPLE: the reckoned sample stamped s1 has been accumulated (R540 step 11); ENERGY_GAP is logged
with its time (R454, R542). -/
def firstEnergySample (s : State) : State :=
  if s.start.phase != .starting || s.start.energyBegun || !s.sense.connected || s.billing.stamp < s.firstRaw then s else
  let s := energyGap (s.timeOf s.firstRaw) s
  { s with start.energyBegun := true, start.firstEnergy := s.sinceRelease 1, start.mainLost := false }

/-- FIRST_ENERGY_SAMPLE. -/
def execFirstEnergySample (s : State) : Outcome := edge firstEnergySample s

/-- The levels of the pairs are driven from billing ready on (R181); an output driven low is an edge (R418). -/
def driveLevels (s : State) : State :=
  if s.held 0 then s else
  (List.range 2).foldl (fun s p =>
    let x := s.sluice.pairs.getD p {}
    let s := s.modPair p (fun x => { x with driven := true })
    let s := if x.level && x.lowerOn && !x.driven then s.auxEvent (19 + 2 * p) else s
    if x.level && x.upperOn && !x.driven then s.auxEvent (20 + 2 * p) else s) s

/-- BILLING_READY: every sample below the boundary that closes the lead-in is accumulated (R538). -/
def billingReady (s : State) : State :=
  let reached : Bool := match s.start.leadBoundary with
    | some b => decide (b ≤ s.billing.stamp + 1)
    | none => false
  if s.start.phase != .starting || !s.start.energyBegun || !reached then s else
  let s := { s with start.phase := .running, start.billing := true, start.billingReady := s.sinceRelease 1 }
  let s := (List.range 8).foldl (fun s o => s.takePolarity o) s
  writeBilling (runWaiting (driveLevels (s.setIrq .start)))

/-- BILLING_READY (R538). -/
def execBillingReady (s : State) : Outcome := edge billingReady s

/-! ### Writes of class 11 -/

/-- A write of the limp release member (R547, R567). -/
def limpRelease (value : Nat) (s : State) : Status × State :=
  if field 31 16 value ≠ 0x4C52 || field 15 5 value ≠ 0 then (.badParam, s)
  else if !s.limpFlag then (.wrongState, s)
  else (.ok, { s with start.pending := s.start.pending ++
    [({ release := BitVec.ofNat 5 value &&& s.start.heldMask, strobe := s.sense.strobe } : Pended)] })

/-- A write of the patch write member (R560, R568). -/
def patchWrite (b : Bytes) (s : State) : Status × State :=
  let off := getU b 0 4
  let n := getU b 4 2
  if s.protects patchArea then refuseProtected s
  else if n = 0 || 256 < n || getU b 6 2 ≠ 0 || 65536 < off + n then (.badParam, s)
  else (.ok, { s with store := s.store.put (patchArea + off) ((b.drop 8).take n) })

/-! ### Reads of class 11 (R563–R568) -/

/-- The configuration status member (R563). -/
def State.configStatus (s : State) : Bytes :=
  let st := s.start
  let v := s.view
  let commit : Nat := match st.commit with
    | .idle => 0
    | .checking => 1
    | .writing => 2
    | .pending => 3
    | .applying => 4
  leBytes 4 st.config.seq.toNat ++
    [BitVec.ofNat 8 st.config.source.code,
     BitVec.ofNat 8 (flag st.cfgDefaulted + 2 * flag st.calDefaulted + 4 * flag (st.patchState == 1) + 8 * flag st.pendingImage.isSome),
     BitVec.ofNat 8 commit, BitVec.ofNat 8 st.limpLevel] ++
    leBytes 4 (match st.pendingImage with | some c => c.seq.toNat | none => 0) ++
    leBytes 2 v.load ++ leBytes 2 v.loadBilling ++ leBytes 2 v.loadExtended ++ [BitVec.ofNat 8 st.heldMask.toNat] ++ zeros 5

/-- The start record member (R565). -/
def State.startRecord (s : State) : Bytes :=
  let st := s.start
  [BitVec.ofNat 8 st.kind.code, BitVec.ofNat 8 st.cause, 0, 0] ++ leBytes 8 st.startCount.toNat ++
    leBytes 6 st.releaseSec ++ leBytes 2 st.releaseTick ++ leBytes 4 st.firstEnergy ++ leBytes 4 st.billingReady ++
    leBytes 4 st.mounted ++ leBytes 4 (if s.part.fitZlk then st.firstBeacon else 0xFFFFFFFF) ++ zeros 4

/-- The failed starts member (R566). -/
def State.failedStarts (s : State) : Bytes :=
  let fs := s.start.failures.take 3
  [BitVec.ofNat 8 fs.length, BitVec.ofNat 8 (flag s.start.limp), 0, 0] ++ fit 24 (fs.flatMap Failure.bytes)

/-- The patch status member (R568). -/
def State.patchStatus (s : State) : Bytes :=
  [BitVec.ofNat 8 s.start.patchState, 0, 0, 0] ++ leBytes 4 Config.romRev.toNat ++ leBytes 4 s.start.patchRev ++
    leBytes 4 s.start.patchLength

/-- Reads of class 11. -/
def State.readStart (s : State) (m : Nat) : Option Bytes :=
  match m with
  | 0 => some s.configStatus
  | 1 => some s.slotsBytes
  | 2 => some s.startRecord
  | 3 => some s.failedStarts
  | 4 => some (zeros 4)
  | 5 => some s.patchStatus
  | 6 => some (zeros 264)
  | _ => none

end Sys2Proof.Machine
end

