-- ==== Sys2Proof/Machine/Supplies.lean ====
section
/-! DEFINITION. Supplies.lean: the supply-fail warning and the power-down save (R451, R452, R550, R575, R586), the
collapse of a supply (R578), and the backup domain's change of supply (R462–R464, R480). -/

namespace Sys2Proof.Machine
open Sys2Proof

/-- A periodic save in progress stops after its page in progress, so that the power-down save takes its slot and its
sequence number (R452). -/
def dropPeriodicSave (s : State) : State :=
  if s.store.saveState = 1 then
    { s with store.waiting := s.store.waiting.take 1 ++
        (s.store.waiting.drop 1).filter (fun w => !(decide (0x800 ≤ w.page) && decide (w.page < 0x980))) }
  else s

/-- Pulse outputs are released at once; a pulse in progress counts as emitted, which it did when it began (R586). -/
def releaseOutputs (s : State) : State :=
  (List.range 8).foldl (fun s o => s.modPulse o (fun x => { x with pulse := false })) s

/-- The survivor of a takeover, its claim confirmed, saves what it holds: its own state, that of its checkpoint, or that of the
published latch (R328, R330). -/
def survivorSave (kind : Nat) (t : Takeover) (s : State) : State :=
  let e := t.survivor
  if t.source = 2 then billingSave kind e s.billing.latch.published s.store.smax s
  else
    let own := match t.record with
      | some r => r.body
      | none => s.ownBilling e
    let saved := saveLive kind { s with billing := own, engines.active := e }
    { saved with billing := s.billing, engines.active := s.engines.active }

/-- The save before a start or a power-down: power-down (2) or commanded (3), R448. During a takeover the survivor saves
what it holds, once its claim is confirmed; before that there is no holder, and the Warden saves in its place (R330, R333,
R452; for a commanded save a DESIGN CHOICE, log entry 199). A power-down save records a pair whose coil pulse may not
finish as unknown (R181). -/
def closingSave (kind : Nat) (s : State) : State :=
  let pairs := fun (s : State) => if kind = 2 then s.savePairsUnknown false else s
  if s.sluice.wardenHolds then wardenSave s
  else
    match s.engines.takeover with
    | none => pairs (saveLive kind s)
    | some t =>
      if t.stage == .holding then pairs (survivorSave kind t s)
      else
        match nextClaim s.sluice.heldClaim 0 with
        | some c => wardenSave (presentClaim c s)
        | none => wardenSave s

/-- The archive goes on with what its devices do, and with the peat page that is not full (R293). -/
def archiveWarned (s : State) : State :=
  giveWork { s with archive := s.archive.modTier 2 (fun l => { l with flush := !l.buffer.isEmpty }) }

/-- The steps of the rotation are abandoned, and the measurements in progress give no coefficients (R118). A home slice that
was on the reference returns to its input, and every channel to its home slice but one that the wader delivers for good
(DESIGN CHOICE, log entry 192). -/
def abandonSteps (s : State) : State :=
  let s := (List.range 4).foldl (fun s q => s.returnHome q) s
  { s with
    sense.quarters := s.sense.quarters.map (fun (x : Quarter) =>
      if x.permanent then ({ x with rot := .idle, fade := none } : Quarter)
      else ({ x with rot := .idle, fade := none, cover := none, standIn := none } : Quarter))
    sense.slices := s.sense.slices.map (fun (x : Slice) => ({ x with meas := none } : Slice)) }

/-- SUPPLY_FAIL_WARNING (R118, R451, R550, R586, R587). In reset nothing follows; in retry pending the retry waits until the
supply has recovered. -/
def supplyWarning (s : State) : State :=
  if s.power.warning then s else
  match s.start.phase with
  | .unpowered | .inReset => s
  | .failed => { s with power.warning := true, store.firm := !s.store.waiting.isEmpty }
  | .starting | .running =>
    let s := closeAllEvents true false (cutRecording s)
    let s := { releaseOutputs (abandonSteps s) with
      power.warning := true, line := cutLine s.line, store.firm := !s.store.waiting.isEmpty }
    let s := if s.start.energyBegun then closingSave 2 (dropPeriodicSave s) else s
    let s := archiveWarned (auxSupplyFail s)
    { s with store.closed := s.evidence.queue.isEmpty && s.evidence.raised.isEmpty }

/-- SUPPLY_FAIL_WARNING. -/
def execSupplyFailWarning (s : State) : Outcome := edge supplyWarning s

/-- SUPPLY_RECOVERED: a warm start with CAUSE 7 (R550). -/
def supplyRecovered (s : State) : State :=
  if !s.power.warning then s
  else { enterReset (some (.warm, 7)) .drained false s with power.warning := false }

/-- SUPPLY_RECOVERED. -/
def execSupplyRecovered (s : State) : Outcome := edge supplyRecovered s

/-- SUPPLY_COLLAPSE: VDDIO or VCORE is lost first; nothing is saved, and the page in the buffer breaks (R578). The
next start is a power-on. The chronicle runs on, so the gap stays bounded. -/
def supplyCollapse (torn : Nat) (s : State) : State :=
  if s.start.phase = .unpowered then s
  else { enterReset none (s.lostSupply torn) true s with start.mainLost := s.start.mainLost }

/-- SUPPLY_COLLAPSE. -/
def execSupplyCollapse (torn : Nat) (s : State) : Outcome := edge (supplyCollapse torn) s

/-! ### The backup domain (R462–R464, R480) -/

/-- BACKUP_SWITCHOVER: VDDA is lost; the domain runs on VBAT, captures the switch-over time, and clears HALT
(R473). -/
def backupSwitchover (s : State) : State :=
  if s.backup.onBattery || s.start.phase = .unpowered then s else
  let e := s.lostSupply (s.freeValue % 65)
  let b := s.backup
  let cap : Switchover := if b.current.valid then b.current else { valid := true, sec := s.sec, tick := b.tick.toNat }
  let s := enterReset none e true s.nextFree
  { s with start.phase := .unpowered, backup.onBattery := true, backup.halt := false, backup.current := cap }

/-- BACKUP_SWITCHOVER. -/
def execBackupSwitchover (s : State) : Outcome := edge backupSwitchover s

/-- MAIN_POWER_UP (R464): WAKE released, HALT cleared, the switch-over times rotated; the next release of reset begins
a power-on start. -/
def mainPowerUp (s : State) : State :=
  if s.start.phase != .unpowered then s
  else { s with
    start.phase := .inReset
    power.warning := false
    backup.wake := false
    backup.halt := false
    backup.onBattery := false
    backup.previous := s.backup.current
    backup.current := {} }

/-- MAIN_POWER_UP. -/
def execMainPowerUp (s : State) : Outcome := edge mainPowerUp s

/-- BACKUP_POWER_ON: both supplies were lost; the domain starts from its reset state with BKP_POR set (R463). The tamper
settings it held are gone with it. Where it is VBAT that arrives, MAIN_POWER_UP follows when VDDA does. -/
def backupPowerOn (s : State) : State :=
  let s :=
    if s.start.phase = .unpowered then s
    else
      let e := s.lostSupply (s.freeValue % 65)
      enterReset none e true s.nextFree
  { s with start.phase := .unpowered, backup := {}, tamper := List.replicate 4 {} }

/-- BACKUP_POWER_ON. -/
def execBackupPowerOn (s : State) : Outcome := edge backupPowerOn s

end Sys2Proof.Machine
end

