-- ==== Sys2Proof/Machine/Effect.lean ====
section
/-! DEFINITION. Effect.lean: the latch boundary (R161–R167) and what a configuration does when it takes effect there
(R25, R139, R142, R167, R177, R222, R275, R329, R338, R400, R426, R547, R556, R612, R613). -/

namespace Sys2Proof.Machine
open Sys2Proof

/-! ### Fixing the boundary -/

/-- The configuration in force with the entries of released units taken from the newest valid slot (R547). -/
def State.mergeReleased (s : State) (rel : BitVec 5) (c : Configuration) : Configuration :=
  if rel = 0 then c
  else
    let own := fun (e : Nat × Bytes) => heldIn rel.toNat e.1
    { c with entries := c.entries.filter (fun e => !own e) ++ ((s.newestConfig.getD {}).entries.filter own) }

/-- The buses whose binding differs between two configurations (R145, R203): the enabled voltage channels that name the
bus (DEDUCED, log entry 107). -/
def changedBuses (old new : View) : List Nat := (List.range 8).filter (fun b => old.busChans b != new.busChans b)

/-- From a fixed boundary on a bus of a changed binding is nominal again (R145), and its windows begin there (R203);
so do all windows when extended analysis resumes (R222). -/
def restartBuses (b : Nat) (old new : View) (s : State) : State :=
  let changed := changedBuses old new
  let pace := old.latchBus
  let here : LineMark := ((s.billing.buses.getD pace {}).waiting.find? (fun m => strobeOf m.instant == b)).getD
    { instant := b * 65536, synth := (s.billing.buses.getD pace {}).state != .locked }
  let inst : Nat → Nat := fun n => if n = pace then here.instant else b * 65536
  let synth : Nat → Bool := fun n => if n = pace then here.synth else (s.billing.buses.getD n {}).state != .locked
  let s := changed.foldl (fun s n => (s.modBus n (Bus.nominalFrom (new.busFnom n) b)).modXaBus n XaBus.restart) s
  let s := { s with billing.buses := s.billing.buses.zipIdx.map (fun x => x.1.renominal (new.busFnom x.2)) }
  if s.xaStopped then s
  else
    (List.range 8).foldl (fun s n =>
      if (changed.contains n || s.xa.suspended) && (!(new.busChans n).isEmpty || new.latchBus = n) then s.modXaBus n (XaBus.begin (new.windowCycles n) (inst n) (synth n))
      else s) s

/-- From a fixed boundary on the cycles of the pacing bus in force are counted (R167): where another bus paces, or the same
with another binding, its boundaries after `b`. -/
def repace (b : Nat) (old : View) (s : State) : State :=
  let new := s.paceView
  if old.latchBus = new.latchBus && !(changedBuses old new).contains new.latchBus then s
  else
    let after := (s.billing.buses.getD new.latchBus {}).waiting.filter (fun x => decide (b < strobeOf x.instant))
    after.foldl (fun s x => countCycle (strobeOf x.instant) x.synth s) (unhitLatchNow b { s with billing.latch.fresh := [] })

/-- What waits since before a boundary at strobe `b` takes effect there: `b` is the first latch boundary after it (R25,
R547, R556). -/
def Start.ready (b : Nat) (st : Start) : List Pended := st.pending.filter (fun p => decide (p.strobe < b))

/-- A configuration that waits, and the units released in a limp start, take effect at a boundary `b` that has just
been fixed: what follows it in raw samples is already paced by them (R167). -/
def fixConfig (b : Nat) (s : State) : State :=
  let st := s.start
  let ready := st.ready b
  if ready.isEmpty then s
  else
    let old := s.paceView
    let inForce : Configuration := match st.applying.getLast? with
      | some x => x.config
      | none => st.config
    let image := { st with pending := ready }.pendingImage
    let release := ready.foldl (fun r p => r ||| p.release) 0
    let rest := st.pending.filter (fun p => decide (b ≤ p.strobe))
    let c := s.mergeReleased release (image.getD inForce)
    let s := { s with
      start.applying := st.applying ++ [{ config := c, bound := b, release := release }]
      start.pending := rest
      start.commit := if st.commit = .pending && rest.all (fun p => p.image.isNone) then .applying else st.commit }
    repace b old (restartBuses b old s.paceView s)

/-- What waits for a latch boundary takes effect at `b`, which has just been fixed: a configuration, released units
(R25, R167, R547) and calibration (R96); the samples stamped `b` and later that have passed are formed again. -/
def fixBoundary (b : Nat) (s : State) : State :=
  let t := takeCalibrations b (fixConfig b s)
  if t.start.applying = s.start.applying ∧ t.sense.channels = s.sense.channels then t else redoFrom b t

/-- The first of the boundaries that is the N-th or forced, after `k` cycles counted: the cycles with it, itself, and the
boundaries behind it (R161, R166). -/
def firstLatch (n : Nat) : Nat → List PaceMark → Option (Nat × PaceMark × List PaceMark)
  | _, [] => none
  | k, x :: xs => if n ≤ k + 1 || x.forced then some (k + 1, x, xs) else firstLatch n (k + 1) xs

/-- LATCH_BOUNDARY: the line-cycle boundaries of the pacing bus are counted, and the first that is the N-th, or that
LATCH_NOW forces, is fixed as a latch boundary (R161, R166); what waits for one takes effect there. -/
def latchBoundary (s : State) : State :=
  let l := s.billing.latch
  match firstLatch s.paceView.latchN l.cycles l.fresh with
  | none => { s with billing.latch := { l with cycles := l.cycles + l.fresh.length, fresh := [] } }
  | some (cycles, x, rest) =>
    let bd : Boundary := { b := x.b, cycles := cycles, leadIn := l.leadInterval, forced := x.forced, synth := x.synth }
    fixBoundary x.b (({ s with billing.latch :=
      { l with fixed := l.fixed ++ [bd], cycles := 0, fresh := rest, leadInterval := false } }).setIrq .latch)

/-- LATCH_BOUNDARY (R161, R166, R167). -/
def execLatchBoundary (s : State) : Outcome := edge latchBoundary s

/-! ### Taking effect -/

/-- The new configuration and the released units are in force: CFG_TAKEN for an image (R556), and the end of limp
operation when no unit stays held (R547). -/
def takeConfig (x : Applying) (s : State) : State :=
  let st := s.start
  let c := x.config
  let held := st.heldMask &&& ~~~x.release
  let fresh := c.seq != st.config.seq || c.source != st.config.source
  let done := x.release != 0 && held == 0 && st.limp
  let s := { s with
    start.config := c
    start.heldMask := held
    start.applying := st.applying.drop 1
    start.commit := if st.commit = .applying && st.applying.length ≤ 1 then (if st.pendingImage.isSome then .pending else .idle)
      else st.commit }
  let s := if fresh then
      ({ s with start.cfgDefaulted := false }.raise 0x64
        (leBytes 4 c.seq.toNat ++ [BitVec.ofNat 8 c.source.code])).setIrq .cfg
    else s
  if done then saveDevice ({ s with start.limp := false, start.limpLevel := 0 }.setIrq .cfg) else s

/-- The demand settings of two configurations differ (R613). -/
def demandChanged (old new : View) : Bool :=
  old.demandSliding != new.demandSliding || old.demandSub != new.demandSub || old.demandK != new.demandK

/-- Ends of sub-intervals that stay when the demand settings change at chronicle tick `t`: time steps, and seconds
already begun that the new length shares. -/
def keptSubEnds (new : View) (t now : Nat) (l : List SubEnd) : List SubEnd :=
  l.filter (fun e => e.strobe.isSome) ++
    (if t < now * tps && now % new.demandSub = 0 then [{ tick := now * tps }] else [])

/-- A service put into a new quantum (R139): registers, net registers, demand sums and interval sums. -/
def Service.requantise (old new : Nat) (sv : Service) : Service :=
  if old = new then sv else
  let sub := fun (x : SubSum) => ({ x with sums := x.sums.map (convertAcc old new) } : SubSum)
  { sv with
    regs := sv.regs.map (convertAcc old new)
    netP := convertNet old new sv.netP
    netQ := convertNet old new sv.netQ
    demand := { sv.demand with now := sub sv.demand.now, history := sv.demand.history.map sub }
    now := { sv.now with p := convertSum old new sv.now.p, q := convertSum old new sv.now.q, s := convertSum old new sv.now.s } }

/-- Balance sums put into new quanta (R139, R397). -/
def convertFeeds (old new : View) (l : List FeedSum) : List FeedSum :=
  l.map (fun (f : FeedSum) =>
    ({ f with sum := convertSum (old.svcQuantum f.service) (new.svcQuantum f.service) f.sum } : FeedSum))

/-- Sums of windows still open at strobe `b` put into new quanta (R253). -/
def convertWindows (old new : View) (b : Nat) (x : XaBus) : XaBus :=
  { x with sums := x.sums.map (fun (w : WinSum) =>
      (if w.b.any (fun e => decide (e ≤ b)) then w
       else { w with acc := tab 16 (fun n =>
         let a := w.acc.getD n (0, 0)
         let q := convertSum (old.svcQuantum n) (new.svcQuantum n)
         (q a.1, q a.2)) } : WinSum)) }

/-- Every sum kept in quanta follows its service (R139). -/
def changeQuanta (b : Nat) (old new : View) (s : State) : State :=
  { s with
    billing := { s.billing with services := tab 16 (fun n =>
      (s.billing.services.getD n {}).requantise (old.svcQuantum n) (new.svcQuantum n)) }
    net.feeds := convertFeeds old new s.net.feeds
    net.openBalances := s.net.openBalances.map (fun (o : OpenBalance) =>
      ({ o with feeds := convertFeeds old new o.feeds } : OpenBalance))
    xa.buses := s.xa.buses.map (convertWindows old new b) }

/-- The binding of a service differs: its channels, or whether it is enabled (R142). -/
def bindingChanged (old new : View) (n : Nat) : Bool := old.svcOn n != new.svcOn n || old.elemPlans n != new.elemPlans n

/-- Scales, quantum or direction of an element of a service differ. -/
def scaleChanged (old new : View) (n : Nat) : Bool :=
  (List.range 3).any (fun e => old.weightOf n e != new.weightOf n e || old.svcInvert n e != new.svcInvert n e)

/-- A service whose binding, scales or quantum a configuration changes (R258 CFG_CHANGE). -/
def serviceChanged (old new : View) (n : Nat) : Bool :=
  bindingChanged old new n ||
    (new.svcOn n && (scaleChanged old new n || old.svcQuantum n != new.svcQuantum n ||
      old (idx 2 n 3) != new (idx 2 n 3)))

/-- A newly enabled service has no history: its first demand window is partial (R186). -/
def Service.freshDemand (sv : Service) : Service :=
  { sv with demand := { sv.demand with now := { partialFlag := true }, history := [] } }

/-- The filters of every service that changed are filled from the ring as far as the sample before the boundary
(R142). New weights alone leave the live states. -/
def refillServices (old new : View) (ring : List RingFrame) (b : Billing) : Billing :=
  { b with services := new.plans.foldl (fun ss p =>
      let freq := (b.buses.getD p.bus {}).freq
      modAt ss p.n (fun sv =>
        let sv := if old.svcOn p.n then sv else sv.freshDemand
        if bindingChanged old new p.n then sv.refill new ring freq p
        else if scaleChanged old new p.n then sv.refillKept new ring freq p
        else sv)) b.services }

/-- The squares of channels newly enabled are filled, those of disabled channels emptied. -/
def refillSquares (old new : View) (ring : List RingFrame) (b : Billing) : Billing :=
  { b with squares := tab 56 (fun c =>
      if !new.chanOn c then {}
      else if old.chanOn c then b.squares.getD c {}
      else ChannelSquare.refill ring c) }

/-- Profile flags: CFG_CHANGE of the services that changed (R258); a new length ends the interval in progress at its
next boundary, as PARTIAL. -/
def profileEffect (b : Nat) (old new : View) (s : State) : State :=
  let services := tab 16 (fun n =>
    let sv := s.billing.services.getD n {}
    if serviceChanged old new n then { sv with profileFlags := sv.profileFlags ||| 2048 } else sv)
  let s := { s with billing := { s.billing with services := services } }
  if old.profile = new.profile then s
  else { s with billing := { s.billing with
    profileEnd := some (new.profileEndAfter (s.timeOf b)), profileFlags := s.billing.profileFlags ||| 1 } }

/-- The outputs whose origin a configuration moves (R177). -/
def originsMoved (old new : View) : List Nat :=
  (List.range 8).filter (fun o =>
    originKey (old.po o) != originKey (new.po o) ||
      (new.poServices o).any (fun n => old.svcQuantum n != new.svcQuantum n))

/-- The outputs take the configuration: origins, and the modes of the pairs (R177, R612). -/
def outputEffect (b : Nat) (old new : View) (wasHeld : Bool) (s : State) : State :=
  let s := (originsMoved old new).foldl (fun s o => moveOrigin o b s) s
  let s := ((List.range 8).filter (fun o => old.poQty o = 0)).foldl (fun s o => s.takePolarity o) s
  if s.held 0 then s
  else
    let s := (List.range 2).foldl (fun s p => modeEffect p s) s
    if wasHeld then driveLevels s else s

/-- The mode follows the load index (R36, R37), and the partner moves with it (R338). -/
def modeChange (s : State) : State :=
  let split := decide (10000 < s.view.load)
  if split = s.engines.split then s
  else
    let p := s.partner
    let s := { s with engines.split := split, engines.digests := none, engines.agreed := [none, none]
                      engines.buffers := [none, none], engines.cut := none }
    if s.engines.takeover.isSome then s
    else if split then
      if (s.engine p).role == .lockstep then { s.modEngine p (fun x => { x with role := .standby }) with engines.mirror := none }
      else s
    else if (s.engine p).role == .standby then startResync p s
    else s

/-- A flicker meter whose settings are new begins afresh; one switched off keeps nothing in progress (R210, R211). -/
def flickerEffect (old new : View) (s : State) : State :=
  { s with
    xa.channels := (List.range 8).foldl (fun cs u =>
      if !new.flicker u then modAt cs (48 + u) (fun x => { x with psts := [], closed := [], meter := {} })
      else if old.flicker u && old.lamp u == new.lamp u then cs
      else modAt cs (48 + u) (fun x => { x with
        meter := x.meter.restart true (if old.flicker u then none else some s.sense.nextStrobe) })) s.xa.channels
    xa.pstNext := if s.xa.pstNext.isSome || s.xa.suspended then s.xa.pstNext else some ((s.sec / 600 + 1) * 600) }

/-- Extended analysis takes the configuration: `carried` says that the engines in service can carry it whole. After a
suspension it resumes as at a start (R222, R329); otherwise changed buses and channels begin afresh (R213, R216). -/
def analysisEffect (carried : Bool) (old new : View) (s : State) : State :=
  if !carried then (if s.xa.suspended then s else suspendXa s)
  else if s.xa.suspended then restartMeters true { s with xa.suspended := false, xa.watched := List.replicate 8 {} }
  else
    let changed := changedBuses old new
    let watched := tab 8 (fun u =>
      let b := new.busOf u
      if changed.contains b || old.refSliding b != new.refSliding b || !(old.watched u) then {} else s.xa.watched.getD u {})
    flickerEffect old new { s with xa.watched := watched }

/-- A binding change of ZL_BUS (R366): anchor and centres are measured anew, and reports before it no longer count. -/
def lineBindingEffect (old new : View) (s : State) : State :=
  if old.zlBus = new.zlBus && old.lineChans = new.lineChans then s
  else
    { s with
      line := { s.line with anchor := .none, crossings := [], rises := List.replicate 8 none, angles := List.replicate 8 0 }
      net.nodes := s.net.nodes.map (fun (n : Node) => ({ n with binRun := 0 } : Node)) }

/-- The power-line unit is switched on or off; released, it rejoins its table (R547, R385). While ZL_ENABLE is 0 the network
is held: superframes are counted, and what is to be sent waits (R378, R401). -/
def networkEffect (s : State) : State :=
  let s := lineEffect s
  if s.net.state == .off then startNetwork true s else s

/-- Balance flags: CFG_CHANGE where a feed service or BAL_FEED changed (R400). -/
def balanceEffect (old new : View) (s : State) : State :=
  if (List.range 16).any (fun n => old.feeds n != new.feeds n || (new.feeds n && serviceChanged old new n)) then markFeed 64 s
  else s

/-- The archive takes the configuration: released, it mounts from its checkpoint (R547); mounted, its quotas follow. -/
def archiveEffect (wasHeld : Bool) (s : State) : State :=
  if s.held 2 then s
  else if wasHeld then beginMount true true s
  else if s.archive.state == .mounted then giveWork { s with archive := s.archive.trim s.view }
  else s

/-- A configuration takes effect at its boundary: every sample below it has been accumulated and the latch there
captured; `ring` ends with the sample before it. Where it changes the mode, the record of the boundary is written (R326,
R338). -/
def takeEffect (x : Applying) (ring : List RingFrame) (s : State) : State :=
  let b := x.bound
  let s := stopConv [0, 1] ((List.range 8).foldl (fun s k => analyseBefore b k s) s)
  let old := s.view
  let held := s.start.heldMask.toNat
  let new := s.viewAfter [x]
  let t := s.timeOf b
  let carried := s.carries new.load
  let resumes := carried && s.xa.suspended
  let wasSplit := s.engines.split
  let dem := demandChanged old new
  let s := if dem then closeSub (t / tps) b true false false s else s
  let s := if dem then { s with billing.subEnds := keptSubEnds new t s.sec s.billing.subEnds } else s
  let s := changeQuanta b old new (takeConfig x s)
  let s := { s with billing := refillSquares old new ring (refillServices old new ring s.billing) }
  let s := profileEffect b old new s
  let s := outputEffect b old new (bit 0 held) s
  let s := analysisEffect carried old new (modeChange s)
  let s := balanceEffect old new (networkEffect (lineBindingEffect old new s))
  let s := if s.engines.split = wasSplit then s else writeBilling (recordBoundary b s)
  let s := copyBackupSettings (loadAux s)
  archiveEffect (bit 2 held) (writeLayouts false resumes t (splitSegment b (s.timeOf (evenUp b)) 0 0 s))

end Sys2Proof.Machine
end

