-- ==== Sys2Proof/Machine/Sample.lean ====
section
/-! DEFINITION. Sample.lean: the raw samples of a strobe and the
reckoned sample they produce (R94–R105, R128–R142, R163–R168, R255). -/

namespace Sys2Proof.Machine
open Sys2Proof

/-! ### Boundaries that a reckoned sample reaches (R163, R168, R255) -/

/-- The reckoned sample stamped `a` is the first at or past the oldest fixed latch boundary: the latch is captured, and
a configuration that waits for it takes effect. `before` is the ring without the raw sample that has just come. -/
def reachLatch (a : Nat) (before : List RingFrame) (s : State) : State :=
  let s := match s.billing.latch.fixed with
    | bd :: rest =>
      if bd.b ≤ a then
        captureLatch bd { s with billing := { s.billing with latch := { s.billing.latch with fixed := rest } } }
      else s
    | [] => s
  s.start.applying.foldl (fun s x => if x.bound ≤ a then takeEffect x before s else s) s

/-- A time step that the sample has reached closes the profile interval (R256) and marks the balance (R400). -/
def stepProfile (a : Nat) (s : State) : State :=
  match s.billing.subEnds.find? (fun e => e.strobe.any (fun k => decide (k ≤ a))) with
  | none => s
  | some e =>
    let k := e.strobe.getD a
    let t := s.timeOf k
    let s := closeProfile k e.tick 3 3 s
    markFeed 16 { s with billing := { s.billing with
      profileStart := t / tps, profileEnd := some (s.view.profileEndAfter t) } }

/-- The sample lies at or after the end of the profile interval (R255). -/
def reachProfile (a t : Nat) (s : State) : State :=
  match s.billing.profileEnd with
  | none => s
  | some e =>
    if e ≤ t then
      let s := closeProfile a e 0 0 s
      { s with billing := { s.billing with profileEnd := some (s.view.profileEndAfter t) } }
    else s

/-- Demand and profile boundaries that the sample stamped `a` has reached (R168, R184, R255). -/
def reachTimes (a : Nat) (s : State) : State :=
  let t := s.timeOf a
  let s := stepProfile a s
  let s := reachSubEnds (s.billing.subEnds.length + 1) a t s
  reachProfile a t s

/-! ### The reckoned sample -/

/-- Clip counts and channel flags of the sample's frame (R105, R120, R124). -/
def markChannels (f : RingFrame) (s : State) : State :=
  { s with sense.channels := s.sense.channels.zipIdx.map (fun x =>
      let c := x.1
      let hit := x.2 < 56 && f.clip.getLsbD x.2
      ({ c with
         clip := c.clip || hit
         clipsNow := if hit then c.clipsNow + 1 else c.clipsNow
         clipsStart := if hit then c.clipsStart + 1 else c.clipsStart
         patched := c.patched || (x.2 < 56 && f.patched.getLsbD x.2)
         lostRun := c.lostRun || (x.2 < 56 && f.lost.getLsbD x.2) } : Channel)) }

/-- Window sums take the service sums of the sample (R253). -/
def addWindows (a : Nat) (s : State) : State :=
  let add : WinSum → WinSum := fun w =>
    if w.a ≤ a && w.b.all (fun e => decide (a < e)) then
      { w with acc := w.acc.zipIdx.map (fun x =>
          let sv := s.billing.services.getD x.2 {}
          (x.1.1 + sv.pbar, x.1.2 + sv.qbar)) }
    else w
  { s with xa.buses := s.xa.buses.map (fun (x : XaBus) => ({ x with sums := x.sums.map add } : XaBus)) }

/-- Interval values do not count before the sample stamped s1; only the energy that the filters spread there does
(R131, R142). -/
def Billing.dropMeasures (b : Billing) : Billing :=
  { b with
    intervalCount := 0
    services := b.services.map (fun (x : Service) => ({ x with now := {}, profileFlags := 0 } : Service))
    squares := b.squares.map (fun (x : ChannelSquare) => ({ x with sum := 0 } : ChannelSquare)) }

/-- A sub-interval in which no energy is registered for a while is partial (R186, R328). -/
def gapSample (a : Nat) (b : Billing) : Billing :=
  { b with
    stamp := a
    services := b.services.map (fun (x : Service) =>
      ({ x with demand := { x.demand with now := { x.demand.now with partialFlag := true } } } : Service)) }

/-- The clip counts go on while no energy is registered (R105, R124). -/
def gapClips (frame : Option RingFrame) (s : State) : State :=
  match frame with
  | some f => markChannels f s
  | none => s

/-- Stages 7 to 10 and everything that follows the sample stamped `a`; `frame` is the ring frame of that strobe, and `replay`
says that it comes from a replay of the ring (R307). -/
def accumulateSample (replay : Bool) (a : Nat) (frame : Option RingFrame) (s : State) : State :=
  let v := s.view
  let s := { s with billing := { s.billing.accumulate v replay frame a with latch := { s.billing.latch with gapUntil := none } } }
  let s := if a < s.firstRaw then { s with billing := s.billing.dropMeasures } else s
  let s := match frame with
    | some f => markChannels f s
    | none => s
  let flagged := fun (n : Nat) => v.plans.any (fun p => p.n == n &&
    (let c := conditionsOf frame p; c.clipped || c.patched || c.lost || c.calStale))
  let s := handFeeds a (feedSample flagged (handFeeds (a - 1) (addWindows a s)))
  noteBoundary (a + 1) (noteBlock a ((List.range 8).foldl (fun s b => flushWindows b (a + 1) s) s))

/-- The raw sample at the head of `ring` enters the engine, and the reckoned sample it gives is accumulated (R128–R142).
Where no earlier frame is old enough, the sample enters the filters only. -/
def reckonFrame (replay : Bool) (ring : List RingFrame) (s : State) : State :=
  match ring with
  | [] => s
  | f :: before =>
    let a := f.strobe - 1223
    let intake := fun (s : State) => { s with billing := s.billing.intake s.view ring }
    if f.strobe < 1223 then intake s
    else
      let s := reachTimes a (intake (reachLatch a before s))
      let s :=
        { (s.start.originMoves.foldl (fun s o => moveOrigin o (max a s.firstRaw) s) s) with start.originMoves := [] }
      match s.billing.latch.gapUntil with
      | some r =>
        if a < r then gapClips ring[1223]? { s with billing := gapSample a s.billing } else accumulateSample replay a ring[1223]? s
      | none => accumulateSample replay a ring[1223]? s

/-- The raw sample enters both engines: the partner reckons for itself where its state departs (R319). -/
def reckonBoth (ring : List RingFrame) (s : State) : State :=
  reckonFrame false ring { s with
    engines.mirror := s.engines.mirror.map (fun b => (reckonFrame false ring { s with billing := s.following b }).billing) }

/-- No engine reckons live: a takeover of split mode is under way (R327), or the Warden holds the claim (R333). -/
def State.reckoningStopped (s : State) : Bool :=
  s.sluice.wardenHolds || (s.engines.split && s.engines.takeover.isSome)

/-- RECKONED_SAMPLE: the decimator blocks deliver the sixty raw samples of the next strobe, once every lane has them
(R21, R90); each passes the array, and the metering samples that leave it are reckoned. Nothing is taken after the
supply-fail warning (R451). -/
def reckonedSample (s : State) : State :=
  if s.power.warning then s
  else
    match s.sense.rawRows with
    | none => s
    | some raw =>
      let t := senseSample raw s
      if t.sense.nextStrobe = s.sense.nextStrobe then t
      else
        let t := match t.engines.ring.head? with
          | some f => runCuts (flickerFrame f (halfFrame f (trackFrame f t)))
          | none => t
        if t.reckoningStopped then t else reckonBoth t.engines.ring t

/-- RECKONED_SAMPLE (R128, R140). -/
def execReckonedSample (s : State) : Outcome := edge reckonedSample s

end Sys2Proof.Machine
end

