-- ==== Sys2Proof/Machine/Objects.lean ====
section
/-! DEFINITION. Objects.lean: the object directory (R12, R64–R66 and the member tables of the chapters), reads of
every object (R63, R75) and writes of every object that accepts one (R63, R65, R69–R70, R96, R187, R200). -/

namespace Sys2Proof.Machine
open Sys2Proof

/-! ### The directory (R64, R65) -/

/-- What the descriptor says of a member: its access code (R65), size and LATCHED. -/
structure MemberSpec where
  access : Nat := 0
  size : Nat := 0
  latched : Bool := false
deriving DecidableEq, Repr

/-- The descriptor word (R64). -/
def MemberSpec.word (m : MemberSpec) : Nat := m.access * 2 ^ 13 + flag m.latched * 2 ^ 12 + m.size

/-- Read-only. -/
def roMember (n : Nat) : MemberSpec := { access := 1, size := n }
/-- Read-only and latched. -/
def latchedMember (n : Nat) : MemberSpec := { access := 1, size := n, latched := true }
/-- Read-write. -/
def rwMember (n : Nat) : MemberSpec := { access := 2, size := n }
/-- Read-write persistent. -/
def rwpMember (n : Nat) : MemberSpec := { access := 3, size := n }
/-- Image-only. -/
def imgMember (n : Nat) : MemberSpec := { access := 4, size := n }
/-- A member that does not exist. -/
def noMember : MemberSpec := {}

/-- Members of class 0 (R66, R160, R189, R343, R223). -/
def deviceSpec (inst m : Nat) : MemberSpec :=
  if inst = 0 then
    [roMember 4, roMember 4, rwMember 4, rwMember 4, rwMember 4, roMember 16, latchedMember 4, roMember 1, roMember 64,
      latchedMember 224, imgMember 4, latchedMember 20, roMember 16].getD m noMember
  else if inst = 1 then
    [roMember 8, imgMember 8, imgMember 8, imgMember 64, imgMember 4, roMember 512, roMember 32].getD m noMember
  else if inst < 8 then noMember
  else if m = 4 then (if 56 ≤ inst then roMember 32 else noMember)
  else [roMember 32, roMember 256, roMember 256, roMember 128].getD m noMember

/-- Members of class 1 (R119). -/
def channelSpec (inst m : Nat) : MemberSpec :=
  if 60 ≤ inst then noMember
  else if 56 ≤ inst && (m = 1 || m = 2 || m = 3 || m = 4 || m = 5 || m = 7) then noMember
  else
    [roMember 4, imgMember 4, imgMember 2, rwpMember 4, rwpMember 4, rwpMember 4, roMember 12, latchedMember 8,
      roMember 8, roMember 16].getD m noMember

/-- Members of class 2 (R152, R192); the net registers exist while NETTING is 1. -/
def serviceSpec (netting : Bool) (inst m : Nat) : MemberSpec :=
  if 16 ≤ inst || (m = 7 && !netting) then noMember
  else
    [roMember 4, imgMember 4, imgMember 8, imgMember 24, roMember 24, latchedMember 96, latchedMember 72, latchedMember 28,
      latchedMember 64, roMember 64, roMember 48, latchedMember 4, imgMember 8, roMember 48, roMember 64,
      rwMember 2].getD m noMember

/-- Members of class 3 (R195, R198). -/
def outputSpec (inst m : Nat) : MemberSpec :=
  if inst < 8 then
    [roMember 4, imgMember 8, latchedMember 24, roMember 16, roMember 8, roMember 40].getD m noMember
  else if 12 ≤ inst then noMember
  else if m = 1 && inst % 2 = 1 then noMember
  else [roMember 4, imgMember 4, rwMember 4, roMember 8].getD m noMember

/-- Members of class 4 (R266, R302). -/
def archiveSpec (inst m : Nat) : MemberSpec :=
  if inst = 0 then
    [roMember 16, imgMember 8, rwMember 2, roMember 64, roMember 32, roMember 16, roMember 40].getD m noMember
  else if inst = 1 then [roMember 16, imgMember 4, roMember 16, roMember 80].getD m noMember
  else noMember

/-- Members of class 5 (R367, R404). -/
def lineSpec (inst m : Nat) : MemberSpec :=
  if inst = 0 then [roMember 4, imgMember 4, roMember 40, roMember 16, roMember 8].getD m noMember
  else if inst = 1 then [roMember 8, imgMember 8, imgMember 4, roMember 40, rwMember 2].getD m noMember
  else noMember

/-- Members of class 6 (R430): the unit's own members and the two converters' blocks stand in instance 0. -/
def auxSpec (inst m : Nat) : MemberSpec :=
  if 16 ≤ inst then noMember
  else if m < 2 then [roMember 12, roMember 4].getD m noMember
  else if inst != 0 then noMember
  else if m < 16 then noMember
  else if m < 25 then
    [roMember 8, imgMember 8, rwMember 64, roMember 32, roMember 1024, roMember 64, roMember 16, roMember 156,
      roMember 60].getD (m - 16) noMember
  else if 32 ≤ m && m < 48 then
    [roMember 4, imgMember 4, roMember 256, roMember 16, rwMember 2].getD ((m - 32) % 8) noMember
  else noMember

/-- Members of class 7 (R486). -/
def timeSpec (inst m : Nat) : MemberSpec :=
  if inst != 0 then noMember
  else
    [roMember 4, imgMember 8, rwMember 4, roMember 8, rwMember 8, roMember 12, roMember 24, rwpMember 68, roMember 8,
      roMember 100, roMember 128, rwMember 68].getD m noMember

/-- Members of class 8 (R457). -/
def storeSpec (inst m : Nat) : MemberSpec :=
  if inst != 0 then noMember
  else [roMember 8, imgMember 4, rwpMember 4, roMember 32, roMember 24, roMember 48].getD m noMember

/-- Members of class 9 (R527). -/
def evidenceSpec (inst m : Nat) : MemberSpec :=
  if inst = 0 then
    [roMember 56, roMember 36, rwMember 2, imgMember 32, roMember 48, roMember 16].getD m noMember
  else if inst = 1 then [roMember 4, imgMember 8, roMember 8, roMember 16].getD m noMember
  else noMember

/-- Members of class 10 (R339). -/
def engineSpec (inst m : Nat) : MemberSpec :=
  if 2 ≤ inst then noMember else [roMember 4, roMember 16, roMember 40, roMember 32].getD m noMember

/-- Members of class 11 (R562). -/
def startSpec (inst m : Nat) : MemberSpec :=
  if inst != 0 then noMember
  else
    [roMember 24, roMember 32, roMember 40, roMember 28, rwMember 4, roMember 16, rwMember 264].getD m noMember

/-- Members 0–62 of every instance. -/
def ownSpec (netting : Bool) (i : Nat) : MemberSpec :=
  let n := idxInst i
  let m := idxMem i
  match idxClass i with
  | 0 => deviceSpec n m
  | 1 => channelSpec n m
  | 2 => serviceSpec netting n m
  | 3 => outputSpec n m
  | 4 => archiveSpec n m
  | 5 => lineSpec n m
  | 6 => auxSpec n m
  | 7 => timeSpec n m
  | 8 => storeSpec n m
  | 9 => evidenceSpec n m
  | 10 => engineSpec n m
  | 11 => startSpec n m
  | _ => noMember

/-- The directory: what exists in the part with the configuration in force. Member 63 is the descriptor of every
instance that exists (R64). -/
def State.spec (s : State) (i : Nat) : MemberSpec :=
  let netting := s.view.svcNetting (idxInst i)
  if !fitted s.part i then noMember
  else if idxMem i = 63 then
    (if (ownSpec netting (i - 63)).access = 0 then noMember else roMember 128)
  else ownSpec netting i

/-- The descriptor of an instance (R64). -/
def State.descriptor (s : State) (cls inst : Nat) : Bytes :=
  tabBytes 64 (fun m => leBytes 2 (s.spec (idx cls inst m)).word)

/-! ### Reads (R63) -/

/-- The identity word (R7). -/
def State.identity (s : State) : Nat :=
  0x4856 * 2 ^ 16 + s.stepLetter.toNat * 2 ^ 12 + s.stepDigit.toNat * 2 ^ 8 +
    flag s.part.fitXa * 4 + 2 + flag s.part.fitZlk

/-- The framing counters (R71). -/
def Framing.bytes (f : Framing) : Bytes :=
  [f.uartTimeout, f.uartByteErr, f.spiCsDiscard, f.huntBytes, f.lengthErr, f.checkErr, f.otherPort,
    f.noReplyDiscard].flatMap (fun c => leBytes 2 c.toNat)

/-- The members of the device object but for its settings (R66–R71, R160, R191, R343). -/
def State.readDevice (s : State) (m : Nat) : Bytes :=
  match m with
  | 0 => leBytes 4 s.identity
  | 1 => leBytes 4 s.statusWord
  | 2 => leBytes 4 s.pendingBits.toNat
  | 3 => leBytes 4 s.link.irqEnable.toNat
  | 4 => leBytes 4 s.link.uartRate.toNat
  | 5 => s.link.framing.bytes
  | 6 => leBytes 4 s.link.generation.toNat
  | 7 => [match s.link.lock with | .none => 0 | .spi => 1 | .uart => 2]
  | 8 => tabBytes 8 s.busBytes
  | 9 => tabBytes 56 (fun c => leBytes 4 (s.billing.latch.published.rms.getD c 0))
  | 11 => s.latchStatus
  | 12 => s.sluiceStatus
  | _ => []

/-- What an object that is neither a descriptor nor a settings member holds. -/
def State.liveMember (s : State) (i : Nat) : Bytes :=
  let n := idxInst i
  let m := idxMem i
  match idxClass i with
  | 0 => if n = 0 then s.readDevice m else s.readXa n m
  | 1 => s.readChannel n m
  | 2 => s.readService n m
  | 3 => if n < 8 then s.readPulse n m else s.readRelay (n - 8) m
  | 4 => if n = 0 then s.readArchiveObj m else s.readRecording m
  | 5 => if n = 0 then s.readLine m else s.readNet m
  | 6 => (s.readAux n m).getD []
  | 7 => (s.readTime m).getD []
  | 8 => s.readStore m
  | 9 => (s.readEvidence n m).getD []
  | 10 => s.readEngine n m
  | 11 => (s.readStart m).getD []
  | _ => []

/-- The value of an object, whole, as long as its descriptor says (R63, R64). Image-only members read the
configuration in force, but for the binding of a service, which the channels give (R152), and its scales, which read 0
for unused elements (R156). -/
def State.value (s : State) (i : Nat) : Bytes :=
  let sp := s.spec i
  fit sp.size
    (if idxMem i = 63 then s.descriptor (idxClass i) (idxInst i)
     else if sp.access = 4 && !(idxClass i = 2 && (idxMem i = 2 || idxMem i = 3)) then s.view i
     else s.liveMember i)

/-- The side effect of a live read (R75), and of one that measures as it reads: the free values it took are past. -/
def readEffect (i : Nat) (s : State) : State :=
  if i = 0x0005 then { s with link.framing.unread := false }
  else if i = 0x6010 then clearFired s
  else if i = 0x6014 then takeWords 255 s
  else if i = 0x6015 then takeWords 15 s
  else if i = 0x7000 then clearPor (freezeShadow s)
  else if idxClass i = 7 then freezeShadow s
  else if i = 0x5003 then s.nextFree.nextFree.nextFree
  else if i = 0x4005 then s.nextFree
  else s

/-- A live read of several objects in order, each with its side effect (R73, R75). -/
def readAll : List Nat → State → Bytes × State
  | [], s => ([], s)
  | i :: is, s =>
    let r := readAll is (readEffect i s)
    (s.value i ++ r.1, r.2)

/-- An object of extended analysis (R59, R223). -/
def xaObject (i : Nat) : Bool := idxClass i = 0 && (idxInst i = 1 || 8 ≤ idxInst i)

/-- The status of a read that names these objects (R59). -/
def State.readStatus (s : State) (is : List Nat) : Status :=
  if s.xa.suspended && is.any xaObject then .degraded else .ok

/-! ### Writes (R63) -/

/-- A result that a write gives as an answer. -/
def answerOf (r : Status × State) : Answer × State := (refuse r.1, r.2)

/-- A write of the interrupt pending member (R69): it clears the bits of 1–11 to which it writes 1. -/
def writePending (v : Nat) (s : State) : Status × State :=
  if 2 ^ 12 ≤ v then (.badParam, s)
  else (.ok, { s with link.irqPending := s.link.irqPending &&& ~~~(BitVec.ofNat 12 v &&& 0xFFE#12) })

/-- A write of the interrupt enable member (R68). -/
def writeEnable (v : Nat) (s : State) : Status × State :=
  if 2 ^ 12 ≤ v then (.badParam, s) else (.ok, { s with link.irqEnable := BitVec.ofNat 12 v })

/-- A write of the host link settings member (R46, R70): the rate changes behind the reply. -/
def writeLinkSettings (v : Nat) (s : State) : Status × State := if 6 < v then (.badParam, s) else (.ok, s)

/-- A calibration value within its range (R95). -/
def calibrationOk (m v : Nat) : Bool :=
  let x := toSigned 32 v
  if m = 3 then 0x20000000 ≤ v && v ≤ 0x80000000
  else if m = 4 then -(2 ^ 25) ≤ x && x ≤ 2 ^ 25
  else -(2 ^ 22) ≤ x && x ≤ 2 ^ 22

/-- A write of a calibration member: into the factory calibration record, and in force from the next latch boundary
(R96, R119, R559). -/
def writeCalibration (c m v : Nat) (s : State) : Status × State :=
  if !calibrationOk m v then (.badParam, s)
  else
    let s := saveCalibration c m v s
    (.ok, s.modChannel c (fun x => { x with
      writes := x.writes ++ [{ member := m, value := if m = 3 then v else toSigned 32 v, strobe := s.sense.strobe }] }))

/-- The evidence of a demand reset: the import active maximum, and three extensions with those of import apparent,
export active and export apparent (R187, R503, R508). -/
def noteDemandReset (n : Nat) (ms : List MaxDemand) (s : State) : State :=
  let seq := s.nextEntry
  let old := fun (k : Nat) => leBytes 8 (ms.getD k {}).value
  let s := s.raise 0x44 (BitVec.ofNat 8 n :: zeros 7 ++ old 0)
  [2, 1, 3].foldl (fun s k => s.raiseExt 0x44 seq (old k)) s

/-- A write of the demand reset member (R187). The maxima that the Warden holds with the published latch are cleared too
(DEDUCED, log entry 121: R328 and R449 would otherwise bring them back). -/
def writeDemandReset (n v : Nat) (s : State) : Status × State :=
  if v ≠ 0x4D52 then (.badParam, s)
  else
    let sv := s.billing.services.getD n {}
    let s := noteDemandReset n sv.demand.maxima s
    let clear := fun (d : Demand) => ({ d with maxima := List.replicate 4 {} } : Demand)
    let l := s.billing.latch
    let latched := modAt l.published.services n (fun x => { x with demand := clear x.demand })
    (.ok, { s with billing := { s.billing with
      services := modAt s.billing.services n (fun x => { x with demand := clear x.demand })
      latch := { l with published := { l.published with services := latched } } } })

/-- The command of a load-control code (R200). -/
def RelayCmd.ofCode (k : Nat) : Option RelayCmd :=
  match k with
  | 1 => some .toClose
  | 2 => some .toOpen
  | 3 => some .on
  | 4 => some .off
  | _ => none

/-- A code is valid for an output in its pair's mode (R200). -/
def relayCodeOk (level : Bool) (k : Nat) : Bool := if level then k = 3 || k = 4 else k = 1 || k = 2

/-- A write of a load-control command member (R200). -/
def writeRelay (out v : Nat) (s : State) : Status × State :=
  let k := field 31 24 v
  let x := s.sluice.pairs.getD (out / 2) {}
  match RelayCmd.ofCode k with
  | none => (.badParam, s)
  | some c =>
    if v % 2 ^ 24 ≠ 0 || !relayCodeOk x.level k then (.badParam, s)
    else
      let s := s.modPair (out / 2) (fun x =>
        if out % 2 = 0 then { x with lastLower := BitVec.ofNat 8 k } else { x with lastUpper := BitVec.ofNat 8 k })
      (.ok, commandRelay out c .host s)

/-- The upper output of a bistable pair takes no command (R200). -/
def State.relayLocked (s : State) (i : Nat) : Bool :=
  let n := idxInst i
  idxClass i = 3 && idxMem i = 2 && (n = 9 || n = 11) && !(s.sluice.pairs.getD ((n - 8) / 2) {}).level

/-- The part of the store that a persistent member lies in is protected (R446). The protection member itself
follows R447. -/
def State.blockProtected (s : State) (i : Nat) : Bool :=
  (s.spec i).access = 3 && i != 0x8002 && s.protects (if idxClass i = 1 then calAddress 0 else Ring.curve.base)

/-- The write itself, of a value as long as its object. -/
def writeMember (i : Nat) (b : Bytes) (s : State) : Answer × State :=
  let v := leNat b
  let n := idxInst i
  let m := idxMem i
  match idxClass i with
  | 0 =>
    answerOf (if m = 2 then writePending v s else if m = 3 then writeEnable v s else writeLinkSettings v s)
  | 1 => answerOf (writeCalibration n m v s)
  | 2 => answerOf (writeDemandReset n v s)
  | 3 => answerOf (writeRelay (n - 8) v s)
  | 4 => archiveCommand v s
  | 5 => answerOf (networkCommand v s)
  | 6 => answerOf (if m = 18 then writeComparators b s else auxCommand ((m - 36) / 8) v s)
  | 7 =>
    answerOf (if m = 2 then haltWrite v s else if m = 4 then calendarWrite b s
      else if m = 7 then curveWrite b s else backupRamWrite b s)
  | 8 => answerOf (setProtection v s)
  | 9 => answerOf (alarmClear v s)
  | _ => answerOf (if m = 4 then limpRelease v s else patchWrite b s)

/-- SET_OBJ with its checks in the order of R63. -/
def setObject (i : Nat) (b : Bytes) (s : State) : Answer × State :=
  let sp := s.spec i
  if sp.access = 0 then (refuse .notFound, s)
  else if (sp.access != 2 && sp.access != 3) || s.relayLocked i then (refuse .isProtected, s)
  else if s.blockProtected i then answerOf (refuseProtected s)
  else if heldIn s.start.heldMask.toNat i then (refuse .wrongState, s)
  else if b.length != sp.size then (refuse .badParam, s)
  else writeMember i b s

end Sys2Proof.Machine
end

