-- ==== Sys2Proof/Machine/Operands.lean ====
section
/-! DEFINITION. Operands.lean: the forms that a request's parameters take, per opcode (R61), and what the checks of
R62 need to know of an opcode before it runs: its codes, its unit (R3, R61, R610) and the objects it names. -/

namespace Sys2Proof.Machine
open Sys2Proof

/-! ### Opcodes (R61) -/

/-- The opcodes that are not reserved. -/
def opcodes : List Nat :=
  [0x01, 0x02, 0x03, 0x04, 0x05, 0x10, 0x11, 0x12, 0x18, 0x19, 0x20, 0x21, 0x22, 0x28, 0x29, 0x2A, 0x30, 0x31, 0x38, 0x39,
    0x40, 0x41, 0x42, 0x43]

/-- An opcode that is not reserved. -/
def opcodeKnown (op : Nat) : Bool := opcodes.contains op

/-- A list of objects: a choice of 0 or 1, a count of 1–64, and as many indices. -/
def listForm (p : Bytes) : Bool :=
  2 ≤ p.length && getU p 0 1 ≤ 1 && 1 ≤ getU p 1 1 && getU p 1 1 ≤ 64 && p.length == 2 + 2 * getU p 1 1

/-- The parameters match the opcode's length and ranges (step 8 of R62). The length of the value of a SET_OBJ is judged
with its object (R63), and ranges that need the state with the checks particular to the opcode. -/
def paramsOk (op : Nat) (p : Bytes) : Bool :=
  match op with
  | 0x01 => p.length == 2
  | 0x02 => 3 ≤ p.length
  | 0x03 | 0x04 => listForm p
  | 0x05 | 0x12 | 0x18 => p.isEmpty
  | 0x10 => p.length == 4 && 1 ≤ getU p 0 4 && getU p 0 4 ≤ 49152
  | 0x11 => 5 ≤ p.length && p.length ≤ 2052
  | 0x19 => p.length == 7 && getU p 0 1 ≤ 2
  | 0x20 => p.length == 12 && getU p 0 1 ≤ 3 && getU p 1 1 ≤ 1 && 1 ≤ getU p 10 2 && getU p 10 2 ≤ 4000
  | 0x21 => p.length == 13 && [1, 2, 3, 0xFF].contains (getU p 12 1)
  | 0x22 => p.length == 11 && getU p 0 1 ≤ 15 && 1 ≤ getU p 7 4 && getU p 7 4 ≤ 3600
  | 0x28 => 2 ≤ p.length && p.length ≤ 193
  | 0x29 =>
    p.length == 2 && 1 ≤ getU p 0 1 && 1 ≤ getU p 1 1 && getU p 1 1 ≤ 32 && getU p 0 1 + getU p 1 1 ≤ 256
  | 0x2A => p.length == 1 && getU p 0 1 ≤ 15
  | 0x30 =>
    3 ≤ p.length && getU p 0 1 ≤ 1 && getU p 1 1 ≤ 63 && 1 ≤ getU p 2 1 && getU p 1 1 + getU p 2 1 ≤ 64 &&
      p.length == 3 + 4 * getU p 2 1
  | 0x31 => p.length == 2 && getU p 0 1 ≤ 1 && getU p 1 1 < 29
  | 0x38 => p.length == 5 && 1 ≤ getU p 4 1 && getU p 4 1 ≤ 64
  | 0x39 => 1 ≤ p.length && p.length ≤ 16
  | 0x40 | 0x41 => p.length == 2
  | 0x42 => p.length == 2 && getU p 0 2 == 0x5752
  | 0x43 => p.length == 2 && getU p 0 2 == 0x4344
  | _ => false

/-! ### The objects a request names -/

/-- The indices of a list. -/
def listIndices (p : Bytes) : List Nat :=
  (List.range (min (getU p 1 1) ((p.length - 2) / 2))).map (fun k => getU p (2 + 2 * k) 2)

/-- The objects that a request names, as far as its parameters reach. SELFTEST names a unit by its instance: the
member is ignored (R61), and member 0 stands for it. -/
def namedObjects (op : Nat) (p : Bytes) : List Nat :=
  if p.length < 2 then []
  else if op = 0x01 || op = 0x02 then [getU p 0 2]
  else if op = 0x03 || op = 0x04 then listIndices p
  else if op = 0x40 then [getU p 0 2 / 64 * 64]
  else []

/-! ### Units (R3, R61, R610) -/

/-- The ordering code fits the opcode's unit: AUDIT_REPLAY belongs to extended analysis, ZLINK_SEND and ZLINK_NODES to
the power-line unit, and BALANCE_GET needs both (R2, R404). -/
def opcodeFitted (part : Part) (op : Nat) : Bool :=
  match op with
  | 0x22 => part.fitXa
  | 0x28 | 0x29 => part.fitZlk
  | 0x2A => part.fitXa && part.fitZlk
  | _ => true

/-- The units that hold an opcode back in a limp start until they are released, as bits of HELD (R61, R546, R547). -/
def opcodeHeldBits (op : Nat) : List Nat :=
  match op with
  | 0x20 | 0x21 => [2]
  | 0x22 => [2, 3]
  | 0x28 | 0x29 => [4]
  | 0x2A => [3, 4]
  | 0x30 | 0x31 => [1]
  | _ => []

/-- The Warden is the unit of an object (R610). The descriptor of the device object counts to members 0–7, and what the
table of units leaves out, objects that do not exist, to the Warden too: until it is ready they answer BUSY, then NOT_FOUND
(DESIGN CHOICE, log entry 16). -/
def wardenObject (i : Nat) : Bool :=
  match idxClass i with
  | 0 => (idxInst i = 0 && (idxMem i < 8 || idxMem i = 63)) || (2 ≤ idxInst i && idxInst i < 8)
  | 7 | 8 | 9 | 11 | 12 | 13 | 14 | 15 => true
  | _ => false

/-- The Warden is the unit of an opcode (R610). -/
def wardenOpcode (op : Nat) : Bool :=
  [0x10, 0x11, 0x18, 0x19, 0x38, 0x39, 0x41, 0x42, 0x43].contains op

/-- The unit of an object is ready (R610). -/
def State.objectReady (s : State) (i : Nat) : Bool := if wardenObject i then s.start.wardenReady else s.ready

/-- Every unit that a request needs is ready (R610). Archive access has a rule of its own. -/
def State.requestReady (s : State) (op : Nat) (p : Bytes) : Bool :=
  if [0x01, 0x02, 0x03, 0x04, 0x40].contains op then
    (namedObjects op p).all s.objectReady && (s.start.wardenReady || (namedObjects op p).isEmpty)
  else if wardenOpcode op then s.start.wardenReady
  else s.ready

/-- ARCHIVE_READ, PIN_SEGMENT and AUDIT_REPLAY are ready when the archive is mounted (R610). -/
def archiveOpcode (op : Nat) : Bool := 0x20 ≤ op && op ≤ 0x22

/-- A read of billing values, which a split-mode takeover holds (R58). -/
def State.billingRead (s : State) (op : Nat) (p : Bytes) : Bool :=
  (op = 0x01 || ((op = 0x03 || op = 0x04) && getU p 0 1 = 0)) &&
    (namedObjects op p).any (fun i => idxClass i = 2 || idxClass i = 3 || (s.spec i).latched)

end Sys2Proof.Machine
end

