-- ==== Sys2Proof/Machine/Takeover.lean ====
section
/-! DEFINITION. Takeover.lean: the end of a takeover (R316, R323, R327–R328, R614), commands to the sluice (R312–R313,
R317, R441), and the publication of a latch (R164, R322, R448). -/

namespace Sys2Proof.Machine
open Sys2Proof

/-! ### Catch-up (R327) -/

/-- The raw samples of the ring reckoned by an engine from the sample stamped `from_` up to that stamped `upTo`, oldest first.
The ring is newest first. -/
def catchUp (from_ upTo : Nat) : List RingFrame → State → State
  | [], s => s
  | f :: before, s =>
    let s := catchUp from_ upTo before s
    if from_ + 1223 ≤ f.strobe && f.strobe ≤ upTo + 1223 then reckonFrame true (f :: before) s else s

/-- The two lists, an item of both once. -/
def bothOf {α : Type} [BEq α] (a b : List α) : List α := a ++ b.filter (fun x => !a.contains x)

/-- The filters of a billing state filled from the ring (R327). -/
def Billing.refilled (v : View) (ring : List RingFrame) (b : Billing) : Billing :=
  { b with
    services := v.plans.foldl (fun ss p =>
      modAt ss p.n (fun sv => sv.refillKept v ring (b.buses.getD p.bus {}).freq p)) b.services
    squares := tab 56 (fun c =>
      let q := b.squares.getD c {}
      if v.chanOn c then { ChannelSquare.refill ring c with sum := q.sum } else q) }

/-- The billing state of a state record, its filters filled from raw sample c − 1,223 to raw sample c + 1,222 (R327). The
line cycles are those that have been found since: the survivor finds the same ones in the same samples (DEDUCED, log entry
112). -/
def State.restored (s : State) (r : StateRecord) : Billing :=
  let live := s.billing
  let b := s.following r.body
  let b : Billing := { b with
    buses := live.buses.zipIdx.map (fun x =>
      let y := r.body.buses.getD x.2 {}
      ({ x.1 with waiting := bothOf y.waiting x.1.waiting, reached := y.reached } : Bus))
    subEnds := bothOf r.body.subEnds live.subEnds
    latch := { b.latch with fixed := bothOf r.body.latch.fixed live.latch.fixed }
    services := b.services.zipIdx.map (fun x =>
      let y := live.services.getD x.2 {}
      ({ x.1 with present := y.present, powers := y.powers } : Service)) }
  b.refilled s.view (s.engines.ring.dropWhile (fun f => decide (r.resume + 1222 < f.strobe)))

/-- The billing state that the replay from a state record has reached at the sample stamped `upTo`. -/
def State.replayTo (s : State) (r : StateRecord) (upTo : Nat) : Billing :=
  (catchUp r.resume upTo s.engines.ring { s with billing := s.restored r }).billing

/-- The replay from a state record up to the last sample reckoned; what the other engine has handed over is not handed over
again. -/
def State.replayed (s : State) (r : StateRecord) : Billing := s.following (s.replayTo r s.billing.stamp)

/-- RESYNC_END: the engine has caught up from its resynchronisation record. In split mode it becomes the partner; in mirror
mode it joins lockstep at the next block boundary (R336). -/
def resyncEnd (s : State) : State :=
  let p := s.partner
  if (s.engine p).role != .resync || s.engines.takeover.isSome then s
  else
    match s.engines.resync with
    | none => s
    | some r =>
      if s.engines.split then
        { s.modEngine p (fun x => { x with role := .standby }) with
          engines.partnerOk := true, engines.badRun := 0, engines.buffers := [none, none], engines.resync := none }
      else { s with engines.mirror := some (s.replayed r), engines.joining := true }

/-- RESYNC_END (R336). -/
def execResyncEnd (s : State) : Outcome := edge resyncEnd s

/-! ### The end of an arbitration (R321, R322) -/

/-- The partner's rebuilt state: the digest at the end of the diverged block, and the state at the live sample. Before the
first agreed record it has only the state that it holds (DESIGN CHOICE, log entry 198). -/
def State.rebuilt (s : State) (a : Arbitration) : BitVec 64 × Billing :=
  match s.engines.agreed.getD s.partner none with
  | some r => ((s.replayTo r (64 * a.block + 63)).digest s.view a.block, s.replayed r)
  | none => (a.own, s.following (s.ownBilling s.partner))

/-- ARBITRATION_END: the third digest is that of the rebuilt state but for the bits in which the rebuild errs, and is judged
(R321). The quick self-test's duration is no operand: a free value. An undetermined outcome extends the entry of the
mismatch by the third digest (DEDUCED, log entry 52). -/
def arbitrationEnd (passed : Bool) (flips : BitVec 64) (s : State) : State :=
  match s.engines.arbitration with
  | none => s
  | some a =>
    let p := s.partner
    let rebuilt := s.rebuilt a
    let s := { s with engines.arbitration := none }
    let third := rebuilt.1 ^^^ flips
    let ofPartner := if p = 0 then a.digest0 else a.digest1
    let ofActive := if p = 0 then a.digest1 else a.digest0
    if !passed then retireEngine p s
    else if third = ofActive then resyncEngine p (min 100 s.freeValue) s.nextFree
    else if third = ofPartner then
      let held := s.sluice.heldClaim
      beginTakeover p 3 0 none { s.modEngine p (fun x => { x with read := some held }) with
        engines.mirror := some rebuilt.2
        engines.floor := some s.billing.latch.published }
    else (underTest p s).raiseExt 0x36 a.entry (leBytes 8 third.toNat)

/-- ARBITRATION_END (R321, R322). -/
def execArbitrationEnd (passed : Bool) (flips : BitVec 64) (s : State) : Outcome := edge (arbitrationEnd passed flips) s

/-! ### Resuming from the published latch (R328, R614) -/

/-- Line-cycle boundaries of the pacing bus that lie beyond strobe `x`. -/
def boundariesAfter (x : Nat) (s : State) : List LineMark :=
  (s.billing.buses.getD s.view.latchBus {}).waiting.filter (fun m => decide (x < strobeOf m.instant))

/-- A service as the published latch has it, put into the quantum in force, its filters filled from the ring; the
energy of the sub-interval in progress is incomplete (R186). -/
def Service.resume (v : View) (ring : List RingFrame) (buses : List Bus) (n quantum : Nat) (x : LatchedService)
    (sv : Service) : Service :=
  let sv := { sv with regs := x.regs, netP := x.netP, netQ := x.netQ, now := {}, signKnown := false
                      demand := { x.demand with now := { x.demand.now with partialFlag := true } } }
  let sv := sv.requantise quantum (v.svcQuantum n)
  match v.plans.find? (fun p => p.n == n) with
  | some p => sv.refill v ring (buses.getD p.bus {}).freq p
  | none => sv

/-- A pulse output as the published latch has it: what the sluice has not begun is due at once. After an origin that
has moved since, nothing has been counted (R177). -/
def PulseEngine.resume (r : PulseRecord) (begun : BitVec 64) (x : PulseEngine) : PulseEngine :=
  if r.origin = x.origin then
    { x with acc := r.acc, converted := r.converted, due := List.replicate (r.converted.toNat - begun.toNat) 0 }
  else { x with acc := {}, converted := 0, due := [] }

/-- The ends of sub-intervals that lie between a latch and now, each once (R184, R186). -/
def pastSubEnds (v : View) (fromTick now : Nat) (l : List SubEnd) : List SubEnd :=
  let t := v.demandSub * tps
  let ks := (List.range (now / t + 1)).filter (fun k => decide (fromTick < k * t) && decide (k * t ≤ now))
  (ks.filter (fun k => !l.any (fun e => e.strobe.isNone && e.tick == k * t))).map (fun k => { tick := k * t }) ++ l

/-- The strobe count and the chronicle tick from which no energy is registered: the published latch's, or those of the first
sample of the start while no latch has been published, whose values then are the restored ones (R328). -/
def State.gapBegin (s : State) : Nat × Nat :=
  let c := s.billing.latch.published
  if s.link.generation = 0 then (s.firstRaw, s.timeOf s.firstRaw) else (c.boundary.b, c.sec * tps + c.tick)

/-- The billing state at the published latch, or as it was restored at the start. -/
def resumeBilling (s : State) : State :=
  let v := s.view
  let b := s.billing
  let c := b.latch.published
  let ring := s.engines.ring
  let services := tab 16 (fun n =>
    (b.services.getD n {}).resume v ring b.buses n (c.quanta.getD n 3) (c.services.getD n {}))
  let squares := tab 56 (fun k =>
    if v.chanOn k then { ChannelSquare.refill ring k with sum := 0 } else {})
  let pulses := tab 8 (fun o =>
    (b.pulses.getD o {}).resume (c.pulses.getD o {}) (s.sluice.pulses.getD o {}).lastBegun)
  { s with billing := { b with
      services := services, squares := squares, pulses := pulses, intervalCount := 0
      subEnds := pastSubEnds v s.gapBegin.2 s.ticks b.subEnds } }

/-- The latch at the resume point, the boundary `m`, takes the place of every boundary that has passed unpublished (R614): it closes the
interval from the published latch, and a configuration that waits takes effect there. -/
def gapLatch (m : LineMark) (live : Nat) (s : State) : State :=
  let r := strobeOf m.instant
  let l := s.billing.latch
  let later := (boundariesAfter r s).length
  let fresh := (l.fresh.filter (fun x => decide (r < x.b))).map (fun x => { x with forced := false })
  let counted := (l.captured.map (·.boundary) ++ l.fixed).foldl (fun n b => n + b.cycles) (l.cycles + l.fresh.length)
  let first := l.leadInterval || (l.captured.map (·.boundary) ++ l.fixed).any (·.leadIn)
  let bd : Boundary := { b := r, cycles := counted - later, leadIn := first, gap := true, synth := m.synth }
  let s := { s with
    billing := { s.billing with stamp := live, latch :=
      { l with fixed := [bd], captured := [], cycles := later - fresh.length, leadIn := false
               leadInterval := false, gapUntil := some r
               fresh := fresh } }
    start.leadBoundary := if l.leadIn then some r else s.start.leadBoundary }
  fixBoundary r { s with start.applying := s.start.applying.map (fun (x : Applying) => ({ x with bound := max x.bound r } : Applying)) }

/-- The channels take up the conditions of the samples that are never reckoned, up to that stamped `live`, and the counts of
latches that are never published: the latch at the resume point closes the interval from the published one (R105, R120,
R124, R614). -/
def passChannels (live : Nat) (s : State) : State :=
  let b := s.billing
  let earlier := s.engines.ring.filter (fun f => decide (s.gapBegin.1 ≤ f.strobe) && decide (f.strobe ≤ b.stamp))
  let skipped := s.engines.ring.filter (fun f => decide (b.stamp < f.strobe) && decide (f.strobe ≤ live))
  let counted := fun (i : Nat) => b.latch.captured.foldl (fun n c => n + (c.clips.getD i (0, 0)).1) 0
  let seen := fun (bits : RingFrame → BitVec 56) (i : Nat) => i < 56 && earlier.any (fun f => (bits f).getLsbD i)
  skipped.reverse.foldl (fun s f => markChannels f s) { s with
    sense.channels := s.sense.channels.zipIdx.map (fun x =>
      ({ x.1 with
         clipsNow := x.1.clipsNow + counted x.2
         clip := x.1.clip || counted x.2 != 0
         patched := x.1.patched || seen (·.patched) x.2
         lostRun := x.1.lostRun || seen (·.lost) x.2 } : Channel)) }

/-- The survivor found no valid checkpoint (R328): it resumes from the published latch at the first line-cycle boundary
that it reaches live. The entry ENERGY_GAP is extended by the two strobe counts (DEDUCED, log entry 197). -/
def resumeFromLatch (s : State) : State :=
  let from_ := s.gapBegin
  let live := s.sense.nextStrobe - 1224
  let m := (boundariesAfter live s).headD { instant := (live + 1) * 65536, synth := true }
  let r := strobeOf m.instant
  let s := (gapLatch m live (resumeBilling (passChannels live s))).setIrq .latch
  let seq := s.nextEntry
  (s.raise 0x42 (timeBytes from_.2 ++ timeBytes (s.timeOf r))).raiseExt 0x42 seq (leBytes 6 from_.1 ++ leBytes 6 r)

/-! ### RELEASE (R316, R323, R327) -/

/-- Extended analysis after a mirror-mode takeover: the flicker meters restart, and SETTLING lies on the P_st in progress
and on the next; nothing else is lost (R221). -/
def settleMeters (s : State) : State :=
  if s.xa.suspended then s else
  { s with xa.channels := (List.range 8).foldl (fun cs u =>
      if s.view.flicker u then
        modAt cs (48 + u) (fun x => { x with meter := { x.meter.restart false none with settleNext := true } })
      else cs) s.xa.channels }

/-- The last-takeover member (R342). -/
def takeoverRecord (t : Takeover) (claim : BitVec 16) (micros deepest : Nat) : Bytes :=
  leBytes 6 t.sec ++ leBytes 2 t.tick ++ [BitVec.ofNat 8 t.cause, BitVec.ofNat 8 (flag t.split)] ++ leBytes 2 claim.toNat ++
    leBytes 4 micros ++ leBytes 6 ((t.record.map (·.resume)).getD 0) ++ [BitVec.ofNat 8 t.source, 0] ++ leBytes 4 deepest ++
    zeros 4

/-- The survivor bills from here on. A holder that has renewed its claim has not taken over (R332). The other engine is
tested (R311), unless it has been. -/
def passBilling (t : Takeover) (micros deepest : Nat) (s : State) : State :=
  let record := takeoverRecord t s.sluice.heldClaim micros deepest
  let renewed := t.survivor = s.engines.active
  let s := { s with engines.active := t.survivor, engines.takeover := none, engines.digests := none, engines.mirror := none
                    engines.arbitration := none, engines.agreed := [none, none], sluice.hold := false }
  let s := s.modEngine t.survivor (fun x =>
    let x := { x with role := .active, read := none }
    if renewed then x else { x.count 0 with lastTakeover := record })
  let o := otherEngine t.survivor
  if (s.engine o).role == .resync && !(s.engine o).verdict then s else standDown o s

/-- The billing state with which the survivor takes over: its own, or the checkpoint's, caught up with the live sample, or
the published latch's (R323, R327, R328). -/
def takeUpBilling (t : Takeover) (s : State) : State :=
  if t.source = 2 then resumeFromLatch s
  else
    let own := match t.record with
      | some r => s.replayed r
      | none => if t.survivor = s.engines.active then s.billing else s.following (s.ownBilling t.survivor)
    catchUp (s.billing.stamp + 1) s.sense.nextStrobe s.engines.ring { s with billing := own }

/-- The writes that waited for the end of HOLD are made (R317). -/
def runWrites (s : State) : State :=
  { s with store := s.sluice.writes.foldl (fun st w => st.put w.1 w.2) s.store, sluice.writes := [] }

/-- A holder that finds its claim refused stands down (R315). The command is counted (R313). -/
def refuseCommand (claim : BitVec 16) (s : State) : State :=
  let s := { s with sluice.refused := s.sluice.refused + 1 }
  let a := s.engines.active
  if claim ≠ 0 && claim < s.sluice.heldClaim && (s.engine a).claim = claim then standDown a s else s

/-- Takeover end: the first command under the newly accepted claim that carries RELEASE. -/
def release (claim : BitVec 16) (deepest : Nat) (s : State) : State :=
  if claim ≠ s.sluice.heldClaim then refuseCommand claim s
  else
    match s.engines.takeover with
    | none => s
    | some t =>
      if t.stage == .verdict || s.sluice.wardenHolds then s else
      let s := takeUpBilling t s
      let s := if s.engines.split then writePoolGap s.ticks s else settleMeters s
      let s := (passBilling t (s.micros - t.at_) deepest s).setIrq .takeover
      if s.sluiceOpen then runWrites (runWaiting s) else s

/-! ### Commands to the sluice (R313, R317, R441) -/

/-- A pulse is asked for by number (R176): the sluice begins it when its start has come (R172), its output is free and its
tail is emitted (R177), and ignores a number that it has begun. Before its start it waits for PULSE_START. -/
def pulseCommand (o number : Nat) (s : State) : State :=
  let po := s.sluice.pulses.getD o {}
  let pe := s.billing.pulses.getD o {}
  if !s.sluiceOpen || po.pulse || !po.tail.isEmpty || s.micros < po.notBefore || s.view.poQty o = 0 ||
      number ≤ po.lastBegun.toNat then s
  else
    let next := pe.converted.toNat - pe.due.length
    let due := pe.due.getD (number - next - 1) s.micros
    if s.micros < due then s else
    let s := s.modEnginePulse o (fun x => { x with due := x.due.drop (number - next) })
    beginPulse o due s.micros (s.modPulse o (fun x =>
      { x with lastBegun := BitVec.ofNat 64 number, emitted := x.emitted + 1 }))

/-- The billing port may write an address (R441): the billing save ring with the profile mirror, and the load-control
rings. -/
def billingRegion (a n : Nat) : Bool :=
  (0x20000 ≤ a && a + n ≤ 0x27800) || (0x27B00 ≤ a && a + n ≤ 0x27D00)

/-- A write through the billing port; in HOLD it waits for the end of the takeover (R317, R441). -/
def billingWrite (a : Nat) (b : Bytes) (s : State) : State :=
  if !billingRegion a b.length then (s.countStore 7).raise 0x40 (leBytes 4 a ++ [0])
  else if s.sluice.hold then { s with sluice.writes := s.sluice.writes ++ [(a, b)] }
  else { s with store := s.store.put a b }

/-- A command that carries the held claim. The start command of a frame passes with the slot that makes the frame due:
between slots no frame waits for one. -/
def obeySluice (c : SluiceCmd) (s : State) : State :=
  match c with
  | .pulse o n => if o < 8 then pulseCommand o n s else s
  | .relay o k =>
    match RelayCmd.ofCode k with
    | some r => if o < 4 && relayCodeOk (s.sluice.pairs.getD (o / 2) {}).level k then commandRelay o r .host s else s
    | none => s
  | .transmit => s
  | .write a b => billingWrite a b s

/-- A command to the sluice: under any other claim than the held one it is counted as refused (R313). -/
def sluiceCommand (claim : BitVec 16) (c : SluiceCmd) (s : State) : State :=
  if claim ≠ s.sluice.heldClaim then refuseCommand claim s else obeySluice c s

/-- SLUICE_COMMAND (R313). -/
def execSluiceCommand (claim : BitVec 16) (cmd : SluiceCmd) (s : State) : Outcome := edge (sluiceCommand claim cmd) s

/-! ### LATCH_PUBLISH (R164, R322, R448) -/

/-- The greater of two registers. -/
def Acc.max (a b : Acc) : Acc := if b.total ≤ a.total then a else b

/-- The latched values of a service that do not fall below a floor (R322). -/
def LatchedService.raised (f x : LatchedService) : LatchedService :=
  { x with regs := tab 12 (fun k => (x.regs.getD k {}).max (f.regs.getD k {})) }

/-- A pulse record that does not fall below a floor of the same origin (R322). -/
def PulseRecord.raised (f x : PulseRecord) : PulseRecord :=
  if f.origin = x.origin && (x.converted < f.converted || (x.converted == f.converted && x.acc.total < f.acc.total)) then f
  else x

/-- A capture no value of which falls below a floor in the same quanta. -/
def Capture.raised (f x : Capture) : Capture :=
  { x with
    services := tab 16 (fun n =>
      let y := x.services.getD n {}
      if f.quanta.getD n 3 = x.quanta.getD n 3 then LatchedService.raised (f.services.getD n {}) y else y)
    pulses := tab 8 (fun o => PulseRecord.raised (f.pulses.getD o {}) (x.pulses.getD o {})) }

/-- The generation number after the one in force (R72). -/
def nextGeneration (g : BitVec 32) : BitVec 32 := if g = 0xFFFFFFFF#32 then 1 else g + 1

/-- S_MAX takes the present apparent powers of a latch (R449); a save that fell due by then follows this latch (R448). -/
def noteSmax (c : Capture) (s : State) : State :=
  let present := fun (n : Nat) => (c.services.getD n {}).presentS
  let smax := tab 16 (fun n => max (s.store.smax.getD n 0) (present n))
  match s.store.saveDue with
  | some due =>
    if due ≤ c.sec && s.store.saveOf.isNone then
      { s with store.saveOf := some (c, smax), store.smax := tab 16 present, store.saveDue := none }
    else { s with store.smax := smax }
  | none => { s with store.smax := smax }

/-- The commands that wait for a latch complete with it (R74, R166, R614). -/
def completeLatched (b : Boundary) (s : State) : State :=
  s.link.outstanding.foldl (fun s c =>
    match c.work with
    | .snapshot is =>
      { s with link.snapshot := some { generation := s.link.generation, values := is.map (fun i => (i, s.value i)) } }.complete
        c.tag .ok []
    | .latchNow _ hit => if b.gap || (b.forced && hit = some b.b) then s.complete c.tag .ok [] else s
    | _ => s) s

/-- The oldest captured latch becomes visible with its generation number, in one step. -/
def latchPublish (s : State) : State :=
  if s.reckoningStopped then s else
  let l := s.billing.latch
  match l.captured with
  | [] => s
  | c :: rest =>
    let shown := match s.engines.floor with
      | some f => Capture.raised f c
      | none => c
    let s := { s with
      billing := { s.billing with latch := { l with captured := rest, published := shown } }
      engines.floor := if shown = c then none else s.engines.floor
      link.generation := nextGeneration s.link.generation }
    completeLatched c.boundary (noteSmax c s)

/-- LATCH_PUBLISH (R72, R164). -/
def execLatchPublish (s : State) : Outcome := edge latchPublish s

end Sys2Proof.Machine
end

