-- ==== Sys2Proof/Machine/Requests.lean ====
section
/-! DEFINITION. Requests.lean: what every opcode does once its request has passed the checks of R62 (R61, R63, R73–R79,
R166, R525). -/

namespace Sys2Proof.Machine
open Sys2Proof

/-- What a request comes to: its answer, the state, what its reply carries beside the usual (a generation of its own,
a rate or a start that follows it), and a completion owed at once behind ACCEPTED. -/
structure Done where
  answer : Answer
  state : State
  generation : Option (BitVec 32) := none
  newRate : Option (BitVec 4) := none
  restart : Option StartKind := none
  owed : Option Status := none

/-- An answer that changes nothing. -/
def Done.only (a : Answer) (s : State) : Done := { answer := a, state := s }

/-- An answer with the state it leaves. -/
def Done.of (r : Answer × State) : Done := { answer := r.1, state := r.2 }

/-! ### Objects (R63, R73–R75) -/

/-- The most that the values of a list may come to (R73). -/
def listRoom : Nat := 4087

/-- The first listed object that does not exist, by its place, or a list too long (R73). -/
def State.listFault (s : State) (is : List Nat) : Option Answer :=
  match is.zipIdx.find? (fun x => (s.spec x.1).access == 0) with
  | some x => some (.done .notFound [BitVec.ofNat 8 x.2])
  | none =>
    if listRoom < (is.map (fun i => (s.spec i).size)).foldl (· + ·) 0 then some (refuse .overflow) else none

/-- GET_OBJ (R63, R75). -/
def getRequest (p : Bytes) (s : State) : Done :=
  let i := getU p 0 2
  if (s.spec i).access = 0 then .only (refuse .notFound) s
  else .of (.done (s.readStatus [i]) (s.value i), readEffect i s)

/-- SET_OBJ (R63). A new link rate waits for the reply (R46). -/
def setRequest (p : Bytes) (s : State) : Done :=
  let i := getU p 0 2
  let r := setObject i (p.drop 2) s
  let rate := if i = 0x0004 && r.1 == .done .ok [] then some (BitVec.ofNat 4 (getU p 2 4)) else none
  { Done.of r with newRate := rate }

/-- BULK_READ of live values (R73). -/
def bulkLive (is : List Nat) (s : State) : Done :=
  match s.listFault is with
  | some a => .only a s
  | none =>
    let r := readAll is s
    .of (.done (s.readStatus is) (leBytes 4 s.link.generation.toNat ++ r.1), r.2)

/-- The value of an index in a snapshot. -/
def Snapshot.find (x : Snapshot) (i : Nat) : Option Bytes := (x.values.find? (fun v => v.1 == i)).map (·.2)

/-- BULK_READ of the snapshot (R74). It answers OK also for objects of extended analysis while that is suspended: the
snapshot holds what they were when it was taken, and R59 speaks of reads of the objects (DESIGN CHOICE, log entry 13). -/
def bulkSnapshot (is : List Nat) (s : State) : Done :=
  match s.link.snapshot with
  | none => .only (refuse .wrongState) s
  | some x =>
    match is.zipIdx.find? (fun y => (x.find y.1).isNone) with
    | some y => .only (.done .notFound [BitVec.ofNat 8 y.2]) s
    | none =>
      let vs := is.flatMap (fun i => (x.find i).getD [])
      if listRoom < vs.length then .only (refuse .overflow) s
      else { Done.only (.done .ok (leBytes 4 x.generation.toNat ++ vs)) s with generation := some x.generation }

/-- BULK_READ (R73, R74). -/
def bulkRequest (p : Bytes) (s : State) : Done :=
  if getU p 0 1 = 0 then bulkLive (listIndices p) s else bulkSnapshot (listIndices p) s

/-- The objects as they stand, copied without side effects (R74, R75). -/
def State.copies (s : State) (is : List Nat) : List (Nat × Bytes) := is.map (fun i => (i, s.value i))

/-- SNAPSHOT (R74): BUSY while one with When = 1 is outstanding, which it is until its completion has left (R55). -/
def snapshotRequest (p : Bytes) (s : State) : Done :=
  let is := listIndices p
  if s.link.outstanding.any (fun c => c.opcode == 0x04 && c.long) then .only (refuse .busy) s
  else
    match s.listFault is with
    | some a => .only a s
    | none =>
      if getU p 0 1 = 0 then
        .of (.done .ok [], { s with link.snapshot := some { generation := s.link.generation, values := s.copies is } })
      else .only (.long (.snapshot is)) s

/-- LATCH_NOW (R166): it forces the first line-cycle boundary of the pacing bus after the strobe count at which it is
taken. -/
def latchNowRequest (s : State) : Done := .of (.long (.latchNow s.sense.strobe none), s)

/-! ### Configuration sessions (R76, R554) -/

/-- CFG_BEGIN. -/
def cfgBegin (p : Bytes) (s : State) : Done :=
  if s.link.outstanding.any (fun c => c.opcode == 0x12) then .only (refuse .busy) s
  else .of (.done .ok [], { s with link.session := some { size := getU p 0 4 } })

/-- CFG_CHUNK. -/
def cfgChunk (p : Bytes) (s : State) : Done :=
  match s.link.session with
  | none => .only (refuse .wrongState) s
  | some x =>
    let data := p.drop 4
    if getU p 0 4 ≠ x.bytes.length || x.size < x.bytes.length + data.length then .only (refuse .badParam) s
    else
      let bs := x.bytes ++ data
      .of (.done .ok (leBytes 4 bs.length), { s with link.session := some { x with bytes := bs } })

/-- CFG_COMMIT: it closes the session whatever its result. -/
def cfgCommit (s : State) : Done :=
  match s.link.session with
  | none => .only (refuse .wrongState) s
  | some x =>
    let s := { s with link.session := none }
    if x.bytes.length ≠ x.size then .only (refuse .wrongState) s
    else .of (.long (.commit false), { s with start.commit := .checking, start.committing := x.bytes })

/-! ### Self-tests (R117, R335, R525) -/

/-- A SELFTEST of a unit is outstanding. -/
def State.testing (s : State) (unit : Nat) : Bool :=
  s.link.outstanding.any (fun c => match c.work with | .selftest u _ => u == unit | _ => false)

/-- A slice can be tested: it is not retired, and the rotation that a wader's test needs has not stopped. -/
def State.sliceAble (s : State) (c : Nat) : Bool :=
  !(s.sense.slices.getD (sliceOf c) {}).retired && (c < 56 || !(s.sense.quarters.getD (c - 56) {}).stopped)

/-- The quarter is testing a slice now, or pre-empting for it. -/
def Rotation.occupied : Rotation → Bool
  | .pre _ _ _ | .homeTest _ | .waderTest _ => true
  | _ => false

/-- SELFTEST of a channel's home slice by pre-emption, or of a wader in place of its next reference measurement. -/
def testSlice (unit c : Nat) (s : State) : Done :=
  if !s.sliceAble c then .only (.long (.selftest unit false)) s
  else if 56 ≤ c then .of (.long (.selftest unit true), s.modQuarter (c - 56) (fun x => { x with waderTestDue := true }))
  else if (s.sense.quarters.getD (quarterOf c) {}).rot.occupied then .only (refuse .busy) s
  else .of (.long (.selftest unit true), preempt (quarterOf c) (positionOf c) true s)

/-- SELFTEST of an engine (R335). -/
def testEngine (unit e : Nat) (s : State) : Done :=
  let go := fun (_ : Unit) => Done.of (.long (.selftest unit true), (underTest e s).modEngine e (fun x => { x with hostTest := true }))
  match (s.engine e).role with
  | .active | .standby => .only (refuse .wrongState) s
  | .lockstep => if s.engines.takeover.isSome then .only (refuse .busy) s else go ()
  | .resync => .only (refuse (if s.engines.split then .wrongState else .busy)) s
  | .arbitration | .selftest => .only (refuse .busy) s
  | .retired => go ()
  | .notStarted => .only (.long (.selftest unit false)) s

/-- SELFTEST (R525): the member of the index is ignored. -/
def selftestRequest (p : Bytes) (s : State) : Done :=
  let unit := getU p 0 2 / 64 * 64
  if (s.spec unit).access = 0 then .only (refuse .notFound) s
  else if s.testing unit then .only (refuse .busy) s
  else if idxClass unit = 1 then testSlice unit (idxInst unit) s
  else if idxClass unit = 10 then testEngine unit (idxInst unit) s
  else if unit = 0x4040 then
    if !s.recording.coderOk then .only (.long (.selftest unit false)) s
    else if s.recording.coderTesting then .only (refuse .busy) s
    else .of (.long (.selftest unit true), { s with recording.coderTesting := true })
  else if unit = 0x9040 then .of (.long (.selftest unit true), s)
  else .only (refuse .badParam) s

/-- The test of a slice that the host asked for still goes on. -/
def State.sliceBusy (s : State) (c : Nat) : Bool :=
  if 56 ≤ c then
    let x := s.sense.quarters.getD (c - 56) {}
    x.waderTestDue || (match x.rot with | .waderTest _ => true | _ => false)
  else
    match (s.sense.quarters.getD (quarterOf c) {}).rot with
    | .pre p st true => p == positionOf c && st != .twin && st != .fadeBack
    | _ => false

/-- The end of a self-test that its unit announces: `failed` and the duration in ms. -/
def endTest (tag unit : Nat) (failed : Bool) (outcome duration : Nat) (s : State) : State :=
  if idxClass unit = 1 then
    let c := idxInst unit
    if s.sliceBusy c then s
    else
      let retired := (s.sense.slices.getD (sliceOf c) {}).retired
      let w := resultWord (if retired then 1 else if failed then 2 else 0) (if 56 ≤ c then 1 else 0) duration
      (noteTest w unit s).complete tag .ok (leBytes 4 w)
  else if idxClass unit = 10 then engineTested (idxInst unit) (!failed) duration s
  else if unit = 0x4040 then
    let s := coderSelftestEnd (!failed) s
    let w := resultWord (flag (!s.recording.coderOk)) 3 duration
    (noteTest w unit s).complete tag .ok (leBytes 4 w)
  else
    let w := resultWord (if failed then 2 else outcome) 4 duration
    let s := { s with integrity.bitternFault := failed }
    let s := if failed then s.raise 0x1C (leBytes 4 w) else s
    (noteTest w unit s).complete tag .ok (leBytes 4 w)

/-- SELFTEST_COMPLETE: the completion carries the result word, or FAULT for a unit that cannot be tested (R525). -/
def selftestComplete (tag outcome duration : Nat) (s : State) : State :=
  match s.command tag with
  | none => s
  | some c =>
    match c.work with
    | .selftest unit able =>
      if !able then s.complete tag .fault [] else endTest tag unit (outcome != 0) outcome duration s
    | _ => s

/-- SELFTEST_COMPLETE (R525). -/
def execSelftestComplete (tag : BitVec 16) (outcome : BitVec 4) (duration : BitVec 16) (s : State) : Outcome :=
  edge (selftestComplete tag.toNat outcome.toNat duration.toNat) s

/-- A slice test not yet begun is given up: what has begun of the pre-emption is undone, and the unit is untouched
(R79). -/
def dropSliceTest (c : Nat) (s : State) : Option State :=
  if 56 ≤ c then
    let q := c - 56
    if !(s.sense.quarters.getD q {}).waderTestDue then none
    else if (s.sense.channels.getD c {}).suspect then some s
    else some (s.modQuarter q (fun x => { x with waderTestDue := false }))
  else
    let q := quarterOf c
    match (s.sense.quarters.getD q {}).rot with
    | .pre p .handBack true | .pre p .settle true =>
      if p = positionOf c then some (s.modQuarter q (fun x => { x with rot := .idle })) else none
    | .pre p .fadeTo true =>
      if p ≠ positionOf c then none
      else
        some (s.modQuarter q (fun x =>
          match x.fade with
          | some f =>
            if 0 < f.wait then { x with rot := .idle, fade := none, cover := none }
            else { x with rot := .pre p .fadeBack true, fade := some { pos := p, toWader := false } }
          | none => { x with rot := .idle, cover := none }))
    | _ => none

/-! ### ABORT (R79) -/

/-- A ZLINK_SEND that has not been sent leaves the transaction it waits in. -/
def dropSend (tag : Nat) (s : State) : State :=
  match s.net.trans with
  | some t =>
    (match t.kind with
     | .data k _ => if k = tag then { s with net.trans := none } else s
     | _ => s)
  | none => s

/-- What an outstanding command that has not passed its point of no return leaves behind when it is aborted (R79);
`none` when it has passed it. -/
def abortWork (c : Command) (s : State) : Option State :=
  match c.work with
  | .snapshot _ => some s
  | .archiveRead _ _ _ _ | .audit _ _ _ => some (dropReads c.tag s)
  | .latchNow _ hit => if hit.isSome then none else some s
  | .commit _ =>
    if s.start.commit = .writing then none
    else some { s with start.commit := s.commitRest, start.committing := [] }
  | .pinSegment n _ _ => if s.pinBegun n then none else some (unpin n s)
  | .zlinkSend _ _ sent => if sent then none else some (dropSend c.tag s)
  | .selftest unit able =>
    if !able then some s else if idxClass unit = 1 then dropSliceTest (idxInst unit) s else none
  | .replied | .heldRead _ _ _ | .abortHeld _ => none

/-- ABORT: the target ends with ABORTED and its completion precedes the reply, or the reply waits for the target's own
completion. An ABORT that names its own tag finds no other command under it: NOT_FOUND, or ALREADY_DONE where the reply
cache holds the tag (DESIGN CHOICE, log entry 151). -/
def abortRequest (own : Nat) (p : Bytes) (s : State) : Done :=
  let t := getU p 0 2
  let absent := Done.only (refuse (if s.link.cache.any (fun e => e.tag == t) then .alreadyDone else .notFound)) s
  if t = own then absent
  else
    match s.command t with
    | none => absent
    | some c =>
      let s := match c.work with
        | .commit _ => reachSlotWrite s
        | _ => s
      match c.work with
      | .replied => .only (refuse .alreadyDone) s
      | .abortHeld target => .only (.long (.abortHeld target)) s
      | _ =>
        match abortWork c s with
        | some s' => .of (.done .ok [], s'.complete t .aborted [])
        | none => .only (.long (.abortHeld t)) s

/-! ### START_WARM and START_COLD (R78, R549) -/

/-- START_WARM and START_COLD: long commands end, the commanded save is written, and the start follows the reply. R545
clears LIMP when the command is taken, so that the reply of a start taken in a limp start carries LIMP = 0, though R545
also sets LIMP in every reply of a limp start (DESIGN CHOICE, log entry 152). -/
def startRequest (kind : StartKind) (s : State) : Done :=
  let s := reachSlotWrite s
  if s.start.commit = .writing then .only (refuse .busy) s
  else
    let s := s.link.outstanding.foldl (fun s c =>
      if c.work.long then ((abortWork c s).getD s).complete c.tag .aborted [] else s) s
    let s := if s.start.energyBegun then closingSave 3 s else s
    { Done.of (.done .ok [], clearFailures s) with restart := some kind }

/-! ### The opcodes -/

/-- A PIN_SEGMENT may owe its completion at once (R298). -/
def pinRequest (p : Bytes) (s : State) : Done :=
  let r := pinSegment p s
  { Done.of (r.1.1, r.2) with owed := r.1.2 }

/-- What an opcode does (R61); `own` is the request's tag and `code` what an urgent conversion gives. -/
def execute (op own : Nat) (p : Bytes) (code : Option (BitVec 12)) (s : State) : Done :=
  match op with
  | 0x01 => getRequest p s
  | 0x02 => setRequest p s
  | 0x03 => bulkRequest p s
  | 0x04 => snapshotRequest p s
  | 0x05 => latchNowRequest s
  | 0x10 => cfgBegin p s
  | 0x11 => cfgChunk p s
  | 0x12 => cfgCommit s
  | 0x18 => .only (s.timeGet p) (freezeShadow s)
  | 0x19 => .of (timeSet p s)
  | 0x20 => .of (readRequest own p s)
  | 0x21 => pinRequest p s
  | 0x22 => if s.xa.suspended then .only (refuse .wrongState) s else .of (auditRequest own p s)
  | 0x28 => .of (zlinkSend p s)
  | 0x29 => .only (zlinkNodes p s) s
  | 0x2A => .only (balanceGet p s) s
  | 0x30 => .of (auxSeqLoad p s)
  | 0x31 => .of (auxUrgent p code s)
  | 0x38 => .only (s.logRead p) s
  | 0x39 => .of (logAppend p s)
  | 0x40 => selftestRequest p s
  | 0x41 => abortRequest own p s
  | 0x42 => startRequest .warm s
  | 0x43 => startRequest .cold s
  | _ => .only (refuse .badOpcode) s

end Sys2Proof.Machine
end

