-- ==== Sys2Proof/Machine/Link.lean ====
section
/-! DEFINITION. Link.lean: the host link (chapter "Omrad frames"): taking a request (R55–R58, R62), the two ports (R39,
R46–R54), and the commands that arrive as whole requests. -/

namespace Sys2Proof.Machine
open Sys2Proof

/-! ### Frames (R41–R45) -/

/-- The bytes that a check covers (R43). -/
def coveredBytes (flags : Byte) (tag op : Nat) (p : Bytes) : Bytes :=
  flags :: leBytes 2 (p.length + 3) ++ leBytes 2 tag ++ [BitVec.ofNat 8 op] ++ p

/-- A whole frame before stuffing (R41). -/
def hostFrame (flags : Byte) (tag op : Nat) (p : Bytes) : Bytes :=
  let c := coveredBytes flags tag op p
  0xA5 :: c ++ leBytes 2 (crc16 c)

/-- A frame as the UART carries it (R47). -/
def stuff (f : Bytes) : Bytes :=
  f.take 1 ++ (f.drop 1).flatMap (fun b => if b = 0xA5 ∨ b = 0x7D then [0x7D, b ^^^ 0x20] else [b])

/-- The code of a status (R60). -/
def Status.code : Status → Byte
  | .ok => 0x00
  | .accepted => 0x01
  | .busy => 0x02
  | .badOpcode => 0x03
  | .badParam => 0x04
  | .badCheck => 0x05
  | .isProtected => 0x06
  | .notFound => 0x07
  | .aborted => 0x08
  | .alreadyDone => 0x09
  | .wrongState => 0x0A
  | .fault => 0x0B
  | .timeout => 0x0C
  | .degraded => 0x0D
  | .overflow => 0x0E

/-- The Flags byte of a reply (R44). -/
def Reply.flags (r : Reply) : Byte :=
  BitVec.ofNat 8 (0x80 + (match r.kind with | .final => 0 | .accepted => 1 | .completion => 2) * 32 +
    flag r.retry * 16 + flag r.alert * 8 + flag r.limp * 4)

/-- A reply as a frame (R41, R45). -/
def Reply.frame (r : Reply) : Bytes :=
  hostFrame r.flags r.tag r.opcode (r.status.code :: leBytes 4 r.generation.toNat ++ r.params)

/-! ### Counters, errors and the lock (R39, R54, R71) -/

/-- A framing counter rises by `n`: FRAMING is set, and the LINK interrupt (R52, R68, R71). -/
def countFraming (f : Framing → Framing) (s : State) : State :=
  { s with link.framing := { f s.link.framing with unread := true } }.setIrq .link

/-- Bytes on the locked-out port (R39). -/
def countOther (n : Nat) (s : State) : State :=
  if n = 0 then s else countFraming (fun f => { f with otherPort := f.otherPort + BitVec.ofNat 16 n }) s

/-- An error reply to a frame not accepted as a command: one of at most sixteen (R54). -/
def errorReply (port : Port) (tag op : Nat) (st : Status) (s : State) : State :=
  if 16 ≤ s.link.replies.countP (fun r => r.errorQueue) then
    countFraming (fun f => { f with noReplyDiscard := f.noReplyDiscard + 1 }) s
  else
    s.pushReply { port := port, kind := .final, alert := s.alertFlag, limp := s.limpFlag, tag := tag, opcode := op
                  status := st, generation := s.link.generation, errorQueue := true }

/-- The port lock of a port. -/
def lockOf : Port → PortLock
  | .spi => .spi
  | .uart => .uart

/-- The link is locked to the other port than `p`. -/
def State.lockedOut (s : State) (p : Port) : Bool := s.link.lock != .none && s.link.lock != lockOf p

/-- The first frame whose check is correct locks the link to its port (R39): what the other port had received or was to
send is dropped. -/
def lockPort (p : Port) (s : State) : State :=
  if s.link.lock != .none then s
  else
    { s with
      link.lock := lockOf p
      link.replies := s.link.replies.filter (fun r => r.port == p)
      link.uartRx := if p = .spi then {} else s.link.uartRx
      link.spiRx := if p = .uart then none else s.link.spiRx }

/-- Host bytes are taken: the port is open (R40) and the Warden is not under test (R523). -/
def State.listening (s : State) : Bool := s.link.portOpen && !s.integrity.wardenTesting

/-! ### Taking a request (R55–R58, R62) -/

/-- Steps 4 to 8 of R62: the answer of the first check that fails. A SET_OBJ on an object of a unit held off is judged in
the order of R63. A SELFTEST of the coder runs while recording is held off (DESIGN CHOICE, log entry 193: R61 serves the
opcode in a limp start, R610 has a unit held off answer WRONG_STATE). -/
def judge (op : Nat) (p : Bytes) (s : State) : Option Answer :=
  let named := namedObjects op p
  let held := op = 0x02 && named.any (heldIn s.start.heldMask.toNat)
  if !opcodeKnown op then some (refuse .badOpcode)
  else if !opcodeFitted s.part op then some (refuse .notFound)
  else if named.any (fun i => !fitted s.part i) then
    some (if op = 0x03 || op = 0x04 then (s.listFault named).getD (refuse .notFound) else refuse .notFound)
  else if (opcodeHeldBits op).any s.held then some (refuse .wrongState)
  else if archiveOpcode op then
    match s.archiveGate with
    | some st => some (refuse st)
    | none => if paramsOk op p then none else some (refuse .badParam)
  else if !held && !s.requestReady op p then some (refuse .busy)
  else if !paramsOk op p then some (refuse .badParam)
  else none

/-- The final reply of a command, or its ACCEPTED, is sent in the order of arrival (R57). An ABORT held back has no reply
yet (R79). -/
def answerRequest (port : Port) (tag op : Nat) (d : Done) : State :=
  let s := d.state
  match d.answer with
  | .done st ps =>
    s.send
      { port := port, kind := .final, alert := s.alertFlag, limp := s.limpFlag, tag := tag, opcode := op, status := st
        generation := d.generation.getD s.link.generation, params := ps, ends := true, newRate := d.newRate
        restart := d.restart }
  | .long (.abortHeld t) => s.setWork tag (.abortHeld t)
  | .long w =>
    let s := ((s.setWork tag w).noteLong tag).send (s.formed port .accepted tag op .accepted [] false)
    match d.owed with
    | some st => s.complete tag st []
    | none => s

/-- A command that is outstanding runs: steps 4 to 9 of R62. -/
def runRequest (op : Nat) (r : Req) (code : Option (BitVec 12)) (s : State) : State :=
  let tag := r.tag.toNat
  answerRequest r.port tag op
    (match judge op r.params s with
     | some a => .only a s
     | none => execute op tag r.params code s)

/-- A takeover of split mode holds back the reads of billing values; every other request runs at once and its reply keeps its
place behind them (R57, R58; DEDUCED, log entry 12). -/
def State.holdsBack (s : State) (op : Nat) (p : Bytes) : Bool :=
  s.engines.split && s.engines.takeover.isSome && s.billingRead op p

/-- A request that is new: it becomes outstanding and runs (R55), and a cache entry of its tag is dropped (R56 rule 4). -/
def newRequest (op check : Nat) (r : Req) (code : Option (BitVec 12)) (s : State) : State :=
  let tag := r.tag.toNat
  let hold := s.holdsBack op r.params
  let c : Command :=
    { port := r.port, tag := tag, opcode := op, length := r.params.length + 3, check := check
      work := if hold then .heldRead r op code else .replied }
  let s := { s with
    link.cache := s.link.cache.filter (fun e => e.tag != tag)
    link.outstanding := s.link.outstanding ++ [c] }
  if hold then s else runRequest op r code s

/-- Eight commands are outstanding, and for an ABORT another ABORT beside them (R55). -/
def State.full (s : State) : Bool :=
  8 ≤ s.link.outstanding.length - min 1 (s.link.outstanding.countP (fun c => c.opcode == 0x41))

/-- The outstanding limit turns an opcode away (R55). -/
def State.overLimitFor (s : State) (op : Nat) : Bool :=
  s.full && (op != 0x41 || s.link.outstanding.any (fun c => c.opcode == 0x41))

/-- A frame whose check is correct (R62 steps 1 to 3). -/
def hostRequest (op : Nat) (r : Req) (code : Option (BitVec 12)) (s : State) : State :=
  let tag := r.tag.toNat
  let len := r.params.length + 3
  let check := crc16 (coveredBytes r.flags tag op r.params)
  if tag = 0xFFFF || r.flags != 0 then errorReply r.port tag op .badParam s
  else
    match s.command tag with
    | some c =>
      if c.opcode = op && c.length = len && c.check = check then
        (match c.accepted with
         | some a => s.pushReply { a with retry := true }
         | none => s)
      else errorReply r.port tag op .badParam s
    | none =>
      match s.link.cache.find? (fun e => e.tag == tag && e.opcode == op && e.length == len && e.check == check) with
      | some e => s.pushReply { e.reply with retry := true }
      | none =>
        if s.overLimitFor op then errorReply r.port tag op .busy s
        else newRequest op check r code s

/-- A command that arrives as a whole request on a port that is open (R39–R42): on the locked-out port its bytes are
counted, and a length out of range is no frame. -/
def arrive (op : Nat) (r : Req) (code : Option (BitVec 12)) (s : State) : State :=
  if !s.listening then s
  else if s.lockedOut r.port then
    let f := hostFrame r.flags r.tag.toNat op r.params
    countOther (match r.port with | .spi => f.length | .uart => (stuff f).length) s
  else if 4096 < r.params.length then countFraming (fun f => { f with lengthErr := f.lengthErr + 1 }) s
  else hostRequest op r code (lockPort r.port s)

/-! ### Replies leave (R53, R55, R56, R78) -/

/-- A cached reply as it is resent: it ends nothing and changes nothing (R56). -/
def Reply.copy (r : Reply) : Reply := { r with ends := false, newRate := none, restart := none, errorQueue := false }

/-- The command of a reply whose last byte has left is outstanding no longer, and its reply is cached (R55, R56). -/
def endCommand (r : Reply) (s : State) : State :=
  match s.command r.tag with
  | none => s
  | some c =>
    let e : Cached := { tag := c.tag, opcode := c.opcode, length := c.length, check := c.check, reply := r.copy }
    { s with
      link.outstanding := s.link.outstanding.filter (fun x => x.tag != r.tag)
      link.cache := (e :: s.link.cache.filter (fun x => x.tag != r.tag)).take 8 }

/-- An ACCEPTED has been sent: a duplicate of its request brings it again (R56 rule 1). -/
def noteAccepted (r : Reply) (s : State) : State :=
  { s with link.outstanding := s.link.outstanding.map (fun (c : Command) =>
      if c.tag = r.tag then ({ c with accepted := some r.copy } : Command) else c) }

/-- The first reply that leaves on a port, and the queue without it. -/
def takeReply (port : Port) : List Reply → Option (Reply × List Reply)
  | [] => none
  | r :: rest => if r.port = port then some (r, rest) else (takeReply port rest).map (fun x => (x.1, r :: x.2))

/-- REPLY_SENT: the last byte of the oldest reply of a port has left; on the UART it went out stuffed (R47). The new rate
applies from the next byte on (R46), and a start that the reply announced begins (R78). -/
def replySent (port : Port) (s : State) : State :=
  match takeReply port s.link.replies with
  | none => s
  | some (r, rest) =>
    let s := match port with
      | .spi => { s with link.replies := rest, link.spiSent := 0 }
      | .uart => { s with link.replies := rest, link.uartTx := stuff r.frame }
    let s := if r.ends then endCommand r s else s
    let s := if r.kind == .accepted && !r.retry then noteAccepted r s else s
    let s := match r.newRate with
      | some k => { s with link.uartRate := k }
      | none => s
    match r.restart with
    | some k => enterReset (some (k, if k = .cold then 3 else 2)) .drained false s
    | none => s

/-- REPLY_SENT (R55). -/
def execReplySent (port : Port) (s : State) : Outcome := edge (replySent port) s

/-! ### Reads held by a takeover (R58) -/

/-- Every reply kept behind the command of a tag is queued. -/
def sendBehind (tag : Nat) (s : State) : State :=
  { s with
    link.replies := s.link.replies ++ s.link.behind.filter (fun r => r.tag == tag)
    link.behind := s.link.behind.filter (fun r => r.tag != tag) }

/-- At the end of a takeover the requests that it held back run, and the replies behind them are queued, in the order of
arrival; an ABORT that named a held read is answered behind it (R57, R58, R79). -/
def runHeld (s : State) : State :=
  s.link.outstanding.foldl (fun s c =>
    match c.work with
    | .heldRead r op code => (runRequest op r code (s.setWork c.tag .replied)).releaseAborts c.tag
    | _ => sendBehind c.tag s) s

/-- RELEASE (R316, R323, R327): at takeover end the reads that waited are answered. -/
def execRelease (claim : BitVec 16) (deepest : Nat) (s : State) : Outcome :=
  edge (fun s =>
    let s' := release claim deepest s
    if s.engines.takeover.isSome && s'.engines.takeover.isNone then runHeld s' else s') s

/-! ### Bytes become frames (R42, R43, R54) -/

/-- How a frame in progress stands after a byte more. -/
inductive FrameStep where
  | more
  | badLength
  | whole (length : Nat)
deriving DecidableEq, Repr

/-- The frame in progress, from its Sync byte on. -/
def frameStep (f : Bytes) : FrameStep :=
  if f.length < 4 then .more
  else
    let l := getU f 2 2
    if l < 3 || 4099 < l then .badLength else if f.length < l + 6 then .more else .whole l

/-- A whole frame has arrived (R39, R54). An urgent conversion that it asks for gives a free value (R421). -/
def deliver (port : Port) (f : Bytes) (l : Nat) (s : State) : State :=
  let covered := (f.drop 1).take (l + 3)
  if crc16 covered ≠ getU f (l + 4) 2 then
    errorReply port 0xFFFF 0x00 .badCheck (countFraming (fun x => { x with checkErr := x.checkErr + 1 }) s)
  else
    let r : Req :=
      { port := port, flags := (f.drop 1).headD 0, tag := BitVec.ofNat 16 (getU f 4 2), params := (f.drop 7).take (l - 3) }
    let op := getU f 6 1
    let code := if s.freeValue % 4097 = 4096 then none else some (BitVec.ofNat 12 s.freeValue)
    hostRequest op r code (lockPort port (if op = 0x31 then s.nextFree else s))

/-! ### UART (R46–R48) -/

/-- A UART frame in progress is discarded on a byte, break or escape error, and the receiver hunts (R48). -/
def uartDiscard (s : State) : State :=
  countFraming (fun f => { f with uartByteErr := f.uartByteErr + 1 }) { s with link.uartRx := {} }

/-- A byte discarded outside a frame (R54). -/
def huntByte (s : State) : State := countFraming (fun f => { f with huntBytes := f.huntBytes + 1 }) s

/-- An unstuffed byte joins the frame in progress. -/
def uartTake (f : Bytes) (b : Byte) (s : State) : State :=
  let f := f ++ [b]
  match frameStep f with
  | .more => { s with link.uartRx := { frame := some f } }
  | .badLength => countFraming (fun x => { x with lengthErr := x.lengthErr + 1 }) { s with link.uartRx := {} }
  | .whole l => deliver .uart f l { s with link.uartRx := {} }

/-- A byte with its stop bit, in or outside a frame (R47, R48, R54). -/
def uartByte (b : Byte) (s : State) : State :=
  let rx := s.link.uartRx
  match rx.frame with
  | none => if b = 0xA5 then { s with link.uartRx := { frame := some [b] } } else huntByte s
  | some f =>
    if b = 0xA5 then { uartDiscard s with link.uartRx := { frame := some [b] } }
    else if rx.escape then (if b = 0x85 ∨ b = 0x5D then uartTake f (b ^^^ 0x20) s else uartDiscard s)
    else if b = 0x7D then { s with link.uartRx := { frame := some f, escape := true } }
    else uartTake f b s

/-- UART_BYTE_RECEIVE: on the locked-out port it is counted only (R39); without its stop bit it ends a frame or is
discarded (R48, R54). -/
def uartByteReceive (b : Byte) (stopBit : Bool) (s : State) : State :=
  if !s.listening then s
  else if s.lockedOut .uart then countOther 1 s
  else if !stopBit then (if s.link.uartRx.frame.isSome then uartDiscard s else huntByte s)
  else uartByte b s

/-- UART_BYTE_RECEIVE. -/
def execUartByteReceive (byte : Byte) (stopBit : Bool) (s : State) : Outcome := edge (uartByteReceive byte stopBit) s

/-- UART_BREAK: it discards a frame in progress and is ignored outside one (R48, R54). -/
def uartBreak (s : State) : State :=
  if s.listening && !s.lockedOut .uart && s.link.uartRx.frame.isSome then uartDiscard s else s

/-- UART_BREAK. -/
def execUartBreak (s : State) : Outcome := edge uartBreak s

/-- UART_TIMEOUT: a gap of more than 5 ms inside a frame (R48). -/
def uartTimeout (s : State) : State :=
  if s.listening && s.link.uartRx.frame.isSome then
    countFraming (fun f => { f with uartTimeout := f.uartTimeout + 1 }) { s with link.uartRx := {} }
  else s

/-- UART_TIMEOUT. -/
def execUartTimeout (s : State) : Outcome := edge uartTimeout s

/-! ### SPI (R50–R53) -/

/-- The replies that wait to be clocked out (R52): those of the SPI port. -/
def State.spiReplies (s : State) : List Reply := s.link.replies.filter (fun r => r.port == .spi)

/-- The link status byte (R52). -/
def State.linkStatus (s : State) : Byte :=
  let n := s.spiReplies.length
  BitVec.ofNat 8 (0x40 + flag (0 < n) * 32 + flag s.full * 16 + flag s.link.framing.unread * 8 + min n 7)

/-- HSPI_DO: driven within a chip-select period, once the port is open and unless the link is locked to the UART. -/
def State.spiDo (s : State) : Option Byte :=
  if s.link.csLow && s.link.portOpen && !s.lockedOut .spi then some s.link.spiOut else none

/-- SPI_CS_FALL: a chip-select period begins; its first byte out is the link status byte. -/
def spiCsFall (s : State) : State :=
  { s with link.csLow := true, link.spiRx := none, link.spiSent := 0, link.spiOut := s.linkStatus }

/-- SPI_CS_FALL (R50, R52). -/
def execSpiCsFall (s : State) : Outcome := edge spiCsFall s

/-- The next byte for HSPI_DO: of the oldest reply of the port, or fill (R39, R52). -/
def spiNext (s : State) : State :=
  match s.spiReplies with
  | r :: _ =>
    (match r.frame[s.link.spiSent]? with
     | some b => { s with link.spiOut := b, link.spiSent := s.link.spiSent + 1 }
     | none => { s with link.spiOut := 0 })
  | [] => { s with link.spiOut := 0 }

/-- A byte on HSPI_DI (R51). -/
def spiTake (b : Byte) (s : State) : State :=
  match s.link.spiRx with
  | none => if b = 0 then s else if b = 0xA5 then { s with link.spiRx := some [b] } else huntByte s
  | some f =>
    let f := f ++ [b]
    match frameStep f with
    | .more => { s with link.spiRx := some f }
    | .badLength => countFraming (fun x => { x with lengthErr := x.lengthErr + 1 }) { s with link.spiRx := none }
    | .whole l => deliver .spi f l { s with link.spiRx := none }

/-- SPI_BYTE_RECEIVE: one byte each way (R50–R52). -/
def spiByteReceive (b : Byte) (s : State) : State :=
  if !s.listening || !s.link.csLow then s
  else if s.lockedOut .spi then countOther 1 s
  else spiTake b (spiNext s)

/-- SPI_BYTE_RECEIVE. -/
def execSpiByteReceive (byte : Byte) (s : State) : Outcome := edge (spiByteReceive byte) s

/-- SPI_CS_RISE: a request in progress is discarded, and a reply in progress is sent again later (R53). -/
def spiCsRise (s : State) : State :=
  let cut := s.listening && s.link.spiRx.isSome
  let s := { s with link.csLow := false, link.spiRx := none, link.spiSent := 0, link.spiOut := 0 }
  if cut then countFraming (fun f => { f with spiCsDiscard := f.spiCsDiscard + 1 }) s else s

/-- SPI_CS_RISE (R53). -/
def execSpiCsRise (s : State) : Outcome := edge spiCsRise s

/-! ### Requests, one for each opcode (R61) -/

/-- A request with a reserved opcode: BAD_OPCODE (R62 step 4). -/
def execReservedOpcode (opcode : Byte) (r : Req) (s : State) : Outcome := edge (arrive opcode.toNat r none) s

/-- GET_OBJ (R63, R75). -/
def execGetObj (r : Req) (s : State) : Outcome := edge (arrive 0x01 r none) s

/-- SET_OBJ (R63). -/
def execSetObj (r : Req) (s : State) : Outcome := edge (arrive 0x02 r none) s

/-- BULK_READ (R73, R74). -/
def execBulkRead (r : Req) (s : State) : Outcome := edge (arrive 0x03 r none) s

/-- SNAPSHOT (R74). -/
def execSnapshot (r : Req) (s : State) : Outcome := edge (arrive 0x04 r none) s

/-- LATCH_NOW (R166). -/
def execLatchNow (r : Req) (s : State) : Outcome := edge (arrive 0x05 r none) s

/-- CFG_BEGIN (R76). -/
def execCfgBegin (r : Req) (s : State) : Outcome := edge (arrive 0x10 r none) s

/-- CFG_CHUNK (R76). -/
def execCfgChunk (r : Req) (s : State) : Outcome := edge (arrive 0x11 r none) s

/-- CFG_COMMIT (R76, R554). -/
def execCfgCommit (r : Req) (s : State) : Outcome := edge (arrive 0x12 r none) s

/-- CFG_SESSION_TIMEOUT: a session with no command for 60 s is discarded (R76). -/
def execCfgSessionTimeout (s : State) : Outcome := edge (fun s => { s with link.session := none }) s

/-- TIME_GET (R77). -/
def execTimeGet (r : Req) (s : State) : Outcome := edge (arrive 0x18 r none) s

/-- TIME_SET (R77, R469). -/
def execTimeSet (r : Req) (s : State) : Outcome := edge (arrive 0x19 r none) s

/-- ARCHIVE_READ (R294). -/
def execArchiveRead (r : Req) (s : State) : Outcome := edge (arrive 0x20 r none) s

/-- PIN_SEGMENT (R298). -/
def execPinSegment (r : Req) (s : State) : Outcome := edge (arrive 0x21 r none) s

/-- AUDIT_REPLAY (R261). -/
def execAuditReplay (r : Req) (s : State) : Outcome := edge (arrive 0x22 r none) s

/-- ZLINK_SEND (R401). -/
def execZlinkSend (r : Req) (s : State) : Outcome := edge (arrive 0x28 r none) s

/-- ZLINK_NODES (R402). -/
def execZlinkNodes (r : Req) (s : State) : Outcome := edge (arrive 0x29 r none) s

/-- BALANCE_GET (R399). -/
def execBalanceGet (r : Req) (s : State) : Outcome := edge (arrive 0x2A r none) s

/-- AUX_SEQ_LOAD (R427). -/
def execAuxSeqLoad (r : Req) (s : State) : Outcome := edge (arrive 0x30 r none) s

/-- AUX_URGENT (R421): `code` is the code its conversion gives. -/
def execAuxUrgent (r : Req) (code : Option (BitVec 12)) (s : State) : Outcome := edge (arrive 0x31 r code) s

/-- LOG_READ (R510). -/
def execLogRead (r : Req) (s : State) : Outcome := edge (arrive 0x38 r none) s

/-- LOG_APPEND (R511). -/
def execLogAppend (r : Req) (s : State) : Outcome := edge (arrive 0x39 r none) s

/-- SELFTEST (R525). -/
def execSelftest (r : Req) (s : State) : Outcome := edge (arrive 0x40 r none) s

/-- ABORT (R79). -/
def execAbort (r : Req) (s : State) : Outcome := edge (arrive 0x41 r none) s

/-- START_WARM (R78). -/
def execStartWarm (r : Req) (s : State) : Outcome := edge (arrive 0x42 r none) s

/-- START_COLD (R78). -/
def execStartCold (r : Req) (s : State) : Outcome := edge (arrive 0x43 r none) s

/-! ### Reads and writes of one object -/

/-- A SET_OBJ of an object. -/
def setRow (port : Port) (tag : BitVec 16) (i : Nat) (b : Bytes) (s : State) : State :=
  arrive 0x02 { port := port, tag := tag, params := leBytes 2 i ++ b } none s

/-- A GET_OBJ of an object. -/
def getRow (port : Port) (tag : BitVec 16) (i : Nat) (s : State) : State :=
  arrive 0x01 { port := port, tag := tag, params := leBytes 2 i } none s

/-- A write of the interrupt pending member (R69). -/
def execInterruptPendingWrite (port : Port) (tag : BitVec 16) (value : BitVec 32) (s : State) : Outcome :=
  edge (setRow port tag 0x0002 (leBytes 4 value.toNat)) s

/-- A write of the host link settings member (R46, R70). -/
def execHostLinkSettingsWrite (port : Port) (tag : BitVec 16) (value : BitVec 32) (s : State) : Outcome :=
  edge (setRow port tag 0x0004 (leBytes 4 value.toNat)) s

/-- A read of the framing counters (R71, R75). -/
def execFramingCountersRead (port : Port) (tag : BitVec 16) (s : State) : Outcome := edge (getRow port tag 0x0005) s

/-- A write of a calibration member (R96, R119). -/
def execCalibrationWrite (port : Port) (tag : BitVec 16) (channel member : Nat) (value : BitVec 32) (s : State) : Outcome :=
  edge (setRow port tag (idx 1 channel member) (leBytes 4 value.toNat)) s

/-- A write of the demand reset member (R187). -/
def execDemandReset (port : Port) (tag : BitVec 16) (service : Nat) (value : BitVec 16) (s : State) : Outcome :=
  edge (setRow port tag (idx 2 service 15) (leBytes 2 value.toNat)) s

/-- A load-control command member written with a code (R200). -/
def relayRow (port : Port) (tag : BitVec 16) (output code : Nat) (s : State) : State :=
  setRow port tag (idx 3 (8 + output) 2) (leBytes 4 (code * 2 ^ 24)) s

/-- CLOSE (R178, R200). -/
def execRelayClose (port : Port) (tag : BitVec 16) (output : Nat) (s : State) : Outcome := edge (relayRow port tag output 1) s

/-- OPEN (R178, R200). -/
def execRelayOpen (port : Port) (tag : BitVec 16) (output : Nat) (s : State) : Outcome := edge (relayRow port tag output 2) s

/-- ON (R178, R200). -/
def execRelayOn (port : Port) (tag : BitVec 16) (output : Nat) (s : State) : Outcome := edge (relayRow port tag output 3) s

/-- OFF (R178, R200). -/
def execRelayOff (port : Port) (tag : BitVec 16) (output : Nat) (s : State) : Outcome := edge (relayRow port tag output 4) s

/-- The format command of the archive (R283). -/
def execArchiveFormat (port : Port) (tag : BitVec 16) (s : State) : Outcome := edge (setRow port tag 0x4002 (leBytes 2 0x464D)) s

/-- The mount-again command of the archive (R305). -/
def execMountAgain (port : Port) (tag : BitVec 16) (s : State) : Outcome := edge (setRow port tag 0x4002 (leBytes 2 0x4D54)) s

/-- The forming command of the network (R408). -/
def execFormNetwork (port : Port) (tag : BitVec 16) (s : State) : Outcome := edge (setRow port tag 0x5044 (leBytes 2 0x464E)) s

/-- A converter's command member written (R437). -/
def auxRow (port : Port) (tag : BitVec 16) (converter value : Nat) (s : State) : State :=
  setRow port tag (0x6024 + 8 * converter) (leBytes 2 value) s

/-- Start of a converter's sequence at entry 0 (R437). -/
def execAuxStart (port : Port) (tag : BitVec 16) (converter : Nat) (s : State) : Outcome := edge (auxRow port tag converter 0x5354) s

/-- Stop of a converter (R437). -/
def execAuxStop (port : Port) (tag : BitVec 16) (converter : Nat) (s : State) : Outcome := edge (auxRow port tag converter 0x5350) s

/-- OVERRUN cleared (R437). -/
def execClearOverrun (port : Port) (tag : BitVec 16) (converter : Nat) (s : State) : Outcome :=
  edge (auxRow port tag converter 0x434C) s

/-- A write of the comparator settings (R424, R433). -/
def execComparatorSettingsWrite (port : Port) (tag : BitVec 16) (value : Bytes) (s : State) : Outcome :=
  edge (setRow port tag 0x6012 value) s

/-- A read of the queue member (R434). -/
def execAuxQueueRead (port : Port) (tag : BitVec 16) (s : State) : Outcome := edge (getRow port tag 0x6014) s

/-- A read of the queue head member (R434). -/
def execAuxQueueHeadRead (port : Port) (tag : BitVec 16) (s : State) : Outcome := edge (getRow port tag 0x6015) s

/-- A read of the unit status (R432). -/
def execAuxUnitStatusRead (port : Port) (tag : BitVec 16) (s : State) : Outcome := edge (getRow port tag 0x6010) s

/-- A write of the protection member (R447, R459). -/
def execProtectionWrite (port : Port) (tag : BitVec 16) (value : BitVec 32) (s : State) : Outcome :=
  edge (setRow port tag 0x8002 (leBytes 4 value.toNat)) s

/-- HALT set (R470, R489). -/
def execHaltSet (port : Port) (tag : BitVec 16) (s : State) : Outcome := edge (setRow port tag 0x7002 (leBytes 4 (2 ^ 31))) s

/-- HALT cleared (R470, R489). -/
def execHaltClear (port : Port) (tag : BitVec 16) (s : State) : Outcome := edge (setRow port tag 0x7002 (leBytes 4 0)) s

/-- A write of the calendar write member (R471, R490). -/
def execCalendarWrite (port : Port) (tag : BitVec 16) (value : Bytes) (s : State) : Outcome := edge (setRow port tag 0x7004 value) s

/-- A write of the compensation curve (R475, R493). -/
def execCurveWrite (port : Port) (tag : BitVec 16) (value : Bytes) (s : State) : Outcome := edge (setRow port tag 0x7007 value) s

/-- A read of the time status (R463, R487). -/
def execTimeStatusRead (port : Port) (tag : BitVec 16) (s : State) : Outcome := edge (getRow port tag 0x7000) s

/-- A write of the backup RAM write member (R484, R495). -/
def execBackupRamWrite (port : Port) (tag : BitVec 16) (value : Bytes) (s : State) : Outcome := edge (setRow port tag 0x700B value) s

/-- One latched code cleared (R497, R529). -/
def execAlarmClear (port : Port) (tag : BitVec 16) (code : Byte) (s : State) : Outcome :=
  edge (setRow port tag 0x9002 (leBytes 2 code.toNat)) s

/-- Every latched code cleared (R497, R529). -/
def execAlarmClearAll (port : Port) (tag : BitVec 16) (s : State) : Outcome := edge (setRow port tag 0x9002 (leBytes 2 0x100)) s

/-- A write of the limp release member (R547, R567). -/
def execLimpRelease (port : Port) (tag : BitVec 16) (value : BitVec 32) (s : State) : Outcome :=
  edge (setRow port tag 0xB004 (leBytes 4 value.toNat)) s

/-- A write of the patch write member (R560, R568). -/
def execPatchWrite (port : Port) (tag : BitVec 16) (value : Bytes) (s : State) : Outcome := edge (setRow port tag 0xB006 value) s

end Sys2Proof.Machine
end

