-- ==== Sys2Proof/Machine/Dispatch.lean ====
section
/-! DEFINITION. Dispatch.lean: exec, one arm for each command or event of the block. -/

namespace Sys2Proof.Machine
open Sys2Proof

def exec (i : Instr) (s : State) : Host.Outcome State Fault Refusal :=
  match i with
  | .uartByteReceive byte stopBit => Sys2Proof.Machine.execUartByteReceive byte stopBit s
  | .uartBreak => Sys2Proof.Machine.execUartBreak s
  | .uartTimeout => Sys2Proof.Machine.execUartTimeout s
  | .spiCsFall => Sys2Proof.Machine.execSpiCsFall s
  | .spiByteReceive byte => Sys2Proof.Machine.execSpiByteReceive byte s
  | .spiCsRise => Sys2Proof.Machine.execSpiCsRise s
  | .replySent port => Sys2Proof.Machine.execReplySent port s
  | .reservedOpcode opcode r => Sys2Proof.Machine.execReservedOpcode opcode r s
  | .getObj r => Sys2Proof.Machine.execGetObj r s
  | .setObj r => Sys2Proof.Machine.execSetObj r s
  | .bulkRead r => Sys2Proof.Machine.execBulkRead r s
  | .snapshot r => Sys2Proof.Machine.execSnapshot r s
  | .latchNow r => Sys2Proof.Machine.execLatchNow r s
  | .cfgBegin r => Sys2Proof.Machine.execCfgBegin r s
  | .cfgChunk r => Sys2Proof.Machine.execCfgChunk r s
  | .cfgCommit r => Sys2Proof.Machine.execCfgCommit r s
  | .cfgCommitComplete readBack => Sys2Proof.Machine.execCfgCommitComplete readBack s
  | .cfgSessionTimeout => Sys2Proof.Machine.execCfgSessionTimeout s
  | .timeGet r => Sys2Proof.Machine.execTimeGet r s
  | .timeSet r => Sys2Proof.Machine.execTimeSet r s
  | .archiveRead r => Sys2Proof.Machine.execArchiveRead r s
  | .archiveReadComplete tag => Sys2Proof.Machine.execArchiveReadComplete tag s
  | .archiveReadTimeout tag => Sys2Proof.Machine.execArchiveReadTimeout tag s
  | .pinSegment r => Sys2Proof.Machine.execPinSegment r s
  | .pinSegmentComplete => Sys2Proof.Machine.execPinSegmentComplete s
  | .auditReplay r => Sys2Proof.Machine.execAuditReplay r s
  | .auditReplayComplete => Sys2Proof.Machine.execAuditReplayComplete s
  | .zlinkSend r => Sys2Proof.Machine.execZlinkSend r s
  | .zlinkNodes r => Sys2Proof.Machine.execZlinkNodes r s
  | .balanceGet r => Sys2Proof.Machine.execBalanceGet r s
  | .auxSeqLoad r => Sys2Proof.Machine.execAuxSeqLoad r s
  | .auxUrgent r code => Sys2Proof.Machine.execAuxUrgent r code s
  | .logRead r => Sys2Proof.Machine.execLogRead r s
  | .logAppend r => Sys2Proof.Machine.execLogAppend r s
  | .selftest r => Sys2Proof.Machine.execSelftest r s
  | .selftestComplete tag outcome duration => Sys2Proof.Machine.execSelftestComplete tag outcome duration s
  | .abort r => Sys2Proof.Machine.execAbort r s
  | .startWarm r => Sys2Proof.Machine.execStartWarm r s
  | .startCold r => Sys2Proof.Machine.execStartCold r s
  | .interruptPendingWrite port tag value => Sys2Proof.Machine.execInterruptPendingWrite port tag value s
  | .hostLinkSettingsWrite port tag value => Sys2Proof.Machine.execHostLinkSettingsWrite port tag value s
  | .framingCountersRead port tag => Sys2Proof.Machine.execFramingCountersRead port tag s
  | .calibrationWrite port tag channel member value => Sys2Proof.Machine.execCalibrationWrite port tag channel member value s
  | .demandReset port tag service value => Sys2Proof.Machine.execDemandReset port tag service value s
  | .relayClose port tag output => Sys2Proof.Machine.execRelayClose port tag output s
  | .relayOpen port tag output => Sys2Proof.Machine.execRelayOpen port tag output s
  | .relayOn port tag output => Sys2Proof.Machine.execRelayOn port tag output s
  | .relayOff port tag output => Sys2Proof.Machine.execRelayOff port tag output s
  | .archiveFormat port tag => Sys2Proof.Machine.execArchiveFormat port tag s
  | .mountAgain port tag => Sys2Proof.Machine.execMountAgain port tag s
  | .formNetwork port tag => Sys2Proof.Machine.execFormNetwork port tag s
  | .auxStart port tag converter => Sys2Proof.Machine.execAuxStart port tag converter s
  | .auxStop port tag converter => Sys2Proof.Machine.execAuxStop port tag converter s
  | .clearOverrun port tag converter => Sys2Proof.Machine.execClearOverrun port tag converter s
  | .comparatorSettingsWrite port tag value => Sys2Proof.Machine.execComparatorSettingsWrite port tag value s
  | .auxQueueRead port tag => Sys2Proof.Machine.execAuxQueueRead port tag s
  | .auxQueueHeadRead port tag => Sys2Proof.Machine.execAuxQueueHeadRead port tag s
  | .auxUnitStatusRead port tag => Sys2Proof.Machine.execAuxUnitStatusRead port tag s
  | .protectionWrite port tag value => Sys2Proof.Machine.execProtectionWrite port tag value s
  | .haltSet port tag => Sys2Proof.Machine.execHaltSet port tag s
  | .haltClear port tag => Sys2Proof.Machine.execHaltClear port tag s
  | .calendarWrite port tag value => Sys2Proof.Machine.execCalendarWrite port tag value s
  | .curveWrite port tag value => Sys2Proof.Machine.execCurveWrite port tag value s
  | .timeStatusRead port tag => Sys2Proof.Machine.execTimeStatusRead port tag s
  | .backupRamWrite port tag value => Sys2Proof.Machine.execBackupRamWrite port tag value s
  | .alarmClear port tag code => Sys2Proof.Machine.execAlarmClear port tag code s
  | .alarmClearAll port tag => Sys2Proof.Machine.execAlarmClearAll port tag s
  | .limpRelease port tag value => Sys2Proof.Machine.execLimpRelease port tag value s
  | .patchWrite port tag value => Sys2Proof.Machine.execPatchWrite port tag value s
  | .resetNAssert torn => Sys2Proof.Machine.execResetNAssert torn s
  | .resetRelease e0 e1 test flash => Sys2Proof.Machine.execResetRelease e0 e1 test flash s
  | .hostPortOpen => Sys2Proof.Machine.execHostPortOpen s
  | .wardenReady => Sys2Proof.Machine.execWardenReady s
  | .inputsConnected => Sys2Proof.Machine.execInputsConnected s
  | .firstEnergySample => Sys2Proof.Machine.execFirstEnergySample s
  | .billingReady => Sys2Proof.Machine.execBillingReady s
  | .startTimeout => Sys2Proof.Machine.execStartTimeout s
  | .startRetry e0 e1 => Sys2Proof.Machine.execStartRetry e0 e1 s
  | .supplyFailWarning => Sys2Proof.Machine.execSupplyFailWarning s
  | .supplyRecovered => Sys2Proof.Machine.execSupplyRecovered s
  | .supplyCollapse torn => Sys2Proof.Machine.execSupplyCollapse torn s
  | .vplcLow => Sys2Proof.Machine.execVplcLow s
  | .vplcRecovered => Sys2Proof.Machine.execVplcRecovered s
  | .thermal => Sys2Proof.Machine.execThermal s
  | .thermalClear => Sys2Proof.Machine.execThermalClear s
  | .flitReceive lane flit => Sys2Proof.Machine.execFlitReceive lane flit s
  | .laneTestEnd lane passed => Sys2Proof.Machine.execLaneTestEnd lane passed s
  | .switchMessage flit strobe => Sys2Proof.Machine.execSwitchMessage flit strobe s
  | .switchAct strobe => Sys2Proof.Machine.execSwitchAct strobe s
  | .waderStepStart strobe => Sys2Proof.Machine.execWaderStepStart strobe s
  | .referenceMeasurementEnd quarter slot => Sys2Proof.Machine.execReferenceMeasurementEnd quarter slot s
  | .twinVerificationEnd quarter gain delay => Sys2Proof.Machine.execTwinVerificationEnd quarter gain delay s
  | .sustainedClip channel => Sys2Proof.Machine.execSustainedClip channel s
  | .sliceSelftestEnd quarter errors => Sys2Proof.Machine.execSliceSelftestEnd quarter errors s
  | .modulatorReset quarter slot => Sys2Proof.Machine.execModulatorReset quarter slot s
  | .rogowskiSeed channel => Sys2Proof.Machine.execRogowskiSeed channel s
  | .reckonedSample => Sys2Proof.Machine.execReckonedSample s
  | .zeroCrossing bus => Sys2Proof.Machine.execZeroCrossing bus s
  | .frequencyHold bus => Sys2Proof.Machine.execFrequencyHold bus s
  | .synthesisedBoundary bus => Sys2Proof.Machine.execSynthesisedBoundary bus s
  | .latchBoundary => Sys2Proof.Machine.execLatchBoundary s
  | .latchPublish => Sys2Proof.Machine.execLatchPublish s
  | .periodicSave => Sys2Proof.Machine.execPeriodicSave s
  | .pulseStart output instant => Sys2Proof.Machine.execPulseStart output instant s
  | .pulseEnd output instant => Sys2Proof.Machine.execPulseEnd output instant s
  | .coilPulseEnd pair => Sys2Proof.Machine.execCoilPulseEnd pair s
  | .guardTimeEnd pair => Sys2Proof.Machine.execGuardTimeEnd pair s
  | .demandBoundary => Sys2Proof.Machine.execDemandBoundary s
  | .demandPublish => Sys2Proof.Machine.execDemandPublish s
  | .analysisWindowComplete bus => Sys2Proof.Machine.execAnalysisWindowComplete bus s
  | .halfCycleRms channel => Sys2Proof.Machine.execHalfCycleRms channel s
  | .eventPinDue => Sys2Proof.Machine.execEventPinDue s
  | .pstIntervalEnd => Sys2Proof.Machine.execPstIntervalEnd s
  | .segmentBoundary => Sys2Proof.Machine.execSegmentBoundary s
  | .seepBlockComplete channel verified => Sys2Proof.Machine.execSeepBlockComplete channel verified s
  | .coderSelftestEnd passed => Sys2Proof.Machine.execCoderSelftestEnd passed s
  | .layoutRecordHourly => Sys2Proof.Machine.execLayoutRecordHourly s
  | .profileRecord => Sys2Proof.Machine.execProfileRecord s
  | .mereAdmit => Sys2Proof.Machine.execMereAdmit s
  | .flashOperationDone device result => Sys2Proof.Machine.execFlashOperationDone device result s
  | .flashTimeout device => Sys2Proof.Machine.execFlashTimeout device s
  | .pageFlushTimer tier => Sys2Proof.Machine.execPageFlushTimer tier s
  | .checkpointDue => Sys2Proof.Machine.execCheckpointDue s
  | .mountFromCheckpoint => Sys2Proof.Machine.execMountFromCheckpoint s
  | .scanPhase1End => Sys2Proof.Machine.execScanPhase1End s
  | .scanPhase2End => Sys2Proof.Machine.execScanPhase2End s
  | .formatEnd => Sys2Proof.Machine.execFormatEnd s
  | .heartbeatF engine intake => Sys2Proof.Machine.execHeartbeatF engine intake s
  | .verdict engine => Sys2Proof.Machine.execVerdict engine s
  | .pathFault engine path => Sys2Proof.Machine.execPathFault engine path s
  | .pathRestored engine path => Sys2Proof.Machine.execPathRestored engine path s
  | .claimPresent engine => Sys2Proof.Machine.execClaimPresent engine s
  | .claimSettleEnd engine => Sys2Proof.Machine.execClaimSettleEnd engine s
  | .sluiceCommand claim cmd => Sys2Proof.Machine.execSluiceCommand claim cmd s
  | .release claim deepest => Sys2Proof.Machine.execRelease claim deepest s
  | .blockDigest engine block flips => Sys2Proof.Machine.execBlockDigest engine block flips s
  | .digestLate => Sys2Proof.Machine.execDigestLate s
  | .arbitrationEnd passed flips => Sys2Proof.Machine.execArbitrationEnd passed flips s
  | .checkpoint => Sys2Proof.Machine.execCheckpoint s
  | .checkpointArrival intact => Sys2Proof.Machine.execCheckpointArrival intact s
  | .wardenTakesCharge => Sys2Proof.Machine.execWardenTakesCharge s
  | .engineSelftestEnd engine passed duration => Sys2Proof.Machine.execEngineSelftestEnd engine passed duration s
  | .resyncEnd => Sys2Proof.Machine.execResyncEnd s
  | .superframeStart => Sys2Proof.Machine.execSuperframeStart s
  | .slotStart => Sys2Proof.Machine.execSlotStart s
  | .zlTransmitEnd => Sys2Proof.Machine.execZlTransmitEnd s
  | .zlFrameReject f => Sys2Proof.Machine.execZlFrameReject f s
  | .joinReq f => Sys2Proof.Machine.execJoinReq f s
  | .status f => Sys2Proof.Machine.execStatus f s
  | .report f => Sys2Proof.Machine.execReport f s
  | .dataAck f => Sys2Proof.Machine.execDataAck f s
  | .roleAck f => Sys2Proof.Machine.execRoleAck f s
  | .zlFrameOverheard f => Sys2Proof.Machine.execZlFrameOverheard f s
  | .zlTransactionTimeout => Sys2Proof.Machine.execZlTransactionTimeout s
  | .formingEnd => Sys2Proof.Machine.execFormingEnd s
  | .balanceDeadline => Sys2Proof.Machine.execBalanceDeadline s
  | .auxTimerFire timer => Sys2Proof.Machine.execAuxTimerFire timer s
  | .auxTriggerAct converter => Sys2Proof.Machine.execAuxTriggerAct converter s
  | .auxResult converter codes => Sys2Proof.Machine.execAuxResult converter codes s
  | .auxDelayEnd converter => Sys2Proof.Machine.execAuxDelayEnd converter s
  | .alignmentMessage converter => Sys2Proof.Machine.execAlignmentMessage converter s
  | .storeCommitDone => Sys2Proof.Machine.execStoreCommitDone s
  | .scrubPage weak => Sys2Proof.Machine.execScrubPage weak s
  | .chronicleSecond => Sys2Proof.Machine.execChronicleSecond s
  | .chroniclePair => Sys2Proof.Machine.execChroniclePair s
  | .compensationMeasure temp vbat => Sys2Proof.Machine.execCompensationMeasure temp vbat s
  | .tickAdjust => Sys2Proof.Machine.execTickAdjust s
  | .periodicWake => Sys2Proof.Machine.execPeriodicWake s
  | .wakeHoldExpiry => Sys2Proof.Machine.execWakeHoldExpiry s
  | .shadowRelease => Sys2Proof.Machine.execShadowRelease s
  | .oscStopped => Sys2Proof.Machine.execOscStopped s
  | .oscRestart => Sys2Proof.Machine.execOscRestart s
  | .backupSwitchover => Sys2Proof.Machine.execBackupSwitchover s
  | .mainPowerUp => Sys2Proof.Machine.execMainPowerUp s
  | .backupPowerOn => Sys2Proof.Machine.execBackupPowerOn s
  | .tamperAssert pin samples => Sys2Proof.Machine.execTamperAssert pin samples s
  | .tamperRelease pin samples => Sys2Proof.Machine.execTamperRelease pin samples s
  | .bitternWindow count => Sys2Proof.Machine.execBitternWindow count s
  | .clkGlitch => Sys2Proof.Machine.execClkGlitch s
  | .watchOsc count => Sys2Proof.Machine.execWatchOsc count s
  | .stateInvalid machine inst code => Sys2Proof.Machine.execStateInvalid machine inst code s
  | .busCode address kind producer first again => Sys2Proof.Machine.execBusCode address kind producer first again s
  | .fabricTestEnd passed => Sys2Proof.Machine.execFabricTestEnd passed s
  | .eccDouble region address => Sys2Proof.Machine.execEccDouble region address s
  | .sramRowTestEnd region address passed => Sys2Proof.Machine.execSramRowTestEnd region address passed s
  | .wardenLockstep => Sys2Proof.Machine.execWardenLockstep s
  | .wardenTestEnd passed => Sys2Proof.Machine.execWardenTestEnd passed s
  | .evidenceCommit => Sys2Proof.Machine.execEvidenceCommit s
  | .alarmPinDue => Sys2Proof.Machine.execAlarmPinDue s
  | .heartbeatW engine => Sys2Proof.Machine.execHeartbeatW engine s
  | .tamperGlitch pin samples => Sys2Proof.Machine.execTamperGlitch pin samples s
  | .txLimit => Sys2Proof.Machine.execTxLimit s
  | .zlFrameDetected peak level noise => Sys2Proof.Machine.execZlFrameDetected peak level noise s
  | .relayBeaconHeard f => Sys2Proof.Machine.execRelayBeaconHeard f s

end Sys2Proof.Machine
end

