-- ==== Sys2Proof/Machine/Idle.lean ====
section
/-! DEFINITION. Idle.lean: what the block does while no command waits. -/

namespace Sys2Proof.Machine
open Sys2Proof

/-- One crystal cycle of the backup domain with no command waiting (R465): the prescaler counts up to
32,767 and waits there for CHRONICLE_SECOND, which is the overflow. It stands while HALT is set or the
crystal is stopped. Meanwhile the MOD domain counts 4,096,000 / 32,768 = 125 clocks (R26, R28), once the analogue die
has left reset. DESIGN CHOICE (log entry 2). -/
def idle (s : State) : State :=
  let s := if s.awake || s.start.phase = .failed then s.reachClock (s.sense.modCount.toNat + 125) else s
  if s.backup.halt || s.backup.crystalStopped || s.backup.tick == 32767#15 then s
  else { s with backup.tick := s.backup.tick + 1 }

end Sys2Proof.Machine
end

