-- ==== Sys2Proof/Safety.lean ====
section
/-! DEFINITION. Safety.lean: the words that claims are stated in: a safe step, a state between two edges, and a
request that the host link takes. -/

namespace Sys2Proof

/-- A step from `s` ends in a next state. -/
def SafeStep (s : Machine.State) : Prop := ∃ t, Machine.step s = .next t

/-- No entry of an edge is still unordered: what holds between any two steps (R498). -/
def Settled (s : Machine.State) : Prop := s.evidence.raised = []

/-- The request that reads the whole of object `i` (R63). -/
def readReq (port : Port) (tag : BitVec 16) (i : Nat) : Req := { port := port, tag := tag, params := Machine.leBytes 2 i }

/-- The request that writes `b` to the whole of object `i` (R63). -/
def writeReq (port : Port) (tag : BitVec 16) (i : Nat) (b : Bytes) : Req :=
  { port := port, tag := tag, params := Machine.leBytes 2 i ++ b }

/-- The check that the frame of a request carries (R43). -/
def checkOf (op : Nat) (r : Req) : Nat := Machine.crc16 (Machine.coveredBytes r.flags r.tag.toNat op r.params)

/-- The state in which a new request runs: the link is locked to its port (R39), the cached reply of its tag is
dropped (R56), and it stands among the outstanding commands (R55). -/
def begun (op : Nat) (r : Req) (s : Machine.State) : Machine.State :=
  let s := Machine.lockPort r.port s
  { s with
    link.cache := s.link.cache.filter (fun e => e.tag != r.tag.toNat)
    link.outstanding := s.link.outstanding ++
      [{ port := r.port, tag := r.tag.toNat, opcode := op, length := r.params.length + 3, check := checkOf op r
         work := .replied }] }

/-- A frame of a request is taken as a new command (R39, R40, R42, R55, R56, R58, R62 steps 1 to 3): the port is open
and not locked out, the frame is within its limits, its Flags are 0, its tag is free, in use by no outstanding command
and by no cached reply, the outstanding limit has room, and no takeover holds it back. -/
structure Fresh (op : Nat) (r : Req) (s : Machine.State) : Prop where
  listening : s.listening = true
  port : s.lockedOut r.port = false
  size : r.params.length ≤ 4096
  flags : r.flags = 0
  tag : r.tag ≠ 0xFFFF
  unused : s.command r.tag.toNat = none
  uncached : s.link.cache.any (fun e => e.tag == r.tag.toNat) = false
  room : s.overLimitFor op = false
  free : s.holdsBack op r.params = false

/-- A fresh request passes the checks of R62 steps 4 to 8 too, so that step 9 runs it. -/
structure Takes (op : Nat) (r : Req) (s : Machine.State) : Prop extends Fresh op r s where
  passes : Machine.judge op r.params (begun op r s) = none

/-- The final reply of a request, sent in the order of arrival (R45, R57). -/
def answered (op : Nat) (r : Req) (st : Machine.Status) (ps : Bytes) (s : Machine.State) : Machine.State :=
  s.send
    { port := r.port, kind := .final, alert := s.alertFlag, limp := s.limpFlag, tag := r.tag.toNat, opcode := op
      status := st, generation := s.link.generation, params := ps, ends := true }

/-- The ACCEPTED of a long command, sent in the order of arrival, and the work that goes on (R57). -/
def accepted (op : Nat) (r : Req) (w : Machine.Work) (s : Machine.State) : Machine.State :=
  ((s.setWork r.tag.toNat w).noteLong r.tag.toNat).send
    { port := r.port, kind := .accepted, alert := s.alertFlag, limp := s.limpFlag, tag := r.tag.toNat, opcode := op
      status := .accepted, generation := s.link.generation }

end Sys2Proof
end

