-- ==== Sys2Proof/WellFormed.lean ====
section
/-! DEFINITION. WellFormed.lean: which commands and events can occur at all: operands within the ranges the
spec gives the units, channels, pins and lists they name. The meanings are total on every term; a term that
is not well formed names a unit that does not exist and changes nothing of it. -/

namespace Sys2Proof

/-- The opcodes of R61 that are not reserved. -/
def opcodeKnown (op : Nat) : Bool :=
  (1 ≤ op && op ≤ 5) || (0x10 ≤ op && op ≤ 0x12) || (0x18 ≤ op && op ≤ 0x19) ||
  (0x20 ≤ op && op ≤ 0x22) || (0x28 ≤ op && op ≤ 0x2A) || (0x30 ≤ op && op ≤ 0x31) ||
  (0x38 ≤ op && op ≤ 0x39) || (0x40 ≤ op && op ≤ 0x43)

/-- A frame carries at most 4,096 parameter bytes (R42). -/
def Req.wf (r : Req) : Bool := decide (r.params.length ≤ 4096)

/-- Engines E0 and E1. -/
def engineWf (n : Nat) : Bool := decide (n < 2)

/-- Channel instances 0–55 (R17). -/
def channelWf (n : Nat) : Bool := decide (n < 56)

/-- A slice slot of a quarter, 14 being the wader (R84). -/
def slotWf (quarter slot : Nat) : Bool := decide (quarter < 4 ∧ slot < 15)

/-- Codes of a 12-bit converter, and a start within a sample period (R355). -/
def LineFrame.wf (f : LineFrame) : Bool :=
  decide (f.skew < 375) && f.samples.all (fun x => decide (-2048 ≤ x ∧ x < 2048))

/-- Commands and events that can occur. -/
def Instr.wf : Instr → Bool
  | .uartByteReceive _ _ | .uartBreak | .uartTimeout => true
  | .spiCsFall | .spiByteReceive _ | .spiCsRise | .replySent _ => true
  | .reservedOpcode opcode r => !opcodeKnown opcode.toNat && r.wf
  | .getObj r | .setObj r | .bulkRead r | .snapshot r | .latchNow r => r.wf
  | .cfgBegin r | .cfgChunk r | .cfgCommit r => r.wf
  | .cfgCommitComplete _ | .cfgSessionTimeout => true
  | .timeGet r | .timeSet r | .archiveRead r => r.wf
  | .archiveReadComplete _ | .archiveReadTimeout _ => true
  | .pinSegment r => r.wf
  | .pinSegmentComplete => true
  | .auditReplay r => r.wf
  | .auditReplayComplete => true
  | .zlinkSend r | .zlinkNodes r | .balanceGet r | .auxSeqLoad r | .auxUrgent r _ => r.wf
  | .logRead r | .logAppend r | .selftest r => r.wf
  | .selftestComplete _ _ _ => true
  | .abort r | .startWarm r | .startCold r => r.wf
  | .interruptPendingWrite _ _ _ | .hostLinkSettingsWrite _ _ _ | .framingCountersRead _ _ => true
  | .calibrationWrite _ _ channel member _ => channelWf channel && decide (3 ≤ member ∧ member ≤ 5)
  | .demandReset _ _ service _ => decide (service < 16)
  | .relayClose _ _ output | .relayOpen _ _ output => decide (output < 4)
  | .relayOn _ _ output | .relayOff _ _ output => decide (output < 4)
  | .archiveFormat _ _ | .mountAgain _ _ | .formNetwork _ _ => true
  | .auxStart _ _ converter | .auxStop _ _ converter | .clearOverrun _ _ converter => decide (converter < 2)
  | .comparatorSettingsWrite _ _ _ | .auxQueueRead _ _ | .auxQueueHeadRead _ _ => true
  | .auxUnitStatusRead _ _ | .protectionWrite _ _ _ | .haltSet _ _ | .haltClear _ _ => true
  | .calendarWrite _ _ _ | .curveWrite _ _ _ | .timeStatusRead _ _ | .backupRamWrite _ _ _ => true
  | .alarmClear _ _ _ | .alarmClearAll _ _ | .limpRelease _ _ _ | .patchWrite _ _ _ => true
  | .resetNAssert torn => decide (torn ≤ 64)
  | .resetRelease _ _ _ flash => decide (flash.length ≤ 4)
  | .hostPortOpen | .wardenReady => true
  | .inputsConnected => true
  | .firstEnergySample | .billingReady | .startTimeout | .startRetry _ _ => true
  | .supplyFailWarning | .supplyRecovered => true
  | .supplyCollapse torn => decide (torn ≤ 64)
  | .vplcLow | .vplcRecovered | .thermal | .thermalClear => true
  | .flitReceive lane _ | .laneTestEnd lane _ => decide (lane < 6)
  | .switchMessage _ _ | .switchAct _ | .waderStepStart _ => true
  | .referenceMeasurementEnd quarter slot => slotWf quarter slot
  | .twinVerificationEnd quarter _ _ => decide (quarter < 4)
  | .sustainedClip channel => channelWf channel
  | .sliceSelftestEnd quarter errors => decide (quarter < 4) && errors.length == 8
  | .modulatorReset quarter slot => slotWf quarter slot
  | .rogowskiSeed channel => decide (channel < 48)
  | .reckonedSample => true
  | .zeroCrossing bus | .frequencyHold bus | .synthesisedBoundary bus => decide (bus < 8)
  | .latchBoundary | .latchPublish | .periodicSave => true
  | .pulseStart output _ | .pulseEnd output _ => decide (output < 8)
  | .coilPulseEnd pair | .guardTimeEnd pair => decide (pair < 2)
  | .demandBoundary | .demandPublish => true
  | .analysisWindowComplete bus => decide (bus < 8)
  | .halfCycleRms channel => channelWf channel
  | .eventPinDue | .pstIntervalEnd | .segmentBoundary => true
  | .seepBlockComplete channel _ => channelWf channel
  | .coderSelftestEnd _ | .layoutRecordHourly | .profileRecord | .mereAdmit => true
  | .flashOperationDone device _ | .flashTimeout device => decide (device < 4)
  | .pageFlushTimer tier => decide (tier = 1 ∨ tier = 2)
  | .checkpointDue | .mountFromCheckpoint | .scanPhase1End | .scanPhase2End | .formatEnd => true
  | .heartbeatF engine _ | .verdict engine => engineWf engine
  | .pathFault engine path => engineWf engine && decide (path < 3)
  | .pathRestored engine path => engineWf engine && decide (path < 3)
  | .claimPresent engine | .claimSettleEnd engine => engineWf engine
  | .sluiceCommand _ _ | .release _ _ => true
  | .blockDigest engine _ _ => engineWf engine
  | .digestLate | .arbitrationEnd _ _ | .checkpoint | .checkpointArrival _ | .wardenTakesCharge => true
  | .engineSelftestEnd engine _ _ => engineWf engine
  | .resyncEnd | .superframeStart | .slotStart | .zlTransmitEnd => true
  | .zlFrameReject f | .joinReq f | .status f | .report f | .dataAck f | .roleAck f | .zlFrameOverheard f => f.wf
  | .zlTransactionTimeout | .formingEnd | .balanceDeadline => true
  | .auxTimerFire timer => decide (timer < 2)
  | .auxTriggerAct converter | .auxDelayEnd converter | .alignmentMessage converter => decide (converter < 2)
  | .auxResult converter codes => decide (converter < 2 ∧ codes.length ≤ 32)
  | .storeCommitDone | .scrubPage _ | .chronicleSecond | .chroniclePair => true
  | .compensationMeasure _ _ | .tickAdjust | .periodicWake | .wakeHoldExpiry | .shadowRelease => true
  | .oscStopped | .oscRestart | .backupSwitchover | .mainPowerUp | .backupPowerOn => true
  | .tamperAssert pin _ | .tamperRelease pin _ => decide (pin < 4)
  | .bitternWindow _ | .clkGlitch | .watchOsc _ => true
  | .stateInvalid machine inst _ => decide (machine < 5 ∧ inst < 2)
  | .busCode _ kind _ _ _ => decide (kind ≠ 3#2)
  | .fabricTestEnd _ => true
  | .eccDouble region _ | .sramRowTestEnd region _ _ => decide (region < 6)
  | .wardenLockstep | .wardenTestEnd _ | .evidenceCommit | .alarmPinDue => true
  | .heartbeatW engine => engineWf engine
  | .tamperGlitch pin _ => decide (pin < 4)
  | .txLimit => true
  | .zlFrameDetected _ _ _ => true
  | .relayBeaconHeard f => f.wf

end Sys2Proof
end

