-- ==== Sys2Proof/Certificates/Slice0/Obligations.lean ====
section
/-! DEFINITION. Obligations.lean: the statements. Each command's statement gives its next state, whole or by what it holds
and keeps, so that it is the command's completion, its effect and its frame at once. -/

open Sys2Proof Sys2Proof.Machine

/-! ### The power-line unit -/

/-- R365: a low supply or a hot driver cuts the frame in progress, which is counted, and holds the unit off, and the
unit listens again once neither stands. TX_LIMIT during a transmission sets its flag and is counted, and the frame goes
on. R347: once the last symbol has been sent the frame is counted, and the receiver listens again and stays deaf for one
symbol more. R355: a frame whose energy exceeds the noise floor by 6 dB is detected outside that time, and holds the gain
step that its preamble peak gives and its noise floor. R352, R356, R357, R359, R370, R374: a reception that began outside
that time and ends without a frame is counted by its cause with its blanked samples in four-tone mode, and one that fails
the network's check has no counter in either mode. In every other case nothing of the block changes. -/
def Obligations.TheLineUnitFollowsItsEvents : Prop :=
  (∀ s : State, Settled s →
    (exec .vplcLow s = .next { s with line := { s.line with
      vplcLow := true
      state := if s.line.usable then .heldOff else s.line.state
      sending := if s.line.usable then none else s.line.sending
      counters := if s.line.state = .transmitting then modAt s.line.counters 8 (· + 1) else s.line.counters } }) ∧
    (exec .thermal s = .next { s with line := { s.line with
      thermal := true
      state := if s.line.usable then .heldOff else s.line.state
      sending := if s.line.usable then none else s.line.sending
      counters := if s.line.state = .transmitting then modAt s.line.counters 8 (· + 1) else s.line.counters } }) ∧
    (exec .vplcRecovered s = .next { s with line := { s.line with
      vplcLow := false
      state := if s.line.state = .heldOff ∧ s.line.thermal = false then .listening else s.line.state } }) ∧
    (exec .thermalClear s = .next { s with line := { s.line with
      thermal := false
      state := if s.line.state = .heldOff ∧ s.line.vplcLow = false then .listening else s.line.state } })) ∧
  (∀ s : State, Settled s →
    (exec .txLimit s = .next (if s.line.state = .transmitting then
      { s with line := { s.line with txLimit := true, counters := modAt s.line.counters 7 (· + 1) } } else s)) ∧
    (s.line.sending = none ∨ s.line.state ≠ .transmitting → exec .zlTransmitEnd s = .next s) ∧
    (∀ f, s.line.sending = some f → s.line.state = .transmitting → exec .zlTransmitEnd s = .next
      (if f.start + s.view.symbolSpan f.tones.length ≤ s.sense.modCount.toNat * 256 then { s with line := { s.line with
          state := .listening, sending := none, counters := modAt s.line.counters 0 (· + 1)
          deafUntil := s.sense.modCount.toNat * 256 + s.view.symbolSpan 1 } } else s)) ∧
    (∀ peak level noise, exec (.zlFrameDetected peak level noise) s = .next
      (if s.line.state = .listening ∧ (s.sense.lanes.getD 4 {}).faulty = false ∧
          s.line.deafUntil ≤ s.sense.modCount.toNat * 256 ∧ noise + 60 < level then
        { s with line := { s.line with state := .receiving, gain := gainStep peak, noise := noise } } else s)) ∧
    (∀ f, (s.sense.lanes.getD 4 {}).faulty = true ∨ (s.line.state ≠ .listening ∧ s.line.state ≠ .receiving) ∨
        f.start < s.line.deafUntil → exec (.zlFrameReject f) s = .next s) ∧
    (∀ f, (s.sense.lanes.getD 4 {}).faulty = false → (s.line.state = .listening ∨ s.line.state = .receiving) →
        s.line.deafUntil ≤ f.start →
      (s.view.zlTwoTone = true → checkOk f.bytes = false →
        exec (.zlFrameReject f) s = .next { s with line := { s.line with state := .listening } }) ∧
      (s.view.zlTwoTone = false → ∀ counters,
        (match readTones s.belowSquelch (s.symbolsOf f) with
         | .codeword => counters = modAt s.line.counters 3 (· + 1)
         | .header => counters = modAt s.line.counters 4 (· + 1)
         | .truncated => counters = modAt s.line.counters 5 (· + 1)
         | .nothing => counters = s.line.counters
         | .frame p _ _ _ => checkOk (p.map (BitVec.ofNat 8)) = false ∧ counters = s.line.counters) →
        exec (.zlFrameReject f) s = .next { s with line := { s.line with
          state := .listening, counters := modAt counters 9 (· + BitVec.ofNat 32 (s.blankedSamples f)) } })))

/-! ### Time and the backup domain -/

/-- R465, R471, R448, R522: a chronicle second counts up at tick 0, the calendar takes the value that waits for it or
advances, and where the digital die is awake the causeway's counts of the second start again, the age of every
channel's coefficients rises to its limit, and a chronicle pair is captured (R29, R120). A halted or stopped count does
not move. Nothing but the backup domain, the lanes and ages of the array and the store's waiting writes changes. R476,
R485: once in every 32 s the correction of the temperature goes into the accumulator, whole ticks of it become
adjustments, and each adjustment moves the count by one tick within its second, at its place in the 32 s behind the
measurement and at least 128 ticks behind the last. The
supply is measured with it, and the first low one is an event (R481).
Where the spec leaves a reading open it is that of log entries 74, 75 and 213. -/
def Obligations.SecondsAndCompensation : Prop :=
  (∀ s : State, Settled s →
    (s.backup.halt = true ∨ s.backup.crystalStopped = true → exec .chronicleSecond s = .next s) ∧
    (s.backup.halt = false → s.backup.crystalStopped = false → ∃ t,
      exec .chronicleSecond s = .next t ∧
      t.backup = { s.backup with
        sec := s.backup.sec + 1, tick := 0, calendar := s.backup.calendarLoad.getD s.backup.calendar.advance
        calendarLoad := none, measureDue := (s.backup.sec + 1).toNat % 32 == 0
        pairOut := if s.awake then some
          { sec := (s.backup.sec + 1).toNat, strobe := s.sense.modCount.toNat / 256, clock := s.sense.modCount.toNat % 256 }
          else none } ∧
      t.sense = (if s.awake then { s.sense with
        lanes := s.sense.lanes.map (fun (l : Lane) => ({ l with failedNow := 0 } : Lane))
        channels := s.sense.channels.map (fun (c : Channel) =>
          ({ c with calAge := if c.calAge = 65535 then 65535 else c.calAge + 1 } : Channel)) } else s.sense) ∧
      t.store.cells = s.store.cells ∧
      { t with backup := s.backup, sense := s.sense, store := s.store } = s)) ∧
  (∀ s : State, Settled s →
    (∀ temp vbat, s.backup.crystalStopped = false → s.backup.measureDue = true →
      let a := s.backup.accumA + correction s.backup.curve temp * 262144
      let b : Backup := { s.backup with
        temp := temp, corrC := correction s.backup.curve temp, measureDue := false
        curve := s.backup.curveNext.or s.backup.curve, curveNext := none, accumA := a - a.tdiv 1000000 * 1000000
        adjust := s.backup.adjust + a.tdiv 1000000, adjustFrom := s.ticks
        adjustTotal := (s.backup.adjust + a.tdiv 1000000).natAbs, vbat := vbat, batLow := decide (vbat < 2600), measured := true }
      exec (.compensationMeasure temp vbat) s = .next
        (if vbat < 2600 ∧ (s.backup.measured = false ∨ s.backup.batLow = false) then
          (backupEvent 3 (min 255 ((vbat - 2000) / 10)) (s.backupClass 5) { s with backup := b }).endEdge
         else { s with backup := b })) ∧
    (s.backup.halt = false → s.backup.crystalStopped = false → s.backup.adjustDue ≤ s.ticks →
      exec .tickAdjust s = .next
      (if 0 < s.backup.adjust ∧ s.backup.tick ≠ 32767 then
        { s with backup := { s.backup with tick := s.backup.tick + 1, adjust := s.backup.adjust - 1, adjusted := s.ticks } }
       else if s.backup.adjust < 0 ∧ s.backup.tick ≠ 0 then
        { s with backup := { s.backup with tick := s.backup.tick - 1, adjust := s.backup.adjust + 1, adjusted := s.ticks } }
       else s)) ∧
    (s.ticks < s.backup.adjusted + 128 ∨
        s.ticks < s.backup.adjustFrom +
          (s.backup.adjustTotal - s.backup.adjust.natAbs) * 1048576 / max 1 s.backup.adjustTotal →
      exec .tickAdjust s = .next s) ∧
    (∀ temp vbat, s.backup.crystalStopped = true ∨ s.backup.measureDue = false →
      exec (.compensationMeasure temp vbat) s = .next s) ∧
    (s.backup.crystalStopped = true → exec .tickAdjust s = .next s))

/-- R468: the six rules by which the calendar advances on a chronicle second, on the raw fields. -/
def Obligations.CalendarAdvances : Prop :=
  let up := fun (x : Nat) => if x % 16 < 9 then x + 1 else x / 16 * 16 + 16
  ∀ s : State, Settled s → s.backup.halt = false → s.backup.crystalStopped = false → s.backup.calendarLoad = none →
    ∃ t, exec .chronicleSecond s = .next t ∧
      let c := s.backup.calendar
      let d := t.backup.calendar
      let minute := 0x59 ≤ c.seconds.toNat
      let hour := minute ∧ 0x59 ≤ c.minutes.toNat
      let midnight := hour ∧ 0x23 ≤ c.hours.toNat
      let month := midnight ∧ monthCode c.month c.year ≤ c.day.toNat
      let year := month ∧ 0x12 ≤ c.month.toNat
      (d.seconds = if minute then 0 else BitVec.ofNat 7 (up c.seconds.toNat)) ∧
      (d.minutes = if hour then 0 else if minute then BitVec.ofNat 7 (up c.minutes.toNat) else c.minutes) ∧
      (d.hours = if midnight then 0 else if hour then BitVec.ofNat 6 (up c.hours.toNat) else c.hours) ∧
      (d.weekday = if midnight then (if 6 ≤ c.weekday.toNat then 0 else c.weekday + 1) else c.weekday) ∧
      (d.day = if month then 1 else if midnight then BitVec.ofNat 6 (up c.day.toNat) else c.day) ∧
      (d.month = if year then 1 else if month then BitVec.ofNat 5 (up c.month.toNat) else c.month) ∧
      (d.year = if year then (if 0x99 ≤ c.year.toNat then 0 else BitVec.ofNat 8 (up c.year.toNat)) else c.year)


/-- R29, R30: the pair captured at a second joins the last two when the service lane brings it, and the time steps older
than both go; where none was captured, or the lane is retired, nothing changes. R474, R477, R478: at a whole multiple of
its period the periodic wake asserts WAKE on the battery, where the settings ask for it, and the TIME interrupt on main
power; at other times it does nothing. WAKE is released once its hold time, if one is set, has passed; and the shadow
copy is released. -/
def Obligations.PairsWakeAndShadow : Prop :=
  ∀ s : State, Settled s →
    (∀ p, s.awake = true → (s.sense.lanes.getD 4 {}).faulty = false → s.backup.pairOut = some p →
      let oldest := match s.time.pairs with | [] => p.strobe | q :: _ => min p.strobe q.strobe
      exec .chroniclePair s = .next { s with
        backup := { s.backup with pairOut := none }
        time := { s.time with
          pairs := p :: s.time.pairs.take 1
          steps := s.time.steps.filter (fun x => decide (oldest ≤ x.strobe)) } }) ∧
    (s.awake = false ∨ (s.sense.lanes.getD 4 {}).faulty = true ∨ s.backup.pairOut = none →
      exec .chroniclePair s = .next s) ∧
    (s.backup.wakePeriod = 0 ∨ s.ticks / 128 % s.backup.wakePeriod ≠ 0 → exec .periodicWake s = .next s) ∧
    (s.backup.wakePeriod ≠ 0 → s.ticks / 128 % s.backup.wakePeriod = 0 →
      (s.backup.onBattery = true → exec .periodicWake s = .next { s with
        backup := { s.backup with
          wake := s.backup.wake || s.backup.wakeOnTick
          wakeSince := if s.backup.wakeOnTick then s.ticks else s.backup.wakeSince } }) ∧
      (s.backup.onBattery = false → s.awake = true ∨ s.start.phase = .failed → exec .periodicWake s = .next { s with
        link := { s.link with irqPending := s.link.irqPending ||| 0x100#12 } })) ∧
    (exec .wakeHoldExpiry s = .next { s with
      backup := { s.backup with wake := s.backup.wake &&
        (decide (s.backup.wakeHold = 0) || decide (s.ticks < s.backup.wakeSince + s.backup.wakeHold * 32768)) } }) ∧
    (exec .shadowRelease s = .next { s with backup := { s.backup with shadow := none } })

/-- R479, R512, R513: the crystal stops and restarts, and a pin asserts or releases once DEBOUNCE samples in a row agree,
or glitches where fewer did before the last came back. Each but a glitch is an event of the backup domain; a pin whose
ENABLE is 0, and any pin while the crystal stands, does nothing. R481, R482: an event of the backup domain goes to the
evidence log once the buffer has been transferred; before that it goes to the buffer, which keeps its first eight
entries and counts the others up to 255, and on the battery an alarm of class FLAG or above drives WAKE low, its hold
time begun anew by any event. Where the spec leaves a reading open it is that of log entry 77. -/
def Obligations.CrystalAndTamperEvents : Prop :=
  (∀ s : State, Settled s →
    (s.backup.oscStopped = false → s.awake = true ∨ s.start.phase = .failed → exec .oscStopped s = .next
      ({ s with
        backup := { s.backup with crystalStopped := true, oscStopped := true }
        link := { s.link with irqPending := s.link.irqPending ||| 0x100#12 } }.raise 0x05 []).endEdge) ∧
    (s.backup.oscStopped = true → exec .oscStopped s = .next { s with
      backup := { s.backup with crystalStopped := true } }) ∧
    (s.backup.crystalStopped = true → exec .oscRestart s = .next
      (backupEvent 4 0 (s.backupClass 6) { s with backup := { s.backup with crystalStopped := false } }).endEdge) ∧
    (s.backup.crystalStopped = false → exec .oscRestart s = .next s) ∧
    (∀ n x past, s.backup.crystalStopped = false →
      let p := s.tamper.getD n {}
      let run := fun (high : Bool) (l : List Bool) => (l.takeWhile (fun y => y == high)).length
      let on := p.activeHigh
      p.enable = true →
      (p.asserted = false → exec (.tamperAssert n (x :: past)) s = .next
        (if p.debounce ≤ run on (x :: past) then
          (backupEvent 1 n (s.backupClass n) { s with tamper := modAt s.tamper n (fun p =>
            ({ p with asserted := true, assertions := p.assertions + 1 } : TamperPin)) }).endEdge else s)) ∧
      (p.asserted = true → exec (.tamperRelease n (x :: past)) s = .next
        (if p.debounce ≤ run (!on) (x :: past) then
          (backupEvent 2 n (s.backupClass 4) { s with tamper := modAt s.tamper n (fun p =>
            ({ p with asserted := false } : TamperPin)) }).endEdge else s)) ∧
      (p.asserted = true → exec (.tamperAssert n (x :: past)) s = .next s) ∧
      (p.asserted = false → exec (.tamperRelease n (x :: past)) s = .next s) ∧
      (s.backup.onBattery = false → p.asserted = false → exec (.tamperGlitch n (x :: past)) s = .next
        (if x ≠ on ∧ 1 ≤ run on past ∧ run on past < p.debounce then
          { s with tamper := modAt s.tamper n (fun p => { p with glitches := p.glitches + 1 }) } else s)) ∧
      (s.backup.onBattery = false → p.asserted = true → exec (.tamperGlitch n (x :: past)) s = .next
        (if x = on ∧ 1 ≤ run (!on) past ∧ run (!on) past < p.debounce then
          { s with tamper := modAt s.tamper n (fun p => { p with glitches := p.glitches + 1 }) } else s)) ∧
      (s.backup.onBattery = true → exec (.tamperGlitch n (x :: past)) s = .next s)) ∧
    (∀ n samples, (s.tamper.getD n {}).enable = false ∨ s.backup.crystalStopped = true →
      exec (.tamperAssert n samples) s = .next s ∧ exec (.tamperRelease n samples) s = .next s ∧
      exec (.tamperGlitch n samples) s = .next s)) ∧
  (∀ (code data cls : Nat) (s : State),
    (s.logsDirect = true → backupEvent code data cls s = s.raise code (if code = 4 then [] else [BitVec.ofNat 8 data])) ∧
    (s.logsDirect = false →
      let t := backupEvent code data cls s
      (s.backup.buffer.length < 8 →
        t.backup.buffer.length = s.backup.buffer.length + 1 ∧ t.backup.overflow = s.backup.overflow ∧
        ∃ e ∈ t.backup.buffer, e.sec = s.sec ∧ e.tick = s.backup.tick.toNat ∧ e.code = code ∧ e.cls = cls ∧
          e.data = data) ∧
      (8 ≤ s.backup.buffer.length →
        t.backup.buffer = s.backup.buffer ∧ t.backup.overflow.toNat = min 255 (s.backup.overflow.toNat + 1)) ∧
      t.backup.wake = (s.backup.wake || (s.backup.onBattery && s.backup.wakeOnAlarm && decide (1 ≤ cls))) ∧
      t.backup.wakeSince = (if s.backup.onBattery = true ∧ (s.backup.wake = true ∨ (s.backup.wakeOnAlarm = true ∧ 1 ≤ cls)) then
        s.ticks else s.backup.wakeSince) ∧
      { t with backup := s.backup } = s))


/-! ### Reset, start and supplies -/

/-- R439, R440, R534, R550, R576, R578, R580, R587: what enters reset. The backup domain, the tamper pins, the flash and the
array of the store outlive it; the link, the array's and the registers' state, the sluice and the power-line network start
again, and the conditions of the line driver stay. A recovered supply begins a warm start with CAUSE 7 and lets the store
finish; RESET_N and a collapse break the page in progress, but one that was in the buffer at the supply-fail warning
stands whole after a collapse. A reset while one stands keeps the start that waits; without
main power, or with no warning to recover from, nothing follows. Where the spec leaves a reading open it is that of log entry 83. -/
def Obligations.ResetKeepsWhatOutlivesIt : Prop :=
  ∀ (s : State) (torn : Nat),
    let gone := fun (t : State) =>
      t.start.phase = .inReset ∧ t.backup = s.backup ∧ t.tamper = s.tamper ∧ t.archive.flash = s.archive.flash ∧
      t.store.waiting = [] ∧ t.link = {} ∧ t.sense = {} ∧ t.billing = {} ∧ t.xa = {} ∧ t.recording = {} ∧
      t.engines = {} ∧ t.sluice = {} ∧ t.net = {} ∧ t.aux = {} ∧ t.time = {} ∧ t.evidence.queue = [] ∧
      t.line = { vplcLow := s.line.vplcLow, thermal := s.line.thermal } ∧
      t.pending = s.pending
    (s.start.phase = .starting ∨ s.start.phase = .running ∨ s.start.phase = .failed → ∃ t,
      exec (.resetNAssert torn) s = .next t ∧ gone t ∧ t.power.resetN = false ∧
      t.store.cells = (s.store.tear torn).cells ∧ t.start.next = some (.warm, 1)) ∧
    (s.start.phase = .inReset → ∃ t, exec (.resetNAssert torn) s = .next t ∧ gone t ∧ t.power.resetN = false ∧
      t.store.cells = (s.store.tear torn).cells ∧ t.start.next = s.start.next) ∧
    (s.start.phase ≠ .unpowered → ∃ t, exec (.supplyCollapse torn) s = .next t ∧ gone t ∧
      t.store.cells = (s.store.tear (if s.power.warning ∧ s.store.firm then 64 else torn)).cells ∧
      t.start.next = none ∧ t.power = s.power) ∧
    (s.power.warning = true → ∃ t, exec .supplyRecovered s = .next t ∧ gone t ∧ t.power.warning = false ∧
      t.store.cells = (Store.drain s.store.waiting.length s.store).cells ∧ t.start.next = some (.warm, 7)) ∧
    (Settled s → s.start.phase = .unpowered →
      exec (.resetNAssert torn) s = .next { s with power := { s.power with resetN := false } } ∧
      exec (.supplyCollapse torn) s = .next s) ∧
    (Settled s → s.power.warning = false → exec .supplyRecovered s = .next s)

/-- R462–R464, R473, R480: the change to the backup cell captures the switch-over time, where none stands, and clears
HALT while the count runs on; main power back moves the current switch-over time to the previous one, arms a new capture,
and changes nothing else but WAKE, HALT and the warning; a domain that lost both supplies starts from its reset state.
R118, R451, R550, R586: the supply-fail warning releases every pulse output, abandons the steps of the rotation, cuts
the line and closes the store once the log has nothing left to commit; a second warning and one in reset do nothing, and
one while a retry waits is only noted. The page that stands in the buffer then is to complete (R440). -/
def Obligations.SuppliesComeAndGo : Prop :=
  (∀ s : State, Settled s →
    (s.start.phase ≠ .unpowered → s.backup.onBattery = false → ∃ t, exec .backupSwitchover s = .next t ∧
      t.start.phase = .unpowered ∧
      t.backup = { s.backup with
        onBattery := true, halt := false
        current := if s.backup.current.valid then s.backup.current
          else { valid := true, sec := s.sec, tick := s.backup.tick.toNat } } ∧
      t.tamper = s.tamper ∧ t.archive.flash = s.archive.flash ∧ t.start.next = none ∧ t.link = {}) ∧
    (s.start.phase = .unpowered →
      exec .backupSwitchover s = .next s ∧
      exec .mainPowerUp s = .next { s with
        start := { s.start with phase := .inReset }
        power := { s.power with warning := false }
        backup := { s.backup with
          wake := false, halt := false, onBattery := false, previous := s.backup.current, current := {} } }) ∧
    (∃ t, exec .backupPowerOn s = .next t ∧ t.backup = {} ∧ t.tamper = List.replicate 4 {} ∧
      t.start.phase = .unpowered ∧ t.archive.flash = s.archive.flash)) ∧
  (∀ s : State, Settled s →
    (s.power.warning = false → s.start.phase = .starting ∨ s.start.phase = .running → ∃ t,
      exec .supplyFailWarning s = .next t ∧ t.power = { s.power with warning := true } ∧
      (∀ o, (t.sluice.pulses.getD o {}).pulse = false) ∧
      t.line.state = (if s.line.state = .off then .off else .cut) ∧ t.line.sending = none ∧
      (∀ q, (t.sense.quarters.getD q {}).rot = .idle ∧ (t.sense.quarters.getD q {}).fade = none) ∧
      t.store.closed = t.evidence.queue.isEmpty ∧ t.backup = s.backup ∧ t.tamper = s.tamper ∧ t.pending = s.pending) ∧
    (s.power.warning = true ∨ s.start.phase = .inReset ∨ s.start.phase = .unpowered →
      exec .supplyFailWarning s = .next s) ∧
    (s.power.warning = false → s.start.phase = .failed →
      exec .supplyFailWarning s = .next { s with
        power := { s.power with warning := true }, store := { s.store with firm := !s.store.waiting.isEmpty } }))


/-- R40, R515, R535–R537, R543, R544, R548, R572: the release of reset begins a start unless the bittern holds the die or
TEST is high, cold where the store holds no device state; the host port opens with it; five seconds from the release
without billing ready fail it, and the retry is due after two seconds, or after sixty in a limp start of level 2; and it
begins then, with CAUSE 6, unless the supply warns. Before their times the two do nothing. -/
def Obligations.StartsBeginAndFail : Prop :=
  ∀ s : State, Settled s →
    (∀ e0 e1 flash, s.start.phase = .inReset → s.integrity.holding = none → ∃ t,
      exec (.resetRelease e0 e1 false flash) s = .next t ∧ t.start.phase = .starting ∧
      t.start.releaseSec = s.sec ∧ t.start.releaseTick = s.backup.tick.toNat ∧
      t.archive.devices = probeDevices flash ∧ t.power.resetN = true ∧ t.start.next = none ∧ t.backup = s.backup ∧
      (s.start.next = none → s.start.unrecorded = false → t.start.cause = 0 ∧
        (newestSlot s.store.seen Ring.device = none → t.start.kind = if s.start.limp then .limp else .cold))) ∧
    (∀ e0 e1 test flash, s.start.phase ≠ .inReset ∨ s.integrity.holding ≠ none ∨ test = true →
      exec (.resetRelease e0 e1 test flash) s = .next s) ∧
    (exec .hostPortOpen s = .next (if s.start.phase = .starting ∨ s.start.phase = .running ∨ s.start.phase = .failed then
      { s with link := { s.link with portOpen := true } } else s)) ∧
    (s.start.phase ≠ .starting ∨ s.micros < 5000000 → exec .startTimeout s = .next s) ∧
    (s.start.phase = .starting → 5000000 ≤ s.micros → ∃ t, exec .startTimeout s = .next t ∧ t.start.phase = .failed ∧
      t.start.retryAt = s.micros + (if s.start.kind = .limp ∧ s.start.limpLevel = 2 then 60000000 else 2000000) ∧
      t.start.failures = ({ sec := s.sec, cause := 1, kind := s.start.kind } :: s.start.failures).take 3 ∧
      t.link = s.link ∧ t.backup = s.backup ∧ t.billing = {} ∧ t.sluice = {} ∧ t.net = {} ∧ t.aux = {}) ∧
    (∀ e0 e1, s.start.phase ≠ .failed ∨ s.power.warning = true ∨ s.micros < s.start.retryAt →
      exec (.startRetry e0 e1) s = .next s) ∧
    (∀ e0 e1, s.start.phase = .failed → s.power.warning = false → s.start.retryAt ≤ s.micros → ∃ t, exec (.startRetry e0 e1) s = .next t ∧
      t.start.phase = .starting ∧ t.start.cause = 6 ∧ (t.start.kind = s.start.kind ∨ t.start.kind = .limp) ∧
      t.backup = s.backup ∧ t.link = {})

/-- R28, R112, R145, R483, R538, R540, R565: the steps of a start, each at its place and once. The Warden's ready state counts
the start and copies the backup buffer; the inputs are connected once every slice that a cold start measures has its
four parts (R112), and then fix the first strobe 16 ms behind the strobe count and put
every bus at its nominal frequency; the first energy sample and billing ready are recorded with their times from the
release of reset, and the latter sets the START interrupt.
Where the spec leaves a reading open it is that of log entries 88 and 183. -/
def Obligations.StartProceeds : Prop :=
  ∀ s : State, Settled s →
    (s.start.phase ≠ .starting ∨ s.start.wardenReady = true → exec .wardenReady s = .next s) ∧
    (s.start.phase = .starting → s.start.wardenReady = false → ∃ t, exec .wardenReady s = .next t ∧
      t.start.wardenReady = true ∧ t.start.startCount = s.start.startCount + 1 ∧
      t.time.transferred = s.backup.buffer ∧ (t.start.phase = .starting ∨ t.start.phase = .failed)) ∧
    (s.start.phase ≠ .starting ∨ s.start.wardenReady = false ∨ s.sense.connected = true ∨ s.power.warning = true ∨
        s.sense.measured = false → exec .inputsConnected s = .next s) ∧
    (s.start.phase = .starting → s.start.wardenReady = true → s.sense.connected = false → s.power.warning = false →
      s.sense.measured = true → ∃ t, exec .inputsConnected s = .next t ∧ t.sense.connected = true ∧
      t.sense.first = (s.sense.modCount.toNat + 255) / 256 + connectSettle ∧ t.sense.nextStrobe = t.sense.first ∧
      ∀ b, b < 8 → (t.billing.buses.getD b {}).state = .nominal) ∧
    (s.start.phase ≠ .starting ∨ s.start.energyBegun = true ∨ s.sense.connected = false ∨ s.billing.stamp < s.firstRaw →
      exec .firstEnergySample s = .next s) ∧
    (s.start.phase = .starting → s.start.energyBegun = false → s.sense.connected = true → s.firstRaw ≤ s.billing.stamp →
      let g := energyGap (s.timeOf s.firstRaw) s
      exec .firstEnergySample s = .next ({ g with start := { g.start with
        energyBegun := true, firstEnergy := min s.micros 0xFFFFFFFE, mainLost := false } }).endEdge) ∧
    (s.start.phase ≠ .starting ∨ s.start.energyBegun = false ∨ s.start.leadBoundary = none →
      exec .billingReady s = .next s) ∧
    (∀ b, s.start.phase = .starting → s.start.energyBegun = true → s.start.leadBoundary = some b →
      (s.billing.stamp + 1 < b → exec .billingReady s = .next s) ∧
      (b ≤ s.billing.stamp + 1 → ∃ t, exec .billingReady s = .next t ∧ t.start.phase = .running ∧ t.start.billing = true ∧
        t.start.billingReady = min s.micros 0xFFFFFFFE ∧ t.link.irqPending.getLsbD 9 = true))

/-! ### The host link -/

/-- R62: every opcode, taken as a new command, runs in the state in which it is outstanding, and its answer is sent
in the order of arrival: where a takeover holds an earlier read it is kept behind that, as shown on GET_OBJ (R57, R58);
a request that a check of steps 4 to 8 turns away is answered with that check's status and changes nothing else. A
reserved opcode is answered BAD_OPCODE.
Where the spec leaves a reading open it is that of log entry 12. -/
def Obligations.RequestsRunInOrder : Prop :=
  ∀ (s : State) (r : Req), Settled s →
    let runs := fun (op : Nat) (c : Instr) (code : Option (BitVec 12)) =>
      (Takes op r s → exec c s = .next
        (answerRequest r.port r.tag.toNat op (execute op r.tag.toNat r.params code (begun op r s))).endEdge) ∧
      (∀ st ps, Fresh op r s → judge op r.params (begun op r s) = some (.done st ps) →
        exec c s = .next (answered op r st ps (begun op r s)))
    runs 0x01 (.getObj r) none ∧ runs 0x02 (.setObj r) none ∧ runs 0x03 (.bulkRead r) none ∧ runs 0x04 (.snapshot r) none ∧
    runs 0x05 (.latchNow r) none ∧ runs 0x10 (.cfgBegin r) none ∧ runs 0x11 (.cfgChunk r) none ∧ runs 0x12 (.cfgCommit r) none ∧
    runs 0x18 (.timeGet r) none ∧ runs 0x19 (.timeSet r) none ∧ runs 0x20 (.archiveRead r) none ∧ runs 0x21 (.pinSegment r) none ∧
    runs 0x22 (.auditReplay r) none ∧ runs 0x28 (.zlinkSend r) none ∧ runs 0x29 (.zlinkNodes r) none ∧
    runs 0x2A (.balanceGet r) none ∧ runs 0x30 (.auxSeqLoad r) none ∧ (∀ code, runs 0x31 (.auxUrgent r code) code) ∧
    runs 0x38 (.logRead r) none ∧ runs 0x39 (.logAppend r) none ∧ runs 0x40 (.selftest r) none ∧ runs 0x41 (.abort r) none ∧
    runs 0x42 (.startWarm r) none ∧ runs 0x43 (.startCold r) none ∧
    (Takes 0x01 r s → let b := begun 0x01 r s
      ∃ t x, exec (.getObj r) s = .next t ∧ x.tag = r.tag.toNat ∧ x.ends = true ∧
        ((b.spec (getU r.params 0 2)).access ≠ 0 → x.params = b.value (getU r.params 0 2)) ∧
        t.link.replies = (if b.behindHeld r.tag.toNat then b.link.replies else b.link.replies ++ [x]) ∧
        t.link.behind = (if b.behindHeld r.tag.toNat then b.link.behind ++ [x] else b.link.behind)) ∧
    (∀ op : Byte, Machine.opcodeKnown op.toNat = false → Fresh op.toNat r s →
      exec (.reservedOpcode op r) s = .next (answered op.toNat r .badOpcode [] (begun op.toNat r s)))

/-- R39, R40, R42, R54–R56, R58, R62, R79: what happens to a whole request, shown on LATCH_NOW, that does not become a new
command: nothing while the port is closed; its bytes are counted on the locked-out port; too long, it is a length error; with Flags or
tag out of range it is answered BAD_PARAM; a duplicate of an outstanding long command brings its ACCEPTED again, and of
an ended one its cached reply; past the outstanding limit it is answered BUSY. A read of billing values in a takeover of
split mode, shown on GET_OBJ, waits outstanding. No error reply becomes a seventeenth in the queue.
Where the spec leaves a reading open it is that of log entries 12 and 18. -/
def Obligations.RequestsNotTaken : Prop :=
  ∀ (s : State) (r : Req), Settled s →
    let l := lockPort r.port s
    let err := fun (st : Status) =>
      if l.link.replies.countP (fun x => x.errorQueue) < 16 then
        l.pushReply { port := r.port, kind := .final, alert := l.alertFlag, limp := l.limpFlag, tag := r.tag.toNat, opcode := 0x05
                      status := st, generation := l.link.generation, errorQueue := true }
      else countFraming (fun f => { f with noReplyDiscard := f.noReplyDiscard + 1 }) l
    (s.listening = false → exec (.latchNow r) s = .next s) ∧
    (s.listening = true → s.lockedOut r.port = true → ∃ n, 9 + r.params.length ≤ n ∧
      exec (.latchNow r) s = .next
        (countFraming (fun f => { f with otherPort := f.otherPort + BitVec.ofNat 16 n }) s)) ∧
    (s.listening = true → s.lockedOut r.port = false →
      (4096 < r.params.length → exec (.latchNow r) s = .next
        (countFraming (fun f => { f with lengthErr := f.lengthErr + 1 }) s)) ∧
      (r.params.length ≤ 4096 →
        (r.tag = 0xFFFF ∨ r.flags ≠ 0 → exec (.latchNow r) s = .next (err .badParam)) ∧
        (r.tag ≠ 0xFFFF → r.flags = 0 →
          (∀ c, l.command r.tag.toNat = some c →
            (c.opcode = 0x05 → c.length = r.params.length + 3 → c.check = checkOf 0x05 r →
              exec (.latchNow r) s = .next
                (match c.accepted with | some a => l.pushReply { a with retry := true } | none => l)) ∧
            (c.opcode ≠ 0x05 → exec (.latchNow r) s = .next (err .badParam))) ∧
          (l.command r.tag.toNat = none →
            (∀ e, l.link.cache.find? (fun e => e.tag == r.tag.toNat && e.opcode == 0x05 && e.length == r.params.length + 3 &&
                e.check == checkOf 0x05 r) = some e →
              exec (.latchNow r) s = .next (l.pushReply { e.reply with retry := true })) ∧
            (l.link.cache.find? (fun e => e.tag == r.tag.toNat && e.opcode == 0x05 && e.length == r.params.length + 3 &&
                e.check == checkOf 0x05 r) = none →
              (l.overLimitFor 0x05 = true → exec (.latchNow r) s = .next (err .busy))) ∧
            (l.link.cache.any (fun e => e.tag == r.tag.toNat) = false → l.overLimitFor 0x01 = false →
              s.engines.split = true → s.engines.takeover.isSome = true → s.billingRead 0x01 r.params = true →
              exec (.getObj r) s = .next { l with link := { l.link with
                outstanding := l.link.outstanding ++ [{
                  port := r.port, tag := r.tag.toNat, opcode := 0x01, length := r.params.length + 3
                  check := checkOf 0x01 r, work := .heldRead r 0x01 none }] } })))))

/-- R47, R48, R54: bytes on the UART outside a whole frame. A Sync byte opens a frame, an escape joins the byte that
follows it, and a missing stop bit, a break, a gap of more than 5 ms or a Sync inside a frame discards the frame and
counts it; bytes between frames are counted as hunted. R50–R54: the SPI port. The first byte out of a chip-select
period is the link status byte, then the oldest reply of the port or fill; bytes in build a frame, zeros between frames are
fill; and the end of the period discards a frame in progress and counts it.
Where the spec leaves a reading open it is that of log entry 133. -/
def Obligations.BytesBecomeFrames : Prop :=
  (∀ s : State, Settled s → s.listening = true → s.lockedOut .uart = false →
    let rx := fun (x : UartRx) (t : State) => ({ t with link := { t.link with uartRx := x } } : State)
    let bad := countFraming (fun f => { f with uartByteErr := f.uartByteErr + 1 }) (rx {} s)
    let hunt := countFraming (fun f => { f with huntBytes := f.huntBytes + 1 }) s
    (s.link.uartRx.frame = none →
      (∀ b, exec (.uartByteReceive b false) s = .next hunt) ∧
      (∀ b, b ≠ 0xA5 → exec (.uartByteReceive b true) s = .next hunt) ∧
      exec (.uartByteReceive 0xA5 true) s = .next (rx { frame := some [0xA5] } s) ∧
      exec .uartBreak s = .next s ∧ exec .uartTimeout s = .next s) ∧
    (∀ f, s.link.uartRx.frame = some f →
      (∀ b, exec (.uartByteReceive b false) s = .next bad) ∧
      exec (.uartByteReceive 0xA5 true) s = .next (rx { frame := some [0xA5] } bad) ∧
      exec .uartBreak s = .next bad ∧
      exec .uartTimeout s = .next (countFraming (fun f => { f with uartTimeout := f.uartTimeout + 1 }) (rx {} s)) ∧
      (s.link.uartRx.escape = false →
        exec (.uartByteReceive 0x7D true) s = .next (rx { frame := some f, escape := true } s) ∧
        ∀ b, b ≠ 0xA5 → b ≠ 0x7D → frameStep (f ++ [b]) = .more →
          exec (.uartByteReceive b true) s = .next (rx { frame := some (f ++ [b]) } s)) ∧
      (s.link.uartRx.escape = true →
        (frameStep (f ++ [0xA5]) = .more →
          exec (.uartByteReceive 0x85 true) s = .next (rx { frame := some (f ++ [0xA5]) } s)) ∧
        ∀ b, b ≠ 0xA5 → b ≠ 0x85 → b ≠ 0x5D → exec (.uartByteReceive b true) s = .next bad))) ∧
  (∀ s : State, Settled s →
    (exec .spiCsFall s = .next { s with link := { s.link with
      csLow := true, spiRx := none, spiSent := 0, spiOut := s.linkStatus } }) ∧
    (s.listening = true → s.link.csLow = true → s.lockedOut .spi = false →
      let sends := fun (t : State) => match s.link.replies.filter (fun r => r.port == .spi) with
        | [] => t.link.spiOut = 0
        | r :: _ => t.link.spiOut = (r.frame[s.link.spiSent]?).getD 0 ∧
            t.link.spiSent = (if s.link.spiSent < r.frame.length then s.link.spiSent + 1 else s.link.spiSent)
      (s.link.spiRx = none →
        (∃ t, exec (.spiByteReceive 0) s = .next t ∧ sends t ∧ t.link.spiRx = none ∧ t.link.framing = s.link.framing) ∧
        (∃ t, exec (.spiByteReceive 0xA5) s = .next t ∧ sends t ∧ t.link.spiRx = some [0xA5]) ∧
        (∀ b, b ≠ 0 → b ≠ 0xA5 → ∃ t, exec (.spiByteReceive b) s = .next t ∧ sends t ∧ t.link.spiRx = none ∧
          t.link.framing = { s.link.framing with huntBytes := s.link.framing.huntBytes + 1, unread := true })) ∧
      (∀ f b, s.link.spiRx = some f → frameStep (f ++ [b]) = .more →
        ∃ t, exec (.spiByteReceive b) s = .next t ∧ sends t ∧ t.link.spiRx = some (f ++ [b]) ∧
          t.link.framing = s.link.framing)) ∧
    (let out := { s with link := { s.link with csLow := false, spiRx := none, spiSent := 0, spiOut := 0 } }
     exec .spiCsRise s = .next
      (if s.listening = true ∧ s.link.spiRx ≠ none then
        countFraming (fun f => { f with spiCsDiscard := f.spiCsDiscard + 1 }) out else out)))


/-- R42, R43, R47, R51, R54: the last byte of a whole frame on either port, on the UART also behind an escape. A Length out
of range ends the frame as a length error; one whose check does not match is counted and answered BAD_CHECK under tag
0xFFFF; with a correct check it is the request that its bytes spell, taken as one that arrives whole. The word of an urgent
conversion that it asks for is a free value (log entry 6). -/
def Obligations.FramesAreChecked : Prop :=
  ∀ (s : State) (f : Bytes) (b : Byte), Settled s → s.listening = true →
    let ends := fun (port : Port) (c : Instr) (g : Bytes) (idle : State) =>
      (frameStep g = .badLength → exec c s = .next
        (countFraming (fun x => { x with lengthErr := x.lengthErr + 1 }) idle)) ∧
      (∀ l, frameStep g = .whole l →
        let r : Req := { port := port, flags := (g.drop 1).headD 0, tag := BitVec.ofNat 16 (getU g 4 2), params := (g.drop 7).take (l - 3) }
        let ok := crc16 ((g.drop 1).take (l + 3)) = getU g (l + 4) 2
        (¬ ok → exec c s = .next
          (errorReply port 0xFFFF 0x00 .badCheck (countFraming (fun x => { x with checkErr := x.checkErr + 1 }) idle))) ∧
        (ok → exec c s = .next (hostRequest (getU g 6 1) r
          (if s.freeValue % 4097 = 4096 then none else some (BitVec.ofNat 12 s.freeValue))
          (lockPort port (if getU g 6 1 = 0x31 then { idle with free := s.free + 1 } else idle))).endEdge))
    let uartIdle := { s with link := { s.link with uartRx := {} } }
    (s.lockedOut .uart = false → s.link.uartRx = { frame := some f } → b ≠ 0xA5 → b ≠ 0x7D →
      ends .uart (.uartByteReceive b true) (f ++ [b]) uartIdle) ∧
    (s.lockedOut .uart = false → s.link.uartRx = { frame := some f, escape := true } → b = 0x85 ∨ b = 0x5D →
      ends .uart (.uartByteReceive b true) (f ++ [b ^^^ 0x20]) uartIdle) ∧
    (s.lockedOut .spi = false → s.link.csLow = true → s.link.spiRx = some f →
      ends .spi (.spiByteReceive b) (f ++ [b]) { spiNext s with link := { (spiNext s).link with spiRx := none } })

/-- R39, R46, R47, R53, R55, R56, R78: the last byte of the oldest reply of a port leaves, on the UART stuffed. A reply
that ends its command takes it out of the outstanding commands and puts it first into the cache of eight; an ACCEPTED is
kept with its command; a new rate applies; a start that it announced begins. A port with no reply sends nothing. -/
def Obligations.RepliesLeave : Prop :=
  ∀ (s : State) (port : Port), Settled s →
    ((∀ x ∈ s.link.replies, x.port ≠ port) → exec (.replySent port) s = .next s) ∧
    (∀ before r rest, s.link.replies = before ++ r :: rest → (∀ x ∈ before, x.port ≠ port) → r.port = port →
      (r.restart = none → ∃ t, exec (.replySent port) s = .next t ∧
        t.link.replies = before ++ rest ∧
        (port = .spi → t.link.spiSent = 0 ∧ t.link.uartTx = s.link.uartTx) ∧
        (port = .uart → t.link.uartTx = stuff r.frame ∧ t.link.spiSent = s.link.spiSent) ∧
        t.link.uartRate = r.newRate.getD s.link.uartRate ∧
        (r.ends = true → t.command r.tag = none ∧
          ∀ c, s.command r.tag = some c → t.link.cache.length ≤ 8 ∧ ∃ e ∈ t.link.cache.head?, e.tag = c.tag ∧
            e.opcode = c.opcode ∧ e.length = c.length ∧ e.check = c.check ∧ e.reply = r.copy) ∧
        (r.kind = .accepted → r.retry = false → ∀ c, t.command r.tag = some c → c.accepted = some r.copy) ∧
        { t with link := s.link } = s) ∧
      (∀ k, r.restart = some k → ∃ t, exec (.replySent port) s = .next t ∧
        t.start.phase = .inReset ∧ t.start.next = some (k, if k = .cold then 3 else 2) ∧ t.link = {}))

/-! ### Objects -/

/-- R63, R73–R75, R166: what the object commands do once taken. A live read gives the object whole and has its side
effect; an absent object is NOT_FOUND; a bulk read gives the values of its list under the generation, and one of the
snapshot gives the copies under the snapshot's own generation, or WRONG_STATE where there is none; a snapshot at once
replaces the last one, one at the next latch goes on behind ACCEPTED, and while such a one is outstanding another is BUSY;
LATCH_NOW goes on behind ACCEPTED with the strobe count at which it is taken, behind which the boundary that it forces
lies. -/
def Obligations.ObjectReads : Prop :=
  ∀ (s : State) (r : Req), Settled s →
    let i := getU r.params 0 2
    let is := listIndices r.params
    (Takes 0x01 r s →
      let b := begun 0x01 r s
      exec (.getObj r) s = .next (if (b.spec i).access = 0 then answered 0x01 r .notFound [] b
        else answered 0x01 r (b.readStatus [i]) (b.value i) (readEffect i b))) ∧
    (Takes 0x03 r s →
      let b := begun 0x03 r s
      (getU r.params 0 1 = 0 → b.listFault is = none → exec (.bulkRead r) s = .next
        (answered 0x03 r (b.readStatus is) (leBytes 4 b.link.generation.toNat ++ (readAll is b).1) (readAll is b).2)) ∧
      (getU r.params 0 1 = 1 → b.link.snapshot = none → exec (.bulkRead r) s = .next (answered 0x03 r .wrongState [] b)) ∧
      (∀ x, getU r.params 0 1 = 1 → b.link.snapshot = some x → (∀ i ∈ is, (x.find i).isSome = true) →
        (is.flatMap (fun i => (x.find i).getD [])).length ≤ listRoom →
        exec (.bulkRead r) s = .next (b.send
          { port := r.port, kind := .final, alert := b.alertFlag, limp := b.limpFlag, tag := r.tag.toNat, opcode := 0x03
            status := .ok, generation := x.generation
            params := leBytes 4 x.generation.toNat ++ is.flatMap (fun i => (x.find i).getD []), ends := true }))) ∧
    (Takes 0x04 r s →
      let b := begun 0x04 r s
      ((∃ c ∈ b.link.outstanding, c.opcode = 0x04 ∧ c.long = true) →
        exec (.snapshot r) s = .next (answered 0x04 r .busy [] b)) ∧
      (b.listFault is = none → (∀ c ∈ b.link.outstanding, c.opcode = 0x04 → c.long = false) →
      exec (.snapshot r) s = .next (if getU r.params 0 1 = 0 then
        answered 0x04 r .ok [] { b with link := { b.link with
          snapshot := some { generation := b.link.generation, values := is.map (fun i => (i, b.value i)) } } }
        else accepted 0x04 r (.snapshot is) b))) ∧
    (Takes 0x05 r s →
      let b := begun 0x05 r s
      exec (.latchNow r) s = .next (accepted 0x05 r (.latchNow (s.sense.modCount.toNat / 256) none) b))

/-- R63, R68–R71, R75, R447, R459: the order of the checks of a write, and the writes and the read of the link's own
objects. A write of the interrupt pending member clears the bits of 1 to 11 that it names; a new rate rides on the
reply; reading the framing counters clears FRAMING; and a protection level falls only with its key. -/
def Obligations.ObjectWrites : Prop :=
  ∀ (s : State), Settled s →
    (∀ r : Req, Takes 0x02 r s →
      let b := begun 0x02 r s
      let i := getU r.params 0 2
      ((b.spec i).access = 0 → exec (.setObj r) s = .next (answered 0x02 r .notFound [] b)) ∧
      ((b.spec i).access = 1 ∨ (b.spec i).access = 4 → exec (.setObj r) s = .next (answered 0x02 r .isProtected [] b)) ∧
      ((b.spec i).access = 2 → b.relayLocked i = false → heldIn b.start.heldMask.toNat i = false →
        (r.params.drop 2).length ≠ (b.spec i).size → exec (.setObj r) s = .next (answered 0x02 r .badParam [] b))) ∧
    (∀ port tag (v : BitVec 32), let r := writeReq port tag 0x0003 (leBytes 4 v.toNat)
      Takes 0x02 r s → v.toNat < 4096 → exec (.setObj r) s = .next (answered 0x02 r .ok []
        { begun 0x02 r s with link := { (begun 0x02 r s).link with irqEnable := v.setWidth 12 } })) ∧
    (∀ port tag v, let r := writeReq port tag 0x0002 (leBytes 4 v.toNat)
      Takes 0x02 r s →
        (v.toNat < 4096 → exec (.interruptPendingWrite port tag v) s = .next (answered 0x02 r .ok []
          { begun 0x02 r s with link := { (begun 0x02 r s).link with
            irqPending := (begun 0x02 r s).link.irqPending &&& ~~~(v.setWidth 12 &&& 0xFFE#12) } })) ∧
        (4096 ≤ v.toNat → exec (.interruptPendingWrite port tag v) s = .next (answered 0x02 r .badParam [] (begun 0x02 r s)))) ∧
    (∀ port tag v, let r := writeReq port tag 0x0004 (leBytes 4 v.toNat)
      let b := begun 0x02 r s
      Takes 0x02 r s →
        (v.toNat ≤ 6 → exec (.hostLinkSettingsWrite port tag v) s = .next (b.send
          { port := port, kind := .final, alert := b.alertFlag, limp := b.limpFlag, tag := tag.toNat, opcode := 0x02
            status := .ok, generation := b.link.generation, ends := true, newRate := some (v.setWidth 4) })) ∧
        (6 < v.toNat → exec (.hostLinkSettingsWrite port tag v) s = .next (answered 0x02 r .badParam [] b))) ∧
    (∀ port tag, let r := readReq port tag 0x0005
      let b := begun 0x01 r s
      Takes 0x01 r s → exec (.framingCountersRead port tag) s = .next (answered 0x01 r .ok b.link.framing.bytes
        { b with link := { b.link with framing := { b.link.framing with unread := false } } })) ∧
    (∀ port tag (v : BitVec 32), let r := writeReq port tag 0x8002 (leBytes 4 v.toNat)
      let b := begun 0x02 r s
      let old := b.store.level.toNat
      let new := v.toNat / 2 ^ 30
      Takes 0x02 r s → field 29 16 v.toNat = 0 →
        (old < new ∨ (new < old ∧ v.toNat % 2 ^ 16 = 0x554C) →
          exec (.protectionWrite port tag v) s = .next (answered 0x02 r .ok []
            ((saveDevice { b with store := { b.store with level := BitVec.ofNat 2 new } }).raise 0x43
              [BitVec.ofNat 8 old, BitVec.ofNat 8 new])).endEdge) ∧
        (new = old → exec (.protectionWrite port tag v) s = .next (answered 0x02 r .ok [] b)) ∧
        (new < old → v.toNat % 2 ^ 16 ≠ 0x554C →
          exec (.protectionWrite port tag v) s = .next (answered 0x02 r .isProtected [] (b.countStore 6))))

/-- R463, R470, R471, R473–R475, R484, R487, R489, R490, R493, R495: the objects of timekeeping. HALT is set only while
the device does not run or its oscillator stopped; cleared, the count resumes at tick 0, with a time step where the
extrapolated second differs; a calendar write waits for the next second; a curve goes to its record and into force, behind
a measurement that is due; the backup RAM takes the bytes at the offset; and a read of the time status clears BKP_POR. -/
def Obligations.TimeObjects : Prop :=
  ∀ (s : State) (port : Port) (tag : BitVec 16), Settled s →
    (let r := writeReq port tag 0x7002 (leBytes 4 (2 ^ 31))
      let b := begun 0x02 r s
      Takes 0x02 r s → exec (.haltSet port tag) s = .next
        (if b.runState = 0 ∨ b.runState = 1 ∨ b.runState = 3 ∨ b.runState = 4 ∨ b.backup.oscStopped = true then
          answered 0x02 r .ok [] { b with backup := { b.backup with halt := true, tick := 0 } }
         else answered 0x02 r .wrongState [] b)) ∧
    (let r := writeReq port tag 0x7002 (leBytes 4 0)
      let b := begun 0x02 r s
      Takes 0x02 r s →
        (s.backup.halt = false → exec (.haltClear port tag) s = .next (answered 0x02 r .ok [] b)) ∧
        (s.backup.halt = true →
          let old := b.extrapolated
          let u := { b with backup := { b.backup with halt := false, tick := 0 } }
          exec (.haltClear port tag) s = .next
            (answered 0x02 r .ok [] (if old / tps = b.sec then u else timeStep old u)).endEdge)) ∧
    (∀ v, let r := writeReq port tag 0x7004 v
      let b := begun 0x02 r s
      Takes 0x02 r s → exec (.calendarWrite port tag v) s = .next (if calendarOk v then
        answered 0x02 r .ok [] { b with
          backup := { b.backup with calendarLoad := some (calendarOf v) }, time := { b.time with lastCalendarWrite := v } }
        else answered 0x02 r .badParam [] b)) ∧
    (∀ v, let r := writeReq port tag 0x7007 v
      let b := begun 0x02 r s
      Takes 0x02 r s →
        (s.protects 0x61000 = false → exec (.curveWrite port tag v) s = .next (if curveOk v then
          answered 0x02 r .ok [] { b with
            store := b.store.record Ring.curve v
            backup := if b.backup.measureDue then { b.backup with curveNext := some (curveOf v) }
              else { b.backup with curve := some (curveOf v), curveNext := none } }
          else answered 0x02 r .badParam [] b)) ∧
        (s.protects 0x61000 = true →
          exec (.curveWrite port tag v) s = .next (answered 0x02 r .isProtected [] (b.countStore 6)))) ∧
    (let r := readReq port tag 0x7000
      let b := begun 0x01 r s
      Takes 0x01 r s → ∃ t, exec (.timeStatusRead port tag) s = .next (answered 0x01 r .ok (leBytes 4 b.timeStatus) t) ∧
        t.backup.bkpPor = false ∧ { t with backup := b.backup } = b) ∧
    (∀ v, let r := writeReq port tag 0x700B v
      let b := begun 0x02 r s
      let off := getU v 0 1
      let len := getU v 1 1
      Takes 0x02 r s → exec (.backupRamWrite port tag v) s = .next
        (if v.length = 68 ∧ off < 128 ∧ 1 ≤ len ∧ len ≤ 64 ∧ off + len ≤ 128 ∧ getU v 2 2 = 0 then
          answered 0x02 r .ok [] { b with
            backup := { b.backup with ram := patch b.backup.ram off ((v.drop 4).take len) }
            time := { b.time with lastRamWrite := v } }
         else answered 0x02 r .badParam [] b))

/-! ### Commands -/

/-- R76, R554: a configuration session. CFG_BEGIN opens one of the size it names, replacing any other, unless a commit
is outstanding; CFG_CHUNK appends at the offset reached; CFG_COMMIT closes the session and goes on behind ACCEPTED
when the session is complete. R76, R79, R554–R556: the end of a slot write. Read back as written the image is the
pending configuration, for the first latch boundary behind the strobe count, and the command completes OK with its slot and sequence number; otherwise the command
completes FAULT, and the slot is spoilt. Without a commit nothing happens; and a session that times out is gone. -/
def Obligations.ConfigurationSessionsAndCommits : Prop :=
  (∀ (s : State) (r : Req), Settled s →
    (Takes 0x10 r s →
      let b := begun 0x10 r s
      exec (.cfgBegin r) s = .next (if b.link.outstanding.any (fun c => c.opcode == 0x12) then answered 0x10 r .busy [] b
        else answered 0x10 r .ok [] { b with link := { b.link with
          session := some { size := getU r.params 0 4, bytes := [] } } })) ∧
    (Takes 0x11 r s →
      let b := begun 0x11 r s
      (s.link.session = none → exec (.cfgChunk r) s = .next (answered 0x11 r .wrongState [] b)) ∧
      (∀ x, s.link.session = some x →
        let bs := x.bytes ++ r.params.drop 4
        exec (.cfgChunk r) s = .next (if getU r.params 0 4 = x.bytes.length ∧ bs.length ≤ x.size then
          answered 0x11 r .ok (leBytes 4 bs.length) { b with link := { b.link with session := some { x with bytes := bs } } }
          else answered 0x11 r .badParam [] b))) ∧
    (Takes 0x12 r s →
      let b := begun 0x12 r s
      let closed := { b with link := { b.link with session := none } }
      (s.link.session = none → exec (.cfgCommit r) s = .next (answered 0x12 r .wrongState [] b)) ∧
      (∀ x, s.link.session = some x → exec (.cfgCommit r) s = .next (if x.bytes.length = x.size then
        accepted 0x12 r (.commit false) { closed with start := { b.start with commit := .checking, committing := x.bytes } }
        else answered 0x12 r .wrongState [] closed)))) ∧
  (∀ s : State, Settled s →
    (s.commitTag = none → ∀ rb, exec (.cfgCommitComplete rb) s = .next s) ∧
    (∀ tag, s.commitTag = some tag → s.start.commit = .writing →
      (let c : Configuration :=
        { entries := (imageEntries s.part s.start.committing).getD []
          seq := BitVec.ofNat 32 (getU s.start.committing 12 4)
          source := if s.start.commitSlot = 0 then .slotA else .slotB
          load := (viewOf ((imageEntries s.part s.start.committing).getD []) 0).load }
       exec (.cfgCommitComplete true) s = .next
        ({ s with start := { s.start with
          pending := s.start.pending ++ [({ image := some c, strobe := s.sense.modCount.toNat / 256 } : Pended)]
          commit := .pending, committing := [] } }.complete tag .ok
          (leBytes 1 s.start.commitSlot ++ leBytes 4 (getU s.start.committing 12 4)))) ∧
      ∃ bad, bad ≠ leBytes 4 (getU s.start.committing (s.start.committing.length - 4) 4) ∧ bad.length = 4 ∧
        exec (.cfgCommitComplete false) s = .next
        ({ s with
            free := s.free + 1
            store := s.store.put (slotAddress s.start.commitSlot)
              (patch s.start.committing (s.start.committing.length - 4) bad)
            start := { s.start with commit := s.commitRest, committing := [] } }.complete tag .fault [])) ∧
    (exec .cfgSessionTimeout s = .next { s with link := { s.link with session := none } }))

/-- R77, R471, R472: TIME_GET gives seconds, ticks and the flags; TIME_SET sets the count, the calendar or both, clears
the oscillator's flag with the count, and logs the time it replaces; a trim within the second makes no new measurement due
(R485, log entry 213). A time past the last one it may give is refused. -/
def Obligations.TimeIsReadAndSet : Prop :=
  ∀ (s : State) (r : Req), Settled s →
    (Takes 0x18 r s → ∃ t, exec (.timeGet r) s = .next
        (answered 0x18 r .ok (leBytes 6 s.sec ++ leBytes 2 s.backup.tick.toNat ++ [(begun 0x18 r s).timeFlags]) t) ∧
      { t with backup := (begun 0x18 r s).backup } = begun 0x18 r s) ∧
    (Takes 0x19 r s →
      let b := begun 0x19 r s
      let target := getU r.params 0 1
      let v := getU r.params 1 6
      let last := leBytes 6 v ++ [BitVec.ofNat 8 target]
      (lastDated < v ∨ (1 ≤ target ∧ lastCalendar < v) →
        exec (.timeSet r) s = .next (answered 0x19 r .badParam [] b)) ∧
      (target = 1 → v ≤ lastCalendar → exec (.timeSet r) s = .next (answered 0x19 r .ok []
        ({ b with backup := { b.backup with calendarLoad := some (dateOf v).calendar } }.raise 0x60
          (timeBytes ((s.sec + 1) * tps) ++ last))).endEdge) ∧
      (target = 0 → v ≤ lastDated → s.backup.halt = true ∨ v = s.sec → exec (.timeSet r) s = .next (answered 0x19 r .ok []
        ({ b with backup := { b.backup with
            sec := BitVec.ofNat 48 v, tick := 0, oscStopped := false
            measureDue := if v = s.sec then s.backup.measureDue else v % 32 == 0
            adjusted := v * tps, adjustFrom := v * tps + s.backup.adjustFrom - s.ticks } }.raise 0x60
          (timeBytes s.ticks ++ last))).endEdge) ∧
      (target = 2 → v ≤ lastCalendar → s.backup.halt = false → v ≠ s.sec →
        exec (.timeSet r) s = .next (answered 0x19 r .ok []
          ((timeStep s.ticks { b with backup := { b.backup with
            sec := BitVec.ofNat 48 v, tick := 0, oscStopped := false, calendar := (dateOf v).calendar
            calendarLoad := none, measureDue := v % 32 == 0, adjusted := v * tps
            adjustFrom := v * tps + s.backup.adjustFrom - s.ticks } }).raise 0x60 (timeBytes s.ticks ++ last))).endEdge))

/-- R117, R335, R525: SELFTEST of the coder and the bittern goes on behind ACCEPTED, is BUSY while one of the unit is
outstanding and NOT_FOUND for a unit that is absent; its completion carries the result word, or FAULT for a unit that
cannot be tested. Where the spec leaves a reading open it is that of log entries 116, 117 and 119. -/
def Obligations.Selftests : Prop :=
  ∀ s : State, Settled s →
    (∀ r : Req, Takes 0x40 r s →
      let b := begun 0x40 r s
      let unit := getU r.params 0 2 / 64 * 64
      ((b.spec unit).access = 0 → exec (.selftest r) s = .next (answered 0x40 r .notFound [] b)) ∧
      ((b.spec unit).access ≠ 0 → b.testing unit = true → exec (.selftest r) s = .next (answered 0x40 r .busy [] b)) ∧
      (unit = 0x9040 → b.testing unit = false → exec (.selftest r) s = .next (accepted 0x40 r (.selftest 0x9040 true) b)) ∧
      (unit = 0x4040 → b.testing unit = false →
        (s.recording.coderOk = false → exec (.selftest r) s = .next (accepted 0x40 r (.selftest 0x4040 false) b)) ∧
        (s.recording.coderOk = true → s.recording.coderTesting = false → exec (.selftest r) s = .next
          (accepted 0x40 r (.selftest 0x4040 true) { b with recording := { b.recording with coderTesting := true } })))) ∧
    (∀ (tag : BitVec 16) outcome (duration : BitVec 16) c, s.command tag.toNat = some c →
      (∀ unit, c.work = .selftest unit false →
        exec (.selftestComplete tag outcome duration) s = .next (s.complete tag.toNat .fault [])) ∧
      (c.work = .selftest 0x9040 true →
        let w := 4 * 2 ^ 24 + duration.toNat
        (outcome = 0 → exec (.selftestComplete tag outcome duration) s = .next
          ((noteTest w 0x9040 { s with integrity := { s.integrity with bitternFault := false } }).complete tag.toNat .ok
            (leBytes 4 w)).endEdge) ∧
        (outcome ≠ 0 → exec (.selftestComplete tag outcome duration) s = .next
          ((noteTest (2 * 2 ^ 28 + w) 0x9040 ({ s with integrity := { s.integrity with bitternFault := true } }.raise 0x1C
            (leBytes 4 (2 * 2 ^ 28 + w)))).complete tag.toNat .ok (leBytes 4 (2 * 2 ^ 28 + w))).endEdge))) ∧
    (∀ (tag : BitVec 16) outcome duration, s.command tag.toNat = none →
      exec (.selftestComplete tag outcome duration) s = .next s)

/-- R57, R78, R79, R549: ABORT ends a snapshot, an archive read, an audit or a LATCH_NOW whose boundary has not come with
ABORTED, ahead of its own OK; it is held back while a LATCH_NOW whose boundary has come or a ZLINK_SEND that was sent goes
on; and of a command that is not outstanding it is answered by whether its reply is still held. START_WARM and START_COLD,
with no commit outstanding or writing, clear the failures and announce the start with their reply.
An ABORT that names its own tag is answered as log entry 151 says. -/
def Obligations.AbortsAndStarts : Prop :=
  ∀ (s : State) (r : Req), Settled s →
    (Takes 0x41 r s →
      let b := begun 0x41 r s
      let t := getU r.params 0 2
      (t = r.tag.toNat ∨ b.command t = none → exec (.abort r) s = .next
        (answered 0x41 r (if b.link.cache.any (fun e => e.tag == t) then .alreadyDone else .notFound) [] b)) ∧
      (t ≠ r.tag.toNat → ∀ c, b.command t = some c →
        (c.work = .replied → exec (.abort r) s = .next (answered 0x41 r .alreadyDone [] b)) ∧
        ((∃ l, c.work = .snapshot l) → exec (.abort r) s = .next (answered 0x41 r .ok [] (b.complete t .aborted []))) ∧
        ((∃ i m n p, c.work = .archiveRead i m n p) ∨ (∃ v a d, c.work = .audit v a d) → exec (.abort r) s = .next
          (answered 0x41 r .ok [] ({ b with archive := { b.archive with
            reads := b.archive.reads.filter (fun x => x.tag != c.tag) } }.complete t .aborted []))) ∧
        ((∃ k, c.work = .latchNow k none) → exec (.abort r) s = .next (answered 0x41 r .ok [] (b.complete t .aborted []))) ∧
        ((∃ k h, c.work = .latchNow k (some h)) ∨ (∃ n p, c.work = .zlinkSend n p true) →
          exec (.abort r) s = .next (b.setWork r.tag.toNat (.abortHeld t))))) ∧
    (∀ (op : Nat) (i : Instr) (k : StartKind),
      (op = 0x42 ∧ i = .startWarm r ∧ k = .warm) ∨ (op = 0x43 ∧ i = .startCold r ∧ k = .cold) → Takes op r s →
      (begun op r s).commitTag = none → s.start.commit ≠ .writing → ∃ t x, exec i s = .next t ∧
        t.start.failures = [] ∧ t.start.limp = false ∧ t.start.limpLevel = 0 ∧
        (t.link.replies.getLast? = some x ∨ t.link.behind.getLast? = some x) ∧ x.tag = r.tag.toNat ∧ x.status = .ok ∧ x.restart = some k ∧ x.ends = true)

/-! ### Evidence -/

/-- R496–R498, R504–R506, R509: the first entry that waits is committed with the next sequence number and chained to the
entry before it, and sets the LOG interrupt; an entry that is no alarm does nothing more, one of an alarm of class
FLAG or above latches its code and sets the ALARM interrupt, and the last entry of a SAFE alarm restarts the device
warm with CAUSE 4. R498, R499: the end of an edge. The entries raised on it queue behind those that wait, none of
them a crystal's; nothing else moves, but that an alarm that ends in a restart holds the sluice and cuts the line at
once, and the billing pages that wait behind the one under commit wait in the sluice (R317). Where the spec leaves a
reading open it is that of log entries 82 and 212. -/
def Obligations.EvidenceIsQueuedAndCommitted : Prop :=
  (∀ (s : State) (r : Raised) (q : List Raised), Settled s → s.store.closed = false → s.start.phase = .running →
    s.evidence.queue = r :: q → s.evidence.lostNow = 0 → s.logHasRoom (s.evidence.newest + 1) = true →
    s.power.warning = false → s.evidence.safeCommitted = false →
    let n := s.evidence.newest + 1
    let e := chainEntry (logEntry s.store.seen s.evidence.newest) (r.head n)
    (r.restarts = false → ∃ t, exec .evidenceCommit s = .next t ∧
      t.evidence.newest = n ∧ t.evidence.head = sha256 e ∧ t.link.irqPending.getLsbD 2 = true ∧
      t.start = s.start ∧ t.billing = s.billing ∧
      (r.alarm = false → r.recent = none → r.backup = false → r.code ≠ 0x06 → n % 64 ≠ 0 →
        t.evidence.queue = q ∧ t.evidence.latched = s.evidence.latched ∧ t.store = s.store.put (logAddress n) e ∧
        t.xa = s.xa ∧ t.archive = s.archive ∧ t.sluice = s.sluice ∧ t.backup = s.backup) ∧
      (r.alarm = true → r.ext = false → r.backup = false → 1 ≤ r.cls → r.code < 256 →
        t.evidence.latched.getLsbD r.code = true ∧ t.link.irqPending.getLsbD 1 = true)) ∧
    (r.restarts = true → r.ext = false → q = [] → ∃ t, exec .evidenceCommit s = .next t ∧
      t.start.phase = .inReset ∧ t.start.next = some (.warm, 4) ∧ t.link = {} ∧ t.billing = {})) ∧
  (∀ (s : State) (e : Raised), s.evidence.raised = [e] → e.crystal = false →
    let t := s.endEdge
    t.evidence.queue = s.evidence.queue ++ [{ e with sub := 0 }] ∧ Settled t ∧
    (e.restarts = true → t.sluice.hold = true ∧ t.evidence.safePending = true ∧
      t.line.state = (if s.line.state = .off then .off else .cut) ∧
      t.sluice.writes = s.sluice.writes ++
        ((s.store.waiting.drop 1).filter (fun w => billingPage w.page)).map (fun w => (64 * w.page + w.offset, w.data)) ∧
      t.store.waiting = s.store.waiting.take 1 ++ (s.store.waiting.drop 1).filter (fun w => !billingPage w.page) ∧
      t.sluice.pairs.length = s.sluice.pairs.length ∧
      { t.sluice with hold := s.sluice.hold, writes := s.sluice.writes, pairs := s.sluice.pairs } = s.sluice ∧
      { t.store with waiting := s.store.waiting, saveState := s.store.saveState } = s.store) ∧
    (e.restarts = false → t.sluice = s.sluice ∧ t.line = s.line ∧ t.store = s.store) ∧
    { t with evidence := s.evidence, sluice := s.sluice, line := s.line, store := s.store } = s)


/-- R497, R510, R511, R529: the log's commands. LOG_READ gives whole entries from the first that it names; LOG_APPEND
takes eight entries a second and answers with the number they will take; clearing a latched code clears its bit and
extends its latest entry; clearing all leaves no code latched.
Where the spec leaves a reading open it is that of log entry 92. -/
def Obligations.LogCommands : Prop :=
  ∀ (s : State), Settled s →
    (∀ r : Req, Takes 0x38 r s →
      let b := begun 0x38 r s
      let first := getU r.params 0 4
      (first < s.oldestEntry ∨ s.evidence.newest < first ∨ first = 0 →
        exec (.logRead r) s = .next (answered 0x38 r .notFound [] b)) ∧
      (s.oldestEntry ≤ first → first ≤ s.evidence.newest → 1 ≤ first →
        exec (.logRead r) s = .next (answered 0x38 r .ok
          ((List.range (min (getU r.params 4 1) (s.evidence.newest + 1 - first))).flatMap
            (fun k => logEntry s.store.seen (first + k))) b))) ∧
    (∀ r : Req, Takes 0x39 r s → 1 ≤ r.params.length → r.params.length ≤ 16 → s.protects 0 = false →
      let b := begun 0x39 r s
      let n := if s.evidence.appendSec = s.sec then s.evidence.appends else 0
      (8 ≤ n → exec (.logAppend r) s = .next (answered 0x39 r .busy [] b)) ∧
      (n < 8 → s.logHasRoom s.nextEntry = false → exec (.logAppend r) s = .next (answered 0x39 r .overflow [] b)) ∧
      (n < 8 → s.logHasRoom s.nextEntry = true → exec (.logAppend r) s = .next
        (answered 0x39 r .ok (leBytes 4 s.nextEntry) { b with evidence := { b.evidence with
          appends := n + 1, appendSec := s.sec
          raised := [{ time := s.ticks, code := 0xF0, payload := r.params, host := true }] } }).endEdge)) ∧
    (∀ port tag (code : Byte), let r := writeReq port tag 0x9002 (leBytes 2 code.toNat)
      let b := begun 0x02 r s
      Takes 0x02 r s →
        (s.evidence.latched.getLsbD code.toNat = false →
          exec (.alarmClear port tag code) s = .next (answered 0x02 r .ok [] b)) ∧
        (s.evidence.latched.getLsbD code.toNat = true → ∃ t, exec (.alarmClear port tag code) s = .next t ∧
          t.evidence.latched = s.evidence.latched &&& ~~~(1#256 <<< code.toNat) ∧
          (let said := leBytes 4 (getKey code.toNat s.evidence.latest) ++ [1]
           t.evidence.queue = s.evidence.queue ++
            [{ time := s.ticks, code := code.toNat, payload := said, ext := true }]) ∧
          t.link = (answered 0x02 r .ok [] b).link)) ∧
    (∀ port tag, let r := writeReq port tag 0x9002 (leBytes 2 0x100)
      Takes 0x02 r s → ∃ t, exec (.alarmClearAll port tag) s = .next t ∧ t.evidence.latched = 0 ∧
        t.link = (answered 0x02 r .ok [] (begun 0x02 r s)).link)

/-- R500, R547, R560, R567, R568: an alarm's pin falls due 30 s after it and is asked for, up to sixteen in an hour; a
limp release names held units with its key; and a patch is written into its area unless that is protected. -/
def Obligations.PinsReleasesAndPatches : Prop :=
  ∀ s : State, Settled s →
    (s.awake = true → s.archiveGate ≠ some .busy →
      ∀ p, s.evidence.pins.find? (fun p => p.asked.isNone && decide (p.time + 30 * tps ≤ s.ticks)) = some p →
        exec .alarmPinDue s = .next (giveWork (askAlarmPin p s)).endEdge ∧
        (s.evidence.pinHour = s.sec / 3600 → 16 ≤ s.evidence.pinsHour →
          askAlarmPin p s = pinExtension p.code p.seq 3 0 { s with evidence := { s.evidence with pins := s.evidence.pins.erase p } })) ∧
    (∀ port tag (v : BitVec 32), let r := writeReq port tag 0xB004 (leBytes 4 v.toNat)
      let b := begun 0x02 r s
      Takes 0x02 r s →
        exec (.limpRelease port tag v) s = .next
          (if v.toNat / 2 ^ 16 ≠ 0x4C52 ∨ field 15 5 v.toNat ≠ 0 then answered 0x02 r .badParam [] b
           else if s.limpFlag = false then answered 0x02 r .wrongState [] b
           else answered 0x02 r .ok [] { b with start := { b.start with
            pending := b.start.pending ++
              [{ release := v.setWidth 5 &&& b.start.heldMask, strobe := s.sense.modCount.toNat / 256 }] } })) ∧
    (∀ port tag v, let r := writeReq port tag 0xB006 v
      let b := begun 0x02 r s
      let off := getU v 0 4
      let n := getU v 4 2
      Takes 0x02 r s → v.length = 264 →
        exec (.patchWrite port tag v) s = .next
          (if s.protects 0x70000 then answered 0x02 r .isProtected [] (b.countStore 6)
           else if 1 ≤ n ∧ n ≤ 256 ∧ getU v 6 2 = 0 ∧ off + n ≤ 65536 then
            answered 0x02 r .ok [] { b with store := b.store.put (0x70000 + off) ((v.drop 8).take n) }
           else answered 0x02 r .badParam [] b))

/-! ### The sensing array -/

/-- R84, R86–R88, R100, R101, R522–R524: a flit on a lane that is in service. A data flit with the sequence number awaited
brings three modulator clocks, oldest first, with the chopper's reversal undone, and the lane awaits the next, or the
ninth flit of its group behind the eighth; a ninth flit that is no mark, or the mark of the lane cycle awaited, brings
none. A mark in any other place, or of another strobe, shows that alignment is lost from the clock awaited on. One that
fails its
check is counted against its lane, and in the place of a data flit the pattern 1, 0, 1 stands in for its clocks, which
are noted as missing. A mark flit aligns a lane that has lost its alignment. The 33rd failed flit of a second starts the
lane's test, whose end is logged and either counts a transient or takes the lane out of service: a sample lane takes its
channels and its rotation with it, the control lane every rotation. A lane under test or out of service takes nothing,
and the good flits of the other two lanes are taken by other rows. -/
def Obligations.FlitsAndLanes : Prop :=
  ∀ (s : State) (k : Nat), Settled s → k < 6 →
    let l := s.sense.lanes.getD k {}
    let x := l.dataClock
    let bits := fun (n : Nat) (b : BitVec 15) => if n / 16 % 2 = 1 then ~~~b else b
    let window := fun (c0 c1 c2 : BitVec 15) =>
      ([bits (x + 2) c2, bits (x + 1) c1, bits x c0] ++ l.clocks).take 125
    (l.testing = none → l.faulty = false → ∀ flit,
      let mark := field 53 14 flit.toNat
      (flitGood k flit.toNat = true → k < 4 → l.aligned = true → l.ninth = false → field 63 62 flit.toNat = 1 →
        field 61 54 flit.toNat = l.nextSeq → ∃ t fresh, exec (.flitReceive k flit) s = .next t ∧
          t.sense.lanes = modAt s.sense.lanes k (fun _ => ({ l with
            clocks := window (flit.extractLsb' 39 15) (flit.extractLsb' 24 15) (flit.extractLsb' 9 15)
            values := fresh ++ l.values, nextSeq := (l.nextSeq + 1) % 256, ninth := (l.nextSeq + 1) % 256 % 8 == 0 } : Lane)) ∧
          fresh.length ≤ 1 ∧
          { t with sense := { t.sense with
              lanes := s.sense.lanes, modCount := s.sense.modCount, slices := s.sense.slices } } = s) ∧
      (flitGood k flit.toNat = true → k < 4 → l.aligned = true → l.ninth = true →
        (field 63 62 flit.toNat = 2 → l.nextSeq = 0 ∧ mark = (l.cycleStrobe + 3) % 2 ^ 40) → ∃ t, exec (.flitReceive k flit) s = .next t ∧
          t.sense.lanes = modAt s.sense.lanes k (fun _ => ({ l with
            ninth := false, cycleStrobe := if l.nextSeq = 0 then l.cycleStrobe + 3 else l.cycleStrobe } : Lane)) ∧
          { t with sense := { t.sense with
              lanes := s.sense.lanes, modCount := s.sense.modCount, slices := s.sense.slices } } = s) ∧
      (flitGood k flit.toNat = true → k < 4 → l.aligned = true → field 63 62 flit.toNat = 2 → k < s.sense.lanes.length →
        l.ninth = false ∨ l.nextSeq ≠ 0 ∨ mark ≠ (l.cycleStrobe + 3) % 2 ^ 40 → ∃ t, exec (.flitReceive k flit) s = .next t ∧
          (t.sense.lanes.getD k {}).aligned = false ∧ (t.sense.lanes.getD k {}).gapFrom = some x ∧
          { t with sense := s.sense } = s) ∧
      (flitGood k flit.toNat = true → k < 4 → l.aligned = false → field 63 62 flit.toNat = 2 → k < s.sense.lanes.length →
        ∃ t, exec (.flitReceive k flit) s = .next t ∧
          (let m := t.sense.lanes.getD k {}
           m.aligned = true ∧ m.nextSeq = 0 ∧ m.ninth = false ∧ m.gapFrom = none ∧
           m.cycleStrobe = extendStrobe s.sense.strobe mark) ∧
          { t with sense := s.sense } = s) ∧
      (flitGood k flit.toNat = true → 4 ≤ k → l.aligned = false → exec (.flitReceive k flit) s = .next s) ∧
      (flitGood k flit.toNat = false → ∃ t, exec (.flitReceive k flit) s = .next t ∧
        t.integrity = { s.integrity with counters := modAt s.integrity.counters k (· + 1) } ∧
        (k < s.sense.lanes.length →
          let m := t.sense.lanes.getD k {}
          m.failedNow = l.failedNow + 1 ∧ m.testing = (if l.failedNow = 32 then some 33 else none) ∧
          (k < 4 → l.aligned = true → l.ninth = false →
            m.clocks = window 0x7FFF 0 0x7FFF ∧ ∃ r, m.runs.getLast? = some r ∧ r.lastClock = x + 2)) ∧
        { t with sense := s.sense, integrity := s.integrity } = s)) ∧
    (l.testing.isSome = true ∨ l.faulty = true → ∀ flit, exec (.flitReceive k flit) s = .next s) ∧
    (l.testing = none → ∀ passed, exec (.laneTestEnd k passed) s = .next s) ∧
    (∀ n, l.testing = some n →
      let ended := fun (passed : Bool) =>
        ({ s with sense := { s.sense with lanes := modAt s.sense.lanes k (fun l =>
          ({ l with testing := none, faulty := !passed } : Lane)) } } : State).raise 0x25
            (BitVec.ofNat 8 k :: leBytes 4 n ++ [BitVec.ofNat 8 (flag passed)])
      exec (.laneTestEnd k true) s = .next ((ended true).countIntegrity 11).endEdge ∧
      ∃ t, exec (.laneTestEnd k false) s = .next t ∧ t.sense.lanes = (ended false).sense.lanes ∧
        (∃ e ∈ t.evidence.queue, e.code = 0x26 ∧ e.payload = [BitVec.ofNat 8 k]) ∧
        (k < 4 → s.sense.channels.length = 60 → ∀ p, p < 14 → (t.sense.channels.getD (channelAt k p) {}).lost = true) ∧
        (k < 4 → s.sense.quarters.length = 4 → (t.sense.quarters.getD k {}).stopped = true) ∧
        (k = 5 → s.sense.quarters.length = 4 → ∀ q, q < 4 → (t.sense.quarters.getD q {}).stopped = true))

/-- R28, R89, R106, R107, R112, R524: switch messages and the steps of the rotation. Each brings the strobe count to its
own strobe. A message due within the half of the epoch ahead is held and a past one counted; one that holds a reserved
code, or comes on a control lane out of service, is dropped, and one that fails its check is a failed flit of the control
lane. The messages whose epoch has come set their slices' sources and are held no longer. Every two seconds of strobes
each quarter at rest, its wader in service, begins the measurement of its wader on the reference, or its test where one
is due; at other strobes, before the inputs are connected and without the control lane nothing more happens. -/
def Obligations.SwitchesAndSteps : Prop :=
  ∀ (s : State) (strobe : BitVec 48), Settled s →
    let r := s.reachStrobe strobe.toNat
    { r with sense := { r.sense with modCount := s.sense.modCount, slices := s.sense.slices } } = s ∧
    (∀ flit, flitGood 5 flit.toNat = true →
      (switchOf flit.toNat = none ∨ (s.sense.lanes.getD 5 {}).faulty = true →
        exec (.switchMessage flit strobe) s = .next r) ∧
      (∀ m, switchOf flit.toNat = some m → (s.sense.lanes.getD 5 {}).faulty = false →
        let d := (m.epoch - strobe.setWidth 24).toNat
        exec (.switchMessage flit strobe) s = .next
          (if 1 ≤ d ∧ d < 2 ^ 23 then { r with sense := { r.sense with switches := s.sense.switches ++ [m] } }
           else { r with sense := { r.sense with controlFaults := s.sense.controlFaults + 1 } }))) ∧
    (∀ flit, flitGood 5 flit.toNat = false →
      exec (.switchMessage flit strobe) s = exec (.flitReceive 5 flit) r) ∧
    (∃ t, exec (.switchAct strobe) s = .next t ∧
      t.sense.switches = s.sense.switches.filter (fun m => m.epoch != strobe.setWidth 24) ∧
      t.sense.slices = (s.sense.switches.filter (fun m => m.epoch == strobe.setWidth 24)).foldl
        (fun l m => modAt l (m.quarter * 15 + m.slice) (fun x => { x with source := m.source })) r.sense.slices ∧
      { t with sense := { t.sense with switches := r.sense.switches, slices := r.sense.slices } } = r) ∧
    (s.sense.connected = false ∨ strobe.toNat % 32000 ≠ 0 ∨ (s.sense.lanes.getD 5 {}).faulty = true →
      exec (.waderStepStart strobe) s = .next r) ∧
    (s.sense.connected = true → strobe.toNat % 32000 = 0 → (s.sense.lanes.getD 5 {}).faulty = false →
      s.sense.quarters.length = 4 → s.sense.slices.length = 60 → ∃ t, exec (.waderStepStart strobe) s = .next t ∧
        { t with sense := { t.sense with quarters := r.sense.quarters, slices := r.sense.slices } } = r ∧
        ∀ q, q < 4 → (s.sense.quarters.getD q {}).stopped = false → (s.sense.quarters.getD q {}).rot = .idle →
          (s.sense.slices.getD (q * 15 + 14) {}).retired = false →
          let p := strobe.toNat / 32000 % 14
          let x := t.sense.slices.getD (q * 15 + 14) {}
          (t.sense.quarters.getD q {}).step = p ∧ x.source = .zero ∧
          (if (s.sense.quarters.getD q {}).waderTestDue = true then
            (t.sense.quarters.getD q {}).rot = .waderTest p ∧ x.meas = some { start := strobe.toNat, part := 6000 }
           else (t.sense.quarters.getD q {}).rot = .waderRef p ∧ x.meas = some { start := strobe.toNat, part := 960 }))

/-- R107–R109, R113, R114, R116: the ends of the rotation's measurements. The offset a measurement gives is the mean of its
zero part and the gain the nominal difference of the ±400 mV parts over the measured one, each to nearest. A measurement
of the wader within its limits takes effect and the wader takes the channel's input in parallel, or the home slice goes
on the reference where the channel is off; one of a home slice within its limits takes effect, and the slice returns to
its input for the second verification; each window opens 10 ms behind its connection. One outside its limits, the reference
buffer not being to blame, makes its slice suspect and tests it. One that has not gathered every part does not end, nor a
window whose samples have not all passed. After the first twin verification the cross-fade to the wader begins, and after
the second the one back; a judged difference beyond ±20 ppm or ±10 ns makes the home slice, or at the second the wader,
suspect. Where the spec leaves a reading open it is that of log entries 142, 143, 144 and 187. -/
def Obligations.ReferenceMeasurements : Prop :=
  (∀ m : RefMeasure, 80 < m.part →
    2 * (m.coef.offset * m.samples - m.zero).natAbs ≤ m.samples ∧
    (0 < m.plus - m.minus → 2 * (m.coef.gain * (m.plus - m.minus) - 2 * 0x4CCCCD * 2 ^ 38 * m.samples).natAbs ≤
      (m.plus - m.minus).natAbs)) ∧
  ∀ (s : State) (q p : Nat), Settled s →
    let x := s.sense.quarters.getD q {}
    let w := q * 15 + 14
    let h := q * 15 + p
    let c := channelAt q p
    let now := s.sense.modCount.toNat / 256 + 1
    let ended := fun (slot : Nat) (m : RefMeasure) => s.modSlice slot (fun l => l.measureEnd s.ticks m.coef)
    let tested := fun (slot channel : Nat) (rot : Rotation) (m : RefMeasure) =>
      (((ended slot m).modChannel channel (fun x => { x with suspect := true, suspects := x.suspects + 1 })).modQuarter q
        (fun x => { x with rot := rot })).modSlice slot (fun l =>
          { l with source := .zero, meas := some { start := now, part := 6000 } })
    (∀ m, (s.sense.slices.getD w {}).meas = some m → m.complete = true → x.rot = .waderRef p →
      (measurementOk (s.sense.slices.getD w {}) m.coef = true →
        exec (.referenceMeasurementEnd q 14) s = .next (if s.view.chanOn c then
          ((ended w m).modQuarter q (fun x => { x with
            rot := .twin1 p, twinFrom := now + 160, windowDirty := false, cover := some p })).modSlice w
            (fun l => { l with source := .input p, meas := none })
          else homeToReference q p (ended w m))) ∧
      (measurementOk (s.sense.slices.getD w {}) m.coef = false →
        s.bufferBlamed q 14 (gainDeviation m.coef.gain) = false →
        exec (.referenceMeasurementEnd q 14) s = .next (tested w (56 + q) (.waderTest p) m))) ∧
    (∀ m, p < 14 → (s.sense.slices.getD h {}).meas = some m → m.complete = true → x.rot = .homeRef p →
      (measurementOk (s.sense.slices.getD h {}) m.coef = true →
        exec (.referenceMeasurementEnd q p) s = .next
          ((((ended h m).modChannel c (fun x => { x with calAge := 0 })).modSlice h
            (fun l => { l with source := .input p, meas := none })).modQuarter q (fun x =>
              if s.view.chanOn c then { x with rot := .twin2 p, twinFrom := now + 160, windowDirty := false }
              else { x with rot := .idle }))) ∧
      (measurementOk (s.sense.slices.getD h {}) m.coef = false →
        s.bufferBlamed q p (gainDeviation m.coef.gain) = false →
        exec (.referenceMeasurementEnd q p) s = .next (tested h c (.homeTest p) m))) ∧
    (∀ slot, x.rot.measuring = none ∨ (s.sense.slices.getD (q * 15 + slot) {}).meas.all (fun m => !m.complete) = true →
      exec (.referenceMeasurementEnd q slot) s = .next s) ∧
    (∀ gain delay : Int,
      let judged := s.rmsJudges c && !x.windowDirty
      let bad := judged && decide (20000 < gain.natAbs ∨ 10000 < delay.natAbs)
      let agreed := if judged then !bad else x.twinAgreed
      let suspect := fun (k : Nat) (t : State) =>
        if bad then t.modChannel k (fun x => { x with suspect := true, suspects := x.suspects + 1 }) else t
      (x.rot = .twin1 p → exec (.twinVerificationEnd q gain delay) s = .next
        (if s.sense.nextRaw < x.twinFrom + 1280 then s else suspect c (s.modQuarter q (fun x =>
          { x with rot := .fadeTo p, fade := some { pos := p, toWader := true }, twinAgreed := agreed })))) ∧
      (x.rot = .twin2 p → exec (.twinVerificationEnd q gain delay) s = .next
        (if s.sense.nextRaw < x.twinFrom + 2432 then s else suspect (56 + q) (s.modQuarter q (fun x =>
          { x with rot := .fadeBack p, fade := some { pos := p, toWader := false }, twinAgreed := agreed
                   waderTestDue := x.waderTestDue || bad }))))) ∧
    (∀ gain delay, x.rot = .idle → exec (.twinVerificationEnd q gain delay) s = .next s)

/-- R99, R103, R113–R117: slice faults. A clip that has not stood for 200 ms is none; one within 28 s of a passed test is
only logged, else it makes the home slice suspect and pre-empts it. A self-test ends once its reference parts have been
gathered: one of a home slice that fails by a linearity error beyond ±20 ppm or by its coefficients, the reference buffer
not being to blame, retires the slice, and the wader, where it is free, stands in for good; a passed test of a wader ends
its suspicion and its step, and its coefficients take effect unless the rotation has stopped; a modulator's reset between
steps is counted and noted for the samples about it; and an integrator is seeded once, after a whole nominal cycle. Where
the spec leaves a reading open it is that of log entries 144, 145 and 187. -/
def Obligations.SliceFaults : Prop :=
  ∀ (s : State), Settled s →
    (∀ c, c < 56 →
      (s.sense.clipped c = false → exec (.sustainedClip c) s = .next s) ∧
      (∀ k, s.sense.clipped c = true → (s.sense.channels.getD c {}).clipPass = some k → s.sense.nextStrobe < k + 448000 →
        exec (.sustainedClip c) s = .next ((s.modChannel c (fun x => { x with suspects := x.suspects + 1 })).raise 0x20
          (BitVec.ofNat 8 c :: zeros 4)).endEdge) ∧
      (s.sense.clipped c = true → (s.sense.channels.getD c {}).clipPass = none →
        (s.sense.channels.getD c {}).lost = false → (s.sense.channels.getD c {}).suspect = false →
        (s.sense.slices.getD (sliceOf c) {}).retired = false → (s.sense.quarters.getD (quarterOf c) {}).rot = .idle →
        ∃ t, exec (.sustainedClip c) s = .next t ∧
          t.sense.channels = modAt s.sense.channels c (fun x => { x with suspect := true, suspects := x.suspects + 1 }) ∧
          (quarterOf c < s.sense.quarters.length → ∃ st, (t.sense.quarters.getD (quarterOf c) {}).rot =
            .pre (positionOf c) st false) ∧
          { t with sense := s.sense } = s)) ∧
    (∀ q p errors m, q < 4 → p < 14 → (s.sense.quarters.getD q {}).rot = .homeTest p → s.waderFree q = true →
      (s.sense.slices.getD (q * 15 + p) {}).meas = some m → m.complete = true →
      (∃ e ∈ errors, 20000 < e.natAbs) ∨ measurementOk (s.sense.slices.getD (q * 15 + p) {}) m.coef = false →
      s.bufferBlamed q p (gainDeviation m.coef.gain) = false → s.sense.quarters.length = 4 →
      s.sense.slices.length = 60 →
      ∃ t, exec (.sliceSelftestEnd q errors) s = .next t ∧
        (t.sense.slices.getD (q * 15 + p) {}).retired = true ∧ (t.sense.quarters.getD q {}).permanent = true ∧
        (t.sense.quarters.getD q {}).standIn = some p ∧ (t.sense.quarters.getD q {}).stopped = true ∧
        ∃ e ∈ t.evidence.queue, e.code = 0x21 ∧ e.payload = [BitVec.ofNat 8 (channelAt q p)]) ∧
    (∀ q p errors m, q < 4 → (s.sense.quarters.getD q {}).rot = .waderTest p → s.sense.quarters.length = 4 →
      s.sense.channels.length = 60 → s.sense.slices.length = 60 →
      (s.sense.slices.getD (q * 15 + 14) {}).meas = some m → m.complete = true → (∀ e ∈ errors, e.natAbs ≤ 20000) →
      measurementOk (s.sense.slices.getD (q * 15 + 14) {}) m.coef = true →
      ∃ t, exec (.sliceSelftestEnd q errors) s = .next t ∧
        (t.sense.channels.getD (56 + q) {}).suspect = false ∧ (t.sense.quarters.getD q {}).rot = .idle ∧
        (t.sense.slices.getD (q * 15 + 14) {}).coef =
          if (s.sense.quarters.getD q {}).stopped then (s.sense.slices.getD (q * 15 + 14) {}).coef else m.coef) ∧
    (∀ q errors, (s.sense.quarters.getD q {}).rot = .idle → exec (.sliceSelftestEnd q errors) s = .next s) ∧
    (∀ q slot, (s.sense.quarters.getD q {}).rot = .idle →
      s.sense.connected = true ∨ (s.sense.slices.getD (q * 15 + slot) {}).meas = none →
      exec (.modulatorReset q slot) s = .next
      ((s.modSlice (q * 15 + slot) (fun l => { l with resets := l.resets ++ [s.sense.modCount.toNat] })).modChannel
        (if slot = 14 then 56 + q else channelAt q slot) (fun x => { x with modResets := x.modResets + 1 }))) ∧
    (∀ c, s.view.chanSensor c = 3 → exec (.rogowskiSeed c) s = .next (s.modChannel c (fun x =>
      let n := if s.view.chanFnom c = 60 then 267 else 320
      if x.stageE.seeded = false ∧ n ≤ x.stageE.seedCount then
        { x with stageE := { x.stageE with
          seeded := true, seed := roundEven x.stageE.seedSum n
          acc := satSigned 64 (x.stageE.acc - roundEven x.stageE.seedSum n) } }
      else x))) ∧
    (∀ c, s.view.chanSensor c ≠ 3 → exec (.rogowskiSeed c) s = .next s)

/-! ### Reckoning, latches, pulses, relays and demand -/

/-- R134, R138: a register's count and residue together grow by exactly the increment, modulo the 64-bit count. -/
def Obligations.RegistersAccumulateExactly : Prop :=
  ∀ (a : Acc) (inc : Nat) (d : Int),
    (a.add inc).total = (a.total + inc) % 2 ^ 112 ∧
    (a.addSigned d).total = ((a.total + d) % 2 ^ 112).toNat

/-- R21, R90, R128, R140, R327, R333, R451: once every lane has given the raw samples of the next strobe, they are taken
in, until the supply-fail warning. They pass the array; a metering sample that leaves it, twenty strobes behind, goes
first into the replay ring of 6,241 frames, and while an engine reckons both reckon it (R319). Nothing of the block but the array
and the ring changes by the passage itself. -/
def Obligations.SamplesAreTakenIn : Prop :=
  ∀ (s : State), Settled s →
    (s.sense.rawRows = none ∨ s.power.warning = true → exec .reckonedSample s = .next s) ∧
    (∀ raw, s.sense.rawRows = some raw → s.power.warning = false →
      let k := s.sense.nextRaw
      let u := senseSample raw s
      u.sense.nextRaw = (k + 1) % 2 ^ 48 ∧
      { u with sense := s.sense, engines := { u.engines with ring := s.engines.ring } } = s ∧
      (s.sense.connected = false ∨ k < s.sense.first + 20 →
        u.engines.ring = s.engines.ring ∧ u.sense.nextStrobe = s.sense.nextStrobe) ∧
      (s.sense.connected = true → s.sense.first + 20 ≤ k →
        (∃ f, u.engines.ring = (f :: s.engines.ring).take 6241 ∧ f.strobe = k - 20 ∧ f.samples.length = 56) ∧
        u.sense.nextStrobe = (k - 19) % 2 ^ 48) ∧
      (u.sense.nextStrobe = s.sense.nextStrobe → exec .reckonedSample s = .next u) ∧
      (∀ f, u.sense.nextStrobe ≠ s.sense.nextStrobe → u.engines.ring.head? = some f →
        let t := runCuts (flickerFrame f (halfFrame f (trackFrame f u)))
        exec .reckonedSample s = .next (if t.reckoningStopped then t else reckonBoth t.engines.ring t).endEdge))

/-- R143–R146: crossings and the boundaries they lay. The oldest crossing found on a bus ends a period of its reference:
an invalid one counts for nothing, a valid one is counted, two valid ones in a row within 0.5 % lock the bus, and a
locked bus takes its frequency from the last four valid periods and lays its boundary at the crossing. A bus that holds
its lock takes to the hold state once three periods have passed or its reference is gone, with the boundaries of the
periods that have passed laid; and a bus in nominal or hold lays its next one when it has come, the one after it a period
further. A boundary nearer to the last than half the period in force there is skipped. -/
def Obligations.LineCycleBoundaries : Prop :=
  ∀ (s : State) (b : Nat), Settled s → b < s.billing.buses.length →
    let bus := s.billing.buses.getD b {}
    let with_ := fun (x : Bus) => ({ s with billing := { s.billing with buses := modAt s.billing.buses b (fun _ => x) } } : State)
    (bus.found = [] → exec (.zeroCrossing b) s = .next s) ∧
    (∀ r i rest c, bus.found = (r, i) :: rest → bus.reference = some r → bus.lastCross = some c →
      let ps := ((i - c) :: bus.periods).take 4
      let counted := { bus with
        found := rest, lastCross := some i, lastValid := true, validCross := some i, periods := ps
        validCount := bus.validCount + 1 }
      let follow := fun (x : Bus) => lineCrossing b (some r) i (with_ x)
      (periodValid (i - c) = false → bus.state ≠ .locked → exec (.zeroCrossing b) s = .next
        (follow { bus with found := rest, lastCross := some i, lastValid := false }).endEdge) ∧
      (periodValid (i - c) = false → bus.state = .locked → exec (.zeroCrossing b) s = .next (layBoundary b i false
        (follow { bus with found := rest, lastCross := some i, lastValid := false })).endEdge) ∧
      (periodValid (i - c) = true → bus.state ≠ .locked →
        bus.lastValid = false ∨ bus.periods.headD 0 < 200 * ((i - c : Int) - bus.periods.headD 0).natAbs →
        exec (.zeroCrossing b) s = .next (follow counted).endEdge) ∧
      (c ≤ i → periodValid (i - c) = true → bus.state = .locked ∨ (bus.lastValid = true ∧
          200 * ((i - c : Int) - bus.periods.headD 0).natAbs ≤ bus.periods.headD 0) →
        exec (.zeroCrossing b) s = .next (layBoundary b i false (follow
          { counted with state := .locked, freq := freqOfPeriods ps, nextSynth := none })).endEdge)) ∧
    (s.holdDue b = false ∨ bus.validCross = none → exec (.frequencyHold b) s = .next s) ∧
    (∀ c, s.holdDue b = true → bus.validCross = some c →
      let p := periodOf bus.freq
      let lay := fun (k : Nat) (t : State) => layBoundary b (c + k * p) true (lineHeld b (c + k * p) t)
      let t := fun (k : Nat) => with_ { bus with state := .hold, lastValid := false, nextSynth := some (c + k * p) }
      let past := fun (k : Nat) => c + k * p ≤ s.liveInstant
      (past 3 → exec (.frequencyHold b) s = .next (lay 3 (lay 2 (lay 1 (t 4)))).endEdge) ∧
      (past 2 → ¬ past 3 → exec (.frequencyHold b) s = .next (lay 2 (lay 1 (t 3))).endEdge) ∧
      (past 1 → ¬ past 2 → exec (.frequencyHold b) s = .next (lay 1 (t 2)).endEdge) ∧
      (¬ past 1 → exec (.frequencyHold b) s = .next (t 1))) ∧
    (bus.state = .locked ∨ bus.nextSynth = none → exec (.synthesisedBoundary b) s = .next s) ∧
    (∀ n, bus.state ≠ .locked → bus.nextSynth = some n →
      (s.liveInstant < n → exec (.synthesisedBoundary b) s = .next s) ∧
      (n ≤ s.liveInstant → exec (.synthesisedBoundary b) s = .next (layBoundary b n true
        (lineHeld b n (with_ { bus with nextSynth := some (n + periodOf bus.freq) }))).endEdge)) ∧
    (∀ i synth,
      (∀ l, bus.lastBoundary = some l → i < l + bus.lastHalf → layBoundary b i synth s = s) ∧
      ((∀ l, bus.lastBoundary = some l → l + bus.lastHalf ≤ i) →
        (layBoundary b i synth s).billing.buses = modAt s.billing.buses b (fun x =>
          { x with lastBoundary := some i, lastHalf := periodOf x.freq / 2, waiting := x.waiting ++ [{ instant := i, synth := synth }] })))

/-- R96, R161, R166: the line-cycle boundaries of the pacing bus are counted, and the first that is the N-th since the
last latch, or that LATCH_NOW forces, becomes a latch boundary: it joins those whose samples are awaited, sets the LATCH
interrupt, and the calibration written before its strobe comes into force, where no configuration waits from before it. R72, R164, R327: the oldest captured latch is published
in one step, unless reckoning has stopped: its generation number follows the last, skipping 0.
Where the spec leaves a reading open it is that of log entries 44 and 147. -/
def Obligations.LatchesAreFixedAndPublished : Prop :=
  (∀ (s : State), Settled s →
    let l := s.billing.latch
    let put := fun (x : Latch) => ({ s with billing := { s.billing with latch := x } } : State)
    (l.fresh = [] ∨ l.cycles + l.fresh.length < s.paceView.latchN → (∀ y ∈ l.fresh, y.forced = false) →
      exec .latchBoundary s = .next (put { l with cycles := l.cycles + l.fresh.length, fresh := [] })) ∧
    (∀ before x rest, l.fresh = before ++ x :: rest → (∀ y ∈ before, y.forced = false) →
      before = [] ∨ l.cycles + before.length < s.paceView.latchN →
      s.paceView.latchN ≤ l.cycles + before.length + 1 ∨ x.forced = true → ∃ t, exec .latchBoundary s = .next t ∧
        t.link.irqPending = s.link.irqPending ||| 8#12 ∧
        ((∀ y ∈ s.start.pending, x.b ≤ y.strobe) →
          t.billing.latch = { l with
            fixed := l.fixed ++ [{ b := x.b, cycles := l.cycles + before.length + 1, leadIn := l.leadInterval
                                   forced := x.forced, synth := x.synth }]
            cycles := 0, fresh := rest, leadInterval := false } ∧
          (∀ c, let y := s.sense.channels.getD c {}
            let z := t.sense.channels.getD c {}
            let last := fun (test : Nat → Bool) => (y.writes.filter (fun w => test w.member && decide (w.strobe < x.b))).getLast?
            z.gain = (match last (fun m => m == 3) with | some w => w.value.toNat | none => y.gain) ∧
            z.offset = (match last (fun m => m == 4) with | some w => w.value | none => y.offset) ∧
            z.delay = (match last (fun m => m != 3 && m != 4) with | some w => w.value | none => y.delay) ∧
            z.writes = y.writes.filter (fun w => decide (x.b ≤ w.strobe))) ∧
          ((∀ c ∈ s.sense.channels, ∀ w ∈ c.writes, x.b ≤ w.strobe) →
            { t with link := s.link, billing := s.billing } = s)))) ∧
  (∀ (s : State), Settled s →
    (s.reckoningStopped = true ∨ s.billing.latch.captured = [] → exec .latchPublish s = .next s) ∧
    (∀ c rest, s.reckoningStopped = false → s.billing.latch.captured = c :: rest → s.engines.floor = none →
      ∃ t, exec .latchPublish s = .next t ∧
        t.billing = { s.billing with latch := { s.billing.latch with captured := rest, published := c } } ∧
        t.link.generation = (if s.link.generation = 0xFFFFFFFF#32 then 1 else s.link.generation + 1) ∧
        t.store.cells = s.store.cells ∧
        { t with link := s.link, billing := s.billing, store := s.store, engines := { t.engines with floor := s.engines.floor } } = s))

/-- R172–R174, R176, R177: pulses, each event at an instant to which it brings the strobe count. The sluice begins a tail
pulse first, else the first converted pulse whose start has come and whose number it has not begun; none begins in HOLD,
during a pulse or before one width after the last has passed. A pulse takes the width and the polarity then in force, and
ends when its width has run. -/
def Obligations.PulsesBeginAndEnd : Prop :=
  ∀ (s : State) (o t : Nat), Settled s →
    let r := s.reachMicros t
    let po := s.sluice.pulses.getD o {}
    let pe := s.billing.pulses.getD o {}
    let begins := fun (d : Nat) (x : PulseOut) (y : PulseEngine) => ({ r with
      billing := { r.billing with pulses := modAt r.billing.pulses o (fun _ =>
        { y with lateness := min (t - d) (2 ^ 32 - 1), lagSeen := y.lagSeen || decide (d < t) }) }
      sluice := { r.sluice with pulses := modAt r.sluice.pulses o (fun _ =>
        { x with pulse := true, ends := t + 1000 * s.view.poWidth o, notBefore := t + 2000 * s.view.poWidth o
                 polarity := bit 16 (s.view.po o) }) } } : State).auxEventAt t (3 + o)
    { r with sense := { r.sense with modCount := s.sense.modCount, slices := s.sense.slices } } = s ∧
    (s.sluiceOpen = false ∨ po.pulse = true ∨ t < po.notBefore → exec (.pulseStart o t) s = .next r) ∧
    (s.sluiceOpen = true → po.pulse = false → po.notBefore ≤ t →
      (∀ d ds, po.tail = d :: ds → exec (.pulseStart o t) s = .next (begins d { po with tail := ds } pe)) ∧
      (po.tail = [] → pe.due = [] → exec (.pulseStart o t) s = .next r) ∧
      (∀ d ds, po.tail = [] → pe.due = d :: ds →
        let n := pe.converted - BitVec.ofNat 64 ds.length
        let taken := { pe with due := ds }
        (t < d ∨ s.view.poQty o = 0 → exec (.pulseStart o t) s = .next r) ∧
        (d ≤ t → s.view.poQty o ≠ 0 → n ≤ po.lastBegun → exec (.pulseStart o t) s = .next
          { r with billing := { r.billing with pulses := modAt r.billing.pulses o (fun _ => taken) } }) ∧
        (d ≤ t → s.view.poQty o ≠ 0 → po.lastBegun < n → exec (.pulseStart o t) s = .next
          (begins d { po with lastBegun := n, emitted := po.emitted + 1 } taken)))) ∧
    (exec (.pulseEnd o t) s = .next (if po.pulse = true ∧ po.ends ≤ t then
      ({ r with sluice := { r.sluice with pulses := modAt r.sluice.pulses o (fun _ =>
        { po with pulse := false }) } } : State).auxEventAt po.ends (11 + o) else r))

/-- R178–R181, R200, R317, R612: load control. A command in its pair's mode drives a coil or a level when the sluice is open,
waits behind a coil pulse or guard time where only the newest is kept and the others are counted, and is refused in the
other mode; a coil pulse lasts COIL × 10 ms, ends in its state and begins the guard time of GUARD seconds, whose end runs
what waits, or keeps it while the sluice takes no command; before their times the two ends do nothing. -/
def Obligations.RelaysOperate : Prop :=
  ∀ (s : State), Settled s →
    (∀ port tag (p : Nat), p < 2 → s.start.heldMask = 0 →
      let x := s.sluice.pairs.getD p {}
      let row := fun (out k : Nat) => writeReq port tag (idx 3 (8 + out) 2) (leBytes 4 (k * 2 ^ 24))
      let noted := fun (out k : Nat) (t : State) => t.modPair p (fun x =>
        if out % 2 = 0 then { x with lastLower := BitVec.ofNat 8 k } else { x with lastUpper := BitVec.ofNat 8 k })
      let does := fun (c : Instr) (out k : Nat) (cmd : RelayCmd) => Takes 0x02 (row out k) s →
        exec c s = .next (answered 0x02 (row out k) .ok []
          (commandRelay out cmd .host (noted out k (begun 0x02 (row out k) s)))).endEdge
      let bad := fun (c : Instr) (out k : Nat) (st : Status) => Takes 0x02 (row out k) s →
        exec c s = .next (answered 0x02 (row out k) st [] (begun 0x02 (row out k) s))
      (x.level = false →
        does (.relayClose port tag (2 * p)) (2 * p) 1 .toClose ∧ does (.relayOpen port tag (2 * p)) (2 * p) 2 .toOpen ∧
        bad (.relayOn port tag (2 * p)) (2 * p) 3 .badParam ∧ bad (.relayOff port tag (2 * p)) (2 * p) 4 .badParam ∧
        bad (.relayClose port tag (2 * p + 1)) (2 * p + 1) 1 .isProtected) ∧
      (x.level = true → ∀ out, out / 2 = p →
        does (.relayOn port tag out) out 3 .on ∧ does (.relayOff port tag out) out 4 .off ∧
        bad (.relayClose port tag out) out 1 .badParam ∧ bad (.relayOpen port tag out) out 2 .badParam)) ∧
    (∀ (p : Nat) (c : RelayCmd) (src : RelaySource), p < s.sluice.pairs.length → s.held 0 = false → s.sluiceOpen = true →
      let x := s.sluice.pairs.getD p {}
      (c = .toClose ∨ c = .toOpen → x.level = false →
        let y := (commandRelay (2 * p) c src s).sluice.pairs.getD p {}
        (x.coil = none → x.guarding = false → x.pendingCmd = none →
          y = { x with coil := some c, until_ := s.micros + 1000 * s.view.lcCoil p, source := src, operations := x.operations + 1, unsaved := false
                       state := if c = .toClose then .closing else .opening }) ∧
        (x.coil ≠ none ∨ x.guarding = true →
          y = (if x.pendingCmd.isSome then
            { x with pendingCmd := some (c, src), superseded := x.superseded + 1, unsaved := false }
            else { x with pendingCmd := some (c, src) }))) ∧
      (x.level = true →
        (commandRelay (2 * p) .on src s).sluice.pairs.getD p {} = (if x.lowerOn then x else
          { x with lowerOn := true, operations := x.operations + 1, source := src, unsaved := false }) ∧
        (commandRelay (2 * p + 1) .off src s).sluice.pairs.getD p {} = (if x.upperOn then
          { x with upperOn := false, operations := x.operations + 1, source := src, unsaved := false } else x))) ∧
    (∀ p c, (s.sluice.pairs.getD p {}).coil = some c → (s.sluice.pairs.getD p {}).newLevel = none →
      let x := s.sluice.pairs.getD p {}
      exec (.coilPulseEnd p) s = .next (if s.micros < x.until_ then s else (s.modPair p (fun x =>
        { x with coil := none, guarding := true, until_ := x.until_ + 1000000 * s.view.lcGuard p
                 state := if c = .toClose then .closed else .opened })).auxEventAt x.until_
          (23 + 2 * p + (if c = .toClose then 0 else 1)))) ∧
    (∀ p, (s.sluice.pairs.getD p {}).coil = none → exec (.coilPulseEnd p) s = .next s) ∧
    (∀ p, (s.sluice.pairs.getD p {}).guarding = false ∨ s.micros < (s.sluice.pairs.getD p {}).until_ →
      exec (.guardTimeEnd p) s = .next s) ∧
    (∀ p, (s.sluice.pairs.getD p {}).guarding = true → (s.sluice.pairs.getD p {}).until_ ≤ s.micros →
      p < s.sluice.pairs.length →
      let x := s.sluice.pairs.getD p {}
      (x.pendingCmd = none ∨ x.coil ≠ none ∨ s.sluiceOpen = false →
        exec (.guardTimeEnd p) s = .next (s.modPair p (fun x => { x with guarding := false }))) ∧
      (∀ c src, x.pendingCmd = some (c, src) → x.coil = none → s.sluiceOpen = true → ∃ t,
        exec (.guardTimeEnd p) s = .next t ∧
        t.sluice.pairs.getD p {} = { x with
          guarding := false, pendingCmd := none, coil := some c, until_ := s.micros + 1000 * s.view.lcCoil p
          source := src, operations := x.operations + 1
          unsaved := false, state := if c = .toClose then .closing else .opening }))

/-- R168, R182, R184–R187, R503, R508: demand. A second that is a multiple of the sub-interval ends it, from the first
valid sample on; a formed window is published once no latch of its split or before waits to be, and raises each maximum
that it exceeds; one that enters its limit opens the service's relay, and one within it moves no output. The key of a
demand reset clears the service's four maxima and logs them in four entries; any other value is refused.
Where the spec leaves a reading open it is that of log entry 121. -/
def Obligations.DemandIsFormed : Prop :=
  ∀ (s : State), Settled s →
    (exec .demandBoundary s = .next (if s.sense.connected = true ∧ s.firstRaw * 256 < s.sense.modCount.toNat ∧
        s.sec % s.view.demandSub = 0 ∧
        ¬ s.billing.subEnds.any (fun e => e.strobe.isNone && e.tick == s.sec * tps) = true then
      { s with billing := { s.billing with subEnds := s.billing.subEnds ++ [{ tick := s.sec * tps, strobe := none }] } } else s)) ∧
    ((∀ n, n < 16 → (s.billing.services.getD n {}).demand.formed = []) → exec .demandPublish s = .next s) ∧
    (∀ n a w ws, n < 16 → s.billing.services.length = 16 → (s.billing.services.getD n {}).demand.formed = (a, w) :: ws →
      (∀ k, k < 16 → k ≠ n → (s.billing.services.getD k {}).demand.formed = []) →
      ((∃ c ∈ s.billing.latch.captured, c.boundary.b ≤ a) → exec .demandPublish s = .next s) ∧
      ((∀ c ∈ s.billing.latch.captured, a < c.boundary.b) →
      let d := (s.billing.services.getD n {}).demand
      let trip := s.overLimit n w && !d.inRun
      ∃ t, exec .demandPublish s = .next t ∧
        (t.billing.services.getD n {}).demand.formed = ws ∧
        (t.billing.services.getD n {}).demand.last = { w with tripped := trip } ∧
        (∀ k, k < 4 → ((t.billing.services.getD n {}).demand.maxima.getD k {}).value = max (d.maxima.getD k {}).value (w.values.getD k 0)) ∧
        (trip = true → t.sluice = (commandRelay (2 * s.view.limitRelay n) .toOpen .limit s).sluice) ∧
        (trip = false → t.sluice = s.sluice ∧ t.store = s.store) ∧ t.link = s.link ∧ t.backup = s.backup)) ∧
    (∀ port tag n (v : BitVec 16), n < 16 →
      let r := writeReq port tag (idx 2 n 15) (leBytes 2 v.toNat)
      Takes 0x02 r s →
        (v ≠ 0x4D52 → exec (.demandReset port tag n v) s = .next (answered 0x02 r .badParam [] (begun 0x02 r s))) ∧
        (v = 0x4D52 → s.billing.services.length = 16 → ∃ t, exec (.demandReset port tag n v) s = .next t ∧
          (t.billing.services.getD n {}).demand =
            { (s.billing.services.getD n {}).demand with maxima := List.replicate 4 {} } ∧
          (∀ k, k ≠ n → t.billing.services.getD k {} = s.billing.services.getD k {}) ∧
          (t.evidence.queue.drop s.evidence.queue.length).map (fun e => (e.code, e.ext)) =
            [(0x44, false), (0x44, true), (0x44, true), (0x44, true)] ∧
          t.link = (answered 0x02 r .ok [] (begun 0x02 r s)).link))

/-- R95, R96, R119, R446, R559: a calibration write in range goes into the record and waits for the first latch boundary
that is fixed behind the strobe of the write; out of range it is refused, and so is any while its block of the store is
protected. -/
def Obligations.CalibrationIsWritten : Prop :=
  ∀ (s : State) port tag (c m : Nat) (v : BitVec 32), Settled s → c < 56 → 3 ≤ m → m ≤ 5 →
    let r := writeReq port tag (idx 1 c m) (leBytes 4 v.toNat)
    let b := begun 0x02 r s
    Takes 0x02 r s →
      (s.protects 0x60000 = true → exec (.calibrationWrite port tag c m v) s = .next (answered 0x02 r .isProtected [] (b.countStore 6))) ∧
      (s.protects 0x60000 = false →
        let ok := if m = 3 then 2 ^ 29 ≤ v.toNat ∧ v.toNat ≤ 2 ^ 31 else if m = 4 then -(2 ^ 25) ≤ v.toInt ∧ v.toInt ≤ 2 ^ 25
          else -(2 ^ 22) ≤ v.toInt ∧ v.toInt ≤ 2 ^ 22
        (¬ ok → exec (.calibrationWrite port tag c m v) s = .next (answered 0x02 r .badParam [] b)) ∧
        (ok → ∃ t, exec (.calibrationWrite port tag c m v) s = .next (answered 0x02 r .ok [] t) ∧
          t.sense.channels = modAt s.sense.channels c (fun x => { x with writes := x.writes ++
            [{ member := m, value := if m = 3 then (v.toNat : Int) else v.toInt, strobe := s.sense.modCount.toNat / 256 }] }) ∧
          t.store = (saveCalibration c m v.toNat b).store ∧ { t with sense := b.sense, store := b.store } = b))

/-! ### Analysis and recording -/

/-- R206, R211, R212, R219, R220, R251: intervals that end. The first window of a bus that has ended is analysed once the
ring holds all it draws on: it is counted and taken off, the count stands first among the values of the channels that are
analysed, and no other channel's change. A value joins its watched channel over the cycle from its oldest half-cycle
boundary to the second one after it. The oldest flicker interval that has closed gives its channel its short-term figure,
and at the end of two hours the long-term one, once the events of its bus have been judged to its end. A pin request whose
instant has come, or the first pin of a long event, is made of the segments that its span overlaps; it is skipped beyond 32
in the hour, and has failed where there is no archive, no segment or no room. -/
def Obligations.AnalysisIntervalsEnd : Prop :=
  ∀ (s : State), Settled s →
    (∀ b, (s.xa.buses.getD b {}).ended = [] → exec (.analysisWindowComplete b) s = .next s) ∧
    (∀ b w ws, (s.xa.buses.getD b {}).ended = w :: ws → s.windowHeld b w = false →
      exec (.analysisWindowComplete b) s = .next s) ∧
    (∀ b w ws, b < s.xa.buses.length → (s.xa.buses.getD b {}).ended = w :: ws → s.windowHeld b w = true →
      ∃ t, exec (.analysisWindowComplete b) s = .next t ∧ (t.xa.buses.getD b {}).ended = ws ∧
        (t.xa.buses.getD b {}).count = (s.xa.buses.getD b {}).count + 1 ∧ t.free = s.free + 1 ∧
        (s.xa.channels.length = 56 → ∀ c, c < 56 →
          if c ∈ s.view.windowChannels b ∧ s.part.fitXa = true ∧ s.view.analysed c = true
          then (t.xa.channels.getD c {}).summary.take 4 = leBytes 4 ((s.xa.buses.getD b {}).count + 1).toNat
          else t.xa.channels.getD c {} = s.xa.channels.getD c {}) ∧
        { t with xa := s.xa, free := s.free, archive := { t.archive with offered := s.archive.offered } } = s) ∧
    (∀ c, c < 48 ∨ 56 ≤ c ∨ s.view.chanOn c = false ∨ s.view.watched (c - 48) = false ∨ s.xa.suspended = true ∨
        s.part.fitXa = false ∨ (s.xa.watched.getD (c - 48) {}).halves.length < 3 →
      exec (.halfCycleRms c) s = .next s) ∧
    (∀ u a m b rest, u < 8 → s.view.chanOn (48 + u) = true → s.view.watched u = true → s.xa.suspended = false →
      s.part.fitXa = true → u < s.xa.watched.length → (s.xa.watched.getD u {}).halves = a :: m :: b :: rest →
      let held := (s.engines.ring.head?).any (fun f => decide (b ≤ f.strobe * 65536 + 65536))
      let fs := s.ringSpan (a / 65536) ((b + 65535) / 65536)
      let next := { s with xa := { s.xa with
        watched := modAt s.xa.watched u (fun w => { w with halves := m :: b :: rest }) } }
      (held = false → exec (.halfCycleRms (48 + u)) s = .next s) ∧
      (held = true → fs.length ≠ (b + 65535) / 65536 - a / 65536 → exec (.halfCycleRms (48 + u)) s = .next next) ∧
      (held = true → fs.length = (b + 65535) / 65536 - a / 65536 → ∃ t, exec (.halfCycleRms (48 + u)) s = .next t ∧
        (t.xa.watched.getD u {}).halves = m :: b :: rest ∧
        (t.xa.watched.getD u {}).values = ({ v := cycleRms fs (48 + u) a b, tick := s.timeNear a, at_ := a } ::
          (s.xa.watched.getD u {}).values).take 121 ∧
        t.store.cells = s.store.cells ∧
        { t with xa := s.xa, evidence := s.evidence, sluice := s.sluice, store := s.store, line := s.line } = s)) ∧
    (∃ t, exec .pstIntervalEnd s = .next t ∧ t.xa.channels.length = s.xa.channels.length ∧
      { t with xa := { t.xa with channels := s.xa.channels } } = s ∧
      ∀ u, u < s.xa.channels.length →
        let x := s.xa.channels.getD u {}
        let y := t.xa.channels.getD u {}
        let b := s.view.busOf (u - 48)
        (x.closed = [] → y = x) ∧
        (∀ c rest, x.closed = c :: rest → s.judgedTo b (c.strobe * 65536) = false → y = x) ∧
        (∀ c rest, x.closed = c :: rest → s.judgedTo b (c.strobe * 65536) = true →
          y.closed = rest ∧ y.summary = x.summary ∧ y.meter = x.meter ∧
          y.flicker.take 4 = leBytes 4 (shortTerm c.classes) ∧ (y.flicker.drop 4).take 6 = leBytes 6 c.endSec ∧
          (y.flicker.drop 10).take 2 = leBytes 2 (flag c.settling + 2 * flag c.part + 4 * flag (c.event || s.eventIn b c)) ∧
          (c.long = false → (y.flicker.drop 12).take 12 = (x.flicker.drop 12).take 12) ∧
          (c.long = true → y.psts = [] ∧ (y.flicker.drop 12).take 4 = leBytes 4 (longTerm (x.psts ++
            [(shortTerm c.classes, c.settling || c.part || (c.event || s.eventIn b c))])).1))) ∧
    (s.archiveGate = some .busy → exec .eventPinDue s = .next (giveWork s)) ∧
    (s.xa.pins.find? (fun p => decide (p.due ≤ s.ticks)) = none → s.longEvent = none →
      exec .eventPinDue s = .next (giveWork s)) ∧
    (∀ p out, s.archiveGate ≠ some .busy →
      (s.xa.pins.find? (fun p => decide (p.due ≤ s.ticks)) = some p ∧
        out = { s with xa := { s.xa with pins := s.xa.pins.erase p } }) ∨
      (s.xa.pins.find? (fun p => decide (p.due ≤ s.ticks)) = none ∧ ∃ b e, s.longEvent = some (b, e) ∧
        p = { fromTick := e.start - s.view.pinPre * 32768, toTick := e.start + s.view.pinPost * 32768
              reason := 0x0F + e.kind.code, event := e.number, due := s.ticks } ∧
        out = modEvent b e.kind (fun e => { e with pinnedTo := some p.toTick }) s) →
      let segs := out.overlapping p.fromTick p.toTick
      let counted : State := { out with xa := { out.xa with pinsHour := s.pinsThisHour + 1, pinHour := s.sec / 3600 } }
      (32 ≤ s.pinsThisHour → exec .eventPinDue s = .next (giveWork
        { setOutcome p.event 3 out with xa := { (setOutcome p.event 3 out).xa with
          counters := modAt s.xa.counters 6 (· + 1) } })) ∧
      (s.pinsThisHour < 32 → s.archiveGate = none → segs ≠ [] → s.archive.pins.length < 1024 → s.pinFits segs = true →
        ∃ made : State, exec .eventPinDue s = .next (giveWork made) ∧
          made.archive.pins = s.archive.pins ++ [({
              number := s.archive.nextPin, reason := p.reason, fromSec := p.fromTick / 32768
              toSec := (p.toTick + 32767) / 32768, firstSeg := segs.headD 0, lastSeg := segs.getLast?.getD 0
              evidence := ((s.xa.numbers.find? (fun x => x.1 == p.event)).map (·.2)).getD 0, covers := segs } : Pin)] ∧
          made.archive.nextPin = (s.archive.nextPin + 1) % 2 ^ 32 ∧
          made.archive.offered.length = s.archive.offered.length + 1 ∧
          made.xa = { counted.xa with asked := s.xa.asked ++ [(s.archive.nextPin, p.event)] } ∧
          { made with archive := s.archive, xa := s.xa } = s) ∧
      (s.pinsThisHour < 32 → s.archiveGate = some .wrongState ∨ segs = [] ∨ 1024 ≤ s.archive.pins.length ∨
          s.pinFits segs = false →
        exec .eventPinDue s = .next (giveWork { setOutcome p.event 2 counted with xa :=
          { (setOutcome p.event 2 counted).xa with counters := modAt s.xa.counters 7 (· + 1) } })))

/-- R238, R239, R246, R252, R255–R257: records. An aligned boundary while recording runs cuts the segments at the first
recording sample that stands for it: the one before is coded up to the cut, and once it is (or none is being coded, or it
is dropped) and no configuration can move the cut, the next opens there under the next number. The block of the channel
that comes next joins its segment with the recording samples of its span, a mismatch putting the coder under test, whose
failure takes it out of service. Layouts are repeated for the buses in use. The oldest closed profile interval goes to the
peat tier and to the store's mirror under the next sequence number, but not during HOLD. -/
def Obligations.RecordsAreWritten : Prop :=
  ∀ (s : State), Settled s →
    let e := s.sec / 10 * 10
    (s.recordingOn = false → exec .segmentBoundary s = .next s) ∧
    (∀ l, s.lastAligned = some l → e * 32768 < l → exec .segmentBoundary s = .next s) ∧
    (s.recordingOn = true → (∀ l, s.lastAligned = some l → l ≤ e * 32768) →
      let c : SegmentCut := { strobe := evenUp (s.strobeOfSecond e), ends := e * 32768, before := 0, after := 0 }
      (∀ g, s.recording.cuts = [] → s.recording.segment = some g → g.dropped = false → g.codedTo c.strobe = false →
        exec .segmentBoundary s = .next { s with recording := { s.recording with cuts := [c] } }) ∧
      (s.recording.cuts = [] → s.settledTo (c.strobe - 1) = false →
        exec .segmentBoundary s = .next { s with recording := { s.recording with cuts := [c] } }) ∧
      (s.recording.cuts = [] → s.settledTo (c.strobe - 1) = true →
        (∀ g, s.recording.segment = some g → g.dropped = true ∨ g.codedTo c.strobe = true) →
        ∃ t g, exec .segmentBoundary s = .next t ∧ t.recording.cuts = [] ∧ t.recording.segment = some g ∧
          g.seq = (s.recording.lastSeq + 1) % 2 ^ 32 ∧ t.recording.lastSeq = g.seq ∧ g.startStrobe = c.strobe ∧
          g.startStrobe % 2 = 0 ∧ g.alignedEnd % (10 * 32768) = 0 ∧
          { t with recording := s.recording, archive := s.archive, link := s.link } = s) ∧
      exec .segmentBoundary s = .next (runCuts { s with recording := { s.recording with
        cuts := insertCut c s.recording.cuts } }).endEdge) ∧
    (s.recording.segment = none → ∀ c v, exec (.seepBlockComplete c v) s = .next s) ∧
    (∀ g c v, s.recording.segment = some g → g.dropped = true ∨ g.nextChannel ≠ some c ∨ s.power.warning = true ∨
      s.nextBlock g c = none → exec (.seepBlockComplete c v) s = .next s) ∧
    (∀ g c v k n, s.recording.segment = some g → g.dropped = false → g.nextChannel = some c → s.power.warning = false →
      s.nextBlock g c = some (k, n) →
      let xs := recordSamples s.engines.ring c k n
      k = g.startStrobe + 2 * (g.channels.getD c {}).samples ∧ 0 < n ∧ n ≤ 256 ∧ xs.length = n ∧
      (s.recording.cuts ≠ [] → exec (.seepBlockComplete c v) s = .next
        (runCuts (codeNext g c xs (blockMarks s.engines.ring c k n) v s)).endEdge) ∧
      (s.recording.cuts = [] → c < g.channels.length → ∃ t g' bytes, exec (.seepBlockComplete c v) s = .next t ∧
        t.recording.segment = some g' ∧ g'.seq = g.seq ∧
        (g'.channels.getD c {}).blocks = (g.channels.getD c {}).blocks + 1 ∧
        (g'.channels.getD c {}).samples = (g.channels.getD c {}).samples + n ∧
        t.archive = { s.archive with offered := s.archive.offered ++
          [(0, { bytes := bytes, seg := some g.seq, complete := false, time := g.startTick })] } ∧
        t.recording.mismatches = s.recording.mismatches + (if v then 0 else 1) ∧
        t.recording.coderTesting = (s.recording.coderTesting || !v) ∧
        { t with recording := s.recording, archive := s.archive } = s)) ∧
    (s.recording.coderTesting = false → ∀ ok, exec (.coderSelftestEnd ok) s = .next s) ∧
    (s.recording.coderTesting = true →
      exec (.coderSelftestEnd true) s = .next { s with recording := { s.recording with coderTesting := false } } ∧
      ∃ t, exec (.coderSelftestEnd false) s = .next t ∧ t.recording.coderOk = false ∧ t.recording.coderTesting = false ∧
        t.billing = s.billing ∧ t.store.cells = s.store.cells) ∧
    (s.sense.connected = false ∨ s.held 2 = true → exec .layoutRecordHourly s = .next s) ∧
    (s.sense.connected = true → s.held 2 = false → ∃ t, exec .layoutRecordHourly s = .next t ∧
      t.archive.offered.length =
        s.archive.offered.length + ((List.range 8).filter (fun b => !(s.view.busChans b).isEmpty)).length ∧
      { t with recording := { t.recording with layouts := s.recording.layouts }
               archive := { t.archive with offered := s.archive.offered } } = s) ∧
    (s.billing.profileClosed = [] ∨ s.sluice.hold = true → exec .profileRecord s = .next s) ∧
    (∀ c cs, s.billing.profileClosed = c :: cs → s.sluice.hold = false →
      let r := profileRecord (s.recording.profileSeq + 1).toNat c
      exec .profileRecord s = .next { s with
        billing := { s.billing with profileClosed := cs }
        recording := { s.recording with profileSeq := s.recording.profileSeq + 1 }
        archive := { s.archive with offered := s.archive.offered ++ [(2, { bytes := r, time := c.endSec * 32768 })] }
        store := s.store.record Ring.mirror r })

/-! ### Archive -/

/-- R280, R281, R283, R305: mounting. Each of its phases ends only where it is under way; a mount raises the mount count
and the ARCHIVE interrupt; a format also draws a new archive ID and leaves no pin, and mounts unless the devices do not match.
The commands that format or mount again are refused while one is under way, or without a device to format; taken, they
unmount the archive, which raises the ARCHIVE interrupt where it was mounted, and a mount so begun scans and never formats. -/
def Obligations.ArchiveMounts : Prop :=
  ∀ (s : State), Settled s →
    let unmounted := fun (t : State) => t.archive.flash = s.archive.flash ∧ t.archive.reads = [] ∧
      t.link.irqPending = (if s.archive.state = .mounted then s.link.irqPending ||| 32#12 else s.link.irqPending)
    let mounted := fun (t : State) => t.archive.state = .mounted ∧
      t.archive.stuck = false ∧ t.archive.mountCount = s.archive.mountCount + 1 ∧ t.link.irqPending = s.link.irqPending ||| 32#12 ∧
      t.start.mounted = (if s.start.mounted = 0xFFFFFFFF then s.sinceRelease 1000 else s.start.mounted) ∧
      t.billing = s.billing ∧ t.store.cells = s.store.cells
    (s.archive.state ≠ .mounting → exec .mountFromCheckpoint s = .next s) ∧
    (s.archive.state = .mounting → ∃ t, exec .mountFromCheckpoint s = .next t ∧ mounted t) ∧
    (s.archive.state ≠ .scan1 → exec .scanPhase1End s = .next s) ∧
    (s.archive.state = .scan1 → ∃ t, exec .scanPhase1End s = .next t ∧ t.archive.state = .scan2 ∧
      t.billing = s.billing ∧ t.store = s.store ∧ t.start = s.start) ∧
    (s.archive.state ≠ .scan2 → exec .scanPhase2End s = .next s) ∧
    (s.archive.state = .scan2 → ∃ t, exec .scanPhase2End s = .next t ∧ mounted t) ∧
    (s.archive.state ≠ .formatting → exec .formatEnd s = .next s) ∧
    (s.archive.state = .formatting → ∃ t, exec .formatEnd s = .next t ∧ t.archive.pins = [] ∧
      t.archive.archiveId = s.freeValue % 2 ^ 64 ∧ t.free = s.free + 1 ∧ (s.archive.mismatched = false → mounted t) ∧
      (s.archive.mismatched = true → t.archive.state = .mismatch ∧ t.archive.mountCount = s.archive.mountCount)) ∧
    (∀ port tag, heldIn s.start.heldMask.toNat 0x4002 = false →
      let f := writeReq port tag 0x4002 (leBytes 2 0x464D)
      let m := writeReq port tag 0x4002 (leBytes 2 0x4D54)
      (Takes 0x02 f s → s.archive.state.busy = true ∨ s.archive.count = 0 →
        exec (.archiveFormat port tag) s = .next (answered 0x02 f .wrongState [] (begun 0x02 f s))) ∧
      (Takes 0x02 f s → s.archive.state.busy = false → s.archive.count ≠ 0 → ∃ t,
        exec (.archiveFormat port tag) s = .next (answered 0x02 f .ok [] t) ∧ t.archive.state = .formatting ∧
        unmounted t ∧ { t with archive := s.archive, link := (begun 0x02 f s).link } = begun 0x02 f s) ∧
      (Takes 0x02 m s → s.archive.state.busy = true →
        exec (.mountAgain port tag) s = .next (answered 0x02 m .wrongState [] (begun 0x02 m s))) ∧
      (Takes 0x02 m s → s.archive.state.busy = false → ∃ t,
        exec (.mountAgain port tag) s = .next (answered 0x02 m .ok [] t) ∧ unmounted t ∧
        t.archive.state = (if s.archive.devices.all (fun d => d.part.isNone) then .noDevice
          else if s.archive.mismatched then .mismatch else .scan1) ∧
        { t with archive := s.archive, link := (begun 0x02 m s).link } = begun 0x02 m s))

/-- R277, R279, R284, R287–R290, R292: the mere and the flash. A record is admitted where the mere has room, a gap marker
before the segments, and one that lifts the fill to 90 % makes the oldest seep segment give way to a gap marker; from a
failure until a mount succeeds seep is discarded and peat takes the room of pool. What the controller does next is its own
affair: it touches nothing but the archive. An operation that ends frees its
device; a block that reads with a high count of corrections in the peat or the pinned tier is to be refreshed, and a page
that cannot be read is noted and counted; an operation that does not end is tried once more, and then the archive has
failed. -/
def Obligations.FlashWorks : Prop :=
  (∀ s : State, { giveWork s with archive := s.archive } = s) ∧
  ∀ (s : State), Settled s →
    let put := fun (a : Archive) => ({ s with archive := a } : State)
    let idle := fun (d : Nat) => put { s.archive with
      devices := modAt s.archive.devices d (fun (x : FlashDevice) => ({ x with op := none } : FlashDevice)) }
    let retry := fun (d : Nat) (b : Bool) => put { s.archive with
      devices := modAt s.archive.devices d (fun (x : FlashDevice) => ({ x with retried := b } : FlashDevice)) }
    let acts := fun (d : Nat) => (s.archive.devices.getD d {}).op.isSome ||
      ((s.archive.devices.getD d {}).part.isSome && s.archive.state.busy)
    (s.archive.offered = [] → exec .mereAdmit s = .next (giveWork s)) ∧
    (∀ t r rest, s.archive.offered = (t, r) :: rest → t ≠ 0 ∨ r.seg = none →
      let out := { s.archive with offered := rest }
      let a := (out.modTier t (fun l => { l with
        queue := l.queue.takeWhile (fun q => q.seg.isNone) ++ r :: l.queue.dropWhile (fun q => q.seg.isNone) })).marks
      (s.archive.fill + r.bytes.length ≤ mereSize →
        (a.fill < mark90 ∨ a.oldestSeep = none → exec .mereAdmit s = .next (giveWork (put a))) ∧
        (mark90 ≤ a.fill → ∀ g n start, a.oldestSeep = some (g, n, start) →
          exec .mereAdmit s = .next (giveWork (giveWay g start (put a))))) ∧
      (mereSize < s.archive.fill + r.bytes.length →
        (s.archive.starved = false → exec .mereAdmit s = .next (giveWork s)) ∧
        (s.archive.starved = true → t ≠ 2 ∨ (s.archive.tier 1).queue = [] → exec .mereAdmit s = .next (giveWork (put
          { out with flow := { s.archive.flow with discarded := s.archive.flow.discarded + 1 } }))) ∧
        (s.archive.starved = true → t = 2 → ∀ q qs, (s.archive.tier 1).queue = q :: qs →
          exec .mereAdmit s = .next (giveWork (put { s.archive.modTier 1 (fun l => { l with queue := qs }) with
            flow := { s.archive.flow with discarded := s.archive.flow.discarded + 1 } }))))) ∧
    (∀ r rest, s.archive.offered = (0, r) :: rest → r.seg ≠ none →
      let out := { s.archive with offered := rest }
      let a := (out.modTier 0 (fun l => { l with queue := joinSeep r l.queue })).marks
      (s.archive.starved = true → exec .mereAdmit s = .next (giveWork (put
        { out with flow := { s.archive.flow with discarded := s.archive.flow.discarded + 1 } }))) ∧
      (s.archive.starved = false → s.archive.takesSeep r = false → exec .mereAdmit s = .next (giveWork (put out))) ∧
      (s.archive.starved = false → s.archive.takesSeep r = true → s.archive.fill < mark90 →
        (a.fill < mark90 → exec .mereAdmit s = .next (giveWork (put a))) ∧
        (mark90 ≤ a.fill → ∀ g n start, a.oldestSeep = some (g, n, start) →
          exec .mereAdmit s = .next (giveWork (giveWay g start (put a)))))) ∧
    (∀ g start, let t := giveWay g start s
      t.archive.flow.dropped = s.archive.flow.dropped + 1 ∧ t.archive.flow.gaps = s.archive.flow.gaps + 1 ∧
      t.recording.gapsWritten = s.recording.gapsWritten + 1 ∧
      (s.archive.tiers ≠ [] → ∃ q, q ∈ (t.archive.tier 0).queue ∧
        q.bytes = gapMarker 1 g start (nextAligned start) ∧ q.seg = none) ∧
      (∀ q, q ∈ (t.archive.tier 0).queue → q.seg ≠ some g) ∧ (∀ f, f ∈ (t.archive.tier 0).buffer → f.seg ≠ some g) ∧
      { t with archive := s.archive, recording := s.recording, link := s.link } = s) ∧
    (s.xa.asked = [] → s.evidence.pins = [] → ∀ d lb,
      ((s.archive.devices.getD d {}).op = some (.erase lb) →
        exec (.flashOperationDone d .ok) s = .next (giveWork (put ((idle d).archive.erased (s.sec / 86400) lb))) ∧
        ∃ t, exec (.flashOperationDone d .failed) s = .next t ∧ t.billing = s.billing ∧ t.link = s.link ∧
          t.store.cells = s.store.cells ∧ t.recording = s.recording) ∧
      ((s.archive.devices.getD d {}).op = none →
        exec (.flashOperationDone d .ok) s = .next (giveWork (retry d false)) ∧
        exec (.flashOperationDone d .failed) s = .next (giveWork s)) ∧
      ((∀ tag, (s.archive.devices.getD d {}).op ≠ some (.read tag)) → s.archive.useOf lb = .peat ∨ s.archive.useOf lb = .pinned →
        s.archive.moves.any (fun m => m.lb == lb) = false → exec (.flashOperationDone d (.highCount lb)) s = .next
        (giveWork (put { s.archive with moves := s.archive.moves ++ [{ lb := lb, refresh := true }] }))) ∧
      ((∀ tag, (s.archive.devices.getD d {}).op ≠ some (.read tag)) →
        ∀ page, exec (.flashOperationDone d (.unreadable lb page)) s = .next (giveWork (put
          { s.archive.setBlock { s.archive.block lb with badPages := insertNat page (s.archive.block lb).badPages } with
            flow := { s.archive.flow with pageFails := s.archive.flow.pageFails + 1 } })))) ∧
    (∀ d, acts d = false → exec (.flashTimeout d) s = .next s) ∧
    (∀ d, acts d = true → (s.archive.devices.getD d {}).retried = false → exec (.flashTimeout d) s = .next (retry d true)) ∧
    (∀ d, acts d = true → (s.archive.devices.getD d {}).retried = true →
      ∃ t, exec (.flashTimeout d) s = .next t ∧ t.archive.state = .failed ∧ t.archive.stuck = true ∧ t.xa.asked = [] ∧
        t.billing = s.billing ∧ t.store.cells = s.store.cells ∧ t.recording = s.recording) ∧
    (∀ t, (t ≠ 1 ∧ t ≠ 2) ∨ s.archive.state.writes = false → exec (.pageFlushTimer t) s = .next s) ∧
    (∀ t, t = 1 ∨ t = 2 → s.archive.state.writes = true → ∃ u, exec (.pageFlushTimer t) s = .next u ∧
      { u with archive := s.archive } = s) ∧
    (s.archive.state.writes = false → exec .checkpointDue s = .next s) ∧
    (s.archive.state.writes = true → exec .checkpointDue s = .next (giveWork (put { s.archive with
      checkpoint := { s.archive.checkpoint with
        due := true
        deferredSec := if s.archive.at50 then some (s.archive.checkpoint.deferredSec.getD s.sec) else none } })))

/-- R261, R262, R264, R288, R294, R297–R301: the commands that read, pin and audit the archive. Out of range they are
refused; where the archive is not mounted they are BUSY or WRONG_STATE; taken, they go on behind ACCEPTED, a read and an
audit asking the flash for the pages they need, and complete with what they found once those are read; the pages that wait at
the 75 % watermark are held from then on, and a read held for 10 s times out. A release ends the pins within its span, each
segment counted once. -/
def Obligations.ArchiveCommands : Prop :=
  ∀ (s : State) (r : Req), Settled s →
    let p := r.params
    (∀ (op : Nat) (i : Instr), (op = 0x20 ∧ i = .archiveRead r) ∨ (op = 0x21 ∧ i = .pinSegment r) ∨
        (op = 0x22 ∧ i = .auditReplay r) → Fresh op r s → opcodeFitted s.part op = true →
      (opcodeHeldBits op).any s.held = false →
      (∀ st, s.archiveGate = some st → exec i s = .next (answered op r st [] (begun op r s))) ∧
      (s.archiveGate = none → paramsOk op p = false → exec i s = .next (answered op r .badParam [] (begun op r s)))) ∧
    (Takes 0x20 r s →
      let b := begun 0x20 r s
      (getU p 1 1 = 0 → 32768 ≤ getU p 8 2 → exec (.archiveRead r) s = .next (answered 0x20 r .badParam [] b)) ∧
      (getU p 1 1 = 1 → getU p 2 8 / 2 ^ 62 ≠ getU p 0 1 →
        exec (.archiveRead r) s = .next (answered 0x20 r .badParam [] b)) ∧
      (getU p 1 1 = 1 → getU p 2 8 / 2 ^ 62 = getU p 0 1 → field 61 56 (getU p 2 8) ≠ s.archive.mountCount.toNat →
        exec (.archiveRead r) s = .next (answered 0x20 r .notFound [] b)) ∧
      let q := (s.archive.records (getU p 0 1)).find? (fun q => q.1 % 2 ^ 28 == field 55 28 (getU p 2 8))
      let mine := getU p 1 1 = 1 ∧ getU p 2 8 / 2 ^ 62 = getU p 0 1 ∧ field 61 56 (getU p 2 8) = s.archive.mountCount.toNat
      (∀ x, mine → q = some x → x.2.length < getU p 2 8 % 2 ^ 28 →
        exec (.archiveRead r) s = .next (answered 0x20 r .badParam [] b)) ∧
      ((getU p 1 1 = 0 ∧ getU p 8 2 < 32768) ∨ (mine ∧ ∀ x, q = some x → getU p 2 8 % 2 ^ 28 ≤ x.2.length) →
        exec (.archiveRead r) s = .next (accepted 0x20 r
          (.archiveRead (getU p 0 1) (getU p 1 1) (getU p 10 2) (getU p 2 8)) (giveWork
            { b with archive := (b.archive.askReads r.tag.toNat
                (b.readPages (getU p 0 1) (getU p 1 1) (getU p 10 2) (getU p 2 8)) : Archive) })))) ∧
    (∀ (tag : BitVec 16) c k m n q, s.command tag.toNat = some c → c.work = .archiveRead k m n q →
      let late := s.archive.reads.any (fun x => x.tag == tag.toNat &&
        x.heldFrom.any (fun t => decide (t + 10000000 ≤ s.micros)))
      (late = true → exec (.archiveReadTimeout tag) s = .next ({ s with archive := { s.archive with
          reads := s.archive.reads.filter (fun x => x.tag != tag.toNat)
          flow := { s.archive.flow with readsTimedOut := s.archive.flow.readsTimedOut + 1 } } }.complete tag.toNat .timeout [])) ∧
      (late = false → exec (.archiveReadTimeout tag) s = .next s) ∧
      exec (.archiveReadComplete tag) s = .next
        (if s.archive.readsDone tag.toNat = false then s
         else s.complete tag.toNat (s.readArchive k m n q).1 (s.readArchive k m n q).2)) ∧
    (s.archive.at75 = false → giveWork s = giveWork { s with archive := { s.archive with
      reads := s.archive.reads.map (fun x => { x with heldFrom := none }) } }) ∧
    (s.archive.at75 = true → s.archive.state.writes = false → (giveWork s).archive.reads =
      s.archive.reads.map (fun x => { x with heldFrom := some (x.heldFrom.getD s.micros) })) ∧
    (Takes 0x21 r s →
      let b := begun 0x21 r s
      let f := getU p 0 6
      let t := getU p 6 6
      (t ≤ f ∨ 3600 < t - f ∨ s.sec < t → exec (.pinSegment r) s = .next (answered 0x21 r .badParam [] b)) ∧
      (f < t → t - f ≤ 3600 → t ≤ s.sec → getU p 12 1 ≠ 0xFF →
        let segs := b.overlapping (f * 32768) (t * 32768)
        let m := makePin (f * 32768) (t * 32768) (getU p 12 1) 0 segs b
        segs ≠ [] → s.archive.pins.length < 1024 → b.hostPinFits segs = true → exec (.pinSegment r) s = .next
          (accepted 0x21 r (.pinSegment s.archive.nextPin segs.length none) m.1))) ∧
    (∀ cs c ds n k q, s.link.outstanding = cs ++ c :: ds → (∀ x ∈ cs, ∀ i j l, x.work ≠ .pinSegment i j l) →
      c.work = .pinSegment n k none → s.archive.pinDone n = true → s.archive.pins.find? (fun p => p.number == n) = some q →
      exec .pinSegmentComplete s = .next ((s.complete c.tag .ok (leBytes 2 q.covers.length)).raise 0x53
        (leBytes 4 n ++ ([BitVec.ofNat 8 q.reason] ++ leBytes 4 q.firstSeg ++ leBytes 4 q.lastSeg))).endEdge) ∧
    (∀ cs c ds n k f t, s.link.outstanding = cs ++ c :: ds → (∀ x ∈ cs, ∀ i j l, x.work ≠ .pinSegment i j l) →
      c.work = .pinSegment n k (some (f, t)) → s.archive.pinDone n = true →
      let gone := s.archive.pins.filter (fun p => p.reason < 0x10 && f ≤ p.fromSec && p.toSec ≤ t)
      ∃ (u : State) (segs : List Nat), exec .pinSegmentComplete s = .next ((u.complete c.tag .ok (leBytes 2 segs.length)).raise 0x53
          (leBytes 4 n ++ ([0xFF] ++ leBytes 4 ((segs.foldl min (2 ^ 32 - 1)) % (2 ^ 32 - 1)) ++ leBytes 4 (segs.foldl max 0)))).endEdge ∧
        segs.Nodup ∧ (∀ g, g ∈ segs ↔ ∃ p ∈ gone, g ∈ p.covers) ∧
        u.archive.pins = s.archive.pins.filter (fun p => !gone.contains p) ∧ { u with archive := s.archive } = s) ∧
    ((∀ c ∈ s.link.outstanding, ∀ n k l, c.work ≠ .pinSegment n k l) → exec .pinSegmentComplete s = .next s) ∧
    (Takes 0x22 r s →
      let b := begun 0x22 r s
      (s.xa.suspended = true ∨ s.view.auditOn = false → exec (.auditReplay r) s = .next (answered 0x22 r .wrongState [] b)) ∧
      (∀ x, s.xa.suspended = false → s.view.auditOn = true →
        (∀ c ∈ s.link.outstanding, ∀ i j k, c.work ≠ .audit i j k) →
        s.spanProfiles (getU p 1 6) (getU p 1 6 + getU p 7 4) = some x → spanOk (getU p 0 1) x = true →
        s.spanSegments (getU p 1 6 * 32768) ((getU p 1 6 + getU p 7 4) * 32768) ≠ [] →
        exec (.auditReplay r) s = .next (accepted 0x22 r (.audit (getU p 0 1) (getU p 1 6) (getU p 7 4)) (giveWork { b with
          archive := (b.archive.askReads r.tag.toNat (b.auditPages (getU p 1 6) (getU p 1 6 + getU p 7 4) 0)).askReads r.tag.toNat
            (b.auditPages (getU p 1 6) (getU p 1 6 + getU p 7 4) 3) })))) ∧
    (∀ cs c ds v a d, s.link.outstanding = cs ++ c :: ds → (∀ x ∈ cs, ∀ i j k, x.work ≠ .audit i j k) →
      c.work = .audit v a d → exec .auditReplayComplete s = .next (if s.archive.readsDone c.tag = false ∨ s.auditWaits (a + d) = true then s else
        let x := s.auditResult v a d
        { s with recording := { s.recording with lastAudit := x.1 } }.complete c.tag (if x.2 then .degraded else .ok) x.1))

/-! ### Persistent store -/

/-- R317, R438–R440, R448, R455: the array. Its readers see what it holds, but for the page under commit, which they see from
the page buffer. A commit puts exactly the bytes of its page write into the array and leaves
every other byte; the scrub goes page by page, rewriting a page with weak bytes; and the save that waited for its latch is
written into the billing ring unless the sluice is in HOLD or the store closed.
Where the spec leaves a reading open it is that of log entry 1. -/
def Obligations.StorePagesAreCommitted : Prop :=
  ∀ (s : State), Settled s →
    (Memory.wf s.store.cells = true → ∀ a, Memory.read s.store.shown a = (match s.store.waiting with
      | [] => Memory.read s.store.cells a
      | w :: _ => if w.page * 64 + w.offset ≤ a ∧ a < w.page * 64 + w.offset + min w.data.length (64 - w.offset)
        then w.data.getD (a - (w.page * 64 + w.offset)) 0 else Memory.read s.store.cells a)) ∧
    (s.store.waiting = [] → exec .storeCommitDone s = .next { s with store := { s.store with saveState := 0 } }) ∧
    (∀ w ws, s.store.waiting = w :: ws → ∃ t, exec .storeCommitDone s = .next t ∧
      t.store.waiting = ws ∧ t.store.firm = false ∧ t.store.counters = modAt s.store.counters 0 (· + 1) ∧
      t.store.saveState = (if ws = [] then 0 else s.store.saveState) ∧
      (Memory.wf s.store.cells = true → Memory.wf t.store.cells = true ∧
        ∀ a, Memory.read t.store.cells a =
          if w.page * 64 + w.offset ≤ a ∧ a < w.page * 64 + w.offset + min w.data.length (64 - w.offset)
          then w.data.getD (a - (w.page * 64 + w.offset)) 0 else Memory.read s.store.cells a) ∧
      { t with store := s.store } = s) ∧
    (s.start.wardenReady = false ∨ s.store.closed = true → ∀ weak, exec (.scrubPage weak) s = .next s) ∧
    (s.start.wardenReady = true → s.store.closed = false → ∀ weak, ∃ t, exec (.scrubPage weak) s = .next t ∧
      t.store.scrubPage = s.store.scrubPage + 1 ∧
      t.store.passes = (if s.store.scrubPage.toNat = 8191 then s.store.passes + 1 else s.store.passes) ∧
      t.store.cells = s.store.cells ∧ (weak = 0 → t.store.waiting = s.store.waiting) ∧ { t with store := s.store } = s) ∧
    (s.store.saveOf = none ∨ s.sluice.hold = true ∨ s.store.closed = true → exec .periodicSave s = .next s) ∧
    (∀ c smax, s.store.saveOf = some (c, smax) → s.sluice.hold = false → s.store.closed = false →
      (s.billing.profileClosed = [] → ∃ last, exec .periodicSave s = .next { s with
        store := { s.store with
          saveOf := none, saveState := saveStateOf 1, lastSave := last
          counters := modAt s.store.counters 1 (· + 1) }.record Ring.billing
            (({ s with store := { s.store with saveOf := none } } : State).saveBody 1 s.engines.active c smax) }) ∧
      ∃ t, exec .periodicSave s = .next t ∧ t.store.saveOf = none ∧ t.sluice = s.sluice ∧ t.link = s.link ∧
        t.store.cells = s.store.cells)

/-! ### Twin engines and the sluice -/

/-- R308–R310, R330, R341: the heartbeat monitor. A newer intake count, or an edge of the second path, ends its path's
silence, and the present silences of the paths that are not faulty count among the longest; a stale intake leaves the
silence. A path silent for 10 ms while the other beats is declared faulty, once, and one whose beats have come unbroken for
100 ms returns: both are logged, the first also counted and signalled; two paths silent for 3 ms are declared with a lost
watch. An engine out of service has no beats, and one without a beat is not watched. Of two verdicts a beat withdraws the
one against the winner of their race within 3 ms of its claim's acceptance. A beat counts as unbroken within two periods of
its path: that is the model's choice (log entry 172). -/
def Obligations.HeartbeatsAreWatched : Prop :=
  ∀ (s : State) (e : Nat), Settled s →
    let x := s.engine e
    let put := fun (y : Engine) => s.modEngine e (fun _ => y)
    let f := s.silence x.beatF
    let w := s.silence x.beatW
    let noted : Engine := { x with longestF := if x.fFault then x.longestF else max x.longestF f
                                   longestW := if x.wFault then x.longestW else max x.longestW w }
    let won := fun (k : Takeover) => x.verdict = true ∧ (s.engine (1 - e)).verdict = true ∧ k.survivor = e ∧
      x.claim = s.sluice.heldClaim ∧ k.stage ≠ .verdict ∧ s.micros ≤ k.accepted + 3000
    let beatF := fun (intake : BitVec 32) => ({ noted with
      intake := some intake, beatF := some s.micros, beatW := some (x.beatW.getD s.micros)
      sinceF := if x.beatF.isSome = true ∧ f ≤ 2000 then x.sinceF else s.micros } : Engine)
    let beatW : Engine := { noted with
      beatW := some s.micros, beatF := some (x.beatF.getD s.micros)
      sinceW := if x.beatW.isSome = true ∧ w ≤ 1000 then x.sinceW else s.micros }
    (s.beats e = false → ∀ intake, exec (.heartbeatF e intake) s = .next s ∧ exec (.heartbeatW e) s = .next s) ∧
    (∀ intake, intakeNewer x.intake intake = false → exec (.heartbeatF e intake) s = .next s) ∧
    (s.beats e = true → (∀ k, s.engines.takeover = some k → ¬ won k) →
      (∀ intake, intakeNewer x.intake intake = true → exec (.heartbeatF e intake) s = .next (put (beatF intake))) ∧
      exec (.heartbeatW e) s = .next (put beatW)) ∧
    (∀ k, s.beats e = true → s.engines.takeover = some k → won k →
      exec (.heartbeatW e) s = .next
        ((put { beatW with verdict := false }).raise 0x38 (leBytes 2 s.sluice.heldClaim.toNat)).endEdge ∧
      ∀ intake, intakeNewer x.intake intake = true → exec (.heartbeatF e intake) s = .next
        ((put { beatF intake with verdict := false }).raise 0x38 (leBytes 2 s.sluice.heldClaim.toNat)).endEdge) ∧
    (s.isWatched e = false → ∀ p, exec (.pathFault e p) s = .next s) ∧
    (s.isWatched e = true → x.fFault = false → x.wFault = false →
      (10000 ≤ f → w < 3000 → exec (.pathFault e 0) s = .next
        (((put { noted.count 2 with fFault := true }).raise 0x33 [BitVec.ofNat 8 e, 0]).setIrq .takeover).endEdge) ∧
      (10000 ≤ w → f < 3000 → exec (.pathFault e 1) s = .next
        (((put { noted.count 3 with wFault := true }).raise 0x33 [BitVec.ofNat 8 e, 1]).setIrq .takeover).endEdge)) ∧
    (x.fFault = true ∨ x.wFault = true ∨ f < 10000 ∨ 3000 ≤ w → exec (.pathFault e 0) s = .next s) ∧
    (x.fFault = true ∨ x.wFault = true ∨ w < 10000 ∨ 3000 ≤ f → exec (.pathFault e 1) s = .next s) ∧
    (s.isWatched e = true → x.fFault = true → x.wFault = true → 3000 ≤ f → 3000 ≤ w →
      exec (.pathFault e 2) s = .next ((s.raise 0x35 [BitVec.ofNat 8 e]).setIrq .takeover).endEdge) ∧
    (s.isWatched e = true → e < s.engines.engines.length → 3000 ≤ f → 3000 ≤ w → ∃ t, exec (.pathFault e 2) s = .next t ∧
      (t.engine e).fFault = true ∧ (t.engine e).wFault = true ∧ t.link = (s.setIrq .takeover).link ∧
      t.billing = s.billing) ∧
    (f < 3000 ∨ w < 3000 → exec (.pathFault e 2) s = .next s) ∧
    (let soundF := x.fFault = true ∧ s.isWatched e = true ∧ f ≤ 2000 ∧ x.sinceF + 100000 ≤ s.micros
     let soundW := x.wFault = true ∧ s.isWatched e = true ∧ w ≤ 1000 ∧ x.sinceW + 100000 ≤ s.micros
     (soundF → exec (.pathRestored e 0) s = .next
        ((put { x with fFault := false }).raise 0x34 [BitVec.ofNat 8 e, 0]).endEdge) ∧
     (soundW → exec (.pathRestored e 1) s = .next
        ((put { x with wFault := false }).raise 0x34 [BitVec.ofNat 8 e, 1]).endEdge) ∧
     (¬ soundF → exec (.pathRestored e 0) s = .next s) ∧ (¬ soundW → exec (.pathRestored e 1) s = .next s) ∧
     (¬ soundF → ¬ soundW → exec (.pathRestored e 2) s = .next s))

/-- R309, R314, R316, R326, R342: a verdict, for the silences that draw one. The other engine, in service, reads the held
claim to present its own. Against the engine that bills the sluice enters HOLD and a takeover by the other engine begins,
with the TAKEOVER interrupt and the verdict's cause; against the partner billing goes on untouched. -/
def Obligations.VerdictsBeginTakeovers : Prop :=
  ∀ (s : State) (e : Nat), Settled s →
    let f := s.silence (s.engine e).beatF
    let w := s.silence (s.engine e).beatW
    (3000 ≤ f → 3000 ≤ w → s.drawsVerdict e = true) ∧
    (f < 3000 → w < 3000 → s.drawsVerdict e = false) ∧
    ((s.engine e).fFault = false → (s.engine e).wFault = false → 10000 ≤ f ∨ 10000 ≤ w → s.drawsVerdict e = true) ∧
    (s.isWatched e = false ∨ (s.engine e).verdict = true ∨ s.drawsVerdict e = false → exec (.verdict e) s = .next s) ∧
    (s.isWatched e = true → (s.engine e).verdict = false → s.drawsVerdict e = true → s.engines.split = false →
      (s.engine (1 - e)).verdict = false → s.engines.takeover = none → s.engines.engines.length = 2 →
      ∃ t, exec (.verdict e) s = .next t ∧
        t.billing = s.billing ∧ t.xa = s.xa ∧ t.store.cells = s.store.cells ∧ t.time = s.time ∧ t.backup = s.backup ∧
        t.sense = s.sense ∧ t.start = s.start ∧ t.engines.active = s.engines.active ∧ t.engines.partnerOk = s.engines.partnerOk ∧
        (t.engine e).verdict = true ∧ (t.engine e).verdictAt = s.micros ∧ (t.engine e).role = (s.engine e).role ∧
        (s.inService (1 - e) = true → (t.engine (1 - e)).read = some s.sluice.heldClaim) ∧
        (e = s.engines.active → t.sluice.hold = true ∧ t.sluice.heldClaim = s.sluice.heldClaim ∧
          t.link.irqPending = s.link.irqPending ||| 16#12 ∧
          t.engines.takeover = some
            { survivor := 1 - e, cause := if 3000 ≤ f ∧ 3000 ≤ w then 1 else 2, sec := s.sec
              tick := s.backup.tick.toNat, at_ := s.micros, split := false, source := 0, record := none }) ∧
        (e ≠ s.engines.active → (t.evidence.safePending = false → t.sluice = s.sluice ∧ t.store = s.store) ∧
          t.link = s.link ∧ t.engines.takeover = none)) ∧
    (∀ k, s.isWatched e = true → (s.engine e).verdict = false → s.drawsVerdict e = true → s.engines.split = false →
      (s.engine (1 - e)).verdict = true → s.engines.takeover = some k → ∃ t, exec (.verdict e) s = .next t ∧
        t.engines.takeover = some { k with cause := 4 } ∧ t.billing = s.billing ∧ t.link = s.link)

/-- R311–R315, R330–R333: claims. The engine that starts active presents EPOCH 1. Later an engine that has read the held
claim presents the one that follows what it read: a greater one is accepted and waits for the settle, the holder's own
counting as a renewal, and no write of the former claim is kept; one that is no longer greater has lost, and its engine
stands down. When the settle ends with its claim still held it goes on; an engine whose claim has been exceeded stands down,
and after a renewal the partner under its verdict is tested. Where no claim is confirmed in time the Warden's takes their
place in HOLD. A command or a RELEASE under another claim than the held one is counted, and its holder stands down. -/
def Obligations.ClaimsAreHeld : Prop :=
  ∀ (s : State) (e : Nat), Settled s → e < 2 → s.engines.engines.length = 2 →
    let held := s.sluice.heldClaim
    let runs := (s.engine e).role ≠ .selftest ∧ (s.engine e).role ≠ .retired ∧ (s.engine e).role ≠ .notStarted
    let accepted := fun (t : State) (c : BitVec 16) => t.sluice = { s.sluice with
        heldClaim := c, acceptedSec := s.sec, acceptedTick := s.backup.tick.toNat, writes := [] } ∧
      (t.engine e).claim = c ∧ (t.engine e).read = none ∧ { t with sluice := s.sluice, engines := s.engines } = s
    (s.awake = true → held = 0 → (s.engine e).role = .active → ∃ t, exec (.claimPresent e) s = .next t ∧
      accepted t (BitVec.ofNat 16 (2 + e))) ∧
    (∀ h : BitVec 16, s.awake = true → held ≠ 0 → s.sluice.wardenHolds = false → (s.engine e).read = some h →
      h.toNat / 2 < 32767 →
      let c := BitVec.ofNat 16 ((h.toNat / 2 + 1) * 2 + e)
      (held < c → ∃ t, exec (.claimPresent e) s = .next t ∧ accepted t c ∧
        (t.engine e).counters = (if e = s.engines.active then modAt (s.engine e).counters 7 (· + 1) else (s.engine e).counters) ∧
        t.engines.takeover = s.engines.takeover.map (fun k =>
          { k with survivor := e, stage := .settling, accepted := s.micros })) ∧
      (c ≤ held → ∃ t, exec (.claimPresent e) s = .next t ∧ t.sluice = s.sluice ∧ (t.engine e).claim = c ∧
        (t.engine e).read = none ∧ (runs → (t.engine e).role = .selftest) ∧ { t with engines := s.engines } = s)) ∧
    (held ≠ 0 → (s.engine e).read = none → exec (.claimPresent e) s = .next s) ∧
    (∀ k : Takeover, s.engines.takeover = some k → k.survivor = e → k.stage = .settling → (s.engine e).claim = held →
      held ≠ 0 → exec (.claimSettleEnd e) s = .next
        { s with engines := { s.engines with takeover := some { k with stage := .holding } } }) ∧
    (∀ k : Takeover, s.engines.takeover = some k → (s.engine e).claim ≠ 0 → (s.engine e).claim < held → runs →
      ∃ t, exec (.claimSettleEnd e) s = .next t ∧ (t.engine e).role = .selftest ∧ { t with engines := s.engines } = s) ∧
    (s.engines.takeover = none → (s.engine (1 - e)).verdict = false ∨ e ≠ s.engines.active →
      exec (.claimSettleEnd e) s = .next s) ∧
    (s.engines.takeover = none → e = s.engines.active → (s.engine e).claim = held → held ≠ 0 →
      (s.engine (1 - e)).verdict = true → (s.engine (1 - e)).role = .lockstep ∨ (s.engine (1 - e)).role = .standby →
      ∃ t, exec (.claimSettleEnd e) s = .next t ∧ (t.engine (1 - e)).role = .selftest ∧ t.engines.partnerOk = false ∧
        { t with engines := s.engines } = s) ∧
    (∀ k : Takeover, s.engines.takeover = some k → k.stage ≠ .holding → k.at_ + 5000 ≤ s.micros → s.wardenDue = true) ∧
    (s.wardenDue = false ∨ s.sluice.wardenHolds = true → exec .wardenTakesCharge s = .next s) ∧
    (s.wardenDue = true → s.sluice.wardenHolds = false → held.toNat / 2 < 32767 →
      ∃ t, exec .wardenTakesCharge s = .next t ∧ t.sluice.hold = true ∧ t.sluice.wardenHolds = true ∧
        t.sluice.heldClaim = BitVec.ofNat 16 ((held.toNat / 2 + 1) * 2) ∧ (∀ i, (t.engine i).read = none) ∧
        t.engines.active = s.engines.active ∧ t.billing = s.billing ∧ t.store.cells = s.store.cells ∧ t.time = s.time) ∧
    (∀ claim c d, claim ≠ held →
      let counted : State := { s with sluice := { s.sluice with refused := s.sluice.refused + 1 } }
      (claim = 0 ∨ held < claim ∨ (s.engine s.engines.active).claim ≠ claim →
        exec (.sluiceCommand claim c) s = .next counted ∧ exec (.release claim d) s = .next counted) ∧
      (claim ≠ 0 → claim < held → e = s.engines.active → (s.engine e).claim = claim → runs →
        ∃ t, exec (.sluiceCommand claim c) s = .next t ∧ exec (.release claim d) s = .next t ∧
          (t.engine e).role = .selftest ∧ { t with engines := s.engines } = counted))

/-- R176, R317, R441, R316, R323: under the held claim a write of the billing port lands in its rings, in HOLD it waits for
its end, and outside its rings it is counted and logged; and a mirror-mode RELEASE ends the takeover: the survivor bills with
its own state, HOLD is left, the waiting writes are made, and a holder that only renewed its claim has not taken over.
Where the spec leaves a reading open it is that of log entry 125. -/
def Obligations.CommandsUnderTheHeldClaim : Prop :=
  ∀ (s : State), Settled s →
    let held := s.sluice.heldClaim
    (∀ a b, s.sluice.hold = true → billingRegion a b.length = true → exec (.sluiceCommand held (.write a b)) s =
      .next { s with sluice := { s.sluice with writes := s.sluice.writes ++ [(a, b)] } }) ∧
    (∀ a b, s.sluice.hold = false → billingRegion a b.length = true → exec (.sluiceCommand held (.write a b)) s =
      .next { s with store := s.store.put a b }) ∧
    (∀ a b, billingRegion a b.length = false → exec (.sluiceCommand held (.write a b)) s =
      .next ((s.countStore 7).raise 0x40 (leBytes 4 a ++ [0])).endEdge) ∧
    exec (.sluiceCommand held .transmit) s = .next s ∧
    (∀ o n, s.sluice.hold = true → exec (.sluiceCommand held (.pulse o n)) s = .next s) ∧
    (∀ d (k : Takeover), s.engines.takeover = some k → (k.stage = .verdict ∨ s.sluice.wardenHolds = true) →
      exec (.release held d) s = .next s) ∧
    (s.engines.takeover = none → ∀ d, exec (.release held d) s = .next s) ∧
    (∀ d (k : Takeover), s.engines.takeover = some k → k.stage ≠ .verdict → s.sluice.wardenHolds = false →
      s.engines.split = false → k.source = 0 → k.record = none → k.survivor < 2 → s.engines.engines.length = 2 →
      (∀ c ∈ s.link.outstanding, ∀ r op code, c.work ≠ .heldRead r op code) →
      (∀ p, p < 2 → let x := s.sluice.pairs.getD p {}
        x.waiting = [] ∧ x.unsaved = false ∧ x.pendingCmd = none) →
      (∀ f ∈ s.engines.ring, f.strobe < s.billing.stamp + 1224) →
      ∃ t, exec (.release held d) s = .next t ∧ t.engines.active = k.survivor ∧ t.engines.takeover = none ∧
        (t.engine k.survivor).role = .active ∧ t.sluice.hold = false ∧ t.sluice.heldClaim = held ∧
        t.link.irqPending = s.link.irqPending ||| 16#12 ∧
        t.billing = (if k.survivor = s.engines.active then s.billing else s.following (s.ownBilling k.survivor)) ∧
        t.store = (if s.ready = true ∧ s.power.warning = false
          then s.sluice.writes.foldl (fun st w => st.put w.1 w.2) s.store else s.store) ∧
        (t.engine k.survivor).counters = (if k.survivor = s.engines.active then (s.engine k.survivor).counters
          else modAt (s.engine k.survivor).counters 0 (· + 1)) ∧
        (t.engine k.survivor).lastTakeover = (if k.survivor = s.engines.active then (s.engine k.survivor).lastTakeover
          else takeoverRecord k held (s.micros - k.at_) d) ∧
        t.time = s.time ∧ t.backup = s.backup ∧ t.recording = s.recording)

/-- R319–R322, R324–R326: what the engines exchange. The first digest of a block waits, the one that its engine's state at
the block's end gives but for the bits in which the engine has erred; an equal second one leaves each engine an agreed record
for the end of the block, and another begins an arbitration; one that never comes is logged and counted; the third digest of
an arbitration, that of the state rebuilt, retires, tests or resynchronises the partner or hands it billing; and in split
mode a checkpoint of the last boundary goes into the buffer of its number, counts once it has arrived intact, and three bad
ones in a row are logged. Where the spec leaves a reading open it is that of log entries 49, 52 and 198. -/
def Obligations.DigestsAndCheckpoints : Prop :=
  ∀ (s : State), Settled s → s.engines.engines.length = 2 → s.engines.active < 2 →
    let put := fun (x : Engines) => ({ s with engines := x } : State)
    (∀ e block flips, s.engines.blocks.find? (fun x => x.block == block) = none →
      exec (.blockDigest e block flips) s = .next s) ∧
    (s.inLockstep = false → ∀ e block flips, exec (.blockDigest e block flips) s = .next s) ∧
    (s.inLockstep = true → ∀ e block flips x, e < 2 → s.engines.blocks.find? (fun x => x.block == block) = some x →
        let d := (if e = 0 then x.digest0 else x.digest1) ^^^ flips
        (s.engines.digests = none →
          (flips = 0 → exec (.blockDigest e block flips) s = .next (put { s.engines with
            digests := some (block, if e = 0 then some d else none, if e = 0 then none else some d) })) ∧
          (flips ≠ 0 → ∃ t, exec (.blockDigest e block flips) s = .next t ∧ t.free = s.free + 512 ∧
            t.engines.digests = some (block, if e = 0 then some d else none, if e = 0 then none else some d) ∧
            (e ≠ s.engines.active → t.billing = s.billing) ∧
            { t with engines := s.engines, billing := s.billing, free := s.free } = s)) ∧
        (s.engines.digests = some (block, if e = 0 then none else some d, if e = 0 then some d else none) → flips = 0 →
          s.engines.agreed.length = 2 →
          ∃ t r0 r1, exec (.blockDigest e block flips) s = .next t ∧ t.engines.digests = none ∧
            t.engines.agreed = [some r0, some r1] ∧ r0.kind = 2 ∧ r1.kind = 2 ∧ r0.writer = 0 ∧ r1.writer = 1 ∧
            r0.resume = 64 * block + 64 ∧ r1.resume = 64 * block + 64 ∧ r0.body = x.body0 ∧ r1.body = x.body1 ∧
            { t with engines := s.engines } = s) ∧
        (∀ o, o ≠ d → s.engines.digests = some (block, if e = 0 then none else some o, if e = 0 then some o else none) →
          ∃ t, exec (.blockDigest e block flips) s = .next t ∧ t.engines.digests = none ∧
            t.engines.arbitration = some { block := block, entry := s.nextEntry
                                           own := if s.partner = 0 then x.digest0 else x.digest1
                                           digest0 := if e = 0 then d else o, digest1 := if e = 0 then o else d } ∧
            (t.engine s.partner).role = .arbitration ∧ t.engines.partnerOk = false ∧
            (flips = 0 ∨ e ≠ s.engines.active → t.billing = s.billing))) ∧
    (s.engines.digests = none → exec .digestLate s = .next s) ∧
    (∀ k d, s.engines.digests = some (k, some d, none) → exec .digestLate s = .next
      (((put { s.engines with digests := none }).modEngine 1 (fun x => x.count 5)).raise 0x37 [1]).endEdge) ∧
    (∀ passed flips, s.engines.arbitration = none → exec (.arbitrationEnd passed flips) s = .next s) ∧
    (∀ a : Arbitration, s.engines.arbitration = some a → a.digest0 ≠ a.digest1 →
      let mine := if s.partner = 0 then a.digest0 else a.digest1
      let theirs := if s.partner = 0 then a.digest1 else a.digest0
      let kept := fun (t : State) => t.engines.active = s.engines.active ∧ t.billing = s.billing ∧
        (t.evidence.safePending = false → t.sluice = s.sluice)
      (∀ flips, ∃ t, exec (.arbitrationEnd false flips) s = .next t ∧ (t.engine s.partner).role = .retired ∧
        t.engines.partnerOk = false ∧ kept t) ∧
      (∃ t, exec (.arbitrationEnd true ((s.rebuilt a).1 ^^^ theirs)) s = .next t ∧ (t.engine s.partner).role = .resync ∧
        t.free = s.free + 1 ∧ kept t) ∧
      (∃ t, exec (.arbitrationEnd true ((s.rebuilt a).1 ^^^ mine)) s = .next t ∧ t.sluice.hold = true ∧
        (t.engine s.partner).read = some s.sluice.heldClaim ∧ t.engines.mirror = some (s.rebuilt a).2 ∧
        t.engines.floor = some s.billing.latch.published ∧
        (∃ k, t.engines.takeover = some k ∧ k.survivor = s.partner ∧ k.cause = 3) ∧ t.billing = s.billing) ∧
      (∀ third, third ≠ mine → third ≠ theirs →
        ∃ t, exec (.arbitrationEnd true ((s.rebuilt a).1 ^^^ third)) s = .next t ∧ (t.engine s.partner).role = .selftest ∧
          t.engines.partnerOk = false ∧ kept t)) ∧
    (let n := s.engines.sequences.getD (4 * s.engines.active + 1) 0
     (s.ready = true → s.engines.split = true → s.engines.partnerOk = true → s.engines.takeover = none →
        (s.engine s.partner).role = .standby → (s.engine s.partner).verdict = false → ∀ c body pairs,
        s.engines.cut = some (c, body, pairs) → s.engines.buffers.length = 2 → s.engines.sequences.length = 8 →
        ∃ t r, exec .checkpoint s = .next t ∧ t.engines.sequences.getD (4 * s.engines.active + 1) 0 = n + 1 ∧
          t.engines.buffers[n.toNat % 2]? = some (some r) ∧ r.kind = 1 ∧ r.writer = s.engines.active ∧ r.resume = c ∧
          r.claim = s.sluice.heldClaim ∧ r.seq = n ∧ r.crcOk = false ∧ r.body = body ∧ r.pairs = pairs ∧
          t.engines.cut = none ∧ { t with engines := s.engines } = s) ∧
     (s.ready = false ∨ s.engines.split = false ∨ s.engines.cut = none → exec .checkpoint s = .next s) ∧
     (s.engines.split = true → s.engines.partnerOk = true → n ≠ 0 →
       ∀ r, s.engines.buffers.getD ((n.toNat - 1) % 2) none = some r →
       let kept := fun (ok : Bool) => modAt s.engines.buffers ((n.toNat - 1) % 2) (fun _ =>
         some ({ r with crcOk := ok } : StateRecord))
       exec (.checkpointArrival true) s = .next (put { s.engines with buffers := kept true, badRun := 0 }) ∧
       (s.engines.badRun ≠ 2 → exec (.checkpointArrival false) s = .next
         ((put { s.engines with buffers := kept false, badRun := s.engines.badRun + 1 }).modEngine s.partner
           (fun x => x.count 9))) ∧
       (s.engines.badRun = 2 → exec (.checkpointArrival false) s = .next
         (((put { s.engines with buffers := kept false, badRun := 0 }).modEngine s.partner
           (fun x => x.count 9)).raise 0x39 (leBytes 4 r.seq.toNat)).endEdge)))

/-- R334–R336, R341: an engine that passes its self-test within 400 ms resynchronises, watched again from its first beat on,
with its longest silences kept; one that fails or takes longer is retired and remembered. An engine that has caught up from
its resynchronisation record becomes the partner in split mode; in mirror mode it holds the state replayed from that record
and joins lockstep at the next block boundary. -/
def Obligations.EnginesRejoin : Prop :=
  ∀ (s : State) (e : Nat), Settled s → e < 2 → s.engines.engines.length = 2 →
    let x := s.engine e
    (x.role ≠ .selftest → ∀ ok d, exec (.engineSelftestEnd e ok d) s = .next s) ∧
    (x.role = .selftest → x.hostTest = false → ∀ d : BitVec 16,
      (d.toNat ≤ 400 → exec (.engineSelftestEnd e true d) s = .next
        ((({ s with engines := { s.engines with
              partnerOk := false, resync := none, joining := false, mirror := none } } : State).modEngine e (fun _ =>
            { x.count 6 with
              role := .resync, verdict := false, intake := none, beatF := none, beatW := none
              longestF := if x.fFault then x.longestF else max x.longestF (s.silence x.beatF)
              longestW := if x.wFault then x.longestW else max x.longestW (s.silence x.beatW) })).raise 0x3A
          (BitVec.ofNat 8 e :: leBytes 4 (0x02000000 + d.toNat))).endEdge) ∧
      (∀ ok, ok = false ∨ 400 < d.toNat → ∃ t, exec (.engineSelftestEnd e ok d) s = .next t ∧
        (t.engine e).role = .retired ∧ (t.engine e).retired = true ∧
        (t.evidence.safePending = false → t.sluice = s.sluice) ∧ t.billing = s.billing)) ∧
    ((s.engine s.partner).role ≠ .resync ∨ s.engines.resync = none ∨ s.engines.takeover.isSome = true →
      exec .resyncEnd s = .next s) ∧
    (∀ r, (s.engine s.partner).role = .resync → s.engines.resync = some r → s.engines.takeover = none →
      (s.engines.split = true → exec .resyncEnd s = .next { s with engines := { s.engines with
        engines := modAt s.engines.engines s.partner (fun x => ({ x with role := .standby } : Engine))
        partnerOk := true, badRun := 0, buffers := [none, none], resync := none } }) ∧
      (s.engines.split = false → exec .resyncEnd s = .next
        { s with engines := { s.engines with mirror := some (s.replayed r), joining := true } })) ∧
    (∀ a, s.engines.joining = true → s.engines.split = false → s.engines.takeover = none → s.engines.active < 2 →
      (s.engine s.partner).role = .resync → a % 64 = 63 →
      let t := noteBlock a s
      (t.engine s.partner).role = .lockstep ∧ t.engines.partnerOk = true ∧ t.engines.joining = false ∧
        t.billing = s.billing ∧ t.sluice = s.sluice)

/-! ### Zorrus network -/

/-- R371–R373, R378, R382, R385, R395, R408: superframes and slots. From 2 s behind the release of reset on, a superframe
takes the next number, while the network is held or ZL_ENABLE is 0 too, and sends its beacon while the device may send and its
start command passes the sluice; else the beacon counts as not sent and the line stays as it is; a slot counts on,
and a data slot ages the transaction in flight, and where the device may send, a broadcast or a transaction goes on;
forming ends on the expected count, ten minutes without a join behind the first beacon, or an hour behind it; a balance is published at its deadline; and the
forming command discards the node table. -/
def Obligations.SuperframesAndSlots : Prop :=
  ∀ (s : State), Settled s →
    let put := fun (x : Net) => ({ s with net := x } : State)
    let next := { s.net with slot := s.net.slot + 1 }
    let aged := { next with trans := s.net.trans.map (fun (k : Transaction) => ({ k with age := k.age + 1 } : Transaction)) }
    (s.awake = false ∨ s.net.state = .off ∨ (s.net.started = false ∧ s.instantNow < networkStart) →
      exec .superframeStart s = .next s) ∧
    (s.awake = true → s.net.state ≠ .off → s.net.started = true ∨ networkStart ≤ s.instantNow →
      ∃ t, exec .superframeStart s = .next t ∧
      t.net.superframe = (if s.net.started then s.net.superframe + 1 else 0) ∧ t.net.started = true ∧ t.net.slot = 0 ∧
      t.net.anchor = s.beaconAnchor ∧
      (s.netOpen = false ∨ s.startPasses = false ∨ s.power.warning = true ∨ s.line.state = .transmitting ∨
          (s.sense.lanes.getD 5 {}).faulty = true → t.net.beaconing = false ∧ t.line = s.line ∧
        t.net.counters = modAt s.net.counters 1 (· + 1)) ∧
      (s.netOpen = true → s.startPasses = true → s.line.state = .listening → s.power.warning = false →
        (s.sense.lanes.getD 5 {}).faulty = false → t.net.beaconing = true ∧
        t.net.counters = modAt s.net.counters 0 (· + 1) ∧ t.line.state = .transmitting ∧
        t.line.sending.map (fun x => x.start) = some s.beaconAnchor) ∧
      { t with net := s.net, line := s.line, start := s.start } = s) ∧
    (s.lineOn = false ∨ s.net.started = false ∨ 4 ≤ s.net.slot → exec .slotStart s = .next s) ∧
    (s.lineOn = true → s.net.started = true → s.net.slot < 4 →
      (dataSlot s.net.state s.net.superframe.toNat (s.net.slot + 1) = false → exec .slotStart s = .next (put next)) ∧
      (dataSlot s.net.state s.net.superframe.toNat (s.net.slot + 1) = true →
        (s.netOpen = false → exec .slotStart s = .next (put aged)) ∧
        (∀ n, s.netOpen = true → s.net.broadcastLeft = some n → 2 ≤ n →
          exec .slotStart s = .next (put { aged with broadcastLeft := some (n - 1) })) ∧
        (∀ k : Transaction, s.netOpen = true → s.net.broadcastLeft = none → s.net.trans = some k → k.sent = true →
          k.heard = true ∨ k.wait + 1 < k.due →
          exec .slotStart s = .next (put { next with trans := some { k with age := k.age + 1, wait := k.wait + 1 } })) ∧
        (s.netOpen = true → s.net.broadcastLeft = none → s.net.trans = none → s.net.candidates = [] →
          (put next).nextTransaction = none → exec .slotStart s = .next (put next)))) ∧
    (exec .formingEnd s = .next (if s.net.state = .forming ∧ ((s.view.nodesExpected ≠ 0 ∧ s.view.nodesExpected ≤ s.joined.length)
        ∨ s.net.firstBeaconSec.any (fun t => decide (max t s.net.lastJoinSec + 600 ≤ s.upSec)) = true
        ∨ s.net.firstBeaconSec.any (fun t => decide (t + 3600 ≤ s.upSec)) = true)
      then put { s.net with state := .steady } else s)) ∧
    (s.net.openBalances = [] → exec .balanceDeadline s = .next s) ∧
    (∀ b bs, s.net.openBalances = b :: bs →
      (b.handed = false ∨ s.instantNow < b.deadline → exec .balanceDeadline s = .next s) ∧
      (b.handed = true → b.deadline ≤ s.instantNow → ∃ t, exec .balanceDeadline s = .next t ∧ t.net.openBalances = bs ∧
        (s.balanceOn = true → s.xa.suspended = false →
          t.net.balances = (s.balanceBytes b true :: s.net.balances).take 16) ∧ { t with net := s.net } = s)) ∧
    (∀ port tag, s.part.fitZlk = true → heldIn s.start.heldMask.toNat 0x5044 = false →
      let r := writeReq port tag 0x5044 (leBytes 2 0x464E)
      Takes 0x02 r s →
        (s.view.zlOn = false → exec (.formNetwork port tag) s = .next (answered 0x02 r .wrongState [] (begun 0x02 r s))) ∧
        (s.view.zlOn = true → ∃ t, exec (.formNetwork port tag) s = .next (answered 0x02 r .ok [] t) ∧
          t.net.state = .forming ∧ t.net.form = s.net.form + 1 ∧ t.net.nodes = List.replicate 256 {} ∧
          t.net.neighbours = [] ∧ t.net.trans = none ∧ { t with net := s.net, store := s.store } = begun 0x02 r s))

/-- R347, R357, R370, R374, R383, R387, R390–R392, R401: frames heard. A unit that does not hear takes none, nor one that began
while it discarded its input; a reception that the receiver does not accept, and a frame that fails the network's check, names another network or is of another type, only
ends the reception and counts at the line; a request to join waits for admission; the answer of the transaction in
flight ends it and clears the failures of its node; the next hop's frame is noted; and a transaction that has not been
answered within its data slots is tried three times before it counts as a failure of its node. -/
def Obligations.NetworkFrames : Prop :=
  ∀ (s : State), Settled s →
    (∀ f i types, (i = .joinReq f ∧ types = [0x10]) ∨ (i = .status f ∧ types = [0x23]) ∨ (i = .report f ∧ types = [0x21]) ∨
        (i = .dataAck f ∧ types = [0x31]) ∨ (i = .roleAck f ∧ types = [0x41]) ∨
        (i = .zlFrameOverheard f ∧ types = [0x40, 0x22, 0x30, 0x11, 0x20]) ∨ (i = .relayBeaconHeard f ∧ types = [0x02]) →
      (s.hearsFrame f = false ∨ s.lineOn = false → exec i s = .next s) ∧
      (s.hearsFrame f = true → s.lineOn = true → (s.judgeFrame f).1 = none → exec i s = .next (endReception f s)) ∧
      (∀ h, s.hearsFrame f = true → s.lineOn = true → (s.judgeFrame f).1 = some h →
        (∀ n, readFrame h.payload = some n → n.netId ≠ s.view.netId ∨ n.type ∉ types) →
        exec i s = .next (endReception f s))) ∧
    (∀ f h n, s.hearsFrame f = true → s.lineOn = true → (s.judgeFrame f).1 = some h → readFrame h.payload = some n →
      n.netId = s.view.netId →
      (n.type = 0x10 → n.src = 0 → exec (.joinReq f) s = .next
        (let u := endReception f s
         if s.joinOpen = true ∧ s.net.candidates.any (fun c => c.uid == getU n.body 0 8) = false
         then { u with net := { u.net with candidates := u.net.candidates ++
           [{ uid := getU n.body 0 8, proxy := 0, margin := s.marginOf h.level }] } } else u)) ∧
      (∀ (k : Transaction) i, s.net.trans = some k → k.sent = true → n.up = true → n.seq = k.seq.toNat → n.src = k.node →
        k.node ≠ 0 → k.node < s.net.nodes.length → (s.node k.node).state ≠ .free →
        (i = .status f ∧ n.type = 0x23 ∧ k.kind = .statusReq) ∨ (i = .dataAck f ∧ n.type = 0x31 ∧ ∃ t p, k.kind = .data t p) ∨
          (i = .report f ∧ n.type = 0x21 ∧ ∃ a c, k.kind = .reportReq a c) ∨
          (i = .roleAck f ∧ n.type = 0x41 ∧ ∃ c, k.kind = .roleSet c) →
        ∃ t, exec i s = .next t ∧ t.net.trans = none ∧ (t.node k.node).state = .present ∧
          (t.node k.node).failures = 0 ∧ (t.node k.node).heardSec = s.sec ∧ t.billing = s.billing ∧ t.sluice = s.sluice) ∧
      (∀ k : Transaction, s.net.trans = some k → k.sent = true → n.up = false → n.seq = k.seq.toNat → 0 < n.hop →
        n.type ∈ [0x40, 0x22, 0x30, 0x11, 0x20] → ∃ t, exec (.zlFrameOverheard f) s = .next t ∧
          t.net.trans = some { k with heard := true } ∧ t.billing = s.billing) ∧
      (n.type = 0x02 → n.src ≠ 0 → n.src < s.net.nodes.length → (s.node n.src).state ≠ .free →
        ∃ t, exec (.relayBeaconHeard f) s = .next t ∧ (t.node n.src).state = .present ∧ (t.node n.src).failures = 0 ∧
          t.net.trans = s.net.trans ∧ t.billing = s.billing)) ∧
    (s.net.trans = none → exec .zlTransactionTimeout s = .next s) ∧
    (∀ k : Transaction, s.net.trans = some k →
      (k.sent = false ∨ k.age < 6 * (k.route.length + 1) → exec .zlTransactionTimeout s = .next s) ∧
      (k.sent = true → 6 * (k.route.length + 1) ≤ k.age →
        (k.try_ < 2 → exec .zlTransactionTimeout s = .next { s with net := { s.net with
          trans := some { k with try_ := k.try_ + 1, hop := 0, sent := false }
          counters := modAt s.net.counters 4 (· + 1) } }) ∧
        (2 ≤ k.try_ → k.kind.unjoined = false → k.node < s.net.nodes.length → ∃ t, exec .zlTransactionTimeout s = .next t ∧
          t.net.trans = none ∧ (t.node k.node).failures = (s.node k.node).failures + 1 ∧ t.billing = s.billing)))

/-- R59, R399, R401, R402: the host's network commands. A payload for a node in use goes on behind ACCEPTED, node records
are read as they stand, and a balance is given while it is held; each refusal has its own status. -/
def Obligations.NetworkCommands : Prop :=
  ∀ (s : State) (r : Req), Settled s →
    let p := r.params
    (Takes 0x28 r s →
      let b := begun 0x28 r s
      (s.view.zlOn = false → exec (.zlinkSend r) s = .next (answered 0x28 r .wrongState [] b)) ∧
      (s.view.zlOn = true → getU p 0 1 ≠ 0 → (s.node (getU p 0 1)).state = .free →
        exec (.zlinkSend r) s = .next (answered 0x28 r .notFound [] b)) ∧
      (s.view.zlOn = true → getU p 0 1 = 0 ∨ (s.node (getU p 0 1)).state ≠ .free →
        exec (.zlinkSend r) s = .next (accepted 0x28 r (.zlinkSend (getU p 0 1) (p.drop 1) false) b))) ∧
    (Takes 0x29 r s →
      let b := begun 0x29 r s
      exec (.zlinkNodes r) s = .next
        (answered 0x29 r .ok ((List.range (getU p 1 1)).flatMap (fun i => b.nodeBytes (getU p 0 1 + i))) b)) ∧
    (Takes 0x2A r s →
      let b := begun 0x2A r s
      (s.view.balOn = false → exec (.balanceGet r) s = .next (answered 0x2A r .notFound [] b)) ∧
      (s.view.balOn = true →
        (∀ x, s.xa.suspended = false → s.net.balances[getU p 0 1]? = some x →
          exec (.balanceGet r) s = .next (answered 0x2A r .ok x b)) ∧
        (∀ x, s.xa.suspended = true → s.net.balances[0]? = some x →
          exec (.balanceGet r) s = .next (answered 0x2A r .degraded x b)) ∧
        (s.net.balances = [] → exec (.balanceGet r) s = .next (answered 0x2A r .notFound [] b))))

/-! ### Auxiliary converters -/

/-- R20, R414, R416, R418, R420–R422, R425, R427, R429, R437: the converters run. A timer fires at its next multiple of its period; a
trigger is taken at a WAIT, is pending, or is an overrun; a result is tagged and queued at the instant of its last cycle,
bad where the service lane is out of service or one of its codes came in a flit that failed, and its entry goes on by repeat,
delay or the next entry; a result that a stop left to complete does so and moves nothing on; and a pass whose copy disagrees
is bad from its start. Where the spec leaves a reading open it is that of log entries 67, 68, 178 and 211. -/
def Obligations.ConvertersRun : Prop :=
  ∀ (s : State) (k : Nat), Settled s →
    let c := s.conv k
    let put := fun (x : Converter) (a : Aux) =>
      ({ s with aux := { a with converters := modAt s.aux.converters k (fun _ => x) } } : State)
    (s.aux.loaded = true → k < 2 → s.aux.periods.getD k 0 ≠ 0 →
      let t := s.aux.fires.getD k 0
      let u := (auxAt t s).auxEventAt t (1 + k)
      exec (.auxTimerFire k) s = .next { u with aux := { u.aux with
        fires := modAt u.aux.fires k (fun _ => t + s.aux.periods.getD k 0) } }) ∧
    (s.aux.loaded = false ∨ s.aux.periods.getD k 0 = 0 ∨ 2 ≤ k → exec (.auxTimerFire k) s = .next s) ∧
    (c.due = [] → exec (.auxTriggerAct k) s = .next s) ∧
    (∀ d ds, k < 2 → k < s.aux.converters.length → s.view.auxPaired = false → c.due = d :: ds →
      (c.state = .stopped ∨ c.state = .heldOff ∨ c.waits = false → exec (.auxTriggerAct k) s = .next (auxAt d (put { c with due := ds } s.aux))) ∧
      (c.state = .converting ∨ c.state = .delay → c.waits = true → exec (.auxTriggerAct k) s = .next
        (auxAt d (put (if c.pendingTrig then { c with due := ds, overrun := true, overruns := c.overruns + 1 }
          else { c with due := ds, pendingTrig := true }) s.aux))) ∧
      (c.state = .waiting → c.waits = true → c.pendingTrig = false → ∃ t, exec (.auxTriggerAct k) s = .next t ∧
        (t.conv k).taken = c.taken + 1 ∧ (t.conv k).due = ds ∧
        (s.aux.lost = 0 → s.aux.queue.length < 256 →
          t.aux.queue[s.aux.queue.length]? = some (timeMark k false false (microsOf (max (clockOf d) c.busy)))) ∧
        { t with aux := s.aux } = s)) ∧
    (∀ codes, c.state ≠ .converting → c.closing = none → exec (.auxResult k codes) s = .next s) ∧
    (∀ codes, k < s.aux.converters.length → s.view.auxPaired = false → c.state = .converting → c.badPass = false →
      c.closing = none → codes.length = s.view.auxOsr k → s.aux.lost = 0 → s.aux.queue.length < 256 →
      let w := s.auxEntry k c.entry
      let last := c.clock + 24 * codes.length + c.extra
      let t := microsOf (last - 16)
      let x := k * 2 ^ 29 + entryCh w * 2 ^ 24 + c.entry * 2 ^ 18 +
        (if s.serviceLost = true ∨ codes.any Option.isNone = true then 2 ^ 17 else auxValue (codes.map (fun y => y.getD 0)))
      let a := { s.aux with queue := s.aux.queue ++ [x], last := modAt s.aux.last (entryCh w) (fun _ => (x, t)) }
      let done := { c with cycles := c.cycles + BitVec.ofNat 32 codes.length, clock := last + c.gap, extra := 0, gap := 0
                           busy := max c.busy (last + c.gap), begun := false }
      entryCh w < 29 → (s.aux.comparators.getD (entryWin w) {}).enable = false →
        (c.done < entryRepeat w →
          exec (.auxResult k codes) s = .next (auxAt t (put { done with done := c.done + 1 } a))) ∧
        (entryRepeat w ≤ c.done → entryDelay w ≠ 0 → exec (.auxResult k codes) s = .next
          (auxAt t (put { done with
            state := .delay, clock := max (last + c.gap) (last + clockOf (entryDelay w)) } a)))) ∧
    (∀ codes r, k < s.aux.converters.length → c.closing = some r → r.pairWord = none → codes.length = r.codes →
      ∃ t, exec (.auxResult k codes) s = .next t ∧
        t.conv k = { c with closing := none, cycles := c.cycles + BitVec.ofNat 32 codes.length }) ∧
    (c.state ≠ .delay → exec (.auxDelayEnd k) s = .next s) ∧
    (k < s.aux.converters.length → s.view.auxPaired = false → c.state = .delay → c.entry < 63 →
      entryCh (s.auxEntry k (c.entry + 1)) < 30 → exec (.auxDelayEnd k) s = .next (auxAt (microsOf c.clock)
        (put { c with entry := c.entry + 1, done := 0, state := .converting, clock := max c.clock c.busy, extra := 0, gap := 0 }
          s.aux))) ∧
    (c.state = .stopped ∨ c.state = .heldOff ∨ 2 ≤ k → exec (.alignmentMessage k) s = .next s) ∧
    (k < 2 → k < s.aux.converters.length → s.view.auxPaired = false → c.state ≠ .stopped → c.state ≠ .heldOff →
      (c.done = 0 → c.entry = 0 ∨ c.begun = true →
        exec (.alignmentMessage k) s = .next (s.modConv k (fun c => { c with badPass := false, begun := false }))) ∧
      (c.done ≠ 0 ∨ (c.entry ≠ 0 ∧ c.begun = false) →
        ∃ t, exec (.alignmentMessage k) s = .next t ∧ (t.conv k).badPass = true ∧ (t.conv k).begun = false ∧
          { t with aux := s.aux } = s))

/-- R421, R424, R427, R432–R434, R437: the host's commands to the unit. A table in range is loaded, an urgent conversion is
answered with its word, bad where it comes in a flit that fails or on a lane out of service, the command member starts or
clears a converter or stops it at the end of its cycle in progress, whose result completes where that was its last cycle, comparators obey their ranges, and a live read of the queue takes what it returned as one of
the unit status clears FIRED. -/
def Obligations.ConverterCommands : Prop :=
  ∀ (s : State), Settled s →
    (∀ r : Req, let p := r.params
      let k := getU p 0 1
      let count := getU p 2 1
      let words := tab count (fun i => getU p (3 + 4 * i) 4)
      Takes 0x30 r s →
        (words.all entryOk = false →
          exec (.auxSeqLoad r) s = .next (answered 0x30 r .badParam [] (begun 0x30 r s))) ∧
        (words.all entryOk = true → s.view.auxPaired = false → k < s.aux.converters.length → (s.conv k).state = .stopped →
          exec (.auxSeqLoad r) s = .next (answered 0x30 r .ok [] ((begun 0x30 r s).modConv k (fun c => { c with
            table := c.table.take (getU p 1 1) ++ words ++ c.table.drop (getU p 1 1 + count)
            entry := 0, done := 0, begun := false, pendingTrig := false, badPass := false }))))) ∧
    (∀ (r : Req) (code : Option (BitVec 12)), Takes 0x31 r s →
      let b := begun 0x31 r s
      let k := getU r.params 0 1
      let ch := getU r.params 1 1
      let w := 2 ^ 30 + k * 2 ^ 29 + ch * 2 ^ 24 +
        (match code with | some x => if s.serviceLost then 2 ^ 17 else 16 * x.toNat | none => 2 ^ 17)
      ∃ t, exec (.auxUrgent r code) s = .next (answered 0x31 r .ok (leBytes 4 w) t) ∧
        t.aux.last = modAt s.aux.last ch (fun _ => (w, microsOf ((placeUrgent k s).1 + 8))) ∧
        (k < s.aux.converters.length → (t.conv k).cycles = (s.conv k).cycles + 1) ∧ t.aux.queue = s.aux.queue ∧
        { t with aux := s.aux } = b) ∧
    (∀ port tag k, k < 2 → k < s.aux.converters.length → s.view.auxPaired = false →
      heldIn s.start.heldMask.toNat (0x6024 + 8 * k) = false →
      let row := fun (v : Nat) => writeReq port tag (0x6024 + 8 * k) (leBytes 2 v)
      (Takes 0x02 (row 0x5350) s → exec (.auxStop port tag k) s = .next (answered 0x02 (row 0x5350) .ok []
        (let now := clockOf s.auxNow
         (begun 0x02 (row 0x5350) s).modConv k (fun c => { c with
          state := .stopped, entry := 0, done := 0, begun := false, busy := c.cycleEnd now
          closing := if c.state = .converting ∧ s.view.auxOsr k ≤ c.cyclesRun now then some (s.thisResult k) else c.closing
          cycles := c.cycles + BitVec.ofNat 32 (if s.view.auxOsr k ≤ c.cyclesRun now then 0 else c.cyclesRun now) })))) ∧
      (Takes 0x02 (row 0x434C) s → exec (.clearOverrun port tag k) s = .next (answered 0x02 (row 0x434C) .ok []
        ((begun 0x02 (row 0x434C) s).modConv k (fun c => { c with overrun := false })))) ∧
      (Takes 0x02 (row 0x5354) s → entryCh (s.auxEntry k 0) < 30 → ∃ t,
        exec (.auxStart port tag k) s = .next (answered 0x02 (row 0x5354) .ok [] t) ∧
        (t.conv k).state = .converting ∧ (t.conv k).entry = 0 ∧ (t.conv k).done = 0 ∧
        { t with aux := s.aux } = begun 0x02 (row 0x5354) s)) ∧
    (∀ port tag value, heldIn s.start.heldMask.toNat 0x6012 = false →
      let r := writeReq port tag 0x6012 value
      Takes 0x02 r s →
        (comparatorsOk value = false → exec (.comparatorSettingsWrite port tag value) s =
          .next (answered 0x02 r .badParam [] (begun 0x02 r s))) ∧
        (comparatorsOk value = true → ∃ t, exec (.comparatorSettingsWrite port tag value) s = .next (answered 0x02 r .ok [] t) ∧
          { t with aux := s.aux } = begun 0x02 r s ∧ ∀ k, k < 8 →
            let old := s.aux.comparators.getD k {}
            let new := t.aux.comparators.getD k {}
            new.low = getU value (8 * k) 2 ∧ new.high = getU value (8 * k + 2) 2 ∧ new.hyst = getU value (8 * k + 4) 2 ∧
            new.count = old.count ∧
            new.state = if new.enable = true ∧ old.enable = false then .unknown else old.state)) ∧
    (∀ port tag, let req := fun (i : Nat) => readReq port tag i
      (Takes 0x01 (req 0x6014) s → s.aux.lost = 0 → ∃ t, exec (.auxQueueRead port tag) s = .next (answered 0x01 (req 0x6014)
        ((begun 0x01 (req 0x6014) s).readStatus [0x6014]) ((begun 0x01 (req 0x6014) s).value 0x6014) t) ∧
        t.aux.queue = s.aux.queue.drop 255 ∧ { t with aux := s.aux } = begun 0x01 (req 0x6014) s) ∧
      (Takes 0x01 (req 0x6015) s → s.aux.lost = 0 → ∃ t, exec (.auxQueueHeadRead port tag) s = .next (answered 0x01 (req 0x6015)
        ((begun 0x01 (req 0x6015) s).readStatus [0x6015]) ((begun 0x01 (req 0x6015) s).value 0x6015) t) ∧
        t.aux.queue = s.aux.queue.drop 15 ∧ { t with aux := s.aux } = begun 0x01 (req 0x6015) s) ∧
      (Takes 0x01 (req 0x6010) s → ∃ t, exec (.auxUnitStatusRead port tag) s = .next (answered 0x01 (req 0x6010)
        ((begun 0x01 (req 0x6010) s).readStatus [0x6010]) ((begun 0x01 (req 0x6010) s).value 0x6010) t) ∧
        t.aux.comparators = s.aux.comparators.map (fun (c : Comparator) => ({ c with fired := false } : Comparator)) ∧
        { t with aux := s.aux } = begun 0x01 (req 0x6010) s))

/-! ### Integrity -/

/-- R514–R519: the watch over clock and state. A window near nominal is only kept; the third high or low one in a row, and
a glitch, reset the die and hold it until a hundred good windows have passed, the time from the detection running on to the
release of reset; the watch oscillator that leaves its range is
logged once; and a register that holds an invalid code is counted, logged, and its machine takes its safe state. -/
def Obligations.ClockAndStateAreWatched : Prop :=
  ∀ (s : State) (c : Nat), Settled s →
    let i := s.integrity
    (∀ run, i.holding = some run →
      let n := if 6229 ≤ c ∧ c ≤ 6354 then run + 1 else 0
      exec (.bitternWindow c) s = .next { s with integrity := { i with
        heldWindows := i.heldWindows + 1
        holding := if n = 100 then none else some n
        cause := i.cause.map (fun x => (x.1, x.2.1, (i.heldWindows + 1) * 1024 / 1000)) } }) ∧
    (i.holding = none → s.dieRuns = false → s.start.phase ≠ .inReset ∨ i.cause = none →
      exec (.bitternWindow c) s = .next s) ∧
    (∀ x, i.holding = none → s.start.phase = .inReset → i.cause = some x → exec (.bitternWindow c) s = .next
      { s with integrity := { i with
        heldWindows := i.heldWindows + 1, cause := some (x.1, x.2.1, (i.heldWindows + 1) * 1024 / 1000) } }) ∧
    (i.holding = none → s.dieRuns = true → 6165 < c → c < 6418 → exec (.bitternWindow c) s = .next { s with integrity :=
      { i with
        lastCount := c, anyWindow := true, highRun := 0, lowRun := 0, runWide := false
        lowCount := if i.anyWindow then min c i.lowCount else c
        highCount := if i.anyWindow then max c i.highCount else c } }) ∧
    (i.holding = none → s.dieRuns = true → i.watchOsc = false → i.highRun = 2 → 6418 ≤ c →
      ∃ t, exec (.bitternWindow c) s = .next t ∧ t.integrity.holding = some 0 ∧
        t.integrity.cause = some (0x10, c, 0) ∧ t.dieRuns = false) ∧
    (i.holding = none → s.dieRuns = true → i.watchOsc = false → i.lowRun = 2 → c ≤ 6165 →
      ∃ t, exec (.bitternWindow c) s = .next t ∧ t.integrity.holding = some 0 ∧
        t.integrity.cause = some (0x11, c, 0) ∧ t.dieRuns = false) ∧
    (s.dieRuns = false → exec .clkGlitch s = .next s ∧ exec (.watchOsc c) s = .next s) ∧
    (s.dieRuns = true → ∃ t, exec .clkGlitch s = .next t ∧ t.integrity.holding = some 0 ∧
      t.integrity.cause = some (0x12, 0, 0) ∧ t.dieRuns = false) ∧
    (s.dieRuns = true →
      let bad : Bool := decide (8602 ≤ c) || decide (c ≤ 7782)
      let u := { s with integrity := { i with watchOsc := bad } }
      exec (.watchOsc c) s = .next (if bad && !i.watchOsc then (u.raise 0x13 (leBytes 2 c)).endEdge else u)) ∧
    (∀ m j (x : Byte), s.dieRuns = false ∨ 5 ≤ m ∨ 2 ≤ j ∨ (m ≠ 2 ∧ j ≠ 0) ∨ x.toNat ∈ validCodes m → exec (.stateInvalid m j x) s = .next s) ∧
    (∀ x : Byte, s.dieRuns = true → x.toNat ∉ validCodes 0 → ∃ t, exec (.stateInvalid 0 0 x) s = .next t ∧
      t.sluice.hold = true ∧ t.integrity.counters = modAt i.counters 10 (· + 1) ∧ t.billing = s.billing ∧
      t.store.cells = s.store.cells) ∧
    (∀ x : Byte, s.dieRuns = true → x.toNat ∉ validCodes 1 → ∃ t, exec (.stateInvalid 1 0 x) s = .next t ∧
      t.store.closed = true ∧ t.integrity.counters = modAt i.counters 10 (· + 1) ∧ t.billing = s.billing) ∧
    (∀ x : Byte, s.dieRuns = true → x.toNat ∉ validCodes 3 → ∃ t, exec (.stateInvalid 3 0 x) s = .next t ∧
      t.store.saveState = 0 ∧ t.store.cells = s.store.cells ∧ t.integrity.counters = modAt i.counters 10 (· + 1) ∧
      t.billing = s.billing) ∧
    (∀ x : Byte, s.dieRuns = true → x.toNat ∉ validCodes 4 → ∃ t, exec (.stateInvalid 4 0 x) s = .next t ∧
      t.start.commit = .idle ∧ t.start.applying = [] ∧ t.start.pendingImage = none ∧
      t.integrity.counters = modAt i.counters 10 (· + 1) ∧ t.billing = s.billing)

/-- R33, R520, R521, R523, R524: targeted tests. A word that fails its bus code is counted, each time, and repeated once; a transfer that
fails twice, an uncorrectable word within its region whose row is not under test, and a disagreement of the Warden's cores
each begin their test, count and are logged; a pass is transient, a fail raises the fault, and a row that fails is
mapped to one of eight spares. Where the spec leaves a reading open it is that of log entry 81. -/
def Obligations.TargetedTests : Prop :=
  ∀ (s : State), Settled s →
    let i := s.integrity
    let put := fun (x : Integrity) => ({ s with integrity := x } : State)
    let up := fun (k : Nat) => modAt i.counters k (· + 1)
    (∀ a k p first again, s.dieRuns = false ∨ k = 3#2 ∨ busCodeOf a k first.data = first.code.toNat →
      exec (.busCode a k p first again) s = .next s) ∧
    (∀ (a : BitVec 32) k (p : Byte) first again, s.dieRuns = true → k ≠ 3#2 → busCodeOf a k first.data ≠ first.code.toNat →
      (busCodeOf a k again.data = again.code.toNat →
        exec (.busCode a k p first again) s = .next (put { i with counters := up 6 })) ∧
      (busCodeOf a k again.data ≠ again.code.toNat → exec (.busCode a k p first again) s = .next (put { i with
        counters := modAt (up 6) 6 (· + 1), fabricTests := i.fabricTests ++ [(a.toNat, p.toNat)] }))) ∧
    (i.fabricTests = [] → ∀ ok, exec (.fabricTestEnd ok) s = .next s) ∧
    (∀ a p rest, i.fabricTests = (a, p) :: rest →
      exec (.fabricTestEnd true) s = .next ((put { i with fabricTests := rest, counters := up 11 }).raise 0x15
        (leBytes 4 a ++ [BitVec.ofNat 8 p] ++ [1])).endEdge ∧
      exec (.fabricTestEnd false) s = .next (((put { i with fabricTests := rest }).raise 0x15
        (leBytes 4 a ++ [BitVec.ofNat 8 p] ++ [0])).raise 0x16 (leBytes 4 a ++ [BitVec.ofNat 8 p])).endEdge) ∧
    (∀ r (a : BitVec 32), s.dieRuns = false ∨ regionSize r ≤ a.toNat ∨ rowOf r a ∈ i.rowTests →
      exec (.eccDouble r a) s = .next s) ∧
    (∀ r (a : BitVec 32), s.dieRuns = true → r = 4 ∨ r = 5 → a.toNat < 262144 → rowOf r a ∉ i.rowTests →
      exec (.eccDouble r a) s = .next ((put { i with counters := up 8, rowTests := i.rowTests ++ [rowOf r a] }).raise 0x17
        (BitVec.ofNat 8 r :: leBytes 4 a.toNat)).endEdge) ∧
    (∀ (a : BitVec 32), s.dieRuns = true → s.engines.ring ≠ [] → a.toNat < 6241 * 168 → rowOf 2 a ∉ i.rowTests →
      ∃ t, exec (.eccDouble 2 a) s = .next t ∧
      t.integrity = { i with counters := up 8, rowTests := i.rowTests ++ [rowOf 2 a] } ∧
      t.engines.ring.length = s.engines.ring.length ∧ t.billing = s.billing ∧ t.link = s.link) ∧
    (∀ r (a : BitVec 32) ok, rowOf r a ∉ i.rowTests → exec (.sramRowTestEnd r a ok) s = .next s) ∧
    (∀ r (a : BitVec 32), rowOf r a ∈ i.rowTests →
      let rest := i.rowTests.erase (rowOf r a)
      exec (.sramRowTestEnd r a true) s = .next (put { i with rowTests := rest, counters := up 11 }) ∧
      (i.spares.getD r 0 < 8 → exec (.sramRowTestEnd r a false) s = .next
        ((put { i with rowTests := rest, counters := up 9, spares := modAt i.spares r (· + 1) }).raise 0x18
          (BitVec.ofNat 8 r :: leBytes 4 (a.toNat / 256 * 256) ++ [BitVec.ofNat 8 (7 - i.spares.getD r 0)])).endEdge) ∧
      (8 ≤ i.spares.getD r 0 → 2 ≤ r → exec (.sramRowTestEnd r a false) s = .next
        ((put { i with rowTests := rest }).raise 0x19 [BitVec.ofNat 8 r]).endEdge)) ∧
    (s.dieRuns = false ∨ i.wardenTesting = true → exec .wardenLockstep s = .next s) ∧
    (s.dieRuns = true → i.wardenTesting = false → ∃ t, exec .wardenLockstep s = .next t ∧
      t.integrity = { i with wardenTesting := true } ∧ t.link.uartRx = {} ∧ t.link.spiRx = none ∧
      (∀ c ∈ t.link.outstanding, c.work.long = false ∨ ∃ d ∈ s.link.outstanding, d ≠ c ∧ d.tag = c.tag) ∧
      t.billing = s.billing ∧ t.store.cells = s.store.cells) ∧
    (i.wardenTesting = false → ∀ ok, exec (.wardenTestEnd ok) s = .next s) ∧
    (i.wardenTesting = true →
      exec (.wardenTestEnd true) s = .next (put { i with wardenTesting := false, counters := up 11 }) ∧
      exec (.wardenTestEnd false) s = .next ((put { i with wardenTesting := false }).raise 0x1B []).endEdge)

/-! ### The machine as a whole -/

/-- A step takes the command at the front of the queue and runs it with the rest of the queue; with no command waiting
the backup domain's prescaler counts one crystal cycle, up to the overflow that CHRONICLE_SECOND is, unless HALT is set or
the crystal has stopped, and the MOD domain of a die that runs counts the 125 clocks of that cycle (log entry 2). -/
def Obligations.StepTakesTheFrontCommand : Prop :=
  (∀ (s : State) (c : Instr) (rest : List Instr), s.pending = c :: rest → step s = exec c { s with pending := rest }) ∧
  (∀ s : State, s.pending = [] → step s = .next
    (let u := if s.awake = true ∨ s.start.phase = .failed then s.reachClock (s.sense.modCount.toNat + 125) else s
     if s.backup.halt = true ∨ s.backup.crystalStopped = true ∨ s.backup.tick = 32767#15 then u
     else { u with backup := { s.backup with tick := s.backup.tick + 1 } }))

/-- Every command, on every state and with every operand, answers a next state, in which the entries of its edge have taken
their order: no command stops the machine. Where the spec leaves a reading open it is that of log entry 5. -/
def Obligations.EveryCommandAnswers : Prop :=
  ∀ (c : Instr) (s : State), ∃ t, exec c s = .next t ∧ Settled t

/-- From every state between two edges the machine runs for ever, and between any two of its steps nothing is left
unordered (R498). -/
def Obligations.RunsStaySettled : Prop :=
  ∀ s : State, Settled s → ∃ r : Nat → State, r 0 = s ∧ ∀ n, Settled (r n) ∧ step (r n) = .next (r (n + 1))

/-- Every step keeps the array of the persistent store in its canonical form: addresses rising, no blank byte listed
(R438–R440). -/
def Obligations.TheStoreStaysCanonical : Prop :=
  ∀ s t : State, Memory.wf s.store.cells = true → step s = .next t → Memory.wf t.store.cells = true

/-- What power-on leaves: the die in reset with no claim accepted, no interrupt pending, no
reply, command or cached reply, no generation published, no session, and nothing unordered; the store's array is in its
canonical form. Where the spec leaves a reading open it is that of log entry 3. -/
def Obligations.ResetState : Prop :=
  let s := State.reset
  s.pending = [] ∧ Settled s ∧ Memory.wf s.store.cells = true ∧ s.sluice.heldClaim = 0 ∧ s.link.irqPending = 0 ∧
  s.link.replies = [] ∧ s.link.behind = [] ∧ s.link.outstanding = [] ∧ s.link.cache = [] ∧ s.link.session = none ∧
  s.link.generation = 0 ∧
  s.engines.takeover = none ∧ s.backup.halt = false ∧ s.evidence.queue = []
end

