-- ==== Sys2Proof/Laws/State.lean ====
section
/-! SUPPORT. State.lean: what each named update does to each part of the state, one lemma per part, so that no proof
unfolds an update; and what a list with one element changed holds. -/

namespace Sys2Proof.Laws
open Sys2Proof Sys2Proof.Machine

/-! ### One element of a list -/

@[simp] theorem modAt_length {α : Type} (l : List α) (i : Nat) (f : α → α) : (modAt l i f).length = l.length := by
  induction l generalizing i with
  | nil => simp [modAt]
  | cons a l ih => cases i <;> simp [modAt, ih]

/-- The element changed, and every other. -/
theorem modAt_getElem? {α : Type} (l : List α) (i : Nat) (f : α → α) (j : Nat) :
    (modAt l i f)[j]? = if j = i then (l[j]?).map f else l[j]? := by
  induction l generalizing i j with
  | nil => simp [modAt]
  | cons a l ih => cases i <;> cases j <;> simp [modAt, ih]

/-- The element changed, read with a default that stands for one that is absent. -/
theorem modAt_getD_same {α : Type} (l : List α) (i : Nat) (f : α → α) (d : α) (h : i < l.length) :
    (modAt l i f).getD i d = f (l.getD i d) := by
  rw [List.getD_eq_getElem?_getD, modAt_getElem?, List.getD_eq_getElem?_getD, if_pos rfl, List.getElem?_eq_getElem h]; rfl

/-- Every other element. -/
theorem modAt_getD_other {α : Type} (l : List α) (i : Nat) (f : α → α) (d : α) {j : Nat} (h : j ≠ i) :
    (modAt l i f).getD j d = l.getD j d := by
  simp [List.getD_eq_getElem?_getD, modAt_getElem?, h]

/-! ### Updates of one part -/

variable (s : State)

@[simp] theorem nextFree_free : (s.nextFree).free = s.free + 1 := rfl
@[simp] theorem nextFree_pending : (s.nextFree).pending = s.pending := rfl
@[simp] theorem nextFree_part : (s.nextFree).part = s.part := rfl
@[simp] theorem nextFree_stepLetter : (s.nextFree).stepLetter = s.stepLetter := rfl
@[simp] theorem nextFree_stepDigit : (s.nextFree).stepDigit = s.stepDigit := rfl
@[simp] theorem nextFree_link : (s.nextFree).link = s.link := rfl
@[simp] theorem nextFree_sense : (s.nextFree).sense = s.sense := rfl
@[simp] theorem nextFree_billing : (s.nextFree).billing = s.billing := rfl
@[simp] theorem nextFree_xa : (s.nextFree).xa = s.xa := rfl
@[simp] theorem nextFree_recording : (s.nextFree).recording = s.recording := rfl
@[simp] theorem nextFree_archive : (s.nextFree).archive = s.archive := rfl
@[simp] theorem nextFree_engines : (s.nextFree).engines = s.engines := rfl
@[simp] theorem nextFree_sluice : (s.nextFree).sluice = s.sluice := rfl
@[simp] theorem nextFree_line : (s.nextFree).line = s.line := rfl
@[simp] theorem nextFree_net : (s.nextFree).net = s.net := rfl
@[simp] theorem nextFree_aux : (s.nextFree).aux = s.aux := rfl
@[simp] theorem nextFree_store : (s.nextFree).store = s.store := rfl
@[simp] theorem nextFree_backup : (s.nextFree).backup = s.backup := rfl
@[simp] theorem nextFree_time : (s.nextFree).time = s.time := rfl
@[simp] theorem nextFree_evidence : (s.nextFree).evidence = s.evidence := rfl
@[simp] theorem nextFree_tamper : (s.nextFree).tamper = s.tamper := rfl
@[simp] theorem nextFree_integrity : (s.nextFree).integrity = s.integrity := rfl
@[simp] theorem nextFree_start : (s.nextFree).start = s.start := rfl
@[simp] theorem nextFree_power : (s.nextFree).power = s.power := rfl

@[simp] theorem setIrq_link (b : Irq) : (s.setIrq b).link = { s.link with irqPending := s.link.irqPending ||| (1#12 <<< b.bit) } := rfl
@[simp] theorem setIrq_pending (b : Irq) : (s.setIrq b).pending = s.pending := rfl
@[simp] theorem setIrq_free (b : Irq) : (s.setIrq b).free = s.free := rfl
@[simp] theorem setIrq_part (b : Irq) : (s.setIrq b).part = s.part := rfl
@[simp] theorem setIrq_stepLetter (b : Irq) : (s.setIrq b).stepLetter = s.stepLetter := rfl
@[simp] theorem setIrq_stepDigit (b : Irq) : (s.setIrq b).stepDigit = s.stepDigit := rfl
@[simp] theorem setIrq_sense (b : Irq) : (s.setIrq b).sense = s.sense := rfl
@[simp] theorem setIrq_billing (b : Irq) : (s.setIrq b).billing = s.billing := rfl
@[simp] theorem setIrq_xa (b : Irq) : (s.setIrq b).xa = s.xa := rfl
@[simp] theorem setIrq_recording (b : Irq) : (s.setIrq b).recording = s.recording := rfl
@[simp] theorem setIrq_archive (b : Irq) : (s.setIrq b).archive = s.archive := rfl
@[simp] theorem setIrq_engines (b : Irq) : (s.setIrq b).engines = s.engines := rfl
@[simp] theorem setIrq_sluice (b : Irq) : (s.setIrq b).sluice = s.sluice := rfl
@[simp] theorem setIrq_line (b : Irq) : (s.setIrq b).line = s.line := rfl
@[simp] theorem setIrq_net (b : Irq) : (s.setIrq b).net = s.net := rfl
@[simp] theorem setIrq_aux (b : Irq) : (s.setIrq b).aux = s.aux := rfl
@[simp] theorem setIrq_store (b : Irq) : (s.setIrq b).store = s.store := rfl
@[simp] theorem setIrq_backup (b : Irq) : (s.setIrq b).backup = s.backup := rfl
@[simp] theorem setIrq_time (b : Irq) : (s.setIrq b).time = s.time := rfl
@[simp] theorem setIrq_evidence (b : Irq) : (s.setIrq b).evidence = s.evidence := rfl
@[simp] theorem setIrq_tamper (b : Irq) : (s.setIrq b).tamper = s.tamper := rfl
@[simp] theorem setIrq_integrity (b : Irq) : (s.setIrq b).integrity = s.integrity := rfl
@[simp] theorem setIrq_start (b : Irq) : (s.setIrq b).start = s.start := rfl
@[simp] theorem setIrq_power (b : Irq) : (s.setIrq b).power = s.power := rfl

@[simp] theorem raiseEntry_evidence (r : Raised) : (s.raiseEntry r).evidence = { s.evidence with raised := s.evidence.raised ++ [r] } := rfl
@[simp] theorem raiseEntry_pending (r : Raised) : (s.raiseEntry r).pending = s.pending := rfl
@[simp] theorem raiseEntry_free (r : Raised) : (s.raiseEntry r).free = s.free := rfl
@[simp] theorem raiseEntry_part (r : Raised) : (s.raiseEntry r).part = s.part := rfl
@[simp] theorem raiseEntry_stepLetter (r : Raised) : (s.raiseEntry r).stepLetter = s.stepLetter := rfl
@[simp] theorem raiseEntry_stepDigit (r : Raised) : (s.raiseEntry r).stepDigit = s.stepDigit := rfl
@[simp] theorem raiseEntry_link (r : Raised) : (s.raiseEntry r).link = s.link := rfl
@[simp] theorem raiseEntry_sense (r : Raised) : (s.raiseEntry r).sense = s.sense := rfl
@[simp] theorem raiseEntry_billing (r : Raised) : (s.raiseEntry r).billing = s.billing := rfl
@[simp] theorem raiseEntry_xa (r : Raised) : (s.raiseEntry r).xa = s.xa := rfl
@[simp] theorem raiseEntry_recording (r : Raised) : (s.raiseEntry r).recording = s.recording := rfl
@[simp] theorem raiseEntry_archive (r : Raised) : (s.raiseEntry r).archive = s.archive := rfl
@[simp] theorem raiseEntry_engines (r : Raised) : (s.raiseEntry r).engines = s.engines := rfl
@[simp] theorem raiseEntry_sluice (r : Raised) : (s.raiseEntry r).sluice = s.sluice := rfl
@[simp] theorem raiseEntry_line (r : Raised) : (s.raiseEntry r).line = s.line := rfl
@[simp] theorem raiseEntry_net (r : Raised) : (s.raiseEntry r).net = s.net := rfl
@[simp] theorem raiseEntry_aux (r : Raised) : (s.raiseEntry r).aux = s.aux := rfl
@[simp] theorem raiseEntry_store (r : Raised) : (s.raiseEntry r).store = s.store := rfl
@[simp] theorem raiseEntry_backup (r : Raised) : (s.raiseEntry r).backup = s.backup := rfl
@[simp] theorem raiseEntry_time (r : Raised) : (s.raiseEntry r).time = s.time := rfl
@[simp] theorem raiseEntry_tamper (r : Raised) : (s.raiseEntry r).tamper = s.tamper := rfl
@[simp] theorem raiseEntry_integrity (r : Raised) : (s.raiseEntry r).integrity = s.integrity := rfl
@[simp] theorem raiseEntry_start (r : Raised) : (s.raiseEntry r).start = s.start := rfl
@[simp] theorem raiseEntry_power (r : Raised) : (s.raiseEntry r).power = s.power := rfl

@[simp] theorem raiseAt_pending (t c : Nat) (p : Bytes) : (s.raiseAt t c p).pending = s.pending := rfl
@[simp] theorem raiseAt_free (t c : Nat) (p : Bytes) : (s.raiseAt t c p).free = s.free := rfl
@[simp] theorem raiseAt_part (t c : Nat) (p : Bytes) : (s.raiseAt t c p).part = s.part := rfl
@[simp] theorem raiseAt_stepLetter (t c : Nat) (p : Bytes) : (s.raiseAt t c p).stepLetter = s.stepLetter := rfl
@[simp] theorem raiseAt_stepDigit (t c : Nat) (p : Bytes) : (s.raiseAt t c p).stepDigit = s.stepDigit := rfl
@[simp] theorem raiseAt_link (t c : Nat) (p : Bytes) : (s.raiseAt t c p).link = s.link := rfl
@[simp] theorem raiseAt_sense (t c : Nat) (p : Bytes) : (s.raiseAt t c p).sense = s.sense := rfl
@[simp] theorem raiseAt_billing (t c : Nat) (p : Bytes) : (s.raiseAt t c p).billing = s.billing := rfl
@[simp] theorem raiseAt_xa (t c : Nat) (p : Bytes) : (s.raiseAt t c p).xa = s.xa := rfl
@[simp] theorem raiseAt_recording (t c : Nat) (p : Bytes) : (s.raiseAt t c p).recording = s.recording := rfl
@[simp] theorem raiseAt_archive (t c : Nat) (p : Bytes) : (s.raiseAt t c p).archive = s.archive := rfl
@[simp] theorem raiseAt_engines (t c : Nat) (p : Bytes) : (s.raiseAt t c p).engines = s.engines := rfl
@[simp] theorem raiseAt_sluice (t c : Nat) (p : Bytes) : (s.raiseAt t c p).sluice = s.sluice := rfl
@[simp] theorem raiseAt_line (t c : Nat) (p : Bytes) : (s.raiseAt t c p).line = s.line := rfl
@[simp] theorem raiseAt_net (t c : Nat) (p : Bytes) : (s.raiseAt t c p).net = s.net := rfl
@[simp] theorem raiseAt_aux (t c : Nat) (p : Bytes) : (s.raiseAt t c p).aux = s.aux := rfl
@[simp] theorem raiseAt_store (t c : Nat) (p : Bytes) : (s.raiseAt t c p).store = s.store := rfl
@[simp] theorem raiseAt_backup (t c : Nat) (p : Bytes) : (s.raiseAt t c p).backup = s.backup := rfl
@[simp] theorem raiseAt_time (t c : Nat) (p : Bytes) : (s.raiseAt t c p).time = s.time := rfl
@[simp] theorem raiseAt_tamper (t c : Nat) (p : Bytes) : (s.raiseAt t c p).tamper = s.tamper := rfl
@[simp] theorem raiseAt_integrity (t c : Nat) (p : Bytes) : (s.raiseAt t c p).integrity = s.integrity := rfl
@[simp] theorem raiseAt_start (t c : Nat) (p : Bytes) : (s.raiseAt t c p).start = s.start := rfl
@[simp] theorem raiseAt_power (t c : Nat) (p : Bytes) : (s.raiseAt t c p).power = s.power := rfl

@[simp] theorem raise_pending (c : Nat) (p : Bytes) : (s.raise c p).pending = s.pending := rfl
@[simp] theorem raise_free (c : Nat) (p : Bytes) : (s.raise c p).free = s.free := rfl
@[simp] theorem raise_part (c : Nat) (p : Bytes) : (s.raise c p).part = s.part := rfl
@[simp] theorem raise_stepLetter (c : Nat) (p : Bytes) : (s.raise c p).stepLetter = s.stepLetter := rfl
@[simp] theorem raise_stepDigit (c : Nat) (p : Bytes) : (s.raise c p).stepDigit = s.stepDigit := rfl
@[simp] theorem raise_link (c : Nat) (p : Bytes) : (s.raise c p).link = s.link := rfl
@[simp] theorem raise_sense (c : Nat) (p : Bytes) : (s.raise c p).sense = s.sense := rfl
@[simp] theorem raise_billing (c : Nat) (p : Bytes) : (s.raise c p).billing = s.billing := rfl
@[simp] theorem raise_xa (c : Nat) (p : Bytes) : (s.raise c p).xa = s.xa := rfl
@[simp] theorem raise_recording (c : Nat) (p : Bytes) : (s.raise c p).recording = s.recording := rfl
@[simp] theorem raise_archive (c : Nat) (p : Bytes) : (s.raise c p).archive = s.archive := rfl
@[simp] theorem raise_engines (c : Nat) (p : Bytes) : (s.raise c p).engines = s.engines := rfl
@[simp] theorem raise_sluice (c : Nat) (p : Bytes) : (s.raise c p).sluice = s.sluice := rfl
@[simp] theorem raise_line (c : Nat) (p : Bytes) : (s.raise c p).line = s.line := rfl
@[simp] theorem raise_net (c : Nat) (p : Bytes) : (s.raise c p).net = s.net := rfl
@[simp] theorem raise_aux (c : Nat) (p : Bytes) : (s.raise c p).aux = s.aux := rfl
@[simp] theorem raise_store (c : Nat) (p : Bytes) : (s.raise c p).store = s.store := rfl
@[simp] theorem raise_backup (c : Nat) (p : Bytes) : (s.raise c p).backup = s.backup := rfl
@[simp] theorem raise_time (c : Nat) (p : Bytes) : (s.raise c p).time = s.time := rfl
@[simp] theorem raise_tamper (c : Nat) (p : Bytes) : (s.raise c p).tamper = s.tamper := rfl
@[simp] theorem raise_integrity (c : Nat) (p : Bytes) : (s.raise c p).integrity = s.integrity := rfl
@[simp] theorem raise_start (c : Nat) (p : Bytes) : (s.raise c p).start = s.start := rfl
@[simp] theorem raise_power (c : Nat) (p : Bytes) : (s.raise c p).power = s.power := rfl

@[simp] theorem raiseExt_pending (c q : Nat) (p : Bytes) : (s.raiseExt c q p).pending = s.pending := rfl
@[simp] theorem raiseExt_free (c q : Nat) (p : Bytes) : (s.raiseExt c q p).free = s.free := rfl
@[simp] theorem raiseExt_part (c q : Nat) (p : Bytes) : (s.raiseExt c q p).part = s.part := rfl
@[simp] theorem raiseExt_stepLetter (c q : Nat) (p : Bytes) : (s.raiseExt c q p).stepLetter = s.stepLetter := rfl
@[simp] theorem raiseExt_stepDigit (c q : Nat) (p : Bytes) : (s.raiseExt c q p).stepDigit = s.stepDigit := rfl
@[simp] theorem raiseExt_link (c q : Nat) (p : Bytes) : (s.raiseExt c q p).link = s.link := rfl
@[simp] theorem raiseExt_sense (c q : Nat) (p : Bytes) : (s.raiseExt c q p).sense = s.sense := rfl
@[simp] theorem raiseExt_billing (c q : Nat) (p : Bytes) : (s.raiseExt c q p).billing = s.billing := rfl
@[simp] theorem raiseExt_xa (c q : Nat) (p : Bytes) : (s.raiseExt c q p).xa = s.xa := rfl
@[simp] theorem raiseExt_recording (c q : Nat) (p : Bytes) : (s.raiseExt c q p).recording = s.recording := rfl
@[simp] theorem raiseExt_archive (c q : Nat) (p : Bytes) : (s.raiseExt c q p).archive = s.archive := rfl
@[simp] theorem raiseExt_engines (c q : Nat) (p : Bytes) : (s.raiseExt c q p).engines = s.engines := rfl
@[simp] theorem raiseExt_sluice (c q : Nat) (p : Bytes) : (s.raiseExt c q p).sluice = s.sluice := rfl
@[simp] theorem raiseExt_line (c q : Nat) (p : Bytes) : (s.raiseExt c q p).line = s.line := rfl
@[simp] theorem raiseExt_net (c q : Nat) (p : Bytes) : (s.raiseExt c q p).net = s.net := rfl
@[simp] theorem raiseExt_aux (c q : Nat) (p : Bytes) : (s.raiseExt c q p).aux = s.aux := rfl
@[simp] theorem raiseExt_store (c q : Nat) (p : Bytes) : (s.raiseExt c q p).store = s.store := rfl
@[simp] theorem raiseExt_backup (c q : Nat) (p : Bytes) : (s.raiseExt c q p).backup = s.backup := rfl
@[simp] theorem raiseExt_time (c q : Nat) (p : Bytes) : (s.raiseExt c q p).time = s.time := rfl
@[simp] theorem raiseExt_tamper (c q : Nat) (p : Bytes) : (s.raiseExt c q p).tamper = s.tamper := rfl
@[simp] theorem raiseExt_integrity (c q : Nat) (p : Bytes) : (s.raiseExt c q p).integrity = s.integrity := rfl
@[simp] theorem raiseExt_start (c q : Nat) (p : Bytes) : (s.raiseExt c q p).start = s.start := rfl
@[simp] theorem raiseExt_power (c q : Nat) (p : Bytes) : (s.raiseExt c q p).power = s.power := rfl

@[simp] theorem pushReply_link (r : Reply) : (s.pushReply r).link = { s.link with replies := s.link.replies ++ [r] } := rfl
@[simp] theorem pushReply_pending (r : Reply) : (s.pushReply r).pending = s.pending := rfl
@[simp] theorem pushReply_free (r : Reply) : (s.pushReply r).free = s.free := rfl
@[simp] theorem pushReply_part (r : Reply) : (s.pushReply r).part = s.part := rfl
@[simp] theorem pushReply_stepLetter (r : Reply) : (s.pushReply r).stepLetter = s.stepLetter := rfl
@[simp] theorem pushReply_stepDigit (r : Reply) : (s.pushReply r).stepDigit = s.stepDigit := rfl
@[simp] theorem pushReply_sense (r : Reply) : (s.pushReply r).sense = s.sense := rfl
@[simp] theorem pushReply_billing (r : Reply) : (s.pushReply r).billing = s.billing := rfl
@[simp] theorem pushReply_xa (r : Reply) : (s.pushReply r).xa = s.xa := rfl
@[simp] theorem pushReply_recording (r : Reply) : (s.pushReply r).recording = s.recording := rfl
@[simp] theorem pushReply_archive (r : Reply) : (s.pushReply r).archive = s.archive := rfl
@[simp] theorem pushReply_engines (r : Reply) : (s.pushReply r).engines = s.engines := rfl
@[simp] theorem pushReply_sluice (r : Reply) : (s.pushReply r).sluice = s.sluice := rfl
@[simp] theorem pushReply_line (r : Reply) : (s.pushReply r).line = s.line := rfl
@[simp] theorem pushReply_net (r : Reply) : (s.pushReply r).net = s.net := rfl
@[simp] theorem pushReply_aux (r : Reply) : (s.pushReply r).aux = s.aux := rfl
@[simp] theorem pushReply_store (r : Reply) : (s.pushReply r).store = s.store := rfl
@[simp] theorem pushReply_backup (r : Reply) : (s.pushReply r).backup = s.backup := rfl
@[simp] theorem pushReply_time (r : Reply) : (s.pushReply r).time = s.time := rfl
@[simp] theorem pushReply_evidence (r : Reply) : (s.pushReply r).evidence = s.evidence := rfl
@[simp] theorem pushReply_tamper (r : Reply) : (s.pushReply r).tamper = s.tamper := rfl
@[simp] theorem pushReply_integrity (r : Reply) : (s.pushReply r).integrity = s.integrity := rfl
@[simp] theorem pushReply_start (r : Reply) : (s.pushReply r).start = s.start := rfl
@[simp] theorem pushReply_power (r : Reply) : (s.pushReply r).power = s.power := rfl

@[simp] theorem setWork_pending (t : Nat) (w : Work) : (s.setWork t w).pending = s.pending := rfl
@[simp] theorem setWork_free (t : Nat) (w : Work) : (s.setWork t w).free = s.free := rfl
@[simp] theorem setWork_part (t : Nat) (w : Work) : (s.setWork t w).part = s.part := rfl
@[simp] theorem setWork_stepLetter (t : Nat) (w : Work) : (s.setWork t w).stepLetter = s.stepLetter := rfl
@[simp] theorem setWork_stepDigit (t : Nat) (w : Work) : (s.setWork t w).stepDigit = s.stepDigit := rfl
@[simp] theorem setWork_sense (t : Nat) (w : Work) : (s.setWork t w).sense = s.sense := rfl
@[simp] theorem setWork_billing (t : Nat) (w : Work) : (s.setWork t w).billing = s.billing := rfl
@[simp] theorem setWork_xa (t : Nat) (w : Work) : (s.setWork t w).xa = s.xa := rfl
@[simp] theorem setWork_recording (t : Nat) (w : Work) : (s.setWork t w).recording = s.recording := rfl
@[simp] theorem setWork_archive (t : Nat) (w : Work) : (s.setWork t w).archive = s.archive := rfl
@[simp] theorem setWork_engines (t : Nat) (w : Work) : (s.setWork t w).engines = s.engines := rfl
@[simp] theorem setWork_sluice (t : Nat) (w : Work) : (s.setWork t w).sluice = s.sluice := rfl
@[simp] theorem setWork_line (t : Nat) (w : Work) : (s.setWork t w).line = s.line := rfl
@[simp] theorem setWork_net (t : Nat) (w : Work) : (s.setWork t w).net = s.net := rfl
@[simp] theorem setWork_aux (t : Nat) (w : Work) : (s.setWork t w).aux = s.aux := rfl
@[simp] theorem setWork_store (t : Nat) (w : Work) : (s.setWork t w).store = s.store := rfl
@[simp] theorem setWork_backup (t : Nat) (w : Work) : (s.setWork t w).backup = s.backup := rfl
@[simp] theorem setWork_time (t : Nat) (w : Work) : (s.setWork t w).time = s.time := rfl
@[simp] theorem setWork_evidence (t : Nat) (w : Work) : (s.setWork t w).evidence = s.evidence := rfl
@[simp] theorem setWork_tamper (t : Nat) (w : Work) : (s.setWork t w).tamper = s.tamper := rfl
@[simp] theorem setWork_integrity (t : Nat) (w : Work) : (s.setWork t w).integrity = s.integrity := rfl
@[simp] theorem setWork_start (t : Nat) (w : Work) : (s.setWork t w).start = s.start := rfl
@[simp] theorem setWork_power (t : Nat) (w : Work) : (s.setWork t w).power = s.power := rfl

@[simp] theorem modChannel_sense (c : Nat) (f : Channel → Channel) : (s.modChannel c f).sense = { s.sense with channels := modAt s.sense.channels c f } := rfl
@[simp] theorem modChannel_pending (c : Nat) (f : Channel → Channel) : (s.modChannel c f).pending = s.pending := rfl
@[simp] theorem modChannel_free (c : Nat) (f : Channel → Channel) : (s.modChannel c f).free = s.free := rfl
@[simp] theorem modChannel_part (c : Nat) (f : Channel → Channel) : (s.modChannel c f).part = s.part := rfl
@[simp] theorem modChannel_stepLetter (c : Nat) (f : Channel → Channel) : (s.modChannel c f).stepLetter = s.stepLetter := rfl
@[simp] theorem modChannel_stepDigit (c : Nat) (f : Channel → Channel) : (s.modChannel c f).stepDigit = s.stepDigit := rfl
@[simp] theorem modChannel_link (c : Nat) (f : Channel → Channel) : (s.modChannel c f).link = s.link := rfl
@[simp] theorem modChannel_billing (c : Nat) (f : Channel → Channel) : (s.modChannel c f).billing = s.billing := rfl
@[simp] theorem modChannel_xa (c : Nat) (f : Channel → Channel) : (s.modChannel c f).xa = s.xa := rfl
@[simp] theorem modChannel_recording (c : Nat) (f : Channel → Channel) : (s.modChannel c f).recording = s.recording := rfl
@[simp] theorem modChannel_archive (c : Nat) (f : Channel → Channel) : (s.modChannel c f).archive = s.archive := rfl
@[simp] theorem modChannel_engines (c : Nat) (f : Channel → Channel) : (s.modChannel c f).engines = s.engines := rfl
@[simp] theorem modChannel_sluice (c : Nat) (f : Channel → Channel) : (s.modChannel c f).sluice = s.sluice := rfl
@[simp] theorem modChannel_line (c : Nat) (f : Channel → Channel) : (s.modChannel c f).line = s.line := rfl
@[simp] theorem modChannel_net (c : Nat) (f : Channel → Channel) : (s.modChannel c f).net = s.net := rfl
@[simp] theorem modChannel_aux (c : Nat) (f : Channel → Channel) : (s.modChannel c f).aux = s.aux := rfl
@[simp] theorem modChannel_store (c : Nat) (f : Channel → Channel) : (s.modChannel c f).store = s.store := rfl
@[simp] theorem modChannel_backup (c : Nat) (f : Channel → Channel) : (s.modChannel c f).backup = s.backup := rfl
@[simp] theorem modChannel_time (c : Nat) (f : Channel → Channel) : (s.modChannel c f).time = s.time := rfl
@[simp] theorem modChannel_evidence (c : Nat) (f : Channel → Channel) : (s.modChannel c f).evidence = s.evidence := rfl
@[simp] theorem modChannel_tamper (c : Nat) (f : Channel → Channel) : (s.modChannel c f).tamper = s.tamper := rfl
@[simp] theorem modChannel_integrity (c : Nat) (f : Channel → Channel) : (s.modChannel c f).integrity = s.integrity := rfl
@[simp] theorem modChannel_start (c : Nat) (f : Channel → Channel) : (s.modChannel c f).start = s.start := rfl
@[simp] theorem modChannel_power (c : Nat) (f : Channel → Channel) : (s.modChannel c f).power = s.power := rfl

@[simp] theorem modSlice_sense (i : Nat) (f : Slice → Slice) : (s.modSlice i f).sense = { s.sense with slices := modAt s.sense.slices i f } := rfl
@[simp] theorem modSlice_pending (i : Nat) (f : Slice → Slice) : (s.modSlice i f).pending = s.pending := rfl
@[simp] theorem modSlice_free (i : Nat) (f : Slice → Slice) : (s.modSlice i f).free = s.free := rfl
@[simp] theorem modSlice_part (i : Nat) (f : Slice → Slice) : (s.modSlice i f).part = s.part := rfl
@[simp] theorem modSlice_stepLetter (i : Nat) (f : Slice → Slice) : (s.modSlice i f).stepLetter = s.stepLetter := rfl
@[simp] theorem modSlice_stepDigit (i : Nat) (f : Slice → Slice) : (s.modSlice i f).stepDigit = s.stepDigit := rfl
@[simp] theorem modSlice_link (i : Nat) (f : Slice → Slice) : (s.modSlice i f).link = s.link := rfl
@[simp] theorem modSlice_billing (i : Nat) (f : Slice → Slice) : (s.modSlice i f).billing = s.billing := rfl
@[simp] theorem modSlice_xa (i : Nat) (f : Slice → Slice) : (s.modSlice i f).xa = s.xa := rfl
@[simp] theorem modSlice_recording (i : Nat) (f : Slice → Slice) : (s.modSlice i f).recording = s.recording := rfl
@[simp] theorem modSlice_archive (i : Nat) (f : Slice → Slice) : (s.modSlice i f).archive = s.archive := rfl
@[simp] theorem modSlice_engines (i : Nat) (f : Slice → Slice) : (s.modSlice i f).engines = s.engines := rfl
@[simp] theorem modSlice_sluice (i : Nat) (f : Slice → Slice) : (s.modSlice i f).sluice = s.sluice := rfl
@[simp] theorem modSlice_line (i : Nat) (f : Slice → Slice) : (s.modSlice i f).line = s.line := rfl
@[simp] theorem modSlice_net (i : Nat) (f : Slice → Slice) : (s.modSlice i f).net = s.net := rfl
@[simp] theorem modSlice_aux (i : Nat) (f : Slice → Slice) : (s.modSlice i f).aux = s.aux := rfl
@[simp] theorem modSlice_store (i : Nat) (f : Slice → Slice) : (s.modSlice i f).store = s.store := rfl
@[simp] theorem modSlice_backup (i : Nat) (f : Slice → Slice) : (s.modSlice i f).backup = s.backup := rfl
@[simp] theorem modSlice_time (i : Nat) (f : Slice → Slice) : (s.modSlice i f).time = s.time := rfl
@[simp] theorem modSlice_evidence (i : Nat) (f : Slice → Slice) : (s.modSlice i f).evidence = s.evidence := rfl
@[simp] theorem modSlice_tamper (i : Nat) (f : Slice → Slice) : (s.modSlice i f).tamper = s.tamper := rfl
@[simp] theorem modSlice_integrity (i : Nat) (f : Slice → Slice) : (s.modSlice i f).integrity = s.integrity := rfl
@[simp] theorem modSlice_start (i : Nat) (f : Slice → Slice) : (s.modSlice i f).start = s.start := rfl
@[simp] theorem modSlice_power (i : Nat) (f : Slice → Slice) : (s.modSlice i f).power = s.power := rfl

@[simp] theorem modQuarter_sense (q : Nat) (f : Quarter → Quarter) : (s.modQuarter q f).sense = { s.sense with quarters := modAt s.sense.quarters q f } := rfl
@[simp] theorem modQuarter_pending (q : Nat) (f : Quarter → Quarter) : (s.modQuarter q f).pending = s.pending := rfl
@[simp] theorem modQuarter_free (q : Nat) (f : Quarter → Quarter) : (s.modQuarter q f).free = s.free := rfl
@[simp] theorem modQuarter_part (q : Nat) (f : Quarter → Quarter) : (s.modQuarter q f).part = s.part := rfl
@[simp] theorem modQuarter_stepLetter (q : Nat) (f : Quarter → Quarter) : (s.modQuarter q f).stepLetter = s.stepLetter := rfl
@[simp] theorem modQuarter_stepDigit (q : Nat) (f : Quarter → Quarter) : (s.modQuarter q f).stepDigit = s.stepDigit := rfl
@[simp] theorem modQuarter_link (q : Nat) (f : Quarter → Quarter) : (s.modQuarter q f).link = s.link := rfl
@[simp] theorem modQuarter_billing (q : Nat) (f : Quarter → Quarter) : (s.modQuarter q f).billing = s.billing := rfl
@[simp] theorem modQuarter_xa (q : Nat) (f : Quarter → Quarter) : (s.modQuarter q f).xa = s.xa := rfl
@[simp] theorem modQuarter_recording (q : Nat) (f : Quarter → Quarter) : (s.modQuarter q f).recording = s.recording := rfl
@[simp] theorem modQuarter_archive (q : Nat) (f : Quarter → Quarter) : (s.modQuarter q f).archive = s.archive := rfl
@[simp] theorem modQuarter_engines (q : Nat) (f : Quarter → Quarter) : (s.modQuarter q f).engines = s.engines := rfl
@[simp] theorem modQuarter_sluice (q : Nat) (f : Quarter → Quarter) : (s.modQuarter q f).sluice = s.sluice := rfl
@[simp] theorem modQuarter_line (q : Nat) (f : Quarter → Quarter) : (s.modQuarter q f).line = s.line := rfl
@[simp] theorem modQuarter_net (q : Nat) (f : Quarter → Quarter) : (s.modQuarter q f).net = s.net := rfl
@[simp] theorem modQuarter_aux (q : Nat) (f : Quarter → Quarter) : (s.modQuarter q f).aux = s.aux := rfl
@[simp] theorem modQuarter_store (q : Nat) (f : Quarter → Quarter) : (s.modQuarter q f).store = s.store := rfl
@[simp] theorem modQuarter_backup (q : Nat) (f : Quarter → Quarter) : (s.modQuarter q f).backup = s.backup := rfl
@[simp] theorem modQuarter_time (q : Nat) (f : Quarter → Quarter) : (s.modQuarter q f).time = s.time := rfl
@[simp] theorem modQuarter_evidence (q : Nat) (f : Quarter → Quarter) : (s.modQuarter q f).evidence = s.evidence := rfl
@[simp] theorem modQuarter_tamper (q : Nat) (f : Quarter → Quarter) : (s.modQuarter q f).tamper = s.tamper := rfl
@[simp] theorem modQuarter_integrity (q : Nat) (f : Quarter → Quarter) : (s.modQuarter q f).integrity = s.integrity := rfl
@[simp] theorem modQuarter_start (q : Nat) (f : Quarter → Quarter) : (s.modQuarter q f).start = s.start := rfl
@[simp] theorem modQuarter_power (q : Nat) (f : Quarter → Quarter) : (s.modQuarter q f).power = s.power := rfl

@[simp] theorem modEngine_engines (e : Nat) (f : Engine → Engine) : (s.modEngine e f).engines = { s.engines with engines := modAt s.engines.engines e f } := rfl
@[simp] theorem modEngine_pending (e : Nat) (f : Engine → Engine) : (s.modEngine e f).pending = s.pending := rfl
@[simp] theorem modEngine_free (e : Nat) (f : Engine → Engine) : (s.modEngine e f).free = s.free := rfl
@[simp] theorem modEngine_part (e : Nat) (f : Engine → Engine) : (s.modEngine e f).part = s.part := rfl
@[simp] theorem modEngine_stepLetter (e : Nat) (f : Engine → Engine) : (s.modEngine e f).stepLetter = s.stepLetter := rfl
@[simp] theorem modEngine_stepDigit (e : Nat) (f : Engine → Engine) : (s.modEngine e f).stepDigit = s.stepDigit := rfl
@[simp] theorem modEngine_link (e : Nat) (f : Engine → Engine) : (s.modEngine e f).link = s.link := rfl
@[simp] theorem modEngine_sense (e : Nat) (f : Engine → Engine) : (s.modEngine e f).sense = s.sense := rfl
@[simp] theorem modEngine_billing (e : Nat) (f : Engine → Engine) : (s.modEngine e f).billing = s.billing := rfl
@[simp] theorem modEngine_xa (e : Nat) (f : Engine → Engine) : (s.modEngine e f).xa = s.xa := rfl
@[simp] theorem modEngine_recording (e : Nat) (f : Engine → Engine) : (s.modEngine e f).recording = s.recording := rfl
@[simp] theorem modEngine_archive (e : Nat) (f : Engine → Engine) : (s.modEngine e f).archive = s.archive := rfl
@[simp] theorem modEngine_sluice (e : Nat) (f : Engine → Engine) : (s.modEngine e f).sluice = s.sluice := rfl
@[simp] theorem modEngine_line (e : Nat) (f : Engine → Engine) : (s.modEngine e f).line = s.line := rfl
@[simp] theorem modEngine_net (e : Nat) (f : Engine → Engine) : (s.modEngine e f).net = s.net := rfl
@[simp] theorem modEngine_aux (e : Nat) (f : Engine → Engine) : (s.modEngine e f).aux = s.aux := rfl
@[simp] theorem modEngine_store (e : Nat) (f : Engine → Engine) : (s.modEngine e f).store = s.store := rfl
@[simp] theorem modEngine_backup (e : Nat) (f : Engine → Engine) : (s.modEngine e f).backup = s.backup := rfl
@[simp] theorem modEngine_time (e : Nat) (f : Engine → Engine) : (s.modEngine e f).time = s.time := rfl
@[simp] theorem modEngine_evidence (e : Nat) (f : Engine → Engine) : (s.modEngine e f).evidence = s.evidence := rfl
@[simp] theorem modEngine_tamper (e : Nat) (f : Engine → Engine) : (s.modEngine e f).tamper = s.tamper := rfl
@[simp] theorem modEngine_integrity (e : Nat) (f : Engine → Engine) : (s.modEngine e f).integrity = s.integrity := rfl
@[simp] theorem modEngine_start (e : Nat) (f : Engine → Engine) : (s.modEngine e f).start = s.start := rfl
@[simp] theorem modEngine_power (e : Nat) (f : Engine → Engine) : (s.modEngine e f).power = s.power := rfl

@[simp] theorem countIntegrity_integrity (k : Nat) : (s.countIntegrity k).integrity = { s.integrity with counters := modAt s.integrity.counters k (· + 1) } := rfl
@[simp] theorem countIntegrity_pending (k : Nat) : (s.countIntegrity k).pending = s.pending := rfl
@[simp] theorem countIntegrity_free (k : Nat) : (s.countIntegrity k).free = s.free := rfl
@[simp] theorem countIntegrity_part (k : Nat) : (s.countIntegrity k).part = s.part := rfl
@[simp] theorem countIntegrity_stepLetter (k : Nat) : (s.countIntegrity k).stepLetter = s.stepLetter := rfl
@[simp] theorem countIntegrity_stepDigit (k : Nat) : (s.countIntegrity k).stepDigit = s.stepDigit := rfl
@[simp] theorem countIntegrity_link (k : Nat) : (s.countIntegrity k).link = s.link := rfl
@[simp] theorem countIntegrity_sense (k : Nat) : (s.countIntegrity k).sense = s.sense := rfl
@[simp] theorem countIntegrity_billing (k : Nat) : (s.countIntegrity k).billing = s.billing := rfl
@[simp] theorem countIntegrity_xa (k : Nat) : (s.countIntegrity k).xa = s.xa := rfl
@[simp] theorem countIntegrity_recording (k : Nat) : (s.countIntegrity k).recording = s.recording := rfl
@[simp] theorem countIntegrity_archive (k : Nat) : (s.countIntegrity k).archive = s.archive := rfl
@[simp] theorem countIntegrity_engines (k : Nat) : (s.countIntegrity k).engines = s.engines := rfl
@[simp] theorem countIntegrity_sluice (k : Nat) : (s.countIntegrity k).sluice = s.sluice := rfl
@[simp] theorem countIntegrity_line (k : Nat) : (s.countIntegrity k).line = s.line := rfl
@[simp] theorem countIntegrity_net (k : Nat) : (s.countIntegrity k).net = s.net := rfl
@[simp] theorem countIntegrity_aux (k : Nat) : (s.countIntegrity k).aux = s.aux := rfl
@[simp] theorem countIntegrity_store (k : Nat) : (s.countIntegrity k).store = s.store := rfl
@[simp] theorem countIntegrity_backup (k : Nat) : (s.countIntegrity k).backup = s.backup := rfl
@[simp] theorem countIntegrity_time (k : Nat) : (s.countIntegrity k).time = s.time := rfl
@[simp] theorem countIntegrity_evidence (k : Nat) : (s.countIntegrity k).evidence = s.evidence := rfl
@[simp] theorem countIntegrity_tamper (k : Nat) : (s.countIntegrity k).tamper = s.tamper := rfl
@[simp] theorem countIntegrity_start (k : Nat) : (s.countIntegrity k).start = s.start := rfl
@[simp] theorem countIntegrity_power (k : Nat) : (s.countIntegrity k).power = s.power := rfl

@[simp] theorem countStore_store (k : Nat) : (s.countStore k).store = { s.store with counters := modAt s.store.counters k (· + 1) } := rfl
@[simp] theorem countStore_pending (k : Nat) : (s.countStore k).pending = s.pending := rfl
@[simp] theorem countStore_free (k : Nat) : (s.countStore k).free = s.free := rfl
@[simp] theorem countStore_part (k : Nat) : (s.countStore k).part = s.part := rfl
@[simp] theorem countStore_stepLetter (k : Nat) : (s.countStore k).stepLetter = s.stepLetter := rfl
@[simp] theorem countStore_stepDigit (k : Nat) : (s.countStore k).stepDigit = s.stepDigit := rfl
@[simp] theorem countStore_link (k : Nat) : (s.countStore k).link = s.link := rfl
@[simp] theorem countStore_sense (k : Nat) : (s.countStore k).sense = s.sense := rfl
@[simp] theorem countStore_billing (k : Nat) : (s.countStore k).billing = s.billing := rfl
@[simp] theorem countStore_xa (k : Nat) : (s.countStore k).xa = s.xa := rfl
@[simp] theorem countStore_recording (k : Nat) : (s.countStore k).recording = s.recording := rfl
@[simp] theorem countStore_archive (k : Nat) : (s.countStore k).archive = s.archive := rfl
@[simp] theorem countStore_engines (k : Nat) : (s.countStore k).engines = s.engines := rfl
@[simp] theorem countStore_sluice (k : Nat) : (s.countStore k).sluice = s.sluice := rfl
@[simp] theorem countStore_line (k : Nat) : (s.countStore k).line = s.line := rfl
@[simp] theorem countStore_net (k : Nat) : (s.countStore k).net = s.net := rfl
@[simp] theorem countStore_aux (k : Nat) : (s.countStore k).aux = s.aux := rfl
@[simp] theorem countStore_backup (k : Nat) : (s.countStore k).backup = s.backup := rfl
@[simp] theorem countStore_time (k : Nat) : (s.countStore k).time = s.time := rfl
@[simp] theorem countStore_evidence (k : Nat) : (s.countStore k).evidence = s.evidence := rfl
@[simp] theorem countStore_tamper (k : Nat) : (s.countStore k).tamper = s.tamper := rfl
@[simp] theorem countStore_integrity (k : Nat) : (s.countStore k).integrity = s.integrity := rfl
@[simp] theorem countStore_start (k : Nat) : (s.countStore k).start = s.start := rfl
@[simp] theorem countStore_power (k : Nat) : (s.countStore k).power = s.power := rfl

@[simp] theorem modConv_aux (k : Nat) (f : Converter → Converter) : (s.modConv k f).aux = { s.aux with converters := modAt s.aux.converters k f } := rfl
@[simp] theorem modConv_pending (k : Nat) (f : Converter → Converter) : (s.modConv k f).pending = s.pending := rfl
@[simp] theorem modConv_free (k : Nat) (f : Converter → Converter) : (s.modConv k f).free = s.free := rfl
@[simp] theorem modConv_part (k : Nat) (f : Converter → Converter) : (s.modConv k f).part = s.part := rfl
@[simp] theorem modConv_stepLetter (k : Nat) (f : Converter → Converter) : (s.modConv k f).stepLetter = s.stepLetter := rfl
@[simp] theorem modConv_stepDigit (k : Nat) (f : Converter → Converter) : (s.modConv k f).stepDigit = s.stepDigit := rfl
@[simp] theorem modConv_link (k : Nat) (f : Converter → Converter) : (s.modConv k f).link = s.link := rfl
@[simp] theorem modConv_sense (k : Nat) (f : Converter → Converter) : (s.modConv k f).sense = s.sense := rfl
@[simp] theorem modConv_billing (k : Nat) (f : Converter → Converter) : (s.modConv k f).billing = s.billing := rfl
@[simp] theorem modConv_xa (k : Nat) (f : Converter → Converter) : (s.modConv k f).xa = s.xa := rfl
@[simp] theorem modConv_recording (k : Nat) (f : Converter → Converter) : (s.modConv k f).recording = s.recording := rfl
@[simp] theorem modConv_archive (k : Nat) (f : Converter → Converter) : (s.modConv k f).archive = s.archive := rfl
@[simp] theorem modConv_engines (k : Nat) (f : Converter → Converter) : (s.modConv k f).engines = s.engines := rfl
@[simp] theorem modConv_sluice (k : Nat) (f : Converter → Converter) : (s.modConv k f).sluice = s.sluice := rfl
@[simp] theorem modConv_line (k : Nat) (f : Converter → Converter) : (s.modConv k f).line = s.line := rfl
@[simp] theorem modConv_net (k : Nat) (f : Converter → Converter) : (s.modConv k f).net = s.net := rfl
@[simp] theorem modConv_store (k : Nat) (f : Converter → Converter) : (s.modConv k f).store = s.store := rfl
@[simp] theorem modConv_backup (k : Nat) (f : Converter → Converter) : (s.modConv k f).backup = s.backup := rfl
@[simp] theorem modConv_time (k : Nat) (f : Converter → Converter) : (s.modConv k f).time = s.time := rfl
@[simp] theorem modConv_evidence (k : Nat) (f : Converter → Converter) : (s.modConv k f).evidence = s.evidence := rfl
@[simp] theorem modConv_tamper (k : Nat) (f : Converter → Converter) : (s.modConv k f).tamper = s.tamper := rfl
@[simp] theorem modConv_integrity (k : Nat) (f : Converter → Converter) : (s.modConv k f).integrity = s.integrity := rfl
@[simp] theorem modConv_start (k : Nat) (f : Converter → Converter) : (s.modConv k f).start = s.start := rfl
@[simp] theorem modConv_power (k : Nat) (f : Converter → Converter) : (s.modConv k f).power = s.power := rfl

@[simp] theorem modBus_billing (b : Nat) (f : Bus → Bus) : (s.modBus b f).billing = { s.billing with buses := modAt s.billing.buses b f } := rfl
@[simp] theorem modBus_pending (b : Nat) (f : Bus → Bus) : (s.modBus b f).pending = s.pending := rfl
@[simp] theorem modBus_free (b : Nat) (f : Bus → Bus) : (s.modBus b f).free = s.free := rfl
@[simp] theorem modBus_part (b : Nat) (f : Bus → Bus) : (s.modBus b f).part = s.part := rfl
@[simp] theorem modBus_stepLetter (b : Nat) (f : Bus → Bus) : (s.modBus b f).stepLetter = s.stepLetter := rfl
@[simp] theorem modBus_stepDigit (b : Nat) (f : Bus → Bus) : (s.modBus b f).stepDigit = s.stepDigit := rfl
@[simp] theorem modBus_link (b : Nat) (f : Bus → Bus) : (s.modBus b f).link = s.link := rfl
@[simp] theorem modBus_sense (b : Nat) (f : Bus → Bus) : (s.modBus b f).sense = s.sense := rfl
@[simp] theorem modBus_xa (b : Nat) (f : Bus → Bus) : (s.modBus b f).xa = s.xa := rfl
@[simp] theorem modBus_recording (b : Nat) (f : Bus → Bus) : (s.modBus b f).recording = s.recording := rfl
@[simp] theorem modBus_archive (b : Nat) (f : Bus → Bus) : (s.modBus b f).archive = s.archive := rfl
@[simp] theorem modBus_engines (b : Nat) (f : Bus → Bus) : (s.modBus b f).engines = s.engines := rfl
@[simp] theorem modBus_sluice (b : Nat) (f : Bus → Bus) : (s.modBus b f).sluice = s.sluice := rfl
@[simp] theorem modBus_line (b : Nat) (f : Bus → Bus) : (s.modBus b f).line = s.line := rfl
@[simp] theorem modBus_net (b : Nat) (f : Bus → Bus) : (s.modBus b f).net = s.net := rfl
@[simp] theorem modBus_aux (b : Nat) (f : Bus → Bus) : (s.modBus b f).aux = s.aux := rfl
@[simp] theorem modBus_store (b : Nat) (f : Bus → Bus) : (s.modBus b f).store = s.store := rfl
@[simp] theorem modBus_backup (b : Nat) (f : Bus → Bus) : (s.modBus b f).backup = s.backup := rfl
@[simp] theorem modBus_time (b : Nat) (f : Bus → Bus) : (s.modBus b f).time = s.time := rfl
@[simp] theorem modBus_evidence (b : Nat) (f : Bus → Bus) : (s.modBus b f).evidence = s.evidence := rfl
@[simp] theorem modBus_tamper (b : Nat) (f : Bus → Bus) : (s.modBus b f).tamper = s.tamper := rfl
@[simp] theorem modBus_integrity (b : Nat) (f : Bus → Bus) : (s.modBus b f).integrity = s.integrity := rfl
@[simp] theorem modBus_start (b : Nat) (f : Bus → Bus) : (s.modBus b f).start = s.start := rfl
@[simp] theorem modBus_power (b : Nat) (f : Bus → Bus) : (s.modBus b f).power = s.power := rfl

@[simp] theorem modXaBus_xa (b : Nat) (f : XaBus → XaBus) : (s.modXaBus b f).xa = { s.xa with buses := modAt s.xa.buses b f } := rfl
@[simp] theorem modXaBus_pending (b : Nat) (f : XaBus → XaBus) : (s.modXaBus b f).pending = s.pending := rfl
@[simp] theorem modXaBus_free (b : Nat) (f : XaBus → XaBus) : (s.modXaBus b f).free = s.free := rfl
@[simp] theorem modXaBus_part (b : Nat) (f : XaBus → XaBus) : (s.modXaBus b f).part = s.part := rfl
@[simp] theorem modXaBus_stepLetter (b : Nat) (f : XaBus → XaBus) : (s.modXaBus b f).stepLetter = s.stepLetter := rfl
@[simp] theorem modXaBus_stepDigit (b : Nat) (f : XaBus → XaBus) : (s.modXaBus b f).stepDigit = s.stepDigit := rfl
@[simp] theorem modXaBus_link (b : Nat) (f : XaBus → XaBus) : (s.modXaBus b f).link = s.link := rfl
@[simp] theorem modXaBus_sense (b : Nat) (f : XaBus → XaBus) : (s.modXaBus b f).sense = s.sense := rfl
@[simp] theorem modXaBus_billing (b : Nat) (f : XaBus → XaBus) : (s.modXaBus b f).billing = s.billing := rfl
@[simp] theorem modXaBus_recording (b : Nat) (f : XaBus → XaBus) : (s.modXaBus b f).recording = s.recording := rfl
@[simp] theorem modXaBus_archive (b : Nat) (f : XaBus → XaBus) : (s.modXaBus b f).archive = s.archive := rfl
@[simp] theorem modXaBus_engines (b : Nat) (f : XaBus → XaBus) : (s.modXaBus b f).engines = s.engines := rfl
@[simp] theorem modXaBus_sluice (b : Nat) (f : XaBus → XaBus) : (s.modXaBus b f).sluice = s.sluice := rfl
@[simp] theorem modXaBus_line (b : Nat) (f : XaBus → XaBus) : (s.modXaBus b f).line = s.line := rfl
@[simp] theorem modXaBus_net (b : Nat) (f : XaBus → XaBus) : (s.modXaBus b f).net = s.net := rfl
@[simp] theorem modXaBus_aux (b : Nat) (f : XaBus → XaBus) : (s.modXaBus b f).aux = s.aux := rfl
@[simp] theorem modXaBus_store (b : Nat) (f : XaBus → XaBus) : (s.modXaBus b f).store = s.store := rfl
@[simp] theorem modXaBus_backup (b : Nat) (f : XaBus → XaBus) : (s.modXaBus b f).backup = s.backup := rfl
@[simp] theorem modXaBus_time (b : Nat) (f : XaBus → XaBus) : (s.modXaBus b f).time = s.time := rfl
@[simp] theorem modXaBus_evidence (b : Nat) (f : XaBus → XaBus) : (s.modXaBus b f).evidence = s.evidence := rfl
@[simp] theorem modXaBus_tamper (b : Nat) (f : XaBus → XaBus) : (s.modXaBus b f).tamper = s.tamper := rfl
@[simp] theorem modXaBus_integrity (b : Nat) (f : XaBus → XaBus) : (s.modXaBus b f).integrity = s.integrity := rfl
@[simp] theorem modXaBus_start (b : Nat) (f : XaBus → XaBus) : (s.modXaBus b f).start = s.start := rfl
@[simp] theorem modXaBus_power (b : Nat) (f : XaBus → XaBus) : (s.modXaBus b f).power = s.power := rfl

@[simp] theorem modPulse_sluice (o : Nat) (f : PulseOut → PulseOut) : (s.modPulse o f).sluice = { s.sluice with pulses := modAt s.sluice.pulses o f } := rfl
@[simp] theorem modPulse_pending (o : Nat) (f : PulseOut → PulseOut) : (s.modPulse o f).pending = s.pending := rfl
@[simp] theorem modPulse_free (o : Nat) (f : PulseOut → PulseOut) : (s.modPulse o f).free = s.free := rfl
@[simp] theorem modPulse_part (o : Nat) (f : PulseOut → PulseOut) : (s.modPulse o f).part = s.part := rfl
@[simp] theorem modPulse_stepLetter (o : Nat) (f : PulseOut → PulseOut) : (s.modPulse o f).stepLetter = s.stepLetter := rfl
@[simp] theorem modPulse_stepDigit (o : Nat) (f : PulseOut → PulseOut) : (s.modPulse o f).stepDigit = s.stepDigit := rfl
@[simp] theorem modPulse_link (o : Nat) (f : PulseOut → PulseOut) : (s.modPulse o f).link = s.link := rfl
@[simp] theorem modPulse_sense (o : Nat) (f : PulseOut → PulseOut) : (s.modPulse o f).sense = s.sense := rfl
@[simp] theorem modPulse_billing (o : Nat) (f : PulseOut → PulseOut) : (s.modPulse o f).billing = s.billing := rfl
@[simp] theorem modPulse_xa (o : Nat) (f : PulseOut → PulseOut) : (s.modPulse o f).xa = s.xa := rfl
@[simp] theorem modPulse_recording (o : Nat) (f : PulseOut → PulseOut) : (s.modPulse o f).recording = s.recording := rfl
@[simp] theorem modPulse_archive (o : Nat) (f : PulseOut → PulseOut) : (s.modPulse o f).archive = s.archive := rfl
@[simp] theorem modPulse_engines (o : Nat) (f : PulseOut → PulseOut) : (s.modPulse o f).engines = s.engines := rfl
@[simp] theorem modPulse_line (o : Nat) (f : PulseOut → PulseOut) : (s.modPulse o f).line = s.line := rfl
@[simp] theorem modPulse_net (o : Nat) (f : PulseOut → PulseOut) : (s.modPulse o f).net = s.net := rfl
@[simp] theorem modPulse_aux (o : Nat) (f : PulseOut → PulseOut) : (s.modPulse o f).aux = s.aux := rfl
@[simp] theorem modPulse_store (o : Nat) (f : PulseOut → PulseOut) : (s.modPulse o f).store = s.store := rfl
@[simp] theorem modPulse_backup (o : Nat) (f : PulseOut → PulseOut) : (s.modPulse o f).backup = s.backup := rfl
@[simp] theorem modPulse_time (o : Nat) (f : PulseOut → PulseOut) : (s.modPulse o f).time = s.time := rfl
@[simp] theorem modPulse_evidence (o : Nat) (f : PulseOut → PulseOut) : (s.modPulse o f).evidence = s.evidence := rfl
@[simp] theorem modPulse_tamper (o : Nat) (f : PulseOut → PulseOut) : (s.modPulse o f).tamper = s.tamper := rfl
@[simp] theorem modPulse_integrity (o : Nat) (f : PulseOut → PulseOut) : (s.modPulse o f).integrity = s.integrity := rfl
@[simp] theorem modPulse_start (o : Nat) (f : PulseOut → PulseOut) : (s.modPulse o f).start = s.start := rfl
@[simp] theorem modPulse_power (o : Nat) (f : PulseOut → PulseOut) : (s.modPulse o f).power = s.power := rfl

@[simp] theorem modEnginePulse_billing (o : Nat) (f : PulseEngine → PulseEngine) : (s.modEnginePulse o f).billing = { s.billing with pulses := modAt s.billing.pulses o f } := rfl
@[simp] theorem modEnginePulse_pending (o : Nat) (f : PulseEngine → PulseEngine) : (s.modEnginePulse o f).pending = s.pending := rfl
@[simp] theorem modEnginePulse_free (o : Nat) (f : PulseEngine → PulseEngine) : (s.modEnginePulse o f).free = s.free := rfl
@[simp] theorem modEnginePulse_part (o : Nat) (f : PulseEngine → PulseEngine) : (s.modEnginePulse o f).part = s.part := rfl
@[simp] theorem modEnginePulse_stepLetter (o : Nat) (f : PulseEngine → PulseEngine) : (s.modEnginePulse o f).stepLetter = s.stepLetter := rfl
@[simp] theorem modEnginePulse_stepDigit (o : Nat) (f : PulseEngine → PulseEngine) : (s.modEnginePulse o f).stepDigit = s.stepDigit := rfl
@[simp] theorem modEnginePulse_link (o : Nat) (f : PulseEngine → PulseEngine) : (s.modEnginePulse o f).link = s.link := rfl
@[simp] theorem modEnginePulse_sense (o : Nat) (f : PulseEngine → PulseEngine) : (s.modEnginePulse o f).sense = s.sense := rfl
@[simp] theorem modEnginePulse_xa (o : Nat) (f : PulseEngine → PulseEngine) : (s.modEnginePulse o f).xa = s.xa := rfl
@[simp] theorem modEnginePulse_recording (o : Nat) (f : PulseEngine → PulseEngine) : (s.modEnginePulse o f).recording = s.recording := rfl
@[simp] theorem modEnginePulse_archive (o : Nat) (f : PulseEngine → PulseEngine) : (s.modEnginePulse o f).archive = s.archive := rfl
@[simp] theorem modEnginePulse_engines (o : Nat) (f : PulseEngine → PulseEngine) : (s.modEnginePulse o f).engines = s.engines := rfl
@[simp] theorem modEnginePulse_sluice (o : Nat) (f : PulseEngine → PulseEngine) : (s.modEnginePulse o f).sluice = s.sluice := rfl
@[simp] theorem modEnginePulse_line (o : Nat) (f : PulseEngine → PulseEngine) : (s.modEnginePulse o f).line = s.line := rfl
@[simp] theorem modEnginePulse_net (o : Nat) (f : PulseEngine → PulseEngine) : (s.modEnginePulse o f).net = s.net := rfl
@[simp] theorem modEnginePulse_aux (o : Nat) (f : PulseEngine → PulseEngine) : (s.modEnginePulse o f).aux = s.aux := rfl
@[simp] theorem modEnginePulse_store (o : Nat) (f : PulseEngine → PulseEngine) : (s.modEnginePulse o f).store = s.store := rfl
@[simp] theorem modEnginePulse_backup (o : Nat) (f : PulseEngine → PulseEngine) : (s.modEnginePulse o f).backup = s.backup := rfl
@[simp] theorem modEnginePulse_time (o : Nat) (f : PulseEngine → PulseEngine) : (s.modEnginePulse o f).time = s.time := rfl
@[simp] theorem modEnginePulse_evidence (o : Nat) (f : PulseEngine → PulseEngine) : (s.modEnginePulse o f).evidence = s.evidence := rfl
@[simp] theorem modEnginePulse_tamper (o : Nat) (f : PulseEngine → PulseEngine) : (s.modEnginePulse o f).tamper = s.tamper := rfl
@[simp] theorem modEnginePulse_integrity (o : Nat) (f : PulseEngine → PulseEngine) : (s.modEnginePulse o f).integrity = s.integrity := rfl
@[simp] theorem modEnginePulse_start (o : Nat) (f : PulseEngine → PulseEngine) : (s.modEnginePulse o f).start = s.start := rfl
@[simp] theorem modEnginePulse_power (o : Nat) (f : PulseEngine → PulseEngine) : (s.modEnginePulse o f).power = s.power := rfl

@[simp] theorem modPair_sluice (p : Nat) (f : RelayPair → RelayPair) : (s.modPair p f).sluice = { s.sluice with pairs := modAt s.sluice.pairs p f } := rfl
@[simp] theorem modPair_pending (p : Nat) (f : RelayPair → RelayPair) : (s.modPair p f).pending = s.pending := rfl
@[simp] theorem modPair_free (p : Nat) (f : RelayPair → RelayPair) : (s.modPair p f).free = s.free := rfl
@[simp] theorem modPair_part (p : Nat) (f : RelayPair → RelayPair) : (s.modPair p f).part = s.part := rfl
@[simp] theorem modPair_stepLetter (p : Nat) (f : RelayPair → RelayPair) : (s.modPair p f).stepLetter = s.stepLetter := rfl
@[simp] theorem modPair_stepDigit (p : Nat) (f : RelayPair → RelayPair) : (s.modPair p f).stepDigit = s.stepDigit := rfl
@[simp] theorem modPair_link (p : Nat) (f : RelayPair → RelayPair) : (s.modPair p f).link = s.link := rfl
@[simp] theorem modPair_sense (p : Nat) (f : RelayPair → RelayPair) : (s.modPair p f).sense = s.sense := rfl
@[simp] theorem modPair_billing (p : Nat) (f : RelayPair → RelayPair) : (s.modPair p f).billing = s.billing := rfl
@[simp] theorem modPair_xa (p : Nat) (f : RelayPair → RelayPair) : (s.modPair p f).xa = s.xa := rfl
@[simp] theorem modPair_recording (p : Nat) (f : RelayPair → RelayPair) : (s.modPair p f).recording = s.recording := rfl
@[simp] theorem modPair_archive (p : Nat) (f : RelayPair → RelayPair) : (s.modPair p f).archive = s.archive := rfl
@[simp] theorem modPair_engines (p : Nat) (f : RelayPair → RelayPair) : (s.modPair p f).engines = s.engines := rfl
@[simp] theorem modPair_line (p : Nat) (f : RelayPair → RelayPair) : (s.modPair p f).line = s.line := rfl
@[simp] theorem modPair_net (p : Nat) (f : RelayPair → RelayPair) : (s.modPair p f).net = s.net := rfl
@[simp] theorem modPair_aux (p : Nat) (f : RelayPair → RelayPair) : (s.modPair p f).aux = s.aux := rfl
@[simp] theorem modPair_store (p : Nat) (f : RelayPair → RelayPair) : (s.modPair p f).store = s.store := rfl
@[simp] theorem modPair_backup (p : Nat) (f : RelayPair → RelayPair) : (s.modPair p f).backup = s.backup := rfl
@[simp] theorem modPair_time (p : Nat) (f : RelayPair → RelayPair) : (s.modPair p f).time = s.time := rfl
@[simp] theorem modPair_evidence (p : Nat) (f : RelayPair → RelayPair) : (s.modPair p f).evidence = s.evidence := rfl
@[simp] theorem modPair_tamper (p : Nat) (f : RelayPair → RelayPair) : (s.modPair p f).tamper = s.tamper := rfl
@[simp] theorem modPair_integrity (p : Nat) (f : RelayPair → RelayPair) : (s.modPair p f).integrity = s.integrity := rfl
@[simp] theorem modPair_start (p : Nat) (f : RelayPair → RelayPair) : (s.modPair p f).start = s.start := rfl
@[simp] theorem modPair_power (p : Nat) (f : RelayPair → RelayPair) : (s.modPair p f).power = s.power := rfl

@[simp] theorem modNode_net (a : Nat) (f : Node → Node) : (s.modNode a f).net = { s.net with nodes := modAt s.net.nodes a f } := rfl
@[simp] theorem modNode_pending (a : Nat) (f : Node → Node) : (s.modNode a f).pending = s.pending := rfl
@[simp] theorem modNode_free (a : Nat) (f : Node → Node) : (s.modNode a f).free = s.free := rfl
@[simp] theorem modNode_part (a : Nat) (f : Node → Node) : (s.modNode a f).part = s.part := rfl
@[simp] theorem modNode_stepLetter (a : Nat) (f : Node → Node) : (s.modNode a f).stepLetter = s.stepLetter := rfl
@[simp] theorem modNode_stepDigit (a : Nat) (f : Node → Node) : (s.modNode a f).stepDigit = s.stepDigit := rfl
@[simp] theorem modNode_link (a : Nat) (f : Node → Node) : (s.modNode a f).link = s.link := rfl
@[simp] theorem modNode_sense (a : Nat) (f : Node → Node) : (s.modNode a f).sense = s.sense := rfl
@[simp] theorem modNode_billing (a : Nat) (f : Node → Node) : (s.modNode a f).billing = s.billing := rfl
@[simp] theorem modNode_xa (a : Nat) (f : Node → Node) : (s.modNode a f).xa = s.xa := rfl
@[simp] theorem modNode_recording (a : Nat) (f : Node → Node) : (s.modNode a f).recording = s.recording := rfl
@[simp] theorem modNode_archive (a : Nat) (f : Node → Node) : (s.modNode a f).archive = s.archive := rfl
@[simp] theorem modNode_engines (a : Nat) (f : Node → Node) : (s.modNode a f).engines = s.engines := rfl
@[simp] theorem modNode_sluice (a : Nat) (f : Node → Node) : (s.modNode a f).sluice = s.sluice := rfl
@[simp] theorem modNode_line (a : Nat) (f : Node → Node) : (s.modNode a f).line = s.line := rfl
@[simp] theorem modNode_aux (a : Nat) (f : Node → Node) : (s.modNode a f).aux = s.aux := rfl
@[simp] theorem modNode_store (a : Nat) (f : Node → Node) : (s.modNode a f).store = s.store := rfl
@[simp] theorem modNode_backup (a : Nat) (f : Node → Node) : (s.modNode a f).backup = s.backup := rfl
@[simp] theorem modNode_time (a : Nat) (f : Node → Node) : (s.modNode a f).time = s.time := rfl
@[simp] theorem modNode_evidence (a : Nat) (f : Node → Node) : (s.modNode a f).evidence = s.evidence := rfl
@[simp] theorem modNode_tamper (a : Nat) (f : Node → Node) : (s.modNode a f).tamper = s.tamper := rfl
@[simp] theorem modNode_integrity (a : Nat) (f : Node → Node) : (s.modNode a f).integrity = s.integrity := rfl
@[simp] theorem modNode_start (a : Nat) (f : Node → Node) : (s.modNode a f).start = s.start := rfl
@[simp] theorem modNode_power (a : Nat) (f : Node → Node) : (s.modNode a f).power = s.power := rfl

@[simp] theorem modTamper_tamper (n : Nat) (f : TamperPin → TamperPin) : (s.modTamper n f).tamper = modAt s.tamper n f := rfl
@[simp] theorem modTamper_pending (n : Nat) (f : TamperPin → TamperPin) : (s.modTamper n f).pending = s.pending := rfl
@[simp] theorem modTamper_free (n : Nat) (f : TamperPin → TamperPin) : (s.modTamper n f).free = s.free := rfl
@[simp] theorem modTamper_part (n : Nat) (f : TamperPin → TamperPin) : (s.modTamper n f).part = s.part := rfl
@[simp] theorem modTamper_stepLetter (n : Nat) (f : TamperPin → TamperPin) : (s.modTamper n f).stepLetter = s.stepLetter := rfl
@[simp] theorem modTamper_stepDigit (n : Nat) (f : TamperPin → TamperPin) : (s.modTamper n f).stepDigit = s.stepDigit := rfl
@[simp] theorem modTamper_link (n : Nat) (f : TamperPin → TamperPin) : (s.modTamper n f).link = s.link := rfl
@[simp] theorem modTamper_sense (n : Nat) (f : TamperPin → TamperPin) : (s.modTamper n f).sense = s.sense := rfl
@[simp] theorem modTamper_billing (n : Nat) (f : TamperPin → TamperPin) : (s.modTamper n f).billing = s.billing := rfl
@[simp] theorem modTamper_xa (n : Nat) (f : TamperPin → TamperPin) : (s.modTamper n f).xa = s.xa := rfl
@[simp] theorem modTamper_recording (n : Nat) (f : TamperPin → TamperPin) : (s.modTamper n f).recording = s.recording := rfl
@[simp] theorem modTamper_archive (n : Nat) (f : TamperPin → TamperPin) : (s.modTamper n f).archive = s.archive := rfl
@[simp] theorem modTamper_engines (n : Nat) (f : TamperPin → TamperPin) : (s.modTamper n f).engines = s.engines := rfl
@[simp] theorem modTamper_sluice (n : Nat) (f : TamperPin → TamperPin) : (s.modTamper n f).sluice = s.sluice := rfl
@[simp] theorem modTamper_line (n : Nat) (f : TamperPin → TamperPin) : (s.modTamper n f).line = s.line := rfl
@[simp] theorem modTamper_net (n : Nat) (f : TamperPin → TamperPin) : (s.modTamper n f).net = s.net := rfl
@[simp] theorem modTamper_aux (n : Nat) (f : TamperPin → TamperPin) : (s.modTamper n f).aux = s.aux := rfl
@[simp] theorem modTamper_store (n : Nat) (f : TamperPin → TamperPin) : (s.modTamper n f).store = s.store := rfl
@[simp] theorem modTamper_backup (n : Nat) (f : TamperPin → TamperPin) : (s.modTamper n f).backup = s.backup := rfl
@[simp] theorem modTamper_time (n : Nat) (f : TamperPin → TamperPin) : (s.modTamper n f).time = s.time := rfl
@[simp] theorem modTamper_evidence (n : Nat) (f : TamperPin → TamperPin) : (s.modTamper n f).evidence = s.evidence := rfl
@[simp] theorem modTamper_integrity (n : Nat) (f : TamperPin → TamperPin) : (s.modTamper n f).integrity = s.integrity := rfl
@[simp] theorem modTamper_start (n : Nat) (f : TamperPin → TamperPin) : (s.modTamper n f).start = s.start := rfl
@[simp] theorem modTamper_power (n : Nat) (f : TamperPin → TamperPin) : (s.modTamper n f).power = s.power := rfl

@[simp] theorem offer_archive (t : Nat) (r : MereRec) : (s.offer t r).archive = { s.archive with offered := s.archive.offered ++ [(t, r)] } := rfl
@[simp] theorem offer_pending (t : Nat) (r : MereRec) : (s.offer t r).pending = s.pending := rfl
@[simp] theorem offer_free (t : Nat) (r : MereRec) : (s.offer t r).free = s.free := rfl
@[simp] theorem offer_part (t : Nat) (r : MereRec) : (s.offer t r).part = s.part := rfl
@[simp] theorem offer_stepLetter (t : Nat) (r : MereRec) : (s.offer t r).stepLetter = s.stepLetter := rfl
@[simp] theorem offer_stepDigit (t : Nat) (r : MereRec) : (s.offer t r).stepDigit = s.stepDigit := rfl
@[simp] theorem offer_link (t : Nat) (r : MereRec) : (s.offer t r).link = s.link := rfl
@[simp] theorem offer_sense (t : Nat) (r : MereRec) : (s.offer t r).sense = s.sense := rfl
@[simp] theorem offer_billing (t : Nat) (r : MereRec) : (s.offer t r).billing = s.billing := rfl
@[simp] theorem offer_xa (t : Nat) (r : MereRec) : (s.offer t r).xa = s.xa := rfl
@[simp] theorem offer_recording (t : Nat) (r : MereRec) : (s.offer t r).recording = s.recording := rfl
@[simp] theorem offer_engines (t : Nat) (r : MereRec) : (s.offer t r).engines = s.engines := rfl
@[simp] theorem offer_sluice (t : Nat) (r : MereRec) : (s.offer t r).sluice = s.sluice := rfl
@[simp] theorem offer_line (t : Nat) (r : MereRec) : (s.offer t r).line = s.line := rfl
@[simp] theorem offer_net (t : Nat) (r : MereRec) : (s.offer t r).net = s.net := rfl
@[simp] theorem offer_aux (t : Nat) (r : MereRec) : (s.offer t r).aux = s.aux := rfl
@[simp] theorem offer_store (t : Nat) (r : MereRec) : (s.offer t r).store = s.store := rfl
@[simp] theorem offer_backup (t : Nat) (r : MereRec) : (s.offer t r).backup = s.backup := rfl
@[simp] theorem offer_time (t : Nat) (r : MereRec) : (s.offer t r).time = s.time := rfl
@[simp] theorem offer_evidence (t : Nat) (r : MereRec) : (s.offer t r).evidence = s.evidence := rfl
@[simp] theorem offer_tamper (t : Nat) (r : MereRec) : (s.offer t r).tamper = s.tamper := rfl
@[simp] theorem offer_integrity (t : Nat) (r : MereRec) : (s.offer t r).integrity = s.integrity := rfl
@[simp] theorem offer_start (t : Nat) (r : MereRec) : (s.offer t r).start = s.start := rfl
@[simp] theorem offer_power (t : Nat) (r : MereRec) : (s.offer t r).power = s.power := rfl

@[simp] theorem enterHold_pending : (s.enterHold).pending = s.pending := rfl
@[simp] theorem enterHold_free : (s.enterHold).free = s.free := rfl
@[simp] theorem enterHold_part : (s.enterHold).part = s.part := rfl
@[simp] theorem enterHold_stepLetter : (s.enterHold).stepLetter = s.stepLetter := rfl
@[simp] theorem enterHold_stepDigit : (s.enterHold).stepDigit = s.stepDigit := rfl
@[simp] theorem enterHold_link : (s.enterHold).link = s.link := rfl
@[simp] theorem enterHold_sense : (s.enterHold).sense = s.sense := rfl
@[simp] theorem enterHold_billing : (s.enterHold).billing = s.billing := rfl
@[simp] theorem enterHold_xa : (s.enterHold).xa = s.xa := rfl
@[simp] theorem enterHold_recording : (s.enterHold).recording = s.recording := rfl
@[simp] theorem enterHold_archive : (s.enterHold).archive = s.archive := rfl
@[simp] theorem enterHold_engines : (s.enterHold).engines = s.engines := rfl
@[simp] theorem enterHold_line : (s.enterHold).line = s.line := rfl
@[simp] theorem enterHold_net : (s.enterHold).net = s.net := rfl
@[simp] theorem enterHold_aux : (s.enterHold).aux = s.aux := rfl
@[simp] theorem enterHold_backup : (s.enterHold).backup = s.backup := rfl
@[simp] theorem enterHold_time : (s.enterHold).time = s.time := rfl
@[simp] theorem enterHold_evidence : (s.enterHold).evidence = s.evidence := rfl
@[simp] theorem enterHold_tamper : (s.enterHold).tamper = s.tamper := rfl
@[simp] theorem enterHold_integrity : (s.enterHold).integrity = s.integrity := rfl
@[simp] theorem enterHold_start : (s.enterHold).start = s.start := rfl
@[simp] theorem enterHold_power : (s.enterHold).power = s.power := rfl

@[simp] theorem safeStep_pending : (s.safeStep).pending = s.pending := rfl
@[simp] theorem safeStep_free : (s.safeStep).free = s.free := rfl
@[simp] theorem safeStep_part : (s.safeStep).part = s.part := rfl
@[simp] theorem safeStep_stepLetter : (s.safeStep).stepLetter = s.stepLetter := rfl
@[simp] theorem safeStep_stepDigit : (s.safeStep).stepDigit = s.stepDigit := rfl
@[simp] theorem safeStep_link : (s.safeStep).link = s.link := rfl
@[simp] theorem safeStep_sense : (s.safeStep).sense = s.sense := rfl
@[simp] theorem safeStep_billing : (s.safeStep).billing = s.billing := rfl
@[simp] theorem safeStep_xa : (s.safeStep).xa = s.xa := rfl
@[simp] theorem safeStep_recording : (s.safeStep).recording = s.recording := rfl
@[simp] theorem safeStep_archive : (s.safeStep).archive = s.archive := rfl
@[simp] theorem safeStep_engines : (s.safeStep).engines = s.engines := rfl
@[simp] theorem safeStep_net : (s.safeStep).net = s.net := rfl
@[simp] theorem safeStep_aux : (s.safeStep).aux = s.aux := rfl
@[simp] theorem safeStep_backup : (s.safeStep).backup = s.backup := rfl
@[simp] theorem safeStep_time : (s.safeStep).time = s.time := rfl
@[simp] theorem safeStep_tamper : (s.safeStep).tamper = s.tamper := rfl
@[simp] theorem safeStep_integrity : (s.safeStep).integrity = s.integrity := rfl
@[simp] theorem safeStep_start : (s.safeStep).start = s.start := rfl
@[simp] theorem safeStep_power : (s.safeStep).power = s.power := rfl

/-! ### What the sluice's HOLD keeps of the parts it touches -/

@[simp] theorem enterHold_hold : s.enterHold.sluice.hold = true := rfl
@[simp] theorem enterHold_store_cells : s.enterHold.store.cells = s.store.cells := rfl
@[simp] theorem enterHold_store_closed : s.enterHold.store.closed = s.store.closed := rfl
@[simp] theorem enterHold_pulses : s.enterHold.sluice.pulses = s.sluice.pulses := rfl
@[simp] theorem safeStep_hold : s.safeStep.sluice.hold = true := rfl
@[simp] theorem safeStep_store : s.safeStep.store = s.enterHold.store := rfl
@[simp] theorem safeStep_raised : s.safeStep.evidence.raised = s.evidence.raised := rfl

/-! ### Updates that touch one part or nothing -/

/-- A trigger event touches the auxiliary converters only. -/
theorem auxEvent_frame (src : Nat) : { s.auxEvent src with aux := s.aux } = s := by
  simp only [State.auxEvent, State.auxEventAt]; split <;> rfl

/-- Locking a port touches the link only. -/
theorem lockPort_frame (p : Port) : { lockPort p s with link := s.link } = s := by
  simp only [lockPort]; split <;> rfl

/-- A count of the framing counters touches the link only. -/
theorem countFraming_frame (f : Framing → Framing) : { countFraming f s with link := s.link } = s := rfl

/-- A reply in the order of arrival touches the link only. -/
theorem send_frame (r : Reply) : ∃ l, s.send r = { s with link := l } := by
  simp only [State.send]; split <;> exact ⟨_, rfl⟩

/-- A reply behind a command's own touches the link only. -/
theorem sendAfter_frame (t : Nat) (r : Reply) : ∃ l, s.sendAfter t r = { s with link := l } := by
  simp only [State.sendAfter]; split <;> exact ⟨_, rfl⟩

/-- A reply with no held read before its command is queued at once (R57). -/
theorem send_queued {r : Reply} (h : s.behindHeld r.tag = false) : s.send r = s.pushReply r := by
  simp [State.send, h]

/-- The answers to ABORTs held back touch the link only. -/
theorem releaseAborts_frame (t : Nat) : ∃ l, s.releaseAborts t = { s with link := l } := by
  simp only [State.releaseAborts]
  generalize s.link.outstanding = l
  suffices h : ∀ u : State, (∃ k, u = { s with link := k }) → ∃ k, l.foldl (fun (s : State) c =>
      if c.work = .abortHeld t then (s.setWork c.tag .replied).sendAfter t (s.formed c.port .final c.tag c.opcode .alreadyDone [] true)
      else s) u = { s with link := k } from h s ⟨s.link, rfl⟩
  induction l with
  | nil => exact fun u h => h
  | cons c l ih =>
    rintro u ⟨k, rfl⟩
    apply ih
    by_cases q : c.work = .abortHeld t
    · simp only [q, if_true]
      obtain ⟨m, e⟩ := sendAfter_frame ((({ s with link := k } : State).setWork c.tag .replied)) t
        (({ s with link := k } : State).formed c.port .final c.tag c.opcode .alreadyDone [] true)
      exact ⟨m, e⟩
    · simp only [q, if_false]; exact ⟨_, rfl⟩

/-- A completion touches the link only. -/
theorem complete_frame (t : Nat) (st : Status) (ps : Bytes) : ∃ l, s.complete t st ps = { s with link := l } := by
  simp only [State.complete]
  split
  · exact ⟨_, rfl⟩
  · next c _ =>
    obtain ⟨k, e⟩ := sendAfter_frame (s.setWork t .replied) t (s.formed c.port .completion t c.opcode st ps true)
    rw [e]
    obtain ⟨l, h⟩ := releaseAborts_frame { s.setWork t .replied with link := k } t
    exact ⟨l, h⟩

/-- Completions of every command that meets a test touch the link only. -/
theorem completeAll_frame (test : Work → Bool) (st : Status) : ∃ l, s.completeAll test st = { s with link := l } := by
  simp only [State.completeAll]
  generalize s.link.outstanding = l
  suffices h : ∀ u : State, (∃ k, u = { s with link := k }) → ∃ k, l.foldl (fun (s : State) c =>
      if test c.work then s.complete c.tag st [] else s) u = { s with link := k } from h s ⟨s.link, rfl⟩
  induction l with
  | nil => exact fun u h => h
  | cons c l ih =>
    rintro u ⟨k, rfl⟩
    apply ih
    by_cases q : test c.work = true
    · simp only [q, if_true]
      obtain ⟨m, h⟩ := complete_frame ({ s with link := k } : State) c.tag st []
      exact ⟨m, h⟩
    · simp only [q]; exact ⟨_, rfl⟩

end Sys2Proof.Laws
end

