-- ==== Sys2Proof/Laws/Edge.lean ====
section
/-! SUPPORT. Edge.lean: what the end of an edge does: it keeps everything but the evidence queue, and in a SAFE
response the sluice and the line, and of the store the writes that HOLD keeps back (R317, R498, R499). -/

namespace Sys2Proof.Laws
open Sys2Proof Sys2Proof.Machine

/-- Between two steps nothing is left unordered, so an edge starts from the state itself. -/
theorem edge_settled {s : State} (h : Settled s) (f : State → State) : edge f s = .next (f s).endEdge := by
  have e : ({ s with evidence.raised := [] } : State) = s := by
    cases s with
    | mk p fr part sl sd li se bi xa rec ar en sg ln ne au st ba ti ev =>
      cases ev; simp [Settled] at h; subst h; rfl
  simp [edge, e]

/-- An edge on which nothing was raised leaves the state as it is. -/
theorem endEdge_settled {s : State} (h : Settled s) : s.endEdge = s := by
  cases s with
  | mk p fr part sl sd li se bi xa rec ar en sg ln ne au st ba ti ev =>
    cases ev; simp [Settled] at h; subst h; simp [State.endEdge, joinEdge]

/-- A meaning that raises nothing answers its effect. -/
theorem edge_quiet {s : State} (h : Settled s) {f : State → State} (q : Settled (f s)) :
    edge f s = .next (f s) := by
  rw [edge_settled h, endEdge_settled q]

/-- The end of an edge leaves nothing unordered. -/
theorem endEdge_raised (s : State) : s.endEdge.evidence.raised = [] := by
  simp only [State.endEdge]; split <;> simp

/-- Every edge ends settled. -/
theorem edge_ends_settled {f : State → State} {s t : State} (h : edge f s = .next t) : Settled t := by
  simp only [edge, Host.Outcome.next.injEq] at h
  exact h ▸ endEdge_raised _

/-- The parts of the state that no end of an edge touches. -/
theorem endEdge_frame (s : State) :
    s.endEdge.pending = s.pending ∧ s.endEdge.link = s.link ∧ s.endEdge.sense = s.sense ∧
    s.endEdge.billing = s.billing ∧ s.endEdge.xa = s.xa ∧ s.endEdge.recording = s.recording ∧
    s.endEdge.archive = s.archive ∧ s.endEdge.engines = s.engines ∧ s.endEdge.net = s.net ∧
    s.endEdge.aux = s.aux ∧ s.endEdge.store.cells = s.store.cells ∧ s.endEdge.store.closed = s.store.closed ∧
    s.endEdge.backup = s.backup ∧ s.endEdge.time = s.time ∧
    s.endEdge.tamper = s.tamper ∧ s.endEdge.integrity = s.integrity ∧ s.endEdge.start = s.start ∧
    s.endEdge.power = s.power := by
  simp only [State.endEdge]; split <;> simp

end Sys2Proof.Laws
end

