-- ==== Sys2Proof/Laws/Memory.lean ====
section
/-! SUPPORT. Memory.lean: the array of the persistent store. A write is read back and leaves every other byte alone,
every operation keeps the canonical form, and equal arrays are equal data. -/

namespace Sys2Proof.Laws
open Sys2Proof Sys2Proof.Machine

/-- A lower bound may be lowered. -/
theorem above_mono {a b : Nat} (h : a ≤ b) : ∀ {m : Memory}, Memory.above b m = true → Memory.above a m = true
  | [], _ => rfl
  | (k, _) :: _, q => by simp only [Memory.above, decide_eq_true_eq] at *; omega

/-- Below the lowest listed address every byte is blank. -/
theorem read_below {m : Memory} : ∀ {lo a : Nat}, Memory.wf m = true → Memory.above lo m = true → a < lo →
    Memory.read m a = Memory.blank := by
  induction m with
  | nil => intros; rfl
  | cons c m ih =>
    obtain ⟨k, v⟩ := c
    intro lo a w h q
    simp only [Memory.wf, Memory.above, Bool.and_eq_true, decide_eq_true_eq] at w h
    have : k ≠ a := by omega
    simp only [Memory.read, this, if_false]
    exact ih w.2 w.1.2 (by omega)

/-- A write at or above a bound leaves nothing below it. -/
theorem above_write {m : Memory} {lo a : Nat} (b : Byte) (h : Memory.above lo m = true) (q : lo ≤ a)
    (w : Memory.wf m = true) : Memory.above lo (Memory.write m a b) = true := by
  cases m with
  | nil => simp only [Memory.write]; split <;> simp [Memory.above, q]
  | cons c m =>
    obtain ⟨k, v⟩ := c
    simp only [Memory.wf, Memory.above, Bool.and_eq_true, decide_eq_true_eq] at h w
    simp only [Memory.write]
    split
    · split <;> simp [Memory.above, q, h]
    · split
      · split
        · exact above_mono (by omega) w.1.2
        · simp [Memory.above, q]
      · simp [Memory.above, h]

/-- A write keeps the canonical form. -/
theorem wf_write {m : Memory} (a : Nat) (b : Byte) (w : Memory.wf m = true) : Memory.wf (Memory.write m a b) = true := by
  induction m with
  | nil => simp only [Memory.write]; split <;> simp_all [Memory.wf, Memory.above]
  | cons c m ih =>
    obtain ⟨k, v⟩ := c
    have w' := w
    simp only [Memory.wf, Bool.and_eq_true, decide_eq_true_eq] at w
    simp only [Memory.write]
    split
    · split
      · exact w'
      · simp_all only [Memory.wf, Memory.above, Bool.and_eq_true, decide_eq_true_eq]; simp_all
    · split
      · split
        · exact w.2
        · simp_all [Memory.wf]
      · simp only [Memory.wf, Bool.and_eq_true, decide_eq_true_eq]
        exact ⟨⟨w.1.1, above_write b w.1.2 (by omega) w.2⟩, ih w.2⟩

/-- A written byte is read back, and every other address reads as before. -/
theorem read_write {m : Memory} (a : Nat) (b : Byte) (x : Nat) (w : Memory.wf m = true) :
    Memory.read (Memory.write m a b) x = if x = a then b else Memory.read m x := by
  induction m with
  | nil =>
    simp only [Memory.write]
    split
    · simp_all [Memory.read]
    · by_cases h : a = x <;> simp [Memory.read, h, eq_comm]
  | cons c m ih =>
    obtain ⟨k, v⟩ := c
    have w' := w
    simp only [Memory.wf, Bool.and_eq_true, decide_eq_true_eq] at w
    have gone : ∀ y, y ≤ k → Memory.read m y = Memory.blank := fun y hy => read_below w.2 w.1.2 (by omega)
    simp only [Memory.write]
    split
    · split
      · by_cases h : x = a
        · subst h
          have : k ≠ x := by omega
          simp_all [Memory.read, gone x (by omega)]
        · simp [h]
      · by_cases h : a = x <;> simp [Memory.read, h, eq_comm]
    · split
      · next e =>
        subst e
        split
        · by_cases h : x = a
          · simp_all [gone a (Nat.le_refl a)]
          · simp [h, Memory.read, Ne.symm h]
        · by_cases h : a = x <;> simp [Memory.read, h, eq_comm]
      · by_cases h : k = x
        · subst h
          have : k ≠ a := by omega
          simp [Memory.read, this]
        · simp [Memory.read, h, ih w.2]

/-- Writes at ascending addresses keep the canonical form. -/
theorem wf_writes {m : Memory} (a : Nat) (bs : Bytes) (w : Memory.wf m = true) : Memory.wf (m.writes a bs) = true := by
  induction bs generalizing m a with
  | nil => exact w
  | cons b bs ih => exact ih (a + 1) (wf_write a b w)

/-- What is read after bytes have been written. -/
theorem read_writes {m : Memory} (a : Nat) (bs : Bytes) (x : Nat) (w : Memory.wf m = true) :
    Memory.read (m.writes a bs) x = if a ≤ x ∧ x < a + bs.length then bs.getD (x - a) 0 else Memory.read m x := by
  induction bs generalizing m a with
  | nil => simp only [Memory.writes, List.length_nil]; split <;> [omega; rfl]
  | cons b bs ih =>
    simp only [Memory.writes, ih (a + 1) (wf_write a b w), read_write a b x w, List.length_cons]
    by_cases h : x = a
    · subst h; simp
    · by_cases q : a ≤ x ∧ x < a + (bs.length + 1)
      · have e : x - a = (x - (a + 1)) + 1 := by omega
        rw [if_pos (by omega), if_pos q, e]; simp
      · rw [if_neg (by omega), if_neg q, if_neg h]

/-- A commit of a page keeps the canonical form. -/
theorem wf_commitPage {m : Memory} (p : PageWrite) (n : Nat) (w : Memory.wf m = true) :
    Memory.wf (commitPage m p n) = true := wf_writes _ _ w

/-- What every address reads as after a page has been committed. -/
theorem read_commitPage {m : Memory} (p : PageWrite) (n x : Nat) (w : Memory.wf m = true) :
    Memory.read (commitPage m p n) x =
      if p.page * 64 + p.offset ≤ x ∧ x < p.page * 64 + p.offset + min p.data.length (n - p.offset)
      then p.data.getD (x - (p.page * 64 + p.offset)) 0 else Memory.read m x := by
  simp only [commitPage, pageSize, read_writes _ _ _ w, List.length_take, Nat.min_comm (n - p.offset)]
  split
  · next h =>
    simp only [List.getD_eq_getElem?_getD]
    rw [List.getElem?_take_of_lt (by omega)]
  · rfl

/-- The array as its readers see it is canonical too. -/
theorem wf_seen {st : Store} (w : Memory.wf st.cells = true) : Memory.wf st.seen = true := by
  simp only [Store.seen]
  generalize st.cells = m at w
  induction st.waiting generalizing m with
  | nil => exact w
  | cons p ps ih => exact ih _ (wf_commitPage p pageSize w)

/-- The end of a commit keeps the canonical form. -/
theorem wf_commitDone {st : Store} (w : Memory.wf st.cells = true) : Memory.wf st.commitDone.cells = true := by
  simp only [Store.commitDone]; split <;> [exact w; exact wf_commitPage _ _ w]

/-- So does the end of every commit that waits. -/
theorem wf_drain (n : Nat) {st : Store} (w : Memory.wf st.cells = true) : Memory.wf (st.drain n).cells = true := by
  induction n generalizing st with
  | zero => exact w
  | succ n ih => simp only [Store.drain]; split <;> [exact w; exact ih (wf_commitDone w)]

/-- And a commit broken off. -/
theorem wf_tear (p : Nat) {st : Store} (w : Memory.wf st.cells = true) : Memory.wf (st.tear p).cells = true := by
  simp only [Store.tear]; split <;> [exact w; exact wf_commitPage _ _ w]

/-- A write waits for the page buffer and leaves the array. -/
@[simp] theorem put_cells (st : Store) (a : Nat) (bs : Bytes) : (st.put a bs).cells = st.cells := by
  simp only [Store.put]; split <;> rfl

/-- So does a record. -/
@[simp] theorem record_cells (st : Store) (r : Ring) (b : Bytes) : (st.record r b).cells = st.cells := by
  simp only [Store.record]; split <;> simp

/-- Equal reads mean equal arrays. -/
theorem memory_ext {m n : Memory} (hm : Memory.wf m = true) (hn : Memory.wf n = true)
    (h : ∀ a, Memory.read m a = Memory.read n a) : m = n := by
  induction m generalizing n with
  | nil =>
    cases n with
    | nil => rfl
    | cons d n =>
      have := h d.1
      simp_all [Memory.read, Memory.wf]
  | cons c m ih =>
    obtain ⟨k, v⟩ := c
    simp only [Memory.wf, Bool.and_eq_true, decide_eq_true_eq] at hm
    have hk : Memory.read n k = v := by simpa [Memory.read] using (h k).symm
    cases n with
    | nil => exact absurd hk.symm hm.1.1
    | cons d n =>
      obtain ⟨j, u⟩ := d
      simp only [Memory.wf, Bool.and_eq_true, decide_eq_true_eq] at hn
      have hj : Memory.read ((k, v) :: m) j = u := by simpa [Memory.read] using h j
      have e : k = j := by
        rcases Nat.lt_trichotomy k j with q | q | q
        · have := read_below (m := (j, u) :: n) (lo := j) (a := k) (by simp_all [Memory.wf]) (by simp [Memory.above]) q
          exact absurd (hk.symm.trans this) hm.1.1
        · exact q
        · have := read_below (m := (k, v) :: m) (lo := k) (a := j) (by simp_all [Memory.wf]) (by simp [Memory.above]) q
          exact absurd (hj.symm.trans this) hn.1.1
      subst e
      have ev : v = u := by simpa [Memory.read] using hk.symm
      subst ev
      refine congrArg _ (ih hm.2 hn.2 fun a => ?_)
      by_cases q : k = a
      · subst q; rw [read_below hm.2 hm.1.2 (by omega), read_below hn.2 hn.1.2 (by omega)]
      · simpa [Memory.read, q] using h a

/-- The array at reset is canonical. -/
theorem wf_reset : Memory.wf State.reset.store.cells = true := rfl

end Sys2Proof.Laws
end

