-- ==== Sys2Proof/Laws/Request.lean ====
section
/-! SUPPORT. Request.lean: how a request that the link takes runs (R55, R62): the state in which it runs, and the two
forms of its answer. -/

namespace Sys2Proof.Laws
open Sys2Proof Sys2Proof.Machine

/-- Locking the port changes nothing of what the outstanding limit looks at. -/
theorem overLimitFor_lockPort (p : Port) (op : Nat) (s : State) :
    (lockPort p s).overLimitFor op = s.overLimitFor op := by
  simp [lockPort]; split <;> rfl

/-- Nor of what a takeover holds back. -/
theorem holdsBack_lockPort (p : Port) (op : Nat) (ps : Bytes) (s : State) :
    (lockPort p s).holdsBack op ps = s.holdsBack op ps := by
  simp [lockPort]; split <;> rfl

/-- Nor the outstanding commands. -/
theorem command_lockPort (p : Port) (t : Nat) (s : State) : (lockPort p s).command t = s.command t := by
  simp [lockPort, State.command]; split <;> rfl

/-- Nor the cached replies. -/
theorem cache_lockPort (p : Port) (s : State) : (lockPort p s).link.cache = s.link.cache := by
  simp [lockPort]; split <;> rfl

/-- A tag that no cached reply bears is found in no entry. -/
theorem cache_find_none {l : List Cached} {t : Nat} {p : Cached → Bool} (h : l.any (fun e => e.tag == t) = false) :
    l.find? (fun e => e.tag == t && p e) = none := by
  simp only [List.find?_eq_none]
  intro x hx
  simp at h ⊢
  exact fun q => absurd q (h x hx)

/-- A fresh request runs in the state in which it is outstanding. -/
theorem arrive_fresh {op : Nat} {r : Req} {s : State} (h : Fresh op r s) (code : Option (BitVec 12)) :
    arrive op r code s = runRequest op r code (begun op r s) := by
  obtain ⟨h1, h2, h3, h4, h5, h6, h7, h8, h9⟩ := h
  have hn : s.link.cache.find? (fun e => e.tag == r.tag.toNat && e.opcode == op && e.length == r.params.length + 3 &&
      e.check == crc16 (coveredBytes 0 r.tag.toNat op r.params)) = none := by
    simpa [Bool.and_assoc] using cache_find_none (p := fun e => e.opcode == op && (e.length == r.params.length + 3 &&
      e.check == crc16 (coveredBytes 0 r.tag.toNat op r.params))) h7
  have ht : r.tag.toNat ≠ 65535 := fun q => h5 (by apply BitVec.eq_of_toNat_eq; simpa using q)
  simp only [arrive, h1, h2, Bool.not_true, Bool.false_eq_true, if_false, Nat.not_lt.2 h3, hostRequest,
    command_lockPort, cache_lockPort, overLimitFor_lockPort, newRequest, holdsBack_lockPort, h4, h6, h8, h9, hn, ht]
  simp [begun, checkOf, h4, cache_lockPort]

/-- The state in which a request runs has nothing unordered that the one before it had not. -/
theorem begun_settled {op : Nat} {r : Req} {s : State} (h : Settled s) : Settled (begun op r s) := by
  simp only [begun, lockPort]; split <;> exact h

/-- A request whose work ends at once in the state `t`. -/
theorem runs_done {op : Nat} {r : Req} {s t : State} {st : Status} {ps : Bytes} {code : Option (BitVec 12)} (h : Settled s)
    (q : Takes op r s) (e : execute op r.tag.toNat r.params code (begun op r s) = .of (.done st ps, t)) :
    edge (arrive op r code) s = .next (answered op r st ps t).endEdge := by
  rw [edge_settled h, arrive_fresh q.toFresh]
  simp [runRequest, q.passes, e, answerRequest, answered, Done.of]

/-- A request whose work goes on behind ACCEPTED. -/
theorem runs_long {op : Nat} {r : Req} {s t : State} {w : Work} {code : Option (BitVec 12)} (h : Settled s) (q : Takes op r s)
    (hw : ∀ k, w ≠ .abortHeld k) (e : execute op r.tag.toNat r.params code (begun op r s) = .of (.long w, t)) :
    edge (arrive op r code) s = .next (accepted op r w t).endEdge := by
  rw [edge_settled h, arrive_fresh q.toFresh]
  cases w <;> first
    | exact absurd rfl (hw _)
    | simp [runRequest, q.passes, e, answerRequest, accepted, Done.of, State.formed, State.alertFlag, State.limpFlag,
        State.setWork, State.noteLong]

/-- A request that a check turns away. -/
theorem runs_refused {op : Nat} {r : Req} {s : State} {st : Status} {ps : Bytes} {code : Option (BitVec 12)} (h : Settled s)
    (q : Fresh op r s) (j : judge op r.params (begun op r s) = some (.done st ps)) :
    edge (arrive op r code) s = .next (answered op r st ps (begun op r s)) := by
  rw [edge_settled h, arrive_fresh q]
  simp only [runRequest, j, answerRequest, Done.only, Option.getD_none]
  refine congrArg _ (endEdge_settled (s := answered op r st ps (begun op r s)) ?_)
  simp only [answered]
  generalize Reply.mk _ _ _ _ _ _ _ _ _ _ _ _ _ _ = x
  obtain ⟨l, e⟩ := send_frame (begun op r s) x
  rw [e]
  exact begun_settled (s := s) (op := op) (r := r) h

end Sys2Proof.Laws
end

