-- ==== Sys2Proof/Laws/Objects.lean ====
section
/-! SUPPORT. Objects.lean: the directory at the objects whose commands the table lists, and a write to such an object
past its checks (R63, R65). -/

namespace Sys2Proof.Laws
open Sys2Proof Sys2Proof.Machine

/-- The index that a write names. -/
theorem getU_index {i : Nat} (b : Bytes) (h : i < 65536) : getU (leBytes 2 i ++ b) 0 2 = i := by
  simp [getU, leBytes, leNat]; omega

/-- The value that a write brings. -/
theorem drop_index (i : Nat) (b : Bytes) : (leBytes 2 i ++ b).drop 2 = b := by simp [leBytes]

@[simp] theorem spec_pending (s : State) : s.spec 0x0002 = rwMember 4 := rfl
@[simp] theorem spec_enable (s : State) : s.spec 0x0003 = rwMember 4 := rfl
@[simp] theorem spec_linkSettings (s : State) : s.spec 0x0004 = rwMember 4 := rfl
@[simp] theorem spec_framing (s : State) : s.spec 0x0005 = roMember 16 := rfl
@[simp] theorem spec_archiveCommand (s : State) : s.spec 0x4002 = rwMember 2 := rfl
@[simp] theorem spec_auxStatus (s : State) : s.spec 0x6010 = roMember 8 := rfl
@[simp] theorem spec_comparators (s : State) : s.spec 0x6012 = rwMember 64 := rfl
@[simp] theorem spec_auxQueue (s : State) : s.spec 0x6014 = roMember 1024 := rfl
@[simp] theorem spec_auxQueueHead (s : State) : s.spec 0x6015 = roMember 64 := rfl
@[simp] theorem spec_auxCommand0 (s : State) : s.spec 0x6024 = rwMember 2 := rfl
@[simp] theorem spec_auxCommand1 (s : State) : s.spec 0x602C = rwMember 2 := rfl
@[simp] theorem spec_timeStatus (s : State) : s.spec 0x7000 = roMember 4 := rfl
@[simp] theorem spec_timeControl (s : State) : s.spec 0x7002 = rwMember 4 := rfl
@[simp] theorem spec_calendarWrite (s : State) : s.spec 0x7004 = rwMember 8 := rfl
@[simp] theorem spec_curve (s : State) : s.spec 0x7007 = rwpMember 68 := rfl
@[simp] theorem spec_backupRam (s : State) : s.spec 0x700B = rwMember 68 := rfl
@[simp] theorem spec_protection (s : State) : s.spec 0x8002 = rwpMember 4 := rfl
@[simp] theorem spec_alarmClear (s : State) : s.spec 0x9002 = rwMember 2 := rfl
@[simp] theorem spec_limpRelease (s : State) : s.spec 0xB004 = rwMember 4 := rfl
@[simp] theorem spec_patch (s : State) : s.spec 0xB006 = rwMember 264 := rfl

/-- The forming command exists where the power-line unit is fitted. -/
theorem spec_forming {s : State} (h : s.part.fitZlk = true) : s.spec 0x5044 = rwMember 2 := by
  cases hp : s.part <;> simp [hp, Part.fitZlk] at h <;> simp only [State.spec, hp] <;> rfl

/-- A SET_OBJ of an object as it runs. -/
theorem execute_write (i : Nat) (b : Bytes) (h : i < 65536) (hi : i ≠ 4) (own : Nat) (code : Option (BitVec 12)) (s : State) :
    execute 0x02 own (leBytes 2 i ++ b) code s = .of (setObject i b s) := by
  simp [execute, setRequest, getU_index _ h, drop_index, Done.of, hi]

/-- A write past its checks is the write itself. -/
theorem setObject_writes {i : Nat} {b : Bytes} {s : State} (a : (s.spec i).access = 2 ∨ (s.spec i).access = 3)
    (l : s.relayLocked i = false) (p : s.blockProtected i = false) (h : heldIn s.start.heldMask.toNat i = false)
    (n : b.length = (s.spec i).size) : setObject i b s = writeMember i b s := by
  rcases a with a | a <;> simp [setObject, a, l, p, h, n]

end Sys2Proof.Laws
end

