-- ==== Sys2Proof/Machine/Balls.lean ====
section
/-! DEFINITION. Balls.lean: the balls of the package, where each lies and what it is referred to (R569–R571), and the state
of each in the conditions of the device (R6, R174, R178, R347, R584, R586). -/

namespace Sys2Proof.Machine
open Sys2Proof

/-! ### The ball map (R569–R571) -/

/-- The balls by the names of R569 and R570. -/
inductive Ball where
  | curP (n : Nat) | curN (n : Nat) | voltP (n : Nat) | voltN (n : Nat)
  | acm (q : Nat) | aux (n : Nat)
  | vdda | agnd | vddio | vcore | vss | vplc | pgnd | vbat
  | xmIn | xmOut | xbIn | xbOut | wake | tp (n : Nat)
  | ztxP | ztxN | zrxP | zrxN | cflyT | cflyB
  | hspiCsN | hspiClk | hspiDi | hspiDo | huartTx | huartRx | irqN | resetN
  | xspiClk | xspiCsN (n : Nat) | xspiIo (n : Nat) | xspiDqs
  | po (n : Nat) | lc (n : Nat) | test
deriving DecidableEq, Repr

/-- Rows A–H, J–N, P and T–W numbered from 0. -/
def ballRows : Nat := 18

/-- Columns 1–8 of a row (R569). -/
def leftBall (row col : Nat) : Ball :=
  if row = 16 then (if col % 2 = 1 then .voltP (col / 2) else .voltN (col / 2 - 1))
  else if row = 17 then (if col % 2 = 1 then .voltP (4 + col / 2) else .voltN (4 + col / 2 - 1))
  else if col = 7 then (if row % 4 = 1 then .acm (row / 4) else .agnd)
  else if col = 8 then .aux row
  else if col % 2 = 1 then .curP (3 * row + col / 2)
  else .curN (3 * row + col / 2 - 1)

/-- Columns 9–18 of every row (R570). -/
def rightBalls : List (List Ball) :=
  [[.vdda, .xmIn, .vss, .vddio, .vcore, .vss, .vddio, .xspiCsN 0, .xspiCsN 1, .xspiClk],
   [.agnd, .xmOut, .cflyT, .vddio, .vss, .vcore, .vss, .xspiCsN 2, .xspiCsN 3, .vss],
   [.vdda, .agnd, .cflyB, .vss, .vcore, .vss, .vddio, .xspiIo 0, .xspiIo 1, .xspiDqs],
   [.agnd, .xbIn, .vss, .vcore, .vss, .vcore, .vss, .xspiIo 2, .xspiIo 3, .vss],
   [.vdda, .xbOut, .vcore, .vss, .vcore, .vss, .vddio, .xspiIo 4, .xspiIo 5, .vddio],
   [.agnd, .vbat, .vss, .vcore, .vss, .vcore, .vss, .xspiIo 6, .xspiIo 7, .vss]] ++
  [[.vdda, .wake, .vcore, .vss, .vcore, .vss, .vddio, .vss, .vddio, .vss],
   [.agnd, .tp 0, .vss, .vcore, .vss, .vcore, .vss, .hspiCsN, .hspiClk, .vss],
   [.vdda, .tp 1, .vcore, .vss, .vcore, .vss, .vddio, .hspiDi, .hspiDo, .vddio],
   [.agnd, .tp 2, .vss, .vcore, .vss, .vcore, .vss, .huartTx, .huartRx, .vss],
   [.vdda, .tp 3, .vcore, .vss, .vcore, .vss, .vddio, .irqN, .resetN, .vddio],
   [.agnd, .agnd, .vss, .test, .vss, .vcore, .vss, .vss, .vddio, .vss]] ++
  [[.vplc, .vplc, .vplc, .vplc, .vcore, .vss, .vddio, .po 0, .po 1, .po 2],
   [.pgnd, .pgnd, .pgnd, .pgnd, .vss, .vcore, .vss, .po 3, .po 4, .po 5],
   [.ztxP, .ztxP, .ztxN, .ztxN, .vcore, .vss, .vddio, .po 6, .po 7, .vss],
   [.pgnd, .pgnd, .pgnd, .pgnd, .vss, .vcore, .vss, .lc 0, .lc 1, .vddio],
   [.agnd, .zrxP, .zrxN, .agnd, .vcore, .vss, .vddio, .lc 2, .lc 3, .vss],
   [.vdda, .agnd, .agnd, .vdda, .vss, .vcore, .vss, .vss, .vddio, .vss]]

/-- The ball at a row, numbered from 0, and a column, numbered from 1. -/
def ballAt (row col : Nat) : Option Ball :=
  if ballRows ≤ row || col = 0 || 18 < col then none
  else if col ≤ 8 then some (leftBall row col)
  else (rightBalls.getD row [])[col - 9]?

/-- What a ball is referred to (R571). -/
inductive Rail where
  | vdda | vddio | vplc | backup
  /-- a supply or a ground -/
  | own
deriving DecidableEq, Repr

/-- The rail of a ball. -/
def Ball.rail : Ball → Rail
  | .curP _ | .curN _ | .voltP _ | .voltN _ | .acm _ | .aux _ | .xmIn | .xmOut | .zrxP | .zrxN => .vdda
  | .ztxP | .ztxN => .vplc
  | .xbIn | .xbOut | .wake | .tp _ => .backup
  | .vdda | .agnd | .vddio | .vcore | .vss | .vplc | .pgnd | .vbat => .own
  | .cflyT | .cflyB | .hspiCsN | .hspiClk | .hspiDi | .hspiDo | .huartTx | .huartRx | .irqN | .resetN => .vddio
  | .xspiClk | .xspiCsN _ | .xspiIo _ | .xspiDqs | .po _ | .lc _ | .test => .vddio

/-! ### Conditions and ball states (R584) -/

/-- The conditions of R584. -/
inductive Condition where
  | unpowered | backupOnly | inReset | starting | running | failedStart
deriving DecidableEq, Repr

/-- The condition of the device. -/
def State.condition (s : State) : Condition :=
  match s.start.phase with
  | .unpowered => if s.backup.onBattery then .backupOnly else .unpowered
  | .inReset => .inReset
  | .starting => .starting
  | .running => .running
  | .failed => .failedStart

/-- What a ball does, by the legend of R584. -/
inductive BallState where
  | off
  | highZ
  /-- high impedance with a pull-up, and with a pull-down -/
  | pullUp
  | pullDown
  | released
  | low
  | oscillating
  | buffered
  /-- at 1.65 V, and at 1.65 V through 50 kΩ -/
  | biased
  | biasedWeakly
  | sampled
  /-- driven by its interface -/
  | driven
  | regulating
  /-- a supply or a ground -/
  | supply
deriving DecidableEq, Repr

/-- An open-drain output. -/
def openDrain (low : Bool) : BallState := if low then .low else .released

/-- A load-control output is driven low: its coil while it is being operated, or its level (R178, R181). -/
def State.relayLow (s : State) (n : Nat) : Bool :=
  let x := s.sluice.pairs.getD (n / 2) {}
  s.ready && !s.held 0 &&
    (if x.level then x.driven && (if n % 2 = 0 then x.lowerOn else x.upperOn)
     else x.coil == some (if n % 2 = 0 then .toClose else .toOpen))

/-- A ball of the analogue die or the backup domain. -/
def State.analogueBall (s : State) (b : Ball) : BallState :=
  let c := s.condition
  let down := c == .unpowered || c == .backupOnly
  let up := c == .starting || c == .running
  match b with
  | .acm _ => if down then .off else if c == .inReset then .highZ else .biased
  | .aux _ => if down then .off else if up && s.aux.loaded && !s.held 1 then .sampled else .highZ
  | .xmIn | .xmOut => if down then .off else .oscillating
  | .xbIn | .xbOut => if c == .unpowered then .off else .oscillating
  | .tp _ => if c == .unpowered then .off else .sampled
  | .wake => openDrain (c == .backupOnly && s.backup.wake)
  | .ztxP | .ztxN =>
    if s.part == .a then .highZ else if down then .off
    else if up && s.line.state == .transmitting then .driven else .highZ
  | .zrxP | .zrxN =>
    if s.part == .a then .highZ else if down then .off else if c == .inReset then .highZ else .biasedWeakly
  | _ => if down then .off else if up then .buffered else .highZ

/-- A ball referred to VDDIO in the conditions in which the digital die has its supply; XSPI is driven from the opening
of the host port on, with which the storage controller is released (R540 step 5). -/
def State.digitalBall (s : State) (b : Ball) : BallState :=
  let c := s.condition
  let up := c == .starting || c == .running
  match b with
  | .hspiCsN | .huartRx | .resetN => .pullUp
  | .hspiClk | .test | .xspiDqs | .xspiIo _ => .pullDown
  | .hspiDo => if c != .inReset && s.spiDo.isSome then .driven else .highZ
  | .huartTx => if c != .inReset && s.link.portOpen then .driven else .pullUp
  | .irqN => openDrain (c != .inReset && s.irqLow)
  | .xspiCsN _ | .xspiClk => if up && s.link.portOpen then .driven else .highZ
  | .po n => openDrain (s.pulseLow n)
  | .lc n => openDrain (s.relayLow n)
  | .cflyT | .cflyB => .regulating
  | _ => .highZ

/-- The state of a ball (R584, R586). In Backup only the balls referred to VDDIO are off, or as in reset where VDDIO is
present. -/
def State.ball (s : State) (vddio : Bool) (b : Ball) : BallState :=
  match b.rail with
  | .own => .supply
  | .vddio =>
    match s.condition with
    | .unpowered =>
      (match b with
       | .irqN | .po _ | .lc _ => .released
       | _ => .off)
    | .backupOnly =>
      if vddio then { s with start.phase := .inReset }.digitalBall b
      else
        (match b with
         | .irqN | .po _ | .lc _ => .released
         | _ => .off)
    | _ => s.digitalBall b
  | _ => s.analogueBall b

end Sys2Proof.Machine
end

