-- ==== Sys2Proof/Tests/Slice0.lean ====
section
/-! SUPPORT. Slice0.lean: tests. Terms that are not well formed are refused; for every statement with hypotheses a
witness shows states and operands that meet them; and single steps on small states give what the spec says. -/

namespace Sys2Proof.Tests
open Sys2Proof Sys2Proof.Machine

set_option Elab.async false

/-- The state that a command answers. -/
def after (o : Outcome) : State := match o with | .next t => t | .fault _ | .refused _ => State.reset

/-- `Fresh`, computed. -/
def freshB (op : Nat) (r : Req) (s : State) : Bool :=
  s.listening && !s.lockedOut r.port && decide (r.params.length ≤ 4096) && decide (r.flags = 0) &&
    decide (r.tag ≠ 0xFFFF) && (s.command r.tag.toNat).isNone && !s.link.cache.any (fun e => e.tag == r.tag.toNat) &&
    !s.overLimitFor op && !s.holdsBack op r.params

theorem fresh {op : Nat} {r : Req} {s : State} (h : freshB op r s = true) : Fresh op r s := by
  simp only [freshB, Bool.and_eq_true, decide_eq_true_eq, Option.isNone_iff_eq_none, Bool.not_eq_true'] at h
  obtain ⟨⟨⟨⟨⟨⟨⟨⟨h1, h2⟩, h3⟩, h4⟩, h5⟩, h6⟩, h7⟩, h8⟩, h9⟩ := h
  exact ⟨h1, h2, h3, h4, h5, h6, h7, h8, h9⟩

/-- `Takes`, computed. -/
def takenB (op : Nat) (r : Req) (s : State) : Bool :=
  freshB op r s && (Machine.judge op r.params (begun op r s)).isNone

theorem taken {op : Nat} {r : Req} {s : State} (h : takenB op r s = true) : Takes op r s := by
  simp only [takenB, Bool.and_eq_true, Option.isNone_iff_eq_none] at h
  exact ⟨fresh h.1, h.2⟩

/-! ### Small states -/

def up : State := { State.reset with start.phase := .running, start.wardenReady := true, link.portOpen := true }
def t1 : State := { up with backup.halt := true }
def t2 : State := { up with backup.crystalStopped := true, backup.oscStopped := true }
def t3 : State :=
  { up with backup.adjust := 3, backup.tick := 5, backup.accumA := 500, backup.oscStopped := false, backup.wakePeriod := 1, time.transferred := [] }
def t4 : State :=
  { up with backup.adjust := -2, backup.tick := 5, backup.sec := 32, backup.onBattery := true, backup.oscStopped := false, backup.wakePeriod := 1, backup.wake := true, backup.wakeHold := 0, start.phase := .unpowered }
def pinsOn : List TamperPin := List.replicate 4 { enable := true }
def t8 : State := { up with tamper := pinsOn, backup.buffer := [] }
def t9 : State :=
  { up with tamper := pinsOn.map (fun p => { p with asserted := true }), backup.onBattery := true, start.phase := .unpowered, backup.wakeOnAlarm := true, backup.buffer := List.replicate 8 ⟨1,2,1,1,0,0⟩, backup.overflow := 255 }
def t10 : State :=
  { up with tamper := pinsOn, backup.onBattery := true, start.phase := .unpowered, backup.wakeOnAlarm := true, backup.buffer := [⟨0,0,2,1,0,0⟩, ⟨0,0,4,1,1,0⟩] }
def r1 : State := { up with start.phase := .inReset, store.waiting := [⟨3, 5, [1,2,3]⟩], power.warning := false }
def r2 : State :=
  { up with start.phase := .unpowered, backup.onBattery := true, backup.current := { valid := true, sec := 4, tick := 5 } }
def r3 : State :=
  { up with start.phase := .starting, start.wardenReady := false, store.waiting := [⟨3, 5, [1,2,3]⟩, ⟨4, 0, [7]⟩], power.warning := true }
def r4 : State := { up with start.phase := .starting, start.kind := .warm }
def r5 : State := { up with start.phase := .failed, start.failures := [⟨1, 1, .cold⟩, ⟨0, 1, .warm⟩] }
def r6 : State :=
  { up with start.phase := .starting, sense.connected := true, billing.stamp := 5000, start.energyBegun := true, start.leadBoundary := some 100 }
def r7 : State := { up with start.phase := .starting, sense.connected := true, billing.stamp := 5000 }
def r9 : State := { up with start.phase := .starting, start.wardenReady := false, backup.buffer := [⟨1,2,1,1,0,0⟩] }
def cmdOf (tag op len chk : Nat) (w : Work) : Command :=
  { port := .uart, tag := tag, opcode := op, length := len, check := chk, work := w }
def rep0 : Reply :=
  { port := .uart, kind := .final, tag := 9, opcode := 5, status := .ok, generation := 0, ends := true }
def rep1 : Reply := { rep0 with newRate := some 3 }
def rep2 : Reply := { rep0 with restart := some .cold }
def rqBad : Req := { port := .uart, tag := 0xFFFF }
def rqLn : Req := { port := .uart, tag := 5 }   -- LATCH_NOW
def rqLn2 : Req := { port := .spi, tag := 6, params := [1,2] }
def rqLong : Req := { port := .uart, tag := 8, params := List.replicate 4100 0 }
def chkLn : Nat := checkOf 0x05 rqLn
def nfz : NetFrame := { type := 0, hops := 0, netId := 0, seq := 0 }
def rfz : RingFrame := { strobe := 0, samples := [], clip := 0, patched := 0, lost := 0 }
def pinz : PinRequest := { fromTick := 0, toTick := 0, reason := 0, event := 0, due := 0 }
def bez : BlockEnd := ⟨0, 0, 0, {}, {}⟩
def nbz : Nat × Bytes := (0, [])
def lrz : LastResult := ⟨0, 0, none, 0, 0, false⟩
def tkz : Takeover := { survivor := 0, cause := 0, sec := 0, tick := 0 }
def smz : SwitchMsg := ⟨0, 0, .zero, 0⟩
def spz : Bytes × List Bytes := ([], [])
def k1 : State := { up with link.outstanding := [cmdOf 5 5 3 chkLn (.latchNow 0 none)] }
def k3 : State :=
  { up with link.cache := [{ tag := 5, opcode := 5, length := 3, check := chkLn, reply := rep0 }], link.lock := .spi }
def k4 : State := { up with link.cache := [{ tag := 5, opcode := 5, length := 3, check := chkLn, reply := rep0 }] }
def k5 : State :=
  { up with link.outstanding := (List.range 17).map (fun i => cmdOf (100+i) 5 3 0 (.latchNow 4 (some 5))) }
def k7 : State :=
  { up with link.uartRx := { frame := some [0xA5, 0, 5] }, link.csLow := true, link.spiRx := some [0xA5,1], link.replies := [rep1], link.outstanding := [cmdOf 9 5 3 4 .replied], link.spiSent := 2 }
def k8 : State :=
  { up with link.uartRx := { frame := some [0xA5, 0], escape := true }, link.csLow := true, link.replies := [rep2, rep0] }
def frameOf (op : Nat) (r : Req) : Bytes :=
  let l := r.params.length + 3
  let body := leBytes 2 l ++ [] 
  let c := [0#8] ++ leBytes 2 l ++ leBytes 2 r.tag.toNat ++ [BitVec.ofNat 8 op] ++ r.params
  let _ := body
  [0xA5#8] ++ c ++ leBytes 2 (crc16 c)
def f1 : Bytes := frameOf 0x05 rqLn
def k10 : State := { up with link.uartRx := { frame := some f1.dropLast } }
def k11 : State := { up with link.uartRx := { frame := some [0xA5, 0, 2] } }
def b1 : Byte := (f1.getLast?).getD 0
def kc : State := { State.reset with start.phase := .running }
def rGet (i : Nat) (t : BitVec 16) : Req := { port := .uart, tag := t, params := leBytes 2 i }
def rSet (i : Nat) (b : Bytes) (t : BitVec 16) : Req := { port := .uart, tag := t, params := leBytes 2 i ++ b }
def q1 : Req := rGet 0x0005 11
def q3 : Req := { port := .uart, tag := 12, params := [0, 2, 0, 5, 0, 0x10, 0x60] }
def q4 : Req := { port := .uart, tag := 12, params := [1, 1, 0, 2, 0] }
def q4e : Req := { port := .uart, tag := 12, params := [0, 1, 2, 0] }
def q4f : Req := { port := .uart, tag := 12, params := [1, 1, 2, 0] }
def q8 : Req := rSet 0x0003 [0x13, 2, 0] 13
def q9 : Req := { port := .spi, tag := 14, params := leBytes 4 6 }
def q13 : Req := { port := .spi, tag := 14, params := [0] ++ leBytes 6 77 }
def q14 : Req := { port := .spi, tag := 14, params := [1] ++ leBytes 6 1000 }
def q15 : Req := { port := .spi, tag := 14, params := [2] ++ leBytes 6 1000 }
def q19 : Req := { port := .spi, tag := 14, params := leBytes 2 0x9040 }
def q22 : Req := { port := .spi, tag := 14, params := leBytes 4 1 ++ [2] }
def q25 : Req := { port := .spi, tag := 14, params := [] }
def q26 : Req := { port := .spi, tag := 14, params := leBytes 2 0x4040 }
def snap1 : Snapshot := { generation := 3, values := [(2, [1,0,0,0])] }
def ev1 : Raised := { time := 5, code := 0xF0, payload := [1], host := true }
def ev2 : Raised := { time := 5, code := 0x30, payload := [1,2], alarm := true, cls := 2 }
def ev3 : Raised := { time := 5, code := 0x32, payload := [1,2], alarm := true, cls := 3 }
def ev4 : Raised := { time := 5, code := 0x60, payload := [1,2] }
def s1 : State := { up with link.snapshot := some snap1, link.irqPending := 0xFFF }
def s2 : State :=
  { up with link.session := some { size := 5, bytes := [9, 9] }, store.level := 2, backup.halt := true, backup.oscStopped := false, backup.sec := 77 }
def s5 : State :=
  { up with link.outstanding := [cmdOf 5 0x12 3 0 (.commit true)], start.commit := .writing, start.commitSlot := 0, start.committing := List.replicate 40 3 }
def s6 : State :=
  { up with link.outstanding := [cmdOf 5 0x40 5 0 (.selftest 0x9040 true)], recording.coderTesting := true }
def s7 : State :=
  { up with link.outstanding := [cmdOf 5 0x40 5 0 (.selftest 0x4040 false)], recording.coderOk := false, evidence.latched := 1#256 <<< 0x30 }
def s8 : State :=
  { up with link.outstanding := [cmdOf 5 0x04 5 0 (.snapshot [2])], link.cache := [{ tag := 5, opcode := 5, length := 3, check := chkLn, reply := rep0 }] }
def s9 : State := { up with link.outstanding := [cmdOf 5 0x05 3 0 (.latchNow 4 (some 5))] }
def s10 : State :=
  { up with link.outstanding := [cmdOf 5 0x05 3 0 .replied], start.failures := [⟨1,1,.cold⟩], start.limp := true, start.limpLevel := 1, start.kind := .limp, start.heldMask := 3 }
def s11 : State := { up with evidence.newest := 9, evidence.appends := 8 }
def s12 : State := { up with evidence.newest := 9, evidence.appends := 2, evidence.queue := [ev1] }
def s13 : State := { up with evidence.queue := [ev2, ev1], evidence.newest := 3 }
def s14 : State := { up with evidence.queue := [ev3], evidence.newest := 3 }
def s15 : State :=
  { up with evidence.pins := [{ code := 0x30, seq := 1, time := 0 }], backup.sec := 40, archive.state := .mounted, evidence.pinHour := 0, evidence.pinsHour := 16 }
def s16 : State := { up with evidence.raised := [ev3] }
def s17 : State := { up with evidence.raised := [ev4] }
def v264a : Bytes := leBytes 4 16 ++ leBytes 2 3 ++ [0,0] ++ List.replicate 256 7
def u32a : BitVec 32 := 0x4C520001
def u32b : BitVec 32 := 5
def u32c : BitVec 32 := 0x8000554C
def by1 : Byte := 0x30
def by3 : Byte := b1
def q30 : Req := { port := .spi, tag := 14, params := leBytes 2 0x0080 }
def q31 : Req := { port := .spi, tag := 14, params := leBytes 2 0x5752 }
def q32 : Req := { port := .spi, tag := 14, params := leBytes 2 0x4344 }
def hex5 : BitVec 16 := 5
def oc1 : BitVec 4 := 1
def s20 : State := { up with recording.coderOk := false }
def t11 : State :=
  { up with backup.pairOut := some ⟨9, 100, 5⟩, time.pairs := [⟨8, 50, 1⟩, ⟨7, 20, 1⟩], time.steps := [⟨0, 0, 9, 30, 1⟩, ⟨0, 0, 9, 400, 1⟩] }
def t12 : State := { up with tamper := pinsOn.map (fun p => { p with asserted := true }) }
def r11 : State := { r4 with sense.modCount := 30000000 }
def r12 : State := { r6 with start.leadBoundary := some 9000 }
def rep3 : Reply := { rep0 with port := .spi, kind := .accepted, ends := false }
def k14 : State :=
  { up with link.csLow := true, link.replies := [rep0, rep3], link.outstanding := [cmdOf 9 5 3 4 (.latchNow 0 none)] }
def s22 : State := { up with link.outstanding := [cmdOf 5 0x20 15 0 (.archiveRead 2 0 400 1500)] }
def s23 : State := { up with link.outstanding := [cmdOf 5 5 3 0 (.latchNow 0 none)] }
def s24 : State := { up with link.outstanding := [{ cmdOf 5 0x04 5 0 (.snapshot [2]) with long := true }] }
def mkFlit (k body : Nat) : BitVec 64 :=
  let f := body * 256
  BitVec.ofNat 64 (f + crc8 (BitVec.ofNat 8 k :: flitBytes f))
def fl0 : BitVec 64 := mkFlit 0 (1 * 2^54)
def fl1 : BitVec 64 := mkFlit 1 (1 * 2^54 + 7 * 2^46)
def fl2 : BitVec 64 := mkFlit 5 (3 * 2^54 + 0x10 * 2^38 + 1 * 2^36 + 3 * 2^32 + 0 * 2^29 + 3 * 2^25 + 100 * 2)
def fl3 : BitVec 64 := mkFlit 5 (3 * 2^54 + 0x10 * 2^38 + 1 * 2^36 + 3 * 2^32 + 7 * 2^29 + 3 * 2^25 + 100 * 2)
def st1 : BitVec 48 := 32000
def lan (f : Lane → Lane) : List Lane := List.replicate 6 (f {})
def a1 : State :=
  { up with sense.connected := true, sense.lanes := lan (fun l => { l with aligned := true, ninth := false }) }
def a2 : State := { a1 with sense.lanes := lan (fun l => { l with aligned := true, ninth := true, failedNow := 32 }) }
def a3 : State :=
  { a1 with sense.lanes := lan (fun l => { l with aligned := true, testing := some 33 }), sense.switches := [⟨1, 3, .input 3, 100⟩, ⟨1, 4, .zero, 99⟩] }
def quar (f : Quarter → Quarter) : List Quarter := List.replicate 4 (f {})
def msr (p : Int) (n : Nat :=
  3520) : RefMeasure := { start := 0, part := 960, taken := n, zero := 880 * 5 + 500, plus := p * 880 * 0x4CCCCD * 256, minus := -880 * 0x4CCCCD * 256, toneSin := 10 ^ 15 }
def slic (m : RefMeasure) : List Slice := List.replicate 60 { meas := some m }
def ms1 : RefMeasure := msr 1
def a6 : State :=
  { a1 with sense.slices := slic (msr 1), sense.quarters := quar (fun q => { q with rot := .waderRef 3 }) }
def a13 : State :=
  { a1 with sense.slices := slic (msr 2), sense.quarters := quar (fun q => { q with rot := .waderRef 3 }) }
def a14 : State :=
  { a1 with sense.slices := slic (msr 1), sense.quarters := quar (fun q => { q with rot := .homeRef 3 }) }
def a15 : State :=
  { a1 with sense.slices := slic (msr 1 5), sense.quarters := quar (fun q => { q with rot := .twin2 3 }), billing.squares := List.replicate 56 { out := 2^60 } }
def a8 : State :=
  { a1 with sense.quarters := quar (fun q => { q with rot := .twin1 3 }), billing.squares := List.replicate 56 { out := 2^60 } }
def a10 : State :=
  { a1 with sense.nextStrobe := 1000, sense.channels := List.replicate 60 { clipPass := some 5, stageE := { seedCount := 400, seedSum := 12345678 } }, start.config.entries := (List.range 48).map (fun c => (idx 1 c 1, leBytes 4 (if c == 1 then 0xB0000000 else 0xB8000000))) }
def fl6 : BitVec 64 := mkFlit 0 (2 * 2^54)
def lostLane : Lane := { aligned := true, ninth := false, runs := [⟨0, 10 ^ 6, 0, 32 * 10 ^ 6, true⟩] }
def b1s : State :=
  { up with sense.connected := true, sense.nextStrobe := 76, sense.nextRaw := 96, sense.lanes := List.replicate 6 lostLane }
def b0s : State := { b1s with sense.nextRaw := 5, sense.nextStrobe := 0 }
def busOf (f : Bus → Bus) : List Bus :=
  List.replicate 8 (f { reference := some 48, lastCross := some 100, reached := some 7, freq := 50 * 2 ^ 40 })
def sqs : List ChannelSquare := List.replicate 56 { out := 2^60 }
def per : Nat := 320 * 65536
def c0s : State :=
  { b1s with billing.squares := sqs, sense.nextStrobe := 2000, billing.buses := busOf (fun b => { b with found := [(48, 100 + per)] }) }
def c1s : State :=
  { c0s with billing.buses := busOf (fun b => { b with found := [(48, 100 + per), (49, 7)], lastValid := true, periods := [per + 3] }) }
def c2s : State :=
  { c0s with billing.buses := busOf (fun b => { b with state := .locked, periods := [per, per], lastBoundary := some 5, found := [(48, 100 + per)], lastHalf := 7 }) }
def c5s : State :=
  { c0s with billing.buses := busOf (fun b => { b with state := .locked, periods := [per, per], lastBoundary := some (per * 50), found := [(48, 101)], lastHalf := 7 }) }
def c6s : State := { c0s with billing.buses := busOf (fun b => { b with found := [(48, 101)] }) }
def c7s : State := { c0s with billing.buses := busOf (fun b => { b with state := .locked, validCross := some 100 }) }
def c8s : State := { c7s with billing.squares := List.replicate 56 {}, sense.nextStrobe := 700 }
def c9s : State := { c8s with sense.nextStrobe := 400 }
def c10s : State := { c8s with sense.nextStrobe := 200 }
def c3s : State := { c0s with billing.buses := busOf (fun b => { b with state := .hold, nextSynth := some 55555 }) }
def c4s : State :=
  { c0s with billing.buses := busOf (fun b => { b with freq := 0, nextSynth := some (65536 * 3000), lastBoundary := some (55555 - 320*65536 ) }), billing.latch := { cycles := 8 }, link.outstanding := [cmdOf 5 5 3 0 (.latchNow 300 none)] }
def cap1 : Capture := { boundary := { b := 5, cycles := 10, forced := true }, sec := 7 }
def pm (f : Bool) : PaceMark := { b := 1000, forced := f }
def l1s : State := { b1s with billing.latch := { fresh := [pm false], cycles := 1000 } }
def l4s : State :=
  { b1s with billing.latch := { captured := [cap1, cap1] }, link.generation := 0xFFFFFFFF, link.outstanding := [cmdOf 5 5 3 0 (.latchNow 4 (some 5))] }
def svcs (w : DemandValue) : List Service :=
  (List.replicate 16 {}).set 3 { demand := { formed := [(60, w)], maxima := [{ value := 3 }, {}, {}, {}] } }
def p1s : State :=
  { up with start.energyBegun := true, start.billing := true, sluice.pulses := List.replicate 8 { tail := [7, 9] } }
def p2s : State := { p1s with sluice.pulses := List.replicate 8 { pulse := true, notBefore := 5, ends := 4 } }
def p3s : State :=
  { p1s with sluice.pulses := List.replicate 8 { lastBegun := 3 }, billing.pulses := List.replicate 8 { converted := 6, due := [10, 20] }, start.config.entries := (List.range 8).map (fun o => (idx 3 o 1, leBytes 8 (30 * 2^37 + 10000*2^17 + 2^44))) }
def p4s : State := { p3s with sluice.pulses := List.replicate 8 { lastBegun := 5 } }
def rl (f : RelayPair → RelayPair) : List RelayPair := List.replicate 2 (f {})
def r1s : State := { p1s with sluice.pairs := rl (fun x => { x with coil := some .toClose, state := .closing }) }
def r2s : State :=
  { p1s with sluice.pairs := rl (fun x => { x with guarding := true, pendingCmd := some (.toOpen, .limit), state := .closed }) }
def r3s : State := { p1s with sluice.pairs := rl (fun x => { x with guarding := true, state := .closed }) }
def r4s : State :=
  { p1s with sluice.pairs := rl (fun x => { x with level := true, state := .levelOff }) , link.lock := .spi }
def dm3 : State := { p1s with billing.services := svcs {}, billing.latch := { captured := [cap1] } }
def dm1 : State :=
  { p1s with sense.connected := true, sense.modCount := 9999, billing.services := svcs { values := [1,2,3,4], endSec := 9 }, backup.sec := 900 }
def dm2 : State :=
  { dm1 with start.config.entries := [(idx 2 3 12, leBytes 4 10 ++ [0, 0, 0, 0])], billing.services := svcs { values := [10^8,2,3,4], endSec := 9 } }
def w1b : BitVec 16 := 0x4D52
def w2b : BitVec 16 := 0x4D53
def tg : BitVec 16 := 77
def cb1 : BitVec 32 := 0x40000005
def cb2 : BitVec 32 := 5
def cs1 : State := { up with store.level := 3 }
def zr : List Int := List.replicate 60 0
def wn : Window := { a := 0, b := 20 * 65536, cycles := 10 }
def ringN (k : Nat) : List RingFrame :=
  ((List.range k).map (fun i => { strobe := i, samples := List.replicate 56 0x1000000, clip := 0, patched := 0, lost := 0 } : Nat → RingFrame)).reverse
def xaEntries : List (Nat × Bytes) :=
  [(0x0041, leBytes 8 (2 ^ 56)), (0x0042, leBytes 8 (255 * 2^48)), (idx 1 48 1, leBytes 4 0x80000000), (idx 1 49 1, leBytes 4 0x80000000)]
def ga0 : State :=
  { up with start.config.entries := xaEntries, xa.buses := List.replicate 8 { ended := [wn, wn] }, sense.connected := true }
def ga1 : State := { ga0 with engines.ring := ringN 40, sense.nextStrobe := 40 }
def hal : List Nat := [65536 * 2, 65536 * 5 + 100, 65536 * 8 + 5, 65536 * 11]
def gh1 : State := { ga0 with engines.ring := ringN 10, xa.watched := List.replicate 8 { halves := hal } }
def gh2 : State := { gh1 with engines.ring := ringN 5 }
def gh3 : State := { gh1 with engines.ring := (ringN 10).filter (fun f => f.strobe != 4) }
def psc (l : Bool) : PstClosed :=
  { endSec := 600, strobe := 77, settling := false, part := true, event := false, long := l, classes := [(2000, 30), (2100, 5000)] }
def ga2 : State := { up with xa.channels := List.replicate 56 { closed := [psc false, psc true] } }
def ga3 : State :=
  { up with xa.channels := List.replicate 56 { closed := [psc true], psts := List.replicate 11 (1500, false) } }
def pinr : PinRequest := { fromTick := 5, toTick := 9, reason := 2, event := 0, due := 10 }
def ga4 : State := { up with xa.pins := [pinr], backup.sec := 100, archive.state := .failed }
def ga5 : State :=
  { up with xa.pins := [pinr], backup.sec := 100, archive.state := .mounted, xa.pinsHour := 32, xa.pinHour := 0 }
def recE : List (Nat × Bytes) :=
  [(0x4041, leBytes 4 (2 ^ 24)), (idx 1 0 1, leBytes 4 0x80000000), (idx 1 1 1, leBytes 4 0x80000000)]
def seg0 : Segment := { seq := 6, startTick := 0, startStrobe := 4, flags := 0, mask := 3, alignedEnd := 10 * 32768 }
def seg1 : Segment := { seg0 with alignedEnd := 40 * 32768 }
def gb0 : State :=
  { up with sense.connected := true, start.config.entries := recE, sense.nextStrobe := 3000, backup.sec := 25, recording.lastSeq := 0xFFFFFFFF }
def anch : List Pair := [{ sec := 20, strobe := 1000, clock := 0 }]
def gb1 : State := { gb0 with recording.segment := some seg0, recording.lastSeq := 6 }
def gb2 : State := { gb0 with recording.segment := some seg1, recording.lastSeq := 6 }
def gb6 : State := { gb0 with time.pairs := anch, sense.nextStrobe := 3000 }
def gb9 : State := { gb1 with recording.cuts := [{ strobe := 204, ends := 10 * 32768 }] }
def gb3 : State := { gb0 with recording.coderTesting := true }
def pc0 : ProfileClose :=
  { startSec := 900, endSec := 1800, b := 55, flags := 2, code := 3, services := [(3, 3, 1, List.replicate 12 {}), (5, 3, 0, List.replicate 12 {})] }
def pc1 : ProfileClose := { pc0 with services := [(3, 3, 1, List.replicate 12 {})] }
def gb5 : State := { up with billing.profileClosed := [pc0, pc0], sense.connected := false }
def fpart : FlashPart :=
  { id := 0x2C, density := 3, pageSize := 2048, blocks := 1024, conforms := true, ddrFails := false, endurance := 60000, factoryBad := [5] }
def dv (o : Option FlashOp) (r : Bool :=
  false) : List FlashDevice := [{ part := some fpart, op := o, retried := r }, {}, {}, {}]
def arch (st : ArchiveState) : State :=
  { up with archive.state := st, archive.devices := dv none, archive.free := List.range 900, backup.sec := 4000 }
def m1s : State := arch .mounting
def m2s : State := arch .scan1
def m3s : State := arch .scan2
def m4s : State := { arch .formatting with archive.pins := [⟨1, 2, 3, 4, 5, 6, 7, []⟩], start.mounted := 44 }
def m5s : State := arch .mounted
def m6s : State := arch .noDevice
def mrec : MereRec := { bytes := List.replicate 40 5, time := 100 }
def srec : MereRec := { bytes := List.replicate 40 5, time := 100, seg := some 9 }
def fl1s : State := { m5s with archive.offered := [(1, mrec), (2, mrec)] }
def fl3s : State := { m6s with archive.offered := [(0, srec), (0, srec)] }
def fl4s : State := { m5s with archive.devices := dv (some (.erase 7)), archive.toErase := [8] }
def fl5s : State :=
  { m5s with archive.devices := dv (some (.program 1)), archive.tiers := [{}, {}, { blocks := [3] }, {}, {}] }
def fl6s : State :=
  { m5s with archive.devices := dv (some (.program 1)) true, archive.at50 := true, xa.asked := [(3, 4)] , recording.segment := some seg0}
def prRec (seq e : Nat) : Bytes := profileRecord seq { pc1 with startSec := e - 900, endSec := e }
def sgRec : Bytes :=
  [0x10, 0, 0, 0] ++ leBytes 4 44 ++ leBytes 6 1500 ++ leBytes 2 0 ++ zeros 8 ++ leBytes 4 80000 ++ zeros 36
def blk (lb t : Nat) (rs : List Bytes) : FlashBlock :=
   { lb := lb, pages := rs.zipIdx.map (fun x => makePage t x.2 lb (headerBytes ⟨t, 0, lb, 0, 0, 0⟩) (frameBytes t 3 x.2 0 x.1)) }
def ac0 : State := { m5s with
  archive.flash := [blk 3 2 [prRec 1 1500, prRec 2 2400], blk 4 0 [sgRec]]
  archive.tiers := [{ blocks := [4], nextRecord := 1 }, {}, { blocks := [3], nextRecord := 2 }, {}, {}]
  start.config.entries := [(0x4041, leBytes 4 (8 * 2 ^ 28 + 2 ^ 24 + 2^23))] }
def ac1s : State :=
  { ac0 with archive.at75 := true, link.outstanding := [cmdOf 5 0x20 15 0 (.archiveRead 2 0 400 (1500 )), cmdOf 6 0x22 14 0 (.audit 3 1500 900)] }
def ac3s : State :=
  { ac0 with link.outstanding := [cmdOf 7 5 3 0 .replied, cmdOf 6 0x21 14 0 (.pinSegment 4 1 none)], archive.pins := [⟨4, 2, 3, 4, 44, 44, 7, [44]⟩] }
def ac4s : State := { ac0 with xa.suspended := true }
def ac5s : State := { ac0 with archive.state := .scan1, archive.mountCount := 3 }
def ac7s : State := { ac0 with archive.mountCount := 3 }
def gq (ps : Bytes) : Req := { port := .spi, tag := 14, params := ps }
def gq1 : Req := gq ([2, 0] ++ leBytes 6 1500 ++ leBytes 2 5 ++ leBytes 2 400)
def gq2 : Req := gq ([2, 0] ++ leBytes 6 1500 ++ leBytes 2 40000 ++ leBytes 2 400)
def gq3 : Req := gq ([2, 1] ++ leBytes 8 (2^63) ++ leBytes 2 400)
def gq4 : Req := gq ([2, 1] ++ leBytes 8 (2^62) ++ leBytes 2 400)
def gq5 : Req := gq ([2, 0] ++ leBytes 6 1500 ++ leBytes 2 5 ++ leBytes 2 0)
def gq6 : Req := gq (leBytes 6 1500 ++ leBytes 6 1600 ++ [2])
def gq7 : Req := gq (leBytes 6 1600 ++ leBytes 6 1500 ++ [2])
def gq9 : Req := gq ([3] ++ leBytes 6 1500 ++ leBytes 4 900)
def tg5 : BitVec 16 := 5
def po1 : State :=
  { up with store.waiting := [⟨3, 60, [1,2,3,4,5,6]⟩, ⟨3, 0, [9]⟩], store.cells := [(200, 7)], store.saveState := 2 }
def po2 : State :=
  { up with store.waiting := [⟨0, 5, List.replicate 64 0xFF⟩], store.saveState := 2, store.cells := [(5,1),(6,1)], store.saveOf := some (cap1, List.replicate 16 3) }
def po3 : State :=
  { up with store.closed := true, store.scrubPage := 8191, store.saveOf := some (cap1, List.replicate 16 3) }
def m7s : State :=
  { m4s with archive.devices := [{ part := some fpart }, { part := some { fpart with density := 5 } , mismatch := true}, {}, {}] }
def eng (a b : Engine) : List Engine := [a, b]
def he0 : State :=
  { up with engines.engines := eng { role := .active, beatF := some 24990, beatW := some 24900 } { role := .lockstep, intake := some 100, beatF := some 24000 }, sense.modCount := 102400, engines.partnerOk := true, sluice.heldClaim := 2 }
def he1 : State :=
  { he0 with engines.engines := eng { role := .active, fFault := true, wFault := true, claim := 2, beatF := some 1000, beatW := some 2000 } { role := .lockstep, intake := some 0xFFFFFFFF, fFault := true, beatF := some 5000 } }
def he16 : State :=
  { he0 with engines.engines := eng { role := .active, beatF := some 1000, beatW := some 1000 } { role := .lockstep, beatF := some 1000, beatW := some 1000 } }
def he18 : State := { he0 with engines.blocks := [⟨7, 0x55, 0x55, {}, {}⟩] }
def he2 : State :=
  { he0 with engines.engines := eng { role := .active, verdict := true, claim := 2 } { role := .selftest, read := some 2 } }
def tk (st : TakeoverStage) (sv : Nat) : Takeover := { survivor := sv, stage := st, cause := 1, sec := 5, tick := 6 }
def he3 : State :=
  { he0 with engines.engines := eng { role := .active, verdict := true, claim := 2 } { role := .lockstep, read := some 2, claim := 5 }, engines.takeover := some (tk .verdict 1), sluice.hold := true }
def he4 : State := { he3 with engines.takeover := some (tk .settling 1), sluice.heldClaim := 5 }
def he6 : State := { he0 with sluice.heldClaim := 0 }
def arb1 : Arbitration := ⟨7, 9, 0x77, 0x77, 0x66⟩
def he9 : State := { he18 with engines.digests := some (7, some 0x55, none), engines.arbitration := some arb1 }
def sr0 : StateRecord :=
  { seq := 4, kind := 1, writer := 0, claim := 2, resume := 5, cfgSeq := 0, generation := 5, crcOk := false, body := {} }
def he11 : State :=
  { he0 with engines.split := true, engines.engines := eng { role := .active } { role := .standby }, engines.buffers := [some sr0, some sr0], engines.sequences := List.replicate 8 5, engines.cut := some (9, {}, []), billing.buses := List.replicate 8 { reached := some (65536 * 9) } }
def he12 : State := { he11 with engines.badRun := 2 }
def he13 : State :=
  { he0 with engines.resync := some sr0, engines.engines := eng { role := .active } { role := .resync } }
def he14 : State :=
  { he11 with engines.resync := some sr0, engines.engines := eng { role := .active } { role := .resync }, engines.badRun := 2 }
def ik1 : BitVec 32 := 101
def ik2 : BitVec 32 := 99
def dg1 : BitVec 64 := 0
def dg2 : BitVec 64 := 1
def dg3 : BitVec 64 := 0x77
def du1 : BitVec 16 := 400
def by3b : Bytes := [1,2,3]
def zent : List (Nat × Bytes) :=
  [(0x5001, leBytes 4 (2^31 + 2 ^ 30 + 2 * 2 ^ 20 + 633 * 2 ^ 10 + 740)), (0x5042, leBytes 4 (2^31 + 7))]
def sqf : List Bus := List.replicate 8 { freq := freqOfHz 50, state := .locked }
def z0 : State :=
  { up with sense.modCount := 100000, start.config.entries := zent, line.state := .listening, net.state := .steady, billing.buses := sqf, backup.sec := 5000 }
def z1 : State := { z0 with net.started := true, net.superframe := 41, net.slot := 1, net.broadcastLeft := some 3 }
def nds : List Node := (List.replicate 256 {}).set 9 { state := .present, uid := 77, failures := 2, route := [3] }
def trn (kd : TransKind) (t : Nat) (sent : Bool :=
  true) (heard : Bool := true) (age : Nat := 12) : Transaction := { age := age, node := 9, kind := kd, route := [3], seq := 8, try_ := t, sent := sent, heard := heard }
def z2 : State := { z1 with net.broadcastLeft := none, net.trans := some (trn .statusReq 0), net.nodes := nds }
def z3 : State :=
  { z2 with net.trans := some (trn (.data 5 [1,2]) 2), link.outstanding := [cmdOf 5 0x28 5 0 (.zlinkSend 9 [1,2] true)] }
def z6 : State := { z2 with net.trans := some (trn .statusReq 0 true true 3) }
def z7 : State := { z2 with net.trans := none, sluice.hold := true, net.slot := 0 }
def obal : OpenBalance :=
  { k := 5, kPrev := 4, tickPrev := 100, instantPrev := 6553600, tick := 200, until_ := 7, handed := true, flags := 0, deadline := 500, nodes := [] }
def obal2 : OpenBalance := { obal with handed := false }
def z9 : State := { z1 with net.openBalances := [obal, obal], net.balances := [[1,2,3]] }
def z10 : State := { z1 with net.openBalances := [obal2], xa.suspended := true, net.balances := [[1,2,3], [5]] }
def z13 : State := { z2 with net.trans := none }
def lf (f : NetFrame) : LineFrame := { start := 500, bytes := f.bytes, level := 500 }
def w3 : State := { up with line.state := .listening, start.config.entries := [(0x5001, leBytes 4 (2^31))] }
def w4 : State :=
  { up with line.state := .transmitting, line.sending := some { payload := [1], tones := [1,2,3], start := 5 }, sense.modCount := 10 ^ 9 }
def nf (ty : Nat) (b : Bytes) : NetFrame :=
  { type := ty, hops := 2, hop := 1, src := 9, dst := 0, netId := 1, seq := 8, up := true, body := b }
def zf1 : LineFrame := lf { nf 0x10 (leBytes 8 77) with src := 0 }
def zf2 : LineFrame := lf (nf 0x23 (zeros 40))
def zf6 : LineFrame := lf { nf 0x40 (zeros 4) with up := false }
def zf7 : LineFrame := lf (nf 0x02 (zeros 16))
def zf9 : LineFrame := { start := 0, bytes := [1,2,3] }
def zq1 : Req := gq ([9, 5])
def zq2 : Req := gq ([0, 5, 6])
def zq5 : Req := gq ([1])
def zq6 : Req := gq ([0])
def tblw (l : List Nat) : List Nat := l ++ List.replicate (64 - l.length) 0xF8000000
def waitW : Nat := 30 * 2^27
def smpW : Nat := 3 * 2^27 + 2 * 2^24 + 1 * 2^16 + 40
def conv0 : Converter := { table := tblw [smpW, waitW, smpW] }
def cva (f : Converter → Converter) : State :=
  { up with aux.loaded := true, aux.periods := [100, 0], aux.converters := [f conv0, f conv0] }
def v0 : State := cva id
def v1 : State := cva (fun c => { c with state := .waiting, entry := 1, due := [5, 6] })
def v2 : State :=
  cva (fun c => { c with state := .converting, entry := 0, due := [5], pendingTrig := true, done := 1 })
def v3 : State := cva (fun c => { c with state := .delay, entry := 1, due := [5], badPass := true })
def v4 : State := cva (fun c => { c with state := .converting, entry := 2 })
def cds : List (Option (BitVec 12)) := [some 700]
def vq1 : Req := gq ([0, 3, 2] ++ leBytes 4 smpW ++ leBytes 4 waitW)
def vq2 : Req := gq ([1, 0, 1] ++ leBytes 4 (29 * 2^27))
def vq3 : Req := gq ([1, 5])
def cmpA : Bytes :=
  (List.range 8).flatMap (fun k => leBytes 8 (if k == 3 then 0x80000010_8000_0100 else 0x0000_0000_FFFF_0000))
def cmpB : Bytes :=
  (List.range 8).flatMap (fun k => leBytes 8 (if k == 3 then 0x0001_0010_0100_8000 else 0x0000_0000_FFFF_0000))
def y0 : State := { up with integrity.lastCount := 6291 }
def y1 : State :=
  { up with integrity.holding := some 99, integrity.heldWindows := 130, start.phase := .inReset, integrity.cause := some (0x10, 6500, 0) }
def y2 : State :=
  { up with integrity.highRun := 2, integrity.anyWindow := true, integrity.lowCount := 6290, integrity.highCount := 6400 }
def y3 : State := { up with integrity.lowRun := 2, integrity.runWide := true }
def y4 : State := { up with integrity.watchOsc := true, start.phase := .unpowered }
def y5 : State :=
  { up with integrity.fabricTests := [(5, 6), (7, 7)], integrity.rowTests := [(2, 0), (3, 0), (0, 0)], engines.ring := ringN 8 }
def y6 : State :=
  { y5 with integrity.spares := List.replicate 6 8, integrity.wardenTesting := true, integrity.watchOsc := true }
def y7 : State :=
  { y5 with link.outstanding := [cmdOf 5 0x40 5 0 (.selftest 0x9040 true), cmdOf 6 5 3 0 .replied], link.uartRx := { frame := some [0xA5] }, link.csLow := true }
def by5 : Byte := 0x0F
def by6 : Byte := 0x11
def ea5 : BitVec 32 := 5
def v7 : State := cva (fun c => { c with due := [5] })
def s21 : State := { up with evidence.newest := 300000 }
def k13 : State := { up with link.outstanding := [cmdOf 5 6 3 chkLn .replied] }
def ka : State := { up with link.csLow := true, link.spiRx := some f1.dropLast, link.replies := [rep0] }
def kb : State := { up with link.csLow := true, link.spiRx := some [0xA5, 0, 2], link.replies := [rep0] }
def rqU : Req := { port := .uart, tag := 9, params := [1, 2] }
def fu : Bytes := frameOf 0x31 rqU
def kd : State := { up with link.uartRx := { frame := some fu.dropLast }, free := 4 }
def ke : State := { up with link.uartRx := { frame := some [0xA5, 0, 2], escape := true } }
def fx : Bytes := frameOf 0x05 { port := .uart, tag := 181 }
def kf : State := { up with link.uartRx := { frame := some fx.dropLast, escape := true } }
def ea7 : BitVec 32 := 300
def ea8 : BitVec 32 := 0xFFFFFFFF
def bw1 : BusWord := { data := 7, code := BitVec.ofNat 8 (busCodeOf 5 0 7) }
def bw2 : BusWord := { data := 7, code := BitVec.ofNat 8 (busCodeOf 5 0 7) ^^^ 1 }
def kn0 : BitVec 2 := 0
def z17 : State := { z7 with net.slot := 1 }
def v8 : State := cva (fun c => { c with state := .waiting })
def cnt0 : List (BitVec 32) := List.replicate 10 0
def rqB : Req := { port := .uart, tag := 5, params := leBytes 2 (idx 2 3 5) }
def kg : State := { up with engines.split := true, engines.takeover := some (tk .verdict 1) }
def heardOf (s : State) (f : LineFrame) : HeardFrame :=
  { payload := f.bytes, corrected := 0, level := f.level, anchor := f.start, tick := s.timeNear f.start }
def a18 : State :=
  { a1 with sense.slices := slic (msr 2), sense.quarters := quar (fun q => { q with rot := .homeRef 3 }) }
def a19 : State := { a18 with sense.quarters := quar (fun q => { q with rot := .homeTest 3 }) }
def a20 : State :=
  { a1 with sense.slices := slic ms1, sense.quarters := quar (fun q => { q with rot := .waderTest 3 }) }
def a21 : State := { a1 with sense.clipBits := List.replicate 3200 (BitVec.allOnes 56), sense.nextStrobe := 1000 }
def a22 : State := { a21 with sense.channels := List.replicate 60 { clipPass := some 5 } }
def big : MereRec := { bytes := List.replicate 1200 0, time := 100, seg := some 9 }
def sopen : MereRec := { srec with opening := true }
def bopen : MereRec := { big with opening := true, seg := some 8, complete := false }
def bigs (n : Nat) (pool : List MereRec) : List TierLog :=
  [{ queue := List.replicate n big }, { queue := pool }, {}, {}, {}]
def fl7s : State := { m5s with archive.tiers := bigs 1180 [], archive.offered := [(1, mrec)] }
def fl8s : State := { m5s with archive.tiers := bigs 1311 [], archive.offered := [(1, mrec)] }
def fl9s : State := { m6s with archive.tiers := bigs 1311 [mrec], archive.offered := [(2, mrec)] }
def fl10s : State := { m6s with archive.tiers := bigs 1311 [], archive.offered := [(1, mrec)] }
def fl11s : State := { m5s with archive.offered := [(0, sopen)] }
def fl12s : State := { m5s with archive.tiers := bigs 1179 [], archive.offered := [(0, bopen)] }
def fl13s : State := { m5s with archive.offered := [(0, srec)] }
def ac8s : State :=
  { ac3s with link.outstanding := [cmdOf 7 5 3 0 .replied, cmdOf 6 0x21 14 0 (.pinSegment 4 1 (some (0, 9999)))] }
def ac9s : State :=
  { ac0 with archive.state := .failed, archive.at75 := true, archive.reads := [{ tag := 5, device := 0, left := 2 }] }
def ac10s : State :=
  { ac1s with archive.reads := [{ tag := 5, device := 0, left := 2, heldFrom := some 0 }], sense.modCount := 4096 * 20000 }
def gq11 : Req := gq ([2, 1] ++ leBytes 8 (2 ^ 63 + 2 ^ 28 + 5000) ++ leBytes 2 400)
def he20 : State :=
  { he16 with engines.engines := eng { role := .active, verdict := true, claim := 2, beatF := some 1000, beatW := some 1000 } { role := .lockstep, beatF := some 1000, beatW := some 1000 }, engines.takeover := some (tk .verdict 1) }
def he21 : State :=
  { he0 with engines.engines := eng { role := .active, verdict := true, claim := 2 } { role := .lockstep, verdict := true, claim := 5, beatF := some 1000 }, sluice.heldClaim := 5, engines.takeover := some { tk .settling 1 with accepted := 24000 } }
def he22 : State :=
  { he0 with engines.engines := eng { role := .active, beatF := some 1000, beatW := some 24900 } { role := .lockstep, beatW := some 1000, beatF := some 24900 } }
def he24 : State :=
  { he0 with engines.engines := eng { role := .active, fFault := true, wFault := true, beatF := some 124990, beatW := some 124990 } { role := .lockstep }, sense.modCount := 512000 }
def he25 : State :=
  { he0 with engines.engines := eng { role := .active, claim := 2 } { role := .lockstep, verdict := true } }
def he26 : State :=
  { he0 with engines.engines := eng { role := .active, claim := 400 } { role := .lockstep, claim := 7000 }, sluice.heldClaim := 7000 }
def he28 : State :=
  { he0 with engines.engines := eng { role := .active } { role := .resync }, engines.joining := true }
def v9 : State :=
  cva (fun c => { c with closing := some { entry := 0, word := smpW, pairWord := none, codes := 1, last := 5, bad := false } })
def y8 : State := { up with integrity.cause := some (0x10, 6500, 0), start.phase := .inReset }
def cm1 : Command := cmdOf 6 5 3 0 .replied
def ga8 : State :=
  { ga0 with xa.channels := List.replicate 56 { closed := [psc false] }, xa.watched := List.replicate 8 { halves := [5] } }
def ga9 : State :=
  { ga0 with backup.sec := 4000, archive.state := .mounted, xa.buses := List.replicate 8 { openEvents := [{ kind := .dip, number := 7, start := 50, extreme := 5, worst := 48, refs := List.replicate 8 0, mask := 1 }] } }
def ga10 : State :=
  { ga5 with xa.pinsHour := 5, archive.devices := dv none, archive.free := List.range 900, archive.tiers := [{ queue := [{ srec with time := 3 }] }, {}, {}, {}, {}], start.config.entries := [(0x4001, leBytes 8 (16 * 2 ^ 57 + 8 * 2 ^ 50 + 8 * 2 ^ 43 + 8 * 2 ^ 36))] }
def he29 : State := { he18 with engines.digests := some (7, some 0x77, none) }
def er8 : List Int := List.replicate 8 0
def admits (t : Nat) (r : MereRec) (rest : List (Nat × MereRec)) (a : Archive) : Archive :=
  ({ a with offered := rest }.modTier t (fun l => { l with
     queue := l.queue.takeWhile (fun (q : MereRec) => q.seg.isNone) ++ r :: l.queue.dropWhile (fun (q : MereRec) =>
      q.seg.isNone) })).marks
def takes (r : MereRec) (rest : List (Nat × MereRec)) (a : Archive) : Archive :=
  ({ a with offered := rest }.modTier 0 (fun l => { l with queue := joinSeep r l.queue })).marks

/-! ### Terms that are not well formed: one for each check of `Instr.wf` -/

/-- None of the terms is well formed. -/
def illFormed (cs : List Instr) : Bool := cs.all (fun c => !c.wf)

/-- A line frame with a code that a 12-bit converter does not give. -/
def wildFrame : LineFrame := { start := 0, samples := [2048] }

theorem smoke_requests : illFormed
    [.reservedOpcode 0x05 rqLn, .getObj rqLong] = true := by decide +kernel

theorem smoke_object_writes : illFormed
    [.calibrationWrite .spi 1 56 3 0, .calibrationWrite .spi 1 0 6 0, .demandReset .spi 1 16 0,
     .relayClose .spi 1 4, .relayOpen .spi 1 4, .relayOn .spi 1 4, .relayOff .spi 1 4, .auxStart .spi 1 2,
     .auxStop .spi 1 2, .clearOverrun .spi 1 2] = true := by decide +kernel

theorem smoke_reset_and_supply : illFormed
    [.resetNAssert 65, .resetRelease true true false (List.replicate 5 ⟨0, 0, 0, true, false, 0, []⟩),
     .supplyCollapse 65] = true := by decide +kernel

theorem smoke_sensing : illFormed
    [.flitReceive 6 0, .laneTestEnd 6 true, .referenceMeasurementEnd 4 0, .referenceMeasurementEnd 0 15,
     .twinVerificationEnd 4 0 0, .sustainedClip 56, .sliceSelftestEnd 4 [], .modulatorReset 0 15,
     .rogowskiSeed 48, .zeroCrossing 8, .frequencyHold 8, .synthesisedBoundary 8] = true := by decide +kernel

theorem smoke_outputs_and_analysis : illFormed
    [.pulseStart 8 0, .pulseEnd 8 0, .coilPulseEnd 2, .guardTimeEnd 2, .analysisWindowComplete 8,
     .halfCycleRms 56, .seepBlockComplete 56 true] = true := by decide +kernel

theorem smoke_archive : illFormed
    [.flashOperationDone 4 .ok, .flashTimeout 4, .pageFlushTimer 3] = true := by decide +kernel

theorem smoke_engines : illFormed
    [.heartbeatF 2 0, .verdict 2, .pathFault 0 3, .pathRestored 0 3, .claimPresent 2, .claimSettleEnd 2,
     .blockDigest 2 0 0, .engineSelftestEnd 2 true 0, .heartbeatW 2] = true := by decide +kernel

theorem smoke_line_frames : illFormed
    [.zlFrameReject wildFrame, .joinReq wildFrame, .status wildFrame, .report wildFrame, .dataAck wildFrame,
     .roleAck wildFrame, .zlFrameOverheard wildFrame, .relayBeaconHeard wildFrame,
     .joinReq { start := 0, skew := 375 }] = true := by decide +kernel

theorem smoke_converters_and_watches : illFormed
    [.auxTimerFire 2, .auxTriggerAct 2, .auxDelayEnd 2, .alignmentMessage 2, .auxResult 2 [],
     .auxResult 0 (List.replicate 33 (some 0)), .tamperAssert 4 [], .tamperRelease 4 [], .tamperGlitch 4 [],
     .stateInvalid 5 0 0, .stateInvalid 0 2 0, .busCode 0 3 0 ⟨0, 0⟩ ⟨0, 0⟩, .eccDouble 6 0,
     .sramRowTestEnd 6 0 true] = true := by decide +kernel

theorem smoke_known_opcodes : (List.range 256).countP Sys2Proof.opcodeKnown = 24 := by decide +kernel

/-! ### Witnesses: states and operands that meet the hypotheses of each statement -/

theorem witness_TheLineUnitFollowsItsEvents :
    (Settled up ∧ (up.line.sending = none ∨ up.line.state ≠ LineState.transmitting)) ∧
    (Settled up ∧ (up.line.state ≠ LineState.listening ∧ up.line.state ≠ LineState.receiving)) ∧
     (Settled w3 ∧ (w3.sense.lanes.getD 4 { }).faulty = false ∧ (w3.line.state = LineState.listening ∨ w3.line.state
      = LineState.receiving) ∧ w3.line.deafUntil ≤ zf9.start ∧ w3.view.zlTwoTone = false ∧ cnt0 = w3.line.counters)
      ∧
     (Settled w4 ∧ w4.line.sending = some { payload := [1], tones := [1, 2, 3], start := 5 } ∧ w4.line.state =
      LineState.transmitting) ∧
     (Settled z0 ∧ (z0.sense.lanes.getD 4 { }).faulty = false ∧ (z0.line.state = LineState.listening ∨ z0.line.state
      = LineState.receiving) ∧ z0.line.deafUntil ≤ zf9.start ∧ z0.view.zlTwoTone = true ∧ checkOk zf9.bytes = false)
      :=
  ⟨⟨rfl, by decide +kernel⟩,
   ⟨rfl, by decide +kernel⟩,
   ⟨rfl, by decide +kernel⟩,
   ⟨rfl, by decide +kernel⟩,
   ⟨rfl, by decide +kernel⟩⟩

theorem witness_SecondsAndCompensation :
    (Settled up ∧ up.backup.halt = false ∧ up.backup.crystalStopped = false) ∧
    (Settled t1 ∧ (t1.backup.halt = true ∨ t1.backup.crystalStopped = true)) ∧
    (Settled up ∧ up.backup.crystalStopped = false ∧ up.backup.measureDue = true) ∧
     (Settled up ∧ (up.ticks < up.backup.adjusted + 128 ∨ up.ticks < up.backup.adjustFrom + (up.backup.adjustTotal -
      up.backup.adjust.natAbs) * 1048576 / max 1 up.backup.adjustTotal)) ∧
    (Settled t2 ∧ (t2.backup.crystalStopped = true ∨ t2.backup.measureDue = false)) ∧
    (Settled t2 ∧ t2.backup.crystalStopped = true) ∧
    (Settled t4 ∧ t4.backup.halt = false ∧ t4.backup.crystalStopped = false ∧ t4.backup.adjustDue ≤ t4.ticks) :=
  ⟨⟨rfl, by decide +kernel⟩,
   ⟨rfl, by decide +kernel⟩,
   ⟨rfl, by decide +kernel⟩,
   ⟨rfl, by decide +kernel⟩,
   ⟨rfl, by decide +kernel⟩,
   ⟨rfl, by decide +kernel⟩,
   ⟨rfl, by decide +kernel⟩⟩

theorem witness_CalendarAdvances :
    (Settled up ∧ up.backup.halt = false ∧ up.backup.crystalStopped = false ∧ up.backup.calendarLoad = none) :=
  ⟨rfl, by decide +kernel⟩

theorem witness_PairsWakeAndShadow :
    (Settled up ∧ (up.awake = false ∨ (up.sense.lanes.getD 4 { }).faulty = true ∨ up.backup.pairOut = none)) ∧
    (Settled up ∧ (up.backup.wakePeriod = 0 ∨ up.ticks / 128 % up.backup.wakePeriod ≠ 0)) ∧
     (Settled t3 ∧ t3.backup.wakePeriod ≠ 0 ∧ t3.ticks / 128 % t3.backup.wakePeriod = 0 ∧ t3.backup.onBattery =
      false ∧ (t3.awake = true ∨ t3.start.phase = Phase.failed)) ∧
    (Settled t4 ∧ t4.backup.wakePeriod ≠ 0 ∧ t4.ticks / 128 % t4.backup.wakePeriod = 0 ∧ t4.backup.onBattery = true) ∧
     (Settled t11 ∧ t11.awake = true ∧ (t11.sense.lanes.getD 4 { }).faulty = false ∧ t11.backup.pairOut = some { sec := 9, strobe := 100, clock := 5 })
      :=
  ⟨⟨rfl, by decide +kernel⟩,
   ⟨rfl, by decide +kernel⟩,
   ⟨rfl, by decide +kernel⟩,
   ⟨rfl, by decide +kernel⟩,
   ⟨rfl, by decide +kernel⟩⟩

theorem witness_CrystalAndTamperEvents :
    (Settled up ∧ up.backup.oscStopped = true) ∧
    (Settled up ∧ up.backup.crystalStopped = false) ∧
    (Settled up ∧ (up.tamper.getD 0 { }).enable = false) ∧
    (Settled t2 ∧ t2.backup.crystalStopped = true) ∧
    (Settled t3 ∧ t3.backup.oscStopped = false ∧ (t3.awake = true ∨ t3.start.phase = Phase.failed)) ∧
     (Settled t8 ∧ t8.backup.crystalStopped = false ∧ (t8.tamper.getD 0 { }).enable = true ∧ t8.backup.onBattery =
      false ∧ (t8.tamper.getD 0 { }).asserted = false) ∧
     (Settled t9 ∧ t9.backup.crystalStopped = false ∧ (t9.tamper.getD 0 { }).enable = true ∧ (t9.tamper.getD 0 { }).asserted
      = true) ∧
     (Settled t9 ∧ t9.backup.crystalStopped = false ∧ (t9.tamper.getD 0 { }).enable = true ∧ t9.backup.onBattery =
      true) ∧
     (Settled t12 ∧ t12.backup.crystalStopped = false ∧ (t12.tamper.getD 0 { }).enable = true ∧ t12.backup.onBattery
      = false ∧ (t12.tamper.getD 0 { }).asserted = true) ∧
    (up.logsDirect = true) ∧
    (t9.logsDirect = false ∧ 8 ≤ t9.backup.buffer.length) ∧
    (t10.logsDirect = false ∧ t10.backup.buffer.length < 8) :=
  ⟨⟨rfl, by decide +kernel⟩,
   ⟨rfl, by decide +kernel⟩,
   ⟨rfl, by decide +kernel⟩,
   ⟨rfl, by decide +kernel⟩,
   ⟨rfl, by decide +kernel⟩,
   ⟨rfl, by decide +kernel⟩,
   ⟨rfl, by decide +kernel⟩,
   ⟨rfl, by decide +kernel⟩,
   ⟨rfl, by decide +kernel⟩,
   by decide +kernel,
   by decide +kernel,
   by decide +kernel⟩

theorem witness_ResetKeepsWhatOutlivesIt :
    ((up.start.phase = Phase.starting ∨ up.start.phase = Phase.running ∨ up.start.phase = Phase.failed)) ∧
    (up.start.phase ≠ Phase.unpowered) ∧
    (Settled up ∧ up.power.warning = false) ∧
    (r1.start.phase = Phase.inReset) ∧
    (Settled r2 ∧ r2.start.phase = Phase.unpowered) ∧
    (r3.power.warning = true) :=
  ⟨by decide +kernel,
   by decide +kernel,
   ⟨rfl, by decide +kernel⟩,
   by decide +kernel,
   ⟨rfl, by decide +kernel⟩,
   by decide +kernel⟩

theorem witness_SuppliesComeAndGo :
    (Settled up ∧ up.start.phase ≠ Phase.unpowered ∧ up.backup.onBattery = false) ∧
    (Settled r2 ∧ r2.start.phase = Phase.unpowered) ∧
    (Settled up ∧ up.power.warning = false ∧ (up.start.phase = Phase.starting ∨ up.start.phase = Phase.running)) ∧
    (Settled r1 ∧ (r1.power.warning = true ∨ r1.start.phase = Phase.inReset ∨ r1.start.phase = Phase.unpowered)) ∧
    (Settled r5 ∧ r5.power.warning = false ∧ r5.start.phase = Phase.failed) :=
  ⟨⟨rfl, by decide +kernel⟩,
   ⟨rfl, by decide +kernel⟩,
   ⟨rfl, by decide +kernel⟩,
   ⟨rfl, by decide +kernel⟩,
   ⟨rfl, by decide +kernel⟩⟩

theorem witness_StartsBeginAndFail :
    (Settled up ∧ up.start.phase ≠ Phase.inReset) ∧
    (Settled up ∧ (up.start.phase ≠ Phase.starting ∨ up.micros < 5000000)) ∧
    (Settled up ∧ (up.start.phase ≠ Phase.failed ∨ up.power.warning = true ∨ up.micros < up.start.retryAt)) ∧
     (Settled r1 ∧ r1.start.phase = Phase.inReset ∧ r1.integrity.holding = none ∧ r1.start.next = none ∧
      r1.start.unrecorded = false ∧ newestSlot r1.store.seen Ring.device = none) ∧
    (Settled r5 ∧ r5.start.phase = Phase.failed ∧ r5.power.warning = false ∧ r5.start.retryAt ≤ r5.micros) ∧
    (Settled r11 ∧ r11.start.phase = Phase.starting ∧ 5000000 ≤ r11.micros) :=
  ⟨⟨rfl, by decide +kernel⟩,
   ⟨rfl, by decide +kernel⟩,
   ⟨rfl, by decide +kernel⟩,
   ⟨rfl, by decide +kernel⟩,
   ⟨rfl, by decide +kernel⟩,
   ⟨rfl, by decide +kernel⟩⟩

theorem witness_StartProceeds :
    (Settled up ∧ (up.start.phase ≠ Phase.starting ∨ up.start.wardenReady = true)) ∧
     (Settled up ∧ (up.start.phase ≠ Phase.starting ∨ up.start.wardenReady = false ∨ up.sense.connected = true ∨
      up.power.warning = true ∨ up.sense.measured = false)) ∧
     (Settled up ∧ (up.start.phase ≠ Phase.starting ∨ up.start.energyBegun = true ∨ up.sense.connected = false ∨
      up.billing.stamp < up.firstRaw)) ∧
    (Settled up ∧ (up.start.phase ≠ Phase.starting ∨ up.start.energyBegun = false ∨ up.start.leadBoundary = none)) ∧
     (Settled r4 ∧ r4.start.phase = Phase.starting ∧ r4.start.wardenReady = true ∧ r4.sense.connected = false ∧
      r4.power.warning = false ∧ r4.sense.measured = true ∧ 0 < 8) ∧
     (Settled r6 ∧ r6.start.phase = Phase.starting ∧ r6.start.energyBegun = true ∧ r6.start.leadBoundary = some 100
      ∧ 100 ≤ r6.billing.stamp + 1) ∧
     (Settled r7 ∧ r7.start.phase = Phase.starting ∧ r7.start.energyBegun = false ∧ r7.sense.connected = true ∧
      r7.firstRaw ≤ r7.billing.stamp) ∧
    (Settled r9 ∧ r9.start.phase = Phase.starting ∧ r9.start.wardenReady = false) ∧
     (Settled r12 ∧ r12.start.phase = Phase.starting ∧ r12.start.energyBegun = true ∧ r12.start.leadBoundary = some
      9000 ∧ r12.billing.stamp + 1 < 9000) :=
  ⟨⟨rfl, by decide +kernel⟩,
   ⟨rfl, by decide +kernel⟩,
   ⟨rfl, by decide +kernel⟩,
   ⟨rfl, by decide +kernel⟩,
   ⟨rfl, by decide +kernel⟩,
   ⟨rfl, by decide +kernel⟩,
   ⟨rfl, by decide +kernel⟩,
   ⟨rfl, by decide +kernel⟩,
   ⟨rfl, by decide +kernel⟩⟩

theorem witness_RequestsNotTaken :
     (Settled up ∧ up.listening = true ∧ up.lockedOut rqBad.port = false ∧ List.length rqBad.params ≤ 4096 ∧
      (rqBad.tag = 65535 ∨ rqBad.flags ≠ 0)) ∧
    (Settled up ∧ up.listening = true ∧ up.lockedOut rqLong.port = false ∧ 4096 < List.length rqLong.params) ∧
    (Settled kc ∧ kc.listening = false) ∧
     (Settled k1 ∧ k1.listening = true ∧ k1.lockedOut rqLn.port = false ∧ List.length rqLn.params ≤ 4096 ∧ rqLn.tag
      ≠ 65535 ∧ rqLn.flags = 0 ∧ (lockPort rqLn.port k1).command rqLn.tag.toNat = some (cmdOf 5 5 3 (checkOf 5 rqLn)
      (Work.latchNow 0 none)) ∧ (cmdOf 5 5 3 (checkOf 5 rqLn) (Work.latchNow 0 none)).opcode = 5 ∧ (cmdOf 5 5 3
      (checkOf 5 rqLn) (Work.latchNow 0 none)).length = List.length rqLn.params + 3 ∧ (cmdOf 5 5 3 (checkOf 5 rqLn)
      (Work.latchNow 0 none)).check = checkOf 5 rqLn) ∧
     (Settled k4 ∧ k4.listening = true ∧ k4.lockedOut rqLn.port = false ∧ List.length rqLn.params ≤ 4096 ∧ rqLn.tag
      ≠ 65535 ∧ rqLn.flags = 0 ∧ (lockPort rqLn.port k4).command rqLn.tag.toNat = none ∧ List.find? (fun e => e.tag
      == rqLn.tag.toNat && e.opcode == 5 && e.length == List.length rqLn.params + 3 && e.check == checkOf 5 rqLn)
      (lockPort rqLn.port k4).link.cache = some { tag := 5, opcode := 5, length := 3, check := checkOf 5 rqLn, reply := rep0 })
      ∧
     (Settled k5 ∧ k5.listening = true ∧ k5.lockedOut rqLn.port = false ∧ List.length rqLn.params ≤ 4096 ∧ rqLn.tag
      ≠ 65535 ∧ rqLn.flags = 0 ∧ (lockPort rqLn.port k5).command rqLn.tag.toNat = none ∧ List.find? (fun e => e.tag
      == rqLn.tag.toNat && e.opcode == 5 && e.length == List.length rqLn.params + 3 && e.check == checkOf 5 rqLn)
      (lockPort rqLn.port k5).link.cache = none ∧ (lockPort rqLn.port k5).overLimitFor 5 = true) ∧
     (Settled k13 ∧ k13.listening = true ∧ k13.lockedOut rqLn.port = false ∧ List.length rqLn.params ≤ 4096 ∧
      rqLn.tag ≠ 65535 ∧ rqLn.flags = 0 ∧ (lockPort rqLn.port k13).command rqLn.tag.toNat = some (cmdOf 5 6 3
      (checkOf 5 rqLn) Work.replied) ∧ (cmdOf 5 6 3 (checkOf 5 rqLn) Work.replied).opcode ≠ 5) ∧
     (Settled kg ∧ kg.listening = true ∧ kg.lockedOut rqB.port = false ∧ List.length rqB.params ≤ 4096 ∧ rqB.tag ≠
      65535 ∧ rqB.flags = 0 ∧ (lockPort rqB.port kg).command rqB.tag.toNat = none ∧ ((lockPort rqB.port
      kg).link.cache.any fun e => e.tag == rqB.tag.toNat) = false ∧ (lockPort rqB.port kg).overLimitFor 1 = false ∧
      kg.engines.split = true ∧ kg.engines.takeover.isSome = true ∧ kg.billingRead 1 rqB.params = true) ∧
     (Settled kg ∧ kg.listening = true ∧ kg.lockedOut rqB.port = false ∧ rqB.params.length ≤ 4096 ∧ rqB.tag ≠ 0xFFFF
      ∧ rqB.flags = 0 ∧ (lockPort rqB.port kg).command rqB.tag.toNat = none ∧ (lockPort rqB.port kg).link.cache.any
      (fun e => e.tag == rqB.tag.toNat) = false ∧ (lockPort rqB.port kg).overLimitFor 0x01 = false ∧
      kg.engines.split = true ∧ kg.engines.takeover.isSome = true ∧ kg.billingRead 0x01 rqB.params = true) ∧
    (Settled k3 ∧ k3.listening = true ∧ k3.lockedOut rqLn.port = true) :=
  ⟨⟨rfl, by decide +kernel⟩,
   ⟨rfl, by decide +kernel⟩,
   ⟨rfl, by decide +kernel⟩,
   ⟨rfl, by decide +kernel⟩,
   ⟨rfl, by decide +kernel⟩,
   ⟨rfl, by decide +kernel⟩,
   ⟨rfl, by decide +kernel⟩,
   ⟨rfl, by decide +kernel⟩,
   ⟨rfl, by decide +kernel⟩,
   ⟨rfl, by decide +kernel⟩⟩

theorem witness_BytesBecomeFrames :
    (Settled up ∧ up.listening = true ∧ up.lockedOut Port.uart = false ∧ up.link.uartRx.frame = none ∧ 0#8 ≠ 165) ∧
     (Settled k7 ∧ k7.listening = true ∧ k7.lockedOut Port.uart = false ∧ k7.link.uartRx.frame = some [165, 0, 5] ∧
      k7.link.uartRx.escape = false ∧ 0#8 ≠ 165 ∧ 0#8 ≠ 125 ∧ frameStep ([165, 0, 5] ++ [0#8]) = FrameStep.more) ∧
     (Settled k8 ∧ k8.listening = true ∧ k8.lockedOut Port.uart = false ∧ k8.link.uartRx.frame = some [165, 0] ∧
      k8.link.uartRx.escape = true ∧ frameStep ([165, 0] ++ [165]) = FrameStep.more) ∧
     (Settled k8 ∧ k8.listening = true ∧ k8.lockedOut Port.uart = false ∧ k8.link.uartRx.frame = some [165, 0] ∧
      k8.link.uartRx.escape = true ∧ 0#8 ≠ 165 ∧ 0#8 ≠ 133 ∧ 0#8 ≠ 93) ∧
     (Settled k7 ∧ k7.listening = true ∧ k7.link.csLow = true ∧ k7.lockedOut Port.spi = false ∧ k7.link.spiRx = some
      [165, 1] ∧ frameStep ([165, 1] ++ [0#8]) = FrameStep.more) ∧
     (Settled k8 ∧ k8.listening = true ∧ k8.link.csLow = true ∧ k8.lockedOut Port.spi = false ∧ k8.link.spiRx = none
      ∧ 1#8 ≠ 0 ∧ 1#8 ≠ 165) :=
  ⟨⟨rfl, by decide +kernel⟩,
   ⟨rfl, by decide +kernel⟩,
   ⟨rfl, by decide +kernel⟩,
   ⟨rfl, by decide +kernel⟩,
   ⟨rfl, by decide +kernel⟩,
   ⟨rfl, by decide +kernel⟩⟩

theorem witness_FramesAreChecked :
     (Settled k10 ∧ k10.listening = true ∧ k10.lockedOut Port.uart = false ∧ k10.link.uartRx = { frame := some (List.dropLast f1) }
      ∧ by1 ≠ 165 ∧ by1 ≠ 125 ∧ frameStep (List.dropLast f1 ++ [by1]) = FrameStep.whole (getU (List.dropLast f1 ++
      [by1]) 2 2) ∧ (¬crc16 (List.take (getU (List.dropLast f1 ++ [by1]) 2 2 + 3) (List.drop 1 (List.dropLast f1 ++
      [by1]))) = getU (List.dropLast f1 ++ [by1]) (getU (List.dropLast f1 ++ [by1]) 2 2 + 4) 2)) ∧
     (Settled k10 ∧ k10.listening = true ∧ k10.lockedOut Port.uart = false ∧ k10.link.uartRx = { frame := some (List.dropLast f1) }
      ∧ by3 ≠ 165 ∧ by3 ≠ 125 ∧ frameStep (List.dropLast f1 ++ [by3]) = FrameStep.whole (getU (List.dropLast f1 ++
      [by3]) 2 2) ∧ crc16 (List.take (getU (List.dropLast f1 ++ [by3]) 2 2 + 3) (List.drop 1 (List.dropLast f1 ++
      [by3]))) = getU (List.dropLast f1 ++ [by3]) (getU (List.dropLast f1 ++ [by3]) 2 2 + 4) 2) ∧
     (Settled k11 ∧ k11.listening = true ∧ k11.lockedOut Port.uart = false ∧ k11.link.uartRx = { frame := some [165, 0, 2] }
      ∧ by1 ≠ 165 ∧ by1 ≠ 125 ∧ frameStep ([165, 0, 2] ++ [by1]) = FrameStep.badLength) ∧
     (Settled kd ∧ kd.listening = true ∧ kd.lockedOut .uart = false ∧ kd.link.uartRx = { frame := some fu.dropLast }
      ∧ fu.getLastD 0 ≠ 0xA5 ∧ fu.getLastD 0 ≠ 0x7D ∧ (∃ l, frameStep (fu.dropLast ++ [fu.getLastD 0]) = .whole l ∧
      crc16 (((fu.dropLast ++ [fu.getLastD 0]).drop 1).take (l + 3)) = getU (fu.dropLast ++ [fu.getLastD 0]) (l + 4)
      2) ∧ getU (fu.dropLast ++ [fu.getLastD 0]) 6 1 = 0x31) ∧
     (Settled ke ∧ ke.listening = true ∧ ke.lockedOut .uart = false ∧ ke.link.uartRx = { frame := some [0xA5, 0, 2], escape := true }
      ∧ (0x85 : Byte) = 0x85 ∧ frameStep ([0xA5, 0, 2] ++ [0x85 ^^^ 0x20]) = .badLength) ∧
     (Settled kf ∧ kf.listening = true ∧ kf.lockedOut .uart = false ∧ kf.link.uartRx = { frame := some fx.dropLast, escape := true }
      ∧ (∃ l, frameStep (fx.dropLast ++ [0x85 ^^^ 0x20]) = .whole l ∧ crc16 (((fx.dropLast ++ [0x85 ^^^ 0x20]).drop
      1).take (l + 3)) = getU (fx.dropLast ++ [0x85 ^^^ 0x20]) (l + 4) 2)) ∧
     (Settled kf ∧ kf.listening = true ∧ kf.lockedOut .uart = false ∧ kf.link.uartRx = { frame := some fx.dropLast, escape := true }
      ∧ (∃ l, frameStep (fx.dropLast ++ [0x5D ^^^ 0x20]) = .whole l ∧ ¬ crc16 (((fx.dropLast ++ [0x5D ^^^
      0x20]).drop 1).take (l + 3)) = getU (fx.dropLast ++ [0x5D ^^^ 0x20]) (l + 4) 2)) ∧
     (Settled ka ∧ ka.listening = true ∧ ka.lockedOut .spi = false ∧ ka.link.csLow = true ∧ ka.link.spiRx = some
      f1.dropLast ∧ (∃ l, frameStep (f1.dropLast ++ [by3]) = .whole l ∧ crc16 (((f1.dropLast ++ [by3]).drop 1).take
      (l + 3)) = getU (f1.dropLast ++ [by3]) (l + 4) 2)) ∧
     (Settled ka ∧ ka.listening = true ∧ ka.lockedOut .spi = false ∧ ka.link.csLow = true ∧ ka.link.spiRx = some
      f1.dropLast ∧ (∃ l, frameStep (f1.dropLast ++ [by1]) = .whole l ∧ ¬ crc16 (((f1.dropLast ++ [by1]).drop
      1).take (l + 3)) = getU (f1.dropLast ++ [by1]) (l + 4) 2)) ∧
     (Settled kb ∧ kb.listening = true ∧ kb.lockedOut .spi = false ∧ kb.link.csLow = true ∧ kb.link.spiRx = some
      [0xA5, 0, 2] ∧ frameStep ([0xA5, 0, 2] ++ [by1]) = .badLength) :=
  ⟨⟨rfl, by decide +kernel⟩,
   ⟨rfl, by decide +kernel⟩,
   ⟨rfl, by decide +kernel⟩,
    ⟨rfl, by decide +kernel, by decide +kernel, rfl, by decide +kernel, by decide +kernel, ⟨5, by decide +kernel, by
     decide +kernel⟩, by decide +kernel⟩,
   ⟨rfl, by decide +kernel⟩,
   ⟨rfl, by decide +kernel, by decide +kernel, rfl, 3, by decide +kernel, by decide +kernel⟩,
   ⟨rfl, by decide +kernel, by decide +kernel, rfl, 3, by decide +kernel, by decide +kernel⟩,
   ⟨rfl, by decide +kernel, by decide +kernel, rfl, rfl, 3, by decide +kernel, by decide +kernel⟩,
   ⟨rfl, by decide +kernel, by decide +kernel, rfl, rfl, 3, by decide +kernel, by decide +kernel⟩,
   ⟨rfl, by decide +kernel⟩⟩

theorem witness_RepliesLeave :
    (Settled up ∧ (∀ x ∈ up.link.replies, x.port ≠ Port.spi)) ∧
     (Settled k7 ∧ k7.link.replies = [] ++ [rep1] ∧ (∀ x ∈ ([] : List Reply), x.port ≠ Port.uart) ∧ rep1.port =
      Port.uart ∧ rep1.restart = none ∧ Port.uart = Port.uart) ∧
     (Settled k7 ∧ k7.link.replies = [] ++ [rep1] ∧ (∀ x ∈ ([] : List Reply), x.port ≠ Port.uart) ∧ rep1.port =
      Port.uart ∧ rep1.restart = none ∧ rep1.ends = true ∧ k7.command rep1.tag = some (cmdOf 9 5 3 4 Work.replied))
      ∧
     (Settled k8 ∧ k8.link.replies = [] ++ [rep2, rep0] ∧ (∀ x ∈ ([] : List Reply), x.port ≠ Port.uart) ∧ rep2.port
      = Port.uart ∧ rep2.restart = some StartKind.cold) ∧
     (Settled k14 ∧ k14.link.replies = [rep0] ++ [rep3] ∧ (∀ x ∈ [rep0], x.port ≠ Port.spi) ∧ rep3.port = Port.spi ∧
      rep3.restart = none ∧ Port.spi = Port.spi) ∧
     (Settled k14 ∧ k14.link.replies = [rep0] ++ [rep3] ∧ (∀ x ∈ [rep0], x.port ≠ Port.spi) ∧ rep3.port = Port.spi ∧
      rep3.restart = none ∧ rep3.kind = ReplyKind.accepted ∧ rep3.retry = false ∧ (after (exec (.replySent Port.spi)
      k14)).command rep3.tag ≠ none) :=
  ⟨⟨rfl, by decide +kernel⟩,
   ⟨rfl, by decide +kernel⟩,
   ⟨rfl, by decide +kernel⟩,
   ⟨rfl, by decide +kernel⟩,
   ⟨rfl, by decide +kernel⟩,
   ⟨rfl, by decide +kernel⟩⟩

theorem witness_ObjectReads :
    (Settled up ∧ Takes 1 q1 up) ∧
     (Settled up ∧ Takes 3 q4e up ∧ getU q4e.params 0 1 = 0 ∧ (begun 3 q4e up).listFault (listIndices q4e.params) =
      none) ∧
    (Settled up ∧ Takes 3 q4f up ∧ getU q4f.params 0 1 = 1 ∧ (begun 3 q4f up).link.snapshot = none) ∧
     (Settled up ∧ Takes 4 q4e up ∧ (begun 4 q4e up).listFault (listIndices q4e.params) = none ∧ (∀ c ∈ (begun 4 q4e
      up).link.outstanding, c.opcode = 4 → c.long = false)) ∧
    (Settled up ∧ Takes 5 q25 up) ∧
     (Settled s1 ∧ Takes 3 q4f s1 ∧ getU q4f.params 0 1 = 1 ∧ (begun 3 q4f s1).link.snapshot = some snap1 ∧ (∀ i ∈
      listIndices q4f.params, (snap1.find i).isSome = true) ∧ (List.flatMap (fun i => (snap1.find i).getD [])
      (listIndices q4f.params)).length ≤ listRoom) ∧
    (Settled s24 ∧ Takes 4 q4e s24 ∧ (∃ c ∈ (begun 4 q4e s24).link.outstanding, c.opcode = 4 ∧ c.long = true)) ∧
     (Settled s24 ∧ Takes 0x04 q4e s24 ∧ ∃ c ∈ (begun 0x04 q4e s24).link.outstanding, c.opcode = 0x04 ∧ c.long =
      true) :=
  ⟨⟨rfl, taken (by decide +kernel)⟩,
   ⟨rfl, taken (by decide +kernel), by decide +kernel⟩,
   ⟨rfl, taken (by decide +kernel), by decide +kernel⟩,
   ⟨rfl, taken (by decide +kernel), by decide +kernel⟩,
   ⟨rfl, taken (by decide +kernel)⟩,
   ⟨rfl, taken (by decide +kernel), by decide +kernel⟩,
   ⟨rfl, taken (by decide +kernel), by decide +kernel⟩,
   ⟨rfl, taken (by decide +kernel), by decide +kernel⟩⟩

theorem witness_ObjectWrites :
     (Settled up ∧ Takes 2 q3 up ∧ (((begun 2 q3 up).spec (getU q3.params 0 2)).access = 1 ∨ ((begun 2 q3 up).spec
      (getU q3.params 0 2)).access = 4)) ∧
    (Settled up ∧ Takes 2 q4 up ∧ ((begun 2 q4 up).spec (getU q4.params 0 2)).access = 0) ∧
     (Settled up ∧ Takes 2 q8 up ∧ ((begun 2 q8 up).spec (getU q8.params 0 2)).access = 2 ∧ (begun 2 q8
      up).relayLocked (getU q8.params 0 2) = false ∧ heldIn (begun 2 q8 up).start.heldMask.toNat (getU q8.params 0
      2) = false ∧ (List.drop 2 q8.params).length ≠ ((begun 2 q8 up).spec (getU q8.params 0 2)).size) ∧
    (Settled up ∧ Takes 2 (writeReq Port.spi (0#16) 3 (leBytes 4 u32b.toNat)) up ∧ u32b.toNat < 4096) ∧
    (Settled up ∧ Takes 2 (writeReq Port.spi (0#16) 2 (leBytes 4 u32a.toNat)) up ∧ 4096 ≤ u32a.toNat) ∧
    (Settled up ∧ Takes 2 (writeReq Port.spi (0#16) 2 (leBytes 4 u32b.toNat)) up ∧ u32b.toNat < 4096) ∧
    (Settled up ∧ Takes 2 (writeReq Port.spi (0#16) 4 (leBytes 4 u32a.toNat)) up ∧ 6 < u32a.toNat) ∧
    (Settled up ∧ Takes 2 (writeReq Port.spi (0#16) 4 (leBytes 4 u32b.toNat)) up ∧ u32b.toNat ≤ 6) ∧
    (Settled up ∧ Takes 1 (readReq Port.spi (0#16) 5) up) ∧
     (Settled up ∧ Takes 2 (writeReq Port.spi (0#16) 32770 (leBytes 4 u32b.toNat)) up ∧ field 29 16 u32b.toNat = 0 ∧
      u32b.toNat / 2 ^ 30 = (begun 2 (writeReq Port.spi (0#16) 32770 (leBytes 4 u32b.toNat)) up).store.level.toNat)
      ∧
     (Settled up ∧ Takes 2 (writeReq Port.spi (0#16) 32770 (leBytes 4 u32c.toNat)) up ∧ field 29 16 u32c.toNat = 0 ∧
      ((begun 2 (writeReq Port.spi (0#16) 32770 (leBytes 4 u32c.toNat)) up).store.level.toNat < u32c.toNat / 2 ^ 30
      ∨ u32c.toNat / 2 ^ 30 < (begun 2 (writeReq Port.spi (0#16) 32770 (leBytes 4 u32c.toNat)) up).store.level.toNat
      ∧ u32c.toNat % 2 ^ 16 = 21836)) ∧
     (Settled s2 ∧ Takes 2 (writeReq Port.spi (0#16) 32770 (leBytes 4 u32b.toNat)) s2 ∧ field 29 16 u32b.toNat = 0 ∧
      u32b.toNat / 2 ^ 30 < (begun 2 (writeReq Port.spi (0#16) 32770 (leBytes 4 u32b.toNat)) s2).store.level.toNat ∧
      u32b.toNat % 2 ^ 16 ≠ 21836) :=
  ⟨⟨rfl, taken (by decide +kernel), by decide +kernel⟩,
   ⟨rfl, taken (by decide +kernel), by decide +kernel⟩,
   ⟨rfl, taken (by decide +kernel), by decide +kernel⟩,
   ⟨rfl, taken (by decide +kernel), by decide +kernel⟩,
   ⟨rfl, taken (by decide +kernel), by decide +kernel⟩,
   ⟨rfl, taken (by decide +kernel), by decide +kernel⟩,
   ⟨rfl, taken (by decide +kernel), by decide +kernel⟩,
   ⟨rfl, taken (by decide +kernel), by decide +kernel⟩,
   ⟨rfl, taken (by decide +kernel)⟩,
   ⟨rfl, taken (by decide +kernel), by decide +kernel⟩,
   ⟨rfl, taken (by decide +kernel), by decide +kernel⟩,
   ⟨rfl, taken (by decide +kernel), by decide +kernel⟩⟩

theorem witness_TimeObjects :
    (Settled up ∧ Takes 2 (writeReq Port.spi (0#16) 28674 (leBytes 4 (2 ^ 31))) up) ∧
    (Settled up ∧ Takes 2 (writeReq Port.spi (0#16) 28674 (leBytes 4 0)) up ∧ up.backup.halt = false) ∧
    (Settled up ∧ Takes 2 (writeReq Port.spi (0#16) 28676 v264a) up) ∧
    (Settled up ∧ Takes 2 (writeReq Port.spi (0#16) 28679 v264a) up ∧ up.protects 397312 = false) ∧
    (Settled up ∧ Takes 1 (readReq Port.spi (0#16) 28672) up) ∧
    (Settled up ∧ Takes 2 (writeReq Port.spi (0#16) 28683 v264a) up) ∧
    (Settled s2 ∧ Takes 2 (writeReq Port.spi (0#16) 28674 (leBytes 4 0)) s2 ∧ s2.backup.halt = true) ∧
    (Settled s2 ∧ Takes 2 (writeReq Port.spi (0#16) 28679 v264a) s2 ∧ s2.protects 397312 = true) :=
  ⟨⟨rfl, taken (by decide +kernel)⟩,
   ⟨rfl, taken (by decide +kernel), by decide +kernel⟩,
   ⟨rfl, taken (by decide +kernel)⟩,
   ⟨rfl, taken (by decide +kernel), by decide +kernel⟩,
   ⟨rfl, taken (by decide +kernel)⟩,
   ⟨rfl, taken (by decide +kernel)⟩,
   ⟨rfl, taken (by decide +kernel), by decide +kernel⟩,
   ⟨rfl, taken (by decide +kernel), by decide +kernel⟩⟩

theorem witness_ConfigurationSessionsAndCommits :
    (Settled up ∧ Takes 16 q9 up) ∧
    (Settled up ∧ Takes 17 q3 up ∧ up.link.session = none) ∧
    (Settled up ∧ Takes 18 q25 up ∧ up.link.session = none) ∧
    (Settled s2 ∧ Takes 17 q3 s2 ∧ s2.link.session = some { size := 5, bytes := [9, 9] }) ∧
    (Settled s2 ∧ Takes 18 q25 s2 ∧ s2.link.session = some { size := 5, bytes := [9, 9] }) ∧
    (Settled up ∧ up.commitTag = none) ∧
     (Settled s5 ∧ s5.commitTag = some (cmdOf 5 18 3 0 (Work.commit true)).tag ∧ s5.start.commit =
      CommitState.writing) :=
  ⟨⟨rfl, taken (by decide +kernel)⟩,
   ⟨rfl, taken (by decide +kernel), by decide +kernel⟩,
   ⟨rfl, taken (by decide +kernel), by decide +kernel⟩,
   ⟨rfl, taken (by decide +kernel), by decide +kernel⟩,
   ⟨rfl, taken (by decide +kernel), by decide +kernel⟩,
   ⟨rfl, by decide +kernel⟩,
   ⟨rfl, by decide +kernel⟩⟩

theorem witness_TimeIsReadAndSet :
    (Settled up ∧ Takes 24 q25 up) ∧
     (Settled up ∧ Takes 25 q3 up ∧ (lastDated < getU q3.params 1 6 ∨ 1 ≤ getU q3.params 0 1 ∧ lastCalendar < getU
      q3.params 1 6)) ∧
    (Settled up ∧ Takes 25 q14 up ∧ getU q14.params 0 1 = 1 ∧ getU q14.params 1 6 ≤ lastCalendar) ∧
     (Settled up ∧ Takes 25 q15 up ∧ getU q15.params 0 1 = 2 ∧ getU q15.params 1 6 ≤ lastCalendar ∧ up.backup.halt =
      false ∧ getU q15.params 1 6 ≠ up.sec) ∧
     (Settled s2 ∧ Takes 25 q13 s2 ∧ getU q13.params 0 1 = 0 ∧ getU q13.params 1 6 ≤ lastDated ∧ (s2.backup.halt =
      true ∨ getU q13.params 1 6 = s2.sec)) :=
  ⟨⟨rfl, taken (by decide +kernel)⟩,
   ⟨rfl, taken (by decide +kernel), by decide +kernel⟩,
   ⟨rfl, taken (by decide +kernel), by decide +kernel⟩,
   ⟨rfl, taken (by decide +kernel), by decide +kernel⟩,
   ⟨rfl, taken (by decide +kernel), by decide +kernel⟩⟩

theorem witness_Selftests :
     (Settled up ∧ Takes 64 q19 up ∧ getU q19.params 0 2 / 64 * 64 = 36928 ∧ (begun 64 q19 up).testing (getU
      q19.params 0 2 / 64 * 64) = false) ∧
     (Settled up ∧ Takes 64 q26 up ∧ getU q26.params 0 2 / 64 * 64 = 16448 ∧ (begun 64 q26 up).testing (getU
      q26.params 0 2 / 64 * 64) = false ∧ up.recording.coderOk = true ∧ up.recording.coderTesting = false) ∧
    (Settled up ∧ Takes 64 q30 up ∧ ((begun 64 q30 up).spec (getU q30.params 0 2 / 64 * 64)).access = 0) ∧
    (Settled up ∧ up.command hex5.toNat = none) ∧
     (Settled s6 ∧ Takes 64 q19 s6 ∧ ((begun 64 q19 s6).spec (getU q19.params 0 2 / 64 * 64)).access ≠ 0 ∧ (begun 64
      q19 s6).testing (getU q19.params 0 2 / 64 * 64) = true) ∧
     (Settled s6 ∧ s6.command hex5.toNat = some (cmdOf 5 64 5 0 (Work.selftest 36928 true)) ∧ (cmdOf 5 64 5 0
      (Work.selftest 36928 true)).work = Work.selftest 36928 true ∧ oc1 ≠ 0) ∧
     (Settled s7 ∧ s7.command hex5.toNat = some (cmdOf 5 64 5 0 (Work.selftest 16448 false)) ∧ (cmdOf 5 64 5 0
      (Work.selftest 16448 false)).work = Work.selftest 16448 false) ∧
     (Settled s20 ∧ Takes 64 q26 s20 ∧ getU q26.params 0 2 / 64 * 64 = 16448 ∧ (begun 64 q26 s20).testing (getU
      q26.params 0 2 / 64 * 64) = false ∧ s20.recording.coderOk = false) :=
  ⟨⟨rfl, taken (by decide +kernel), by decide +kernel⟩,
   ⟨rfl, taken (by decide +kernel), by decide +kernel⟩,
   ⟨rfl, taken (by decide +kernel), by decide +kernel⟩,
   ⟨rfl, by decide +kernel⟩,
   ⟨rfl, taken (by decide +kernel), by decide +kernel⟩,
   ⟨rfl, by decide +kernel⟩,
   ⟨rfl, by decide +kernel⟩,
   ⟨rfl, taken (by decide +kernel), by decide +kernel⟩⟩

theorem witness_AbortsAndStarts :
     (Settled up ∧ Takes 65 q1 up ∧ (getU q1.params 0 2 = q1.tag.toNat ∨ (begun 65 q1 up).command (getU q1.params 0
      2) = none)) ∧
    (Settled up ∧ Takes 66 q31 up ∧ (begun 66 q31 up).commitTag = none ∧ up.start.commit ≠ CommitState.writing) ∧
     (Settled s8 ∧ Takes 65 q1 s8 ∧ getU q1.params 0 2 ≠ q1.tag.toNat ∧ (begun 65 q1 s8).command (getU q1.params 0
      2) = some (cmdOf 5 4 5 0 (Work.snapshot [2])) ∧ (cmdOf 5 4 5 0 (Work.snapshot [2])).work = Work.snapshot [2])
      ∧
     (Settled s9 ∧ Takes 65 q1 s9 ∧ getU q1.params 0 2 ≠ q1.tag.toNat ∧ (begun 65 q1 s9).command (getU q1.params 0
      2) = some (cmdOf 5 5 3 0 (Work.latchNow 4 (some 5))) ∧ (cmdOf 5 5 3 0 (Work.latchNow 4 (some 5))).work =
      Work.latchNow 4 (some 5)) ∧
     (Settled s10 ∧ Takes 65 q1 s10 ∧ getU q1.params 0 2 ≠ q1.tag.toNat ∧ (begun 65 q1 s10).command (getU q1.params
      0 2) = some (cmdOf 5 5 3 0 Work.replied) ∧ (cmdOf 5 5 3 0 Work.replied).work = Work.replied) ∧
     (Settled s22 ∧ Takes 65 q1 s22 ∧ getU q1.params 0 2 ≠ q1.tag.toNat ∧ (begun 65 q1 s22).command (getU q1.params
      0 2) = some (cmdOf 5 32 15 0 (Work.archiveRead 2 0 400 1500)) ∧ (cmdOf 5 32 15 0 (Work.archiveRead 2 0 400
      1500)).work = Work.archiveRead 2 0 400 1500) ∧
     (Settled s23 ∧ Takes 65 q1 s23 ∧ getU q1.params 0 2 ≠ q1.tag.toNat ∧ (begun 65 q1 s23).command (getU q1.params
      0 2) = some (cmdOf 5 5 3 0 (Work.latchNow 0 none)) ∧ (cmdOf 5 5 3 0 (Work.latchNow 0 none)).work =
      Work.latchNow 0 none) :=
  ⟨⟨rfl, taken (by decide +kernel), by decide +kernel⟩,
   ⟨rfl, taken (by decide +kernel), by decide +kernel⟩,
   ⟨rfl, taken (by decide +kernel), by decide +kernel⟩,
   ⟨rfl, taken (by decide +kernel), by decide +kernel⟩,
   ⟨rfl, taken (by decide +kernel), by decide +kernel⟩,
   ⟨rfl, taken (by decide +kernel), by decide +kernel⟩,
   ⟨rfl, taken (by decide +kernel), by decide +kernel⟩⟩

theorem witness_EvidenceIsQueuedAndCommitted :
     (Settled s12 ∧ s12.store.closed = false ∧ s12.start.phase = Phase.running ∧ s12.evidence.queue = [ev1] ∧
      s12.evidence.lostNow = 0 ∧ s12.logHasRoom (s12.evidence.newest + 1) = true ∧ s12.power.warning = false ∧
      s12.evidence.safeCommitted = false ∧ ev1.restarts = false ∧ ev1.alarm = false ∧ ev1.recent = none ∧ ev1.backup
      = false ∧ ev1.code ≠ 6 ∧ (s12.evidence.newest + 1) % 64 ≠ 0) ∧
     (Settled s13 ∧ s13.store.closed = false ∧ s13.start.phase = Phase.running ∧ s13.evidence.queue = [ev2, ev1] ∧
      s13.evidence.lostNow = 0 ∧ s13.logHasRoom (s13.evidence.newest + 1) = true ∧ s13.power.warning = false ∧
      s13.evidence.safeCommitted = false ∧ ev2.restarts = false ∧ ev2.alarm = true ∧ ev2.ext = false ∧ ev2.backup =
      false ∧ 1 ≤ ev2.cls ∧ ev2.code < 256) ∧
     (Settled s14 ∧ s14.store.closed = false ∧ s14.start.phase = Phase.running ∧ s14.evidence.queue = [ev3] ∧
      s14.evidence.lostNow = 0 ∧ s14.logHasRoom (s14.evidence.newest + 1) = true ∧ s14.power.warning = false ∧
      s14.evidence.safeCommitted = false ∧ ev3.restarts = true ∧ ev3.ext = false ∧ ([] : List Raised) = []) ∧
    (s16.evidence.raised = [ev3] ∧ ev3.crystal = false ∧ ev3.restarts = true) ∧
    (s17.evidence.raised = [ev4] ∧ ev4.crystal = false ∧ ev4.restarts = false) :=
  ⟨⟨rfl, by decide +kernel⟩,
   ⟨rfl, by decide +kernel⟩,
   ⟨rfl, by decide +kernel⟩,
   by decide +kernel,
   by decide +kernel⟩

theorem witness_LogCommands :
     (Settled up ∧ Takes 56 q22 up ∧ (getU q22.params 0 4 < up.oldestEntry ∨ up.evidence.newest < getU q22.params 0
      4 ∨ getU q22.params 0 4 = 0)) ∧
     (Settled up ∧ Takes 57 q1 up ∧ 1 ≤ List.length q1.params ∧ List.length q1.params ≤ 16 ∧ up.protects 0 = false ∧
      (if up.evidence.appendSec = up.sec then up.evidence.appends else 0) < 8 ∧ up.logHasRoom up.nextEntry = true) ∧
     (Settled up ∧ Takes 2 (writeReq Port.spi tg 36866 (leBytes 2 (BitVec.toNat by1))) up ∧
      up.evidence.latched.getLsbD (BitVec.toNat by1) = false) ∧
    (Settled up ∧ Takes 2 (writeReq Port.spi tg 36866 (leBytes 2 256)) up) ∧
     (Settled s7 ∧ Takes 2 (writeReq Port.spi tg 36866 (leBytes 2 (BitVec.toNat by1))) s7 ∧
      s7.evidence.latched.getLsbD (BitVec.toNat by1) = true) ∧
     (Settled s11 ∧ Takes 56 q22 s11 ∧ s11.oldestEntry ≤ getU q22.params 0 4 ∧ getU q22.params 0 4 ≤
      s11.evidence.newest ∧ 1 ≤ getU q22.params 0 4) ∧
     (Settled s11 ∧ Takes 57 q1 s11 ∧ 1 ≤ List.length q1.params ∧ List.length q1.params ≤ 16 ∧ s11.protects 0 =
      false ∧ (8 ≤ if s11.evidence.appendSec = s11.sec then s11.evidence.appends else 0)) ∧
     (Settled s21 ∧ Takes 57 q1 s21 ∧ 1 ≤ List.length q1.params ∧ List.length q1.params ≤ 16 ∧ s21.protects 0 =
      false ∧ (if s21.evidence.appendSec = s21.sec then s21.evidence.appends else 0) < 8 ∧ s21.logHasRoom
      s21.nextEntry = false) :=
  ⟨⟨rfl, taken (by decide +kernel), by decide +kernel⟩,
   ⟨rfl, taken (by decide +kernel), by decide +kernel⟩,
   ⟨rfl, taken (by decide +kernel), by decide +kernel⟩,
   ⟨rfl, taken (by decide +kernel)⟩,
   ⟨rfl, taken (by decide +kernel), by decide +kernel⟩,
   ⟨rfl, taken (by decide +kernel), by decide +kernel⟩,
   ⟨rfl, taken (by decide +kernel), by decide +kernel⟩,
   ⟨rfl, taken (by decide +kernel), by decide +kernel⟩⟩

theorem witness_PinsReleasesAndPatches :
    (Settled up ∧ Takes 2 (writeReq Port.spi (0#16) 45060 (leBytes 4 u32a.toNat)) up) ∧
    (Settled up ∧ Takes 2 (writeReq Port.spi (0#16) 45062 v264a) up ∧ List.length v264a = 264) ∧
     (Settled s15 ∧ s15.awake = true ∧ s15.archiveGate ≠ some Status.busy ∧ List.find? (fun p => p.asked.isNone &&
      decide (p.time + 30 * tps ≤ s15.ticks)) s15.evidence.pins = some { code := 48, seq := 1, time := 0 } ∧
      s15.evidence.pinHour = s15.sec / 3600 ∧ 16 ≤ s15.evidence.pinsHour) :=
  ⟨⟨rfl, taken (by decide +kernel)⟩,
   ⟨rfl, taken (by decide +kernel), by decide +kernel⟩,
   ⟨rfl, by decide +kernel⟩⟩

theorem witness_FlitsAndLanes :
     (Settled up ∧ 0 < 6 ∧ (up.sense.lanes.getD 0 { }).testing = none ∧ (up.sense.lanes.getD 0 { }).faulty = false ∧
      flitGood 0 fl6.toNat = true ∧ 0 < 4 ∧ (up.sense.lanes.getD 0 { }).aligned = false ∧ field 63 62 fl6.toNat = 2
      ∧ 0 < up.sense.lanes.length) ∧
     (Settled up ∧ 0 < 6 ∧ (up.sense.lanes.getD 0 { }).testing = none ∧ (up.sense.lanes.getD 0 { }).faulty = false ∧
      flitGood 0 fl1.toNat = false ∧ 0 < up.sense.lanes.length) ∧
     (Settled up ∧ 5 < 6 ∧ (up.sense.lanes.getD 5 { }).testing = none ∧ (up.sense.lanes.getD 5 { }).faulty = false ∧
      flitGood 5 fl2.toNat = true ∧ 4 ≤ 5 ∧ (up.sense.lanes.getD 5 { }).aligned = false) ∧
     (Settled a1 ∧ 0 < 6 ∧ (a1.sense.lanes.getD 0 { }).testing = none ∧ (a1.sense.lanes.getD 0 { }).faulty = false ∧
      flitGood 0 fl0.toNat = true ∧ 0 < 4 ∧ (a1.sense.lanes.getD 0 { }).aligned = true ∧ (a1.sense.lanes.getD 0 { }).ninth
      = false ∧ field 63 62 fl0.toNat = 1 ∧ field 61 54 fl0.toNat = (a1.sense.lanes.getD 0 { }).nextSeq) ∧
     (Settled a1 ∧ 0 < 6 ∧ (a1.sense.lanes.getD 0 { }).testing = none ∧ (a1.sense.lanes.getD 0 { }).faulty = false ∧
      flitGood 0 fl6.toNat = true ∧ 0 < 4 ∧ (a1.sense.lanes.getD 0 { }).aligned = true ∧ field 63 62 fl6.toNat = 2 ∧
      0 < a1.sense.lanes.length ∧ ((a1.sense.lanes.getD 0 { }).ninth = false ∨ (a1.sense.lanes.getD 0 { }).nextSeq ≠
      0 ∨ field 53 14 fl6.toNat ≠ ((a1.sense.lanes.getD 0 { }).cycleStrobe + 3) % 2 ^ 40)) ∧
     (Settled a1 ∧ 0 < 6 ∧ (a1.sense.lanes.getD 0 { }).testing = none ∧ (a1.sense.lanes.getD 0 { }).faulty = false ∧
      flitGood 0 fl1.toNat = false ∧ 0 < a1.sense.lanes.length ∧ 0 < 4 ∧ (a1.sense.lanes.getD 0 { }).aligned = true
      ∧ (a1.sense.lanes.getD 0 { }).ninth = false) ∧
     (Settled a2 ∧ 0 < 6 ∧ (a2.sense.lanes.getD 0 { }).testing = none ∧ (a2.sense.lanes.getD 0 { }).faulty = false ∧
      flitGood 0 fl0.toNat = true ∧ 0 < 4 ∧ (a2.sense.lanes.getD 0 { }).aligned = true ∧ (a2.sense.lanes.getD 0 { }).ninth
      = true ∧ (field 63 62 fl0.toNat = 2 → (a2.sense.lanes.getD 0 { }).nextSeq = 0 ∧ field 53 14 fl0.toNat =
      ((a2.sense.lanes.getD 0 { }).cycleStrobe + 3) % 2 ^ 40)) ∧
     (Settled a3 ∧ 0 < 6 ∧ ((a3.sense.lanes.getD 0 { }).testing.isSome = true ∨ (a3.sense.lanes.getD 0 { }).faulty =
      true)) ∧
     (Settled a3 ∧ 0 < 6 ∧ (a3.sense.lanes.getD 0 { }).testing = some 33 ∧ 0 < 4 ∧ a3.sense.channels.length = 60 ∧ 0
      < 14) ∧
    (Settled a3 ∧ 0 < 6 ∧ (a3.sense.lanes.getD 0 { }).testing = some 33 ∧ 0 < 4 ∧ a3.sense.quarters.length = 4) ∧
     (Settled a3 ∧ 5 < 6 ∧ (a3.sense.lanes.getD 5 { }).testing = some 33 ∧ 5 = 5 ∧ a3.sense.quarters.length = 4 ∧ 0
      < 4) :=
  ⟨⟨rfl, by decide +kernel⟩,
   ⟨rfl, by decide +kernel⟩,
   ⟨rfl, by decide +kernel⟩,
   ⟨rfl, by decide +kernel⟩,
   ⟨rfl, by decide +kernel⟩,
   ⟨rfl, by decide +kernel⟩,
   ⟨rfl, by decide +kernel⟩,
   ⟨rfl, by decide +kernel⟩,
   ⟨rfl, by decide +kernel⟩,
   ⟨rfl, by decide +kernel⟩,
   ⟨rfl, by decide +kernel⟩⟩

theorem witness_SwitchesAndSteps :
     (Settled up ∧ flitGood 5 fl2.toNat = true ∧ switchOf fl2.toNat = some ((switchOf fl2.toNat).getD smz) ∧
      (up.sense.lanes.getD 5 { }).faulty = false) ∧
     (Settled up ∧ flitGood 5 fl3.toNat = true ∧ (switchOf fl3.toNat = none ∨ (up.sense.lanes.getD 5 { }).faulty =
      true)) ∧
    (Settled up ∧ flitGood 5 fl0.toNat = false) ∧
    (Settled up ∧ up.sense.connected = false) ∧
     (Settled a1 ∧ a1.sense.connected = true ∧ st1.toNat % 32000 = 0 ∧ (a1.sense.lanes.getD 5 { }).faulty = false ∧
      a1.sense.quarters.length = 4 ∧ a1.sense.slices.length = 60 ∧ 0 < 4 ∧ (a1.sense.quarters.getD 0 { }).stopped =
      false ∧ (a1.sense.quarters.getD 0 { }).rot = Rotation.idle ∧ (a1.sense.slices.getD (0 * 15 + 14) { }).retired
      = false) :=
  ⟨⟨rfl, by decide +kernel⟩,
   ⟨rfl, by decide +kernel⟩,
   ⟨rfl, by decide +kernel⟩,
   ⟨rfl, by decide +kernel⟩,
   ⟨rfl, by decide +kernel⟩⟩

theorem witness_ReferenceMeasurements :
     (Settled a6 ∧ (a6.sense.slices.getD (1 * 15 + 14) { }).meas = some (msr 1) ∧ (msr 1).complete = true ∧
      (a6.sense.quarters.getD 1 { }).rot = Rotation.waderRef 3 ∧ measurementOk (a6.sense.slices.getD (1 * 15 + 14) { })
      (msr 1).coef = true) ∧
    (Settled a6 ∧ (a6.sense.quarters.getD 5 { }).rot.measuring = none) ∧
    (Settled a6 ∧ (a6.sense.quarters.getD 5 { }).rot = Rotation.idle) ∧
    (Settled a8 ∧ (a8.sense.quarters.getD 1 { }).rot = Rotation.twin1 3) ∧
     (Settled a13 ∧ (a13.sense.slices.getD (1 * 15 + 14) { }).meas = some (msr 2) ∧ (msr 2).complete = true ∧
      (a13.sense.quarters.getD 1 { }).rot = Rotation.waderRef 3 ∧ measurementOk (a13.sense.slices.getD (1 * 15 + 14)
      { }) (msr 2).coef = false ∧ a13.bufferBlamed 1 14 (gainDeviation (msr 2).coef.gain) = false) ∧
     (Settled a14 ∧ 3 < 14 ∧ (a14.sense.slices.getD (1 * 15 + 3) { }).meas = some (msr 1) ∧ (msr 1).complete = true
      ∧ (a14.sense.quarters.getD 1 { }).rot = Rotation.homeRef 3 ∧ measurementOk (a14.sense.slices.getD (1 * 15 + 3)
      { }) (msr 1).coef = true) ∧
    (Settled a15 ∧ (a15.sense.quarters.getD 1 { }).rot = Rotation.twin2 3) ∧
     (Settled a18 ∧ 3 < 14 ∧ (a18.sense.slices.getD (1 * 15 + 3) { }).meas = some (msr 2) ∧ (msr 2).complete = true
      ∧ (a18.sense.quarters.getD 1 { }).rot = Rotation.homeRef 3 ∧ measurementOk (a18.sense.slices.getD (1 * 15 + 3)
      { }) (msr 2).coef = false ∧ a18.bufferBlamed 1 3 (gainDeviation (msr 2).coef.gain) = false) :=
  ⟨⟨rfl, by decide +kernel⟩,
   ⟨rfl, by decide +kernel⟩,
   ⟨rfl, by decide +kernel⟩,
   ⟨rfl, by decide +kernel⟩,
   ⟨rfl, by decide +kernel⟩,
   ⟨rfl, by decide +kernel⟩,
   ⟨rfl, by decide +kernel⟩,
   ⟨rfl, by decide +kernel⟩⟩

theorem witness_SliceFaults :
    (Settled up ∧ 0 < 56 ∧ up.sense.clipped 0 = false) ∧
     (Settled up ∧ (up.sense.quarters.getD 0 { }).rot = Rotation.idle ∧ (up.sense.slices.getD (0 * 15 + 0) { }).meas
      = none) ∧
    (Settled up ∧ up.view.chanSensor 0 ≠ 3) ∧
    (Settled a10 ∧ a10.view.chanSensor 0 = 3) ∧
     (Settled a19 ∧ 0 < 4 ∧ 3 < 14 ∧ (a19.sense.quarters.getD 0 { }).rot = Rotation.homeTest 3 ∧ a19.waderFree 0 =
      true ∧ (a19.sense.slices.getD (0 * 15 + 3) { }).meas = some (msr 2) ∧ (msr 2).complete = true ∧ measurementOk
      (a19.sense.slices.getD (0 * 15 + 3) { }) (msr 2).coef = false ∧ a19.bufferBlamed 0 3 (gainDeviation (msr
      2).coef.gain) = false ∧ a19.sense.quarters.length = 4 ∧ a19.sense.slices.length = 60) ∧
     (Settled a20 ∧ 0 < 4 ∧ (a20.sense.quarters.getD 0 { }).rot = Rotation.waderTest 3 ∧ a20.sense.quarters.length =
      4 ∧ a20.sense.channels.length = 60 ∧ a20.sense.slices.length = 60 ∧ (a20.sense.slices.getD (0 * 15 + 14) { }).meas
      = some ms1 ∧ ms1.complete = true ∧ (∀ e ∈ er8, e.natAbs ≤ 20000) ∧ measurementOk (a20.sense.slices.getD (0 *
      15 + 14) { }) ms1.coef = true) ∧
     (Settled a21 ∧ 0 < 56 ∧ a21.sense.clipped 0 = true ∧ (a21.sense.channels.getD 0 { }).clipPass = none ∧
      (a21.sense.channels.getD 0 { }).lost = false ∧ (a21.sense.channels.getD 0 { }).suspect = false ∧
      (a21.sense.slices.getD (sliceOf 0) { }).retired = false ∧ (a21.sense.quarters.getD (quarterOf 0) { }).rot =
      Rotation.idle) ∧
     (Settled a22 ∧ 0 < 56 ∧ a22.sense.clipped 0 = true ∧ (a22.sense.channels.getD 0 { }).clipPass = some 5 ∧
      a22.sense.nextStrobe < 5 + 448000) :=
  ⟨⟨rfl, by decide +kernel⟩,
   ⟨rfl, by decide +kernel⟩,
   ⟨rfl, by decide +kernel⟩,
   ⟨rfl, by decide +kernel⟩,
   ⟨rfl, by decide +kernel⟩,
   ⟨rfl, by decide +kernel⟩,
   ⟨rfl, by decide +kernel⟩,
   ⟨rfl, by decide +kernel⟩⟩

theorem witness_SamplesAreTakenIn :
    (Settled up ∧ (up.sense.rawRows = none ∨ up.power.warning = true)) ∧
     (Settled b0s ∧ b0s.sense.rawRows = some (b0s.sense.rawRows.getD []) ∧ b0s.power.warning = false ∧
      (b0s.sense.connected = false ∨ b0s.sense.nextRaw < b0s.sense.first + 20)) ∧
     (Settled b0s ∧ b0s.sense.rawRows = some (b0s.sense.rawRows.getD []) ∧ b0s.power.warning = false ∧ (senseSample
      (b0s.sense.rawRows.getD []) b0s).sense.nextStrobe = b0s.sense.nextStrobe) ∧
     (Settled b1s ∧ b1s.sense.rawRows = some (b1s.sense.rawRows.getD []) ∧ b1s.power.warning = false ∧
      b1s.sense.connected = true ∧ b1s.sense.first + 20 ≤ b1s.sense.nextRaw) ∧
     (Settled b1s ∧ b1s.sense.rawRows = some (b1s.sense.rawRows.getD []) ∧ b1s.power.warning = false ∧ (senseSample
      (b1s.sense.rawRows.getD []) b1s).sense.nextStrobe ≠ b1s.sense.nextStrobe ∧ (senseSample
      (b1s.sense.rawRows.getD []) b1s).engines.ring.head? = some ((senseSample (b1s.sense.rawRows.getD [])
      b1s).engines.ring.head?.getD rfz)) ∧
     (Settled b1s ∧ b1s.sense.rawRows = some zr ∧ b1s.power.warning = false ∧ (senseSample zr b1s).sense.nextStrobe
      ≠ b1s.sense.nextStrobe ∧ (senseSample zr b1s).engines.ring.head?.isSome = true) :=
  ⟨⟨rfl, by decide +kernel⟩,
   ⟨rfl, by decide +kernel⟩,
   ⟨rfl, by decide +kernel⟩,
   ⟨rfl, by decide +kernel⟩,
   ⟨rfl, by decide +kernel⟩,
   ⟨rfl, by decide +kernel⟩⟩

theorem witness_LineCycleBoundaries :
    (Settled up ∧ 0 < up.billing.buses.length ∧ (up.billing.buses.getD 0 { }).found = []) ∧
     (Settled up ∧ 0 < up.billing.buses.length ∧ (up.holdDue 0 = false ∨ (up.billing.buses.getD 0 { }).validCross =
      none)) ∧
     (Settled up ∧ 0 < up.billing.buses.length ∧ ((up.billing.buses.getD 0 { }).state = FreqState.locked ∨
      (up.billing.buses.getD 0 { }).nextSynth = none)) ∧
     (Settled up ∧ 0 < up.billing.buses.length ∧ (∀ (l : Nat), (up.billing.buses.getD 0 { }).lastBoundary = some l →
      l + (up.billing.buses.getD 0 { }).lastHalf ≤ 100 + 320 * 65536)) ∧
     (Settled c0s ∧ 0 < c0s.billing.buses.length ∧ (c0s.billing.buses.getD 0 { }).found = [(48, 100 + 320 * 65536)]
      ∧ (c0s.billing.buses.getD 0 { }).reference = some 48 ∧ (c0s.billing.buses.getD 0 { }).lastCross = some 100 ∧
      periodValid (100 + 320 * 65536 - 100) = true ∧ (c0s.billing.buses.getD 0 { }).state ≠ FreqState.locked ∧
      ((c0s.billing.buses.getD 0 { }).lastValid = false ∨ (c0s.billing.buses.getD 0 { }).periods.headD 0 < 200 *
      (Int.ofNat (100 + 320 * 65536) - Int.ofNat 100 - Int.ofNat ((c0s.billing.buses.getD 0 { }).periods.headD
      0)).natAbs)) ∧
     (Settled c1s ∧ 0 < c1s.billing.buses.length ∧ (c1s.billing.buses.getD 0 { }).found = [(48, 100 + 320 * 65536),
      (49, 7)] ∧ (c1s.billing.buses.getD 0 { }).reference = some 48 ∧ (c1s.billing.buses.getD 0 { }).lastCross =
      some 100 ∧ 100 ≤ 100 + 320 * 65536 ∧ periodValid (100 + 320 * 65536 - 100) = true ∧ ((c1s.billing.buses.getD 0
      { }).state = FreqState.locked ∨ (c1s.billing.buses.getD 0 { }).lastValid = true ∧ 200 * (Int.ofNat (100 + 320
      * 65536) - Int.ofNat 100 - Int.ofNat ((c1s.billing.buses.getD 0 { }).periods.headD 0)).natAbs ≤
      (c1s.billing.buses.getD 0 { }).periods.headD 0)) ∧
     (Settled c2s ∧ 0 < c2s.billing.buses.length ∧ (c2s.billing.buses.getD 0 { }).lastBoundary = some 5 ∧ 0 < 5 +
      (c2s.billing.buses.getD 0 { }).lastHalf) ∧
     (Settled c3s ∧ 0 < c3s.billing.buses.length ∧ (c3s.billing.buses.getD 0 { }).state ≠ FreqState.locked ∧
      (c3s.billing.buses.getD 0 { }).nextSynth = some 55555 ∧ 55555 ≤ c3s.liveInstant) ∧
     (Settled c4s ∧ 0 < c4s.billing.buses.length ∧ (c4s.billing.buses.getD 0 { }).state ≠ FreqState.locked ∧
      (c4s.billing.buses.getD 0 { }).nextSynth = some (65536 * 3000) ∧ c4s.liveInstant < 65536 * 3000) ∧
     (Settled c5s ∧ 0 < c5s.billing.buses.length ∧ (c5s.billing.buses.getD 0 { }).found = [(48, 101)] ∧
      (c5s.billing.buses.getD 0 { }).reference = some 48 ∧ (c5s.billing.buses.getD 0 { }).lastCross = some 100 ∧
      periodValid (101 - 100) = false ∧ (c5s.billing.buses.getD 0 { }).state = FreqState.locked) ∧
     (Settled c6s ∧ 0 < c6s.billing.buses.length ∧ (c6s.billing.buses.getD 0 { }).found = [(48, 101)] ∧
      (c6s.billing.buses.getD 0 { }).reference = some 48 ∧ (c6s.billing.buses.getD 0 { }).lastCross = some 100 ∧
      periodValid (101 - 100) = false ∧ (c6s.billing.buses.getD 0 { }).state ≠ FreqState.locked) ∧
     (Settled c7s ∧ 0 < c7s.billing.buses.length ∧ c7s.holdDue 0 = true ∧ (c7s.billing.buses.getD 0 { }).validCross
      = some 100 ∧ 100 + 3 * periodOf (c7s.billing.buses.getD 0 { }).freq ≤ c7s.liveInstant) ∧
     (Settled c8s ∧ 0 < c8s.billing.buses.length ∧ c8s.holdDue 0 = true ∧ (c8s.billing.buses.getD 0 { }).validCross
      = some 100 ∧ 100 + 2 * periodOf (c8s.billing.buses.getD 0 { }).freq ≤ c8s.liveInstant ∧ (¬100 + 3 * periodOf
      (c8s.billing.buses.getD 0 { }).freq ≤ c8s.liveInstant)) ∧
     (Settled c9s ∧ 0 < c9s.billing.buses.length ∧ c9s.holdDue 0 = true ∧ (c9s.billing.buses.getD 0 { }).validCross
      = some 100 ∧ 100 + 1 * periodOf (c9s.billing.buses.getD 0 { }).freq ≤ c9s.liveInstant ∧ (¬100 + 2 * periodOf
      (c9s.billing.buses.getD 0 { }).freq ≤ c9s.liveInstant)) ∧
     (Settled c10s ∧ 0 < c10s.billing.buses.length ∧ c10s.holdDue 0 = true ∧ (c10s.billing.buses.getD 0 { }).validCross
      = some 100 ∧ (¬100 + 1 * periodOf (c10s.billing.buses.getD 0 { }).freq ≤ c10s.liveInstant)) :=
  ⟨⟨rfl, by decide +kernel⟩,
   ⟨rfl, by decide +kernel⟩,
   ⟨rfl, by decide +kernel⟩,
   ⟨rfl, by decide +kernel, (fun l h => nomatch (show (none : Option Nat) = some l from h))⟩,
   ⟨rfl, by decide +kernel⟩,
   ⟨rfl, by decide +kernel⟩,
   ⟨rfl, by decide +kernel⟩,
   ⟨rfl, by decide +kernel⟩,
   ⟨rfl, by decide +kernel⟩,
   ⟨rfl, by decide +kernel⟩,
   ⟨rfl, by decide +kernel⟩,
   ⟨rfl, by decide +kernel⟩,
   ⟨rfl, by decide +kernel⟩,
   ⟨rfl, by decide +kernel⟩,
   ⟨rfl, by decide +kernel⟩⟩

theorem witness_LatchesAreFixedAndPublished :
     (Settled up ∧ (up.billing.latch.fresh = [] ∨ up.billing.latch.cycles + up.billing.latch.fresh.length <
      up.paceView.latchN) ∧ (∀ y ∈ up.billing.latch.fresh, y.forced = false)) ∧
     (Settled l1s ∧ l1s.billing.latch.fresh = [] ++ [pm false] ∧ (∀ y ∈ ([] : List PaceMark), y.forced = false) ∧
      (([] : List PaceMark) = [] ∨ l1s.billing.latch.cycles + ([] : List PaceMark).length < l1s.paceView.latchN) ∧
      (l1s.paceView.latchN ≤ l1s.billing.latch.cycles + ([] : List PaceMark).length + 1 ∨ (pm false).forced = true)
      ∧ (∀ y ∈ l1s.start.pending, (pm false).b ≤ y.strobe) ∧ (∀ c ∈ l1s.sense.channels, ∀ w ∈ c.writes, (pm false).b
      ≤ w.strobe)) ∧
    (Settled up ∧ (up.reckoningStopped = true ∨ up.billing.latch.captured = [])) ∧
     (Settled l4s ∧ l4s.reckoningStopped = false ∧ l4s.billing.latch.captured = [cap1, cap1] ∧ l4s.engines.floor =
      none) :=
  ⟨⟨rfl, by decide +kernel⟩,
   ⟨rfl, by decide +kernel⟩,
   ⟨rfl, by decide +kernel⟩,
   ⟨rfl, by decide +kernel⟩⟩

theorem witness_PulsesBeginAndEnd :
     (Settled up ∧ up.sluiceOpen = true ∧ (up.sluice.pulses.getD 0 { }).pulse = false ∧ (up.sluice.pulses.getD 0 { }).notBefore
      ≤ 0 ∧ (up.sluice.pulses.getD 0 { }).tail = [] ∧ (up.billing.pulses.getD 0 { }).due = []) ∧
     (Settled p1s ∧ p1s.sluiceOpen = true ∧ (p1s.sluice.pulses.getD 0 { }).pulse = false ∧ (p1s.sluice.pulses.getD 0
      { }).notBefore ≤ 0 ∧ (p1s.sluice.pulses.getD 0 { }).tail = [7, 9]) ∧
    (Settled p2s ∧ (p2s.sluice.pulses.getD 0 { }).pulse = true) ∧
     (Settled p3s ∧ p3s.sluiceOpen = true ∧ (p3s.sluice.pulses.getD 0 { }).pulse = false ∧ (p3s.sluice.pulses.getD 0
      { }).notBefore ≤ 0 ∧ (p3s.sluice.pulses.getD 0 { }).tail = [] ∧ (p3s.billing.pulses.getD 0 { }).due = [10, 20]
      ∧ (0 < 10 ∨ p3s.view.poQty 0 = 0)) ∧
     (Settled p3s ∧ p3s.sluiceOpen = true ∧ (p3s.sluice.pulses.getD 0 { }).pulse = false ∧ (p3s.sluice.pulses.getD 0
      { }).notBefore ≤ 40 ∧ (p3s.sluice.pulses.getD 0 { }).tail = [] ∧ (p3s.billing.pulses.getD 0 { }).due = [10,
      20] ∧ 10 ≤ 40 ∧ p3s.view.poQty 0 ≠ 0 ∧ (p3s.sluice.pulses.getD 0 { }).lastBegun < (p3s.billing.pulses.getD 0 { }).converted
      - BitVec.ofNat 64 [20].length) ∧
     (Settled p4s ∧ p4s.sluiceOpen = true ∧ (p4s.sluice.pulses.getD 0 { }).pulse = false ∧ (p4s.sluice.pulses.getD 0
      { }).notBefore ≤ 40 ∧ (p4s.sluice.pulses.getD 0 { }).tail = [] ∧ (p4s.billing.pulses.getD 0 { }).due = [10,
      20] ∧ 10 ≤ 40 ∧ p4s.view.poQty 0 ≠ 0 ∧ (p4s.billing.pulses.getD 0 { }).converted - BitVec.ofNat 64 [20].length
      ≤ (p4s.sluice.pulses.getD 0 { }).lastBegun) :=
  ⟨⟨rfl, by decide +kernel⟩,
   ⟨rfl, by decide +kernel⟩,
   ⟨rfl, by decide +kernel⟩,
   ⟨rfl, by decide +kernel⟩,
   ⟨rfl, by decide +kernel⟩,
   ⟨rfl, by decide +kernel⟩⟩

theorem witness_RelaysOperate :
     (Settled up ∧ 0 < 2 ∧ up.start.heldMask = 0 ∧ (up.sluice.pairs.getD 0 { }).level = false ∧ Takes 2 (writeReq
      Port.spi tg (idx 3 (8 + 2 * 0) 2) (leBytes 4 (1 * 2 ^ 24))) up) ∧
     (Settled up ∧ 0 < 2 ∧ up.start.heldMask = 0 ∧ (up.sluice.pairs.getD 0 { }).level = false ∧ Takes 2 (writeReq
      Port.spi tg (idx 3 (8 + 2 * 0) 2) (leBytes 4 (2 * 2 ^ 24))) up) ∧
     (Settled up ∧ 0 < 2 ∧ up.start.heldMask = 0 ∧ (up.sluice.pairs.getD 0 { }).level = false ∧ Takes 2 (writeReq
      Port.spi tg (idx 3 (8 + 2 * 0) 2) (leBytes 4 (3 * 2 ^ 24))) up) ∧
     (Settled up ∧ 0 < 2 ∧ up.start.heldMask = 0 ∧ (up.sluice.pairs.getD 0 { }).level = false ∧ Takes 2 (writeReq
      Port.spi tg (idx 3 (8 + 2 * 0) 2) (leBytes 4 (4 * 2 ^ 24))) up) ∧
     (Settled up ∧ 0 < 2 ∧ up.start.heldMask = 0 ∧ (up.sluice.pairs.getD 0 { }).level = false ∧ Takes 2 (writeReq
      Port.spi tg (idx 3 (8 + (2 * 0 + 1)) 2) (leBytes 4 (1 * 2 ^ 24))) up) ∧
     (Settled up ∧ 0 < up.sluice.pairs.length ∧ up.held 0 = false ∧ up.sluiceOpen = true ∧ (up.sluice.pairs.getD 0 { }).level
      = false ∧ (up.sluice.pairs.getD 0 { }).coil = none ∧ (up.sluice.pairs.getD 0 { }).guarding = false ∧
      (up.sluice.pairs.getD 0 { }).pendingCmd = none) ∧
     (Settled r1s ∧ 0 < r1s.sluice.pairs.length ∧ r1s.held 0 = false ∧ r1s.sluiceOpen = true ∧
      (r1s.sluice.pairs.getD 0 { }).level = false ∧ ((r1s.sluice.pairs.getD 0 { }).coil ≠ none ∨
      (r1s.sluice.pairs.getD 0 { }).guarding = true)) ∧
     (Settled r1s ∧ (r1s.sluice.pairs.getD 0 { }).coil = some RelayCmd.toClose ∧ (r1s.sluice.pairs.getD 0 { }).newLevel
      = none) ∧
     (Settled r2s ∧ (r2s.sluice.pairs.getD 0 { }).guarding = true ∧ (r2s.sluice.pairs.getD 0 { }).until_ ≤
      r2s.micros ∧ 0 < r2s.sluice.pairs.length ∧ (r2s.sluice.pairs.getD 0 { }).pendingCmd = some (RelayCmd.toOpen,
      RelaySource.limit) ∧ (r2s.sluice.pairs.getD 0 { }).coil = none ∧ r2s.sluiceOpen = true) ∧
     (Settled r3s ∧ (r3s.sluice.pairs.getD 0 { }).guarding = true ∧ (r3s.sluice.pairs.getD 0 { }).until_ ≤
      r3s.micros ∧ 0 < r3s.sluice.pairs.length ∧ ((r3s.sluice.pairs.getD 0 { }).pendingCmd = none ∨
      (r3s.sluice.pairs.getD 0 { }).coil ≠ none ∨ r3s.sluiceOpen = false)) ∧
     (Settled r4s ∧ 0 < 2 ∧ r4s.start.heldMask = 0 ∧ (r4s.sluice.pairs.getD 0 { }).level = true ∧ 0 / 2 = 0 ∧ Takes
      2 (writeReq Port.spi tg (idx 3 (8 + 0) 2) (leBytes 4 (3 * 2 ^ 24))) r4s) ∧
     (Settled r4s ∧ 0 < 2 ∧ r4s.start.heldMask = 0 ∧ (r4s.sluice.pairs.getD 0 { }).level = true ∧ 0 / 2 = 0 ∧ Takes
      2 (writeReq Port.spi tg (idx 3 (8 + 0) 2) (leBytes 4 (4 * 2 ^ 24))) r4s) ∧
     (Settled r4s ∧ 0 < 2 ∧ r4s.start.heldMask = 0 ∧ (r4s.sluice.pairs.getD 0 { }).level = true ∧ 0 / 2 = 0 ∧ Takes
      2 (writeReq Port.spi tg (idx 3 (8 + 0) 2) (leBytes 4 (1 * 2 ^ 24))) r4s) ∧
     (Settled r4s ∧ 0 < 2 ∧ r4s.start.heldMask = 0 ∧ (r4s.sluice.pairs.getD 0 { }).level = true ∧ 0 / 2 = 0 ∧ Takes
      2 (writeReq Port.spi tg (idx 3 (8 + 0) 2) (leBytes 4 (2 * 2 ^ 24))) r4s) ∧
     (Settled r4s ∧ 0 < r4s.sluice.pairs.length ∧ r4s.held 0 = false ∧ r4s.sluiceOpen = true ∧
      (r4s.sluice.pairs.getD 0 { }).level = true) :=
  ⟨⟨rfl, by decide +kernel, by decide +kernel, by decide +kernel, taken (by decide +kernel)⟩,
   ⟨rfl, by decide +kernel, by decide +kernel, by decide +kernel, taken (by decide +kernel)⟩,
   ⟨rfl, by decide +kernel, by decide +kernel, by decide +kernel, taken (by decide +kernel)⟩,
   ⟨rfl, by decide +kernel, by decide +kernel, by decide +kernel, taken (by decide +kernel)⟩,
   ⟨rfl, by decide +kernel, by decide +kernel, by decide +kernel, taken (by decide +kernel)⟩,
   ⟨rfl, by decide +kernel⟩,
   ⟨rfl, by decide +kernel⟩,
   ⟨rfl, by decide +kernel⟩,
   ⟨rfl, by decide +kernel⟩,
   ⟨rfl, by decide +kernel⟩,
   ⟨rfl, by decide +kernel, by decide +kernel, by decide +kernel, by decide +kernel, taken (by decide +kernel)⟩,
   ⟨rfl, by decide +kernel, by decide +kernel, by decide +kernel, by decide +kernel, taken (by decide +kernel)⟩,
   ⟨rfl, by decide +kernel, by decide +kernel, by decide +kernel, by decide +kernel, taken (by decide +kernel)⟩,
   ⟨rfl, by decide +kernel, by decide +kernel, by decide +kernel, by decide +kernel, taken (by decide +kernel)⟩,
   ⟨rfl, by decide +kernel⟩⟩

theorem witness_DemandIsFormed :
    (Settled up ∧ (∀ n < 16, (up.billing.services.getD n { }).demand.formed = [])) ∧
     (Settled up ∧ 0 < 16 ∧ Takes 2 (writeReq Port.spi w1b (idx 2 0 15) (leBytes 2 w1b.toNat)) up ∧ w1b = 19794 ∧
      up.billing.services.length = 16 ∧ 3 ≠ 0) ∧
    (Settled up ∧ 0 < 16 ∧ Takes 2 (writeReq Port.spi w1b (idx 2 0 15) (leBytes 2 w2b.toNat)) up ∧ w2b ≠ 19794) ∧
     (Settled dm1 ∧ 3 < 16 ∧ dm1.billing.services.length = 16 ∧ (dm1.billing.services.getD 3 { }).demand.formed =
      [(60, { values := [1, 2, 3, 4], endSec := 9 })] ∧ (∀ k < 16, k ≠ 3 → (dm1.billing.services.getD k { }).demand.formed
      = []) ∧ (∀ c ∈ dm1.billing.latch.captured, 60 < c.boundary.b) ∧ 0 < 4) ∧
     (Settled dm1 ∧ 3 < 16 ∧ dm1.billing.services.length = 16 ∧ (dm1.billing.services.getD 3 { }).demand.formed =
      [(60, { values := [1, 2, 3, 4], endSec := 9 })] ∧ (∀ k < 16, k ≠ 3 → (dm1.billing.services.getD k { }).demand.formed
      = []) ∧ (∀ c ∈ dm1.billing.latch.captured, 60 < c.boundary.b) ∧ (dm1.overLimit 3 { values := [1, 2, 3, 4], endSec := 9 }
      && !(dm1.billing.services.getD 3 { }).demand.inRun) = false) ∧
     (Settled dm2 ∧ 3 < 16 ∧ dm2.billing.services.length = 16 ∧ (dm2.billing.services.getD 3 { }).demand.formed =
      [(60, { values := [10 ^ 8, 2, 3, 4], endSec := 9 })] ∧ (∀ k < 16, k ≠ 3 → (dm2.billing.services.getD k { }).demand.formed
      = []) ∧ (∀ c ∈ dm2.billing.latch.captured, 60 < c.boundary.b) ∧ (dm2.overLimit 3 { values := [10 ^ 8, 2, 3, 4], endSec := 9 }
      && !(dm2.billing.services.getD 3 { }).demand.inRun) = true) ∧
     (Settled dm3 ∧ 3 < 16 ∧ dm3.billing.services.length = 16 ∧ (dm3.billing.services.getD 3 { }).demand.formed =
      [(60, { })] ∧ (∀ k < 16, k ≠ 3 → (dm3.billing.services.getD k { }).demand.formed = []) ∧ (∃ c ∈
      dm3.billing.latch.captured, c.boundary.b ≤ 60)) :=
  ⟨⟨rfl, by decide +kernel⟩,
   ⟨rfl, by decide +kernel, taken (by decide +kernel), by decide +kernel⟩,
   ⟨rfl, by decide +kernel, taken (by decide +kernel), by decide +kernel⟩,
   ⟨rfl, by decide +kernel⟩,
   ⟨rfl, by decide +kernel⟩,
   ⟨rfl, by decide +kernel⟩,
   ⟨rfl, by decide +kernel⟩⟩

theorem witness_CalibrationIsWritten :
     (Settled up ∧ 3 < 56 ∧ 3 ≤ 3 ∧ 3 ≤ 5 ∧ Takes 2 (writeReq Port.spi tg (idx 1 3 3) (leBytes 4 cb1.toNat)) up ∧
      up.protects 393216 = false ∧ (if 3 = 3 then 2 ^ 29 ≤ cb1.toNat ∧ cb1.toNat ≤ 2 ^ 31 else if 3 = 4 then -2 ^ 25
      ≤ cb1.toInt ∧ cb1.toInt ≤ 2 ^ 25 else -2 ^ 22 ≤ cb1.toInt ∧ cb1.toInt ≤ 2 ^ 22)) ∧
     (Settled up ∧ 3 < 56 ∧ 3 ≤ 3 ∧ 3 ≤ 5 ∧ Takes 2 (writeReq Port.spi tg (idx 1 3 3) (leBytes 4 cb2.toNat)) up ∧
      up.protects 393216 = false ∧ (¬if 3 = 3 then 2 ^ 29 ≤ cb2.toNat ∧ cb2.toNat ≤ 2 ^ 31 else if 3 = 4 then -2 ^
      25 ≤ cb2.toInt ∧ cb2.toInt ≤ 2 ^ 25 else -2 ^ 22 ≤ cb2.toInt ∧ cb2.toInt ≤ 2 ^ 22)) ∧
     (Settled cs1 ∧ 3 < 56 ∧ 3 ≤ 3 ∧ 3 ≤ 5 ∧ Takes 2 (writeReq Port.spi tg (idx 1 3 3) (leBytes 4 cb1.toNat)) cs1 ∧
      cs1.protects 393216 = true) :=
  ⟨⟨rfl, by decide +kernel, by decide +kernel, by decide +kernel, taken (by decide +kernel), by decide +kernel⟩,
   ⟨rfl, by decide +kernel, by decide +kernel, by decide +kernel, taken (by decide +kernel), by decide +kernel⟩,
   ⟨rfl, by decide +kernel, by decide +kernel, by decide +kernel, taken (by decide +kernel), by decide +kernel⟩⟩

theorem witness_AnalysisIntervalsEnd :
    (Settled up ∧ (up.xa.buses.getD 0 { }).ended = []) ∧
    (Settled up ∧ 0 < 48) ∧
    (Settled up ∧ 0 < up.xa.channels.length ∧ (up.xa.channels.getD 0 { }).closed = []) ∧
    (Settled up ∧ up.archiveGate = some Status.busy) ∧
    (Settled up ∧ List.find? (fun p => decide (p.due ≤ up.ticks)) up.xa.pins = none ∧ up.longEvent = none) ∧
    (Settled ga0 ∧ (ga0.xa.buses.getD 0 { }).ended = [wn, wn] ∧ ga0.windowHeld 0 wn = false) ∧
     (Settled ga1 ∧ 1 < ga1.xa.buses.length ∧ (ga1.xa.buses.getD 1 { }).ended = [wn, wn] ∧ ga1.windowHeld 1 wn =
      true ∧ ga1.xa.channels.length = 56 ∧ 0 < 56) ∧
     (Settled gh1 ∧ 0 < 8 ∧ gh1.view.chanOn (48 + 0) = true ∧ gh1.view.watched 0 = true ∧ gh1.xa.suspended = false ∧
      gh1.part.fitXa = true ∧ 0 < gh1.xa.watched.length ∧ (gh1.xa.watched.getD 0 { }).halves = [65536 * 2, 65536 * 5
      + 100, 65536 * 8 + 5, 65536 * 11] ∧ Option.any (fun f => decide (65536 * 8 + 5 ≤ f.strobe * 65536 + 65536))
      gh1.engines.ring.head? = true ∧ (gh1.ringSpan (65536 * 2 / 65536) ((65536 * 8 + 5 + 65535) / 65536)).length =
      (65536 * 8 + 5 + 65535) / 65536 - 65536 * 2 / 65536) ∧
     (Settled gh2 ∧ 0 < 8 ∧ gh2.view.chanOn (48 + 0) = true ∧ gh2.view.watched 0 = true ∧ gh2.xa.suspended = false ∧
      gh2.part.fitXa = true ∧ 0 < gh2.xa.watched.length ∧ (gh2.xa.watched.getD 0 { }).halves = [65536 * 2, 65536 * 5
      + 100, 65536 * 8 + 5, 65536 * 11] ∧ Option.any (fun f => decide (65536 * 8 + 5 ≤ f.strobe * 65536 + 65536))
      gh2.engines.ring.head? = false) ∧
     (Settled gh3 ∧ 0 < 8 ∧ gh3.view.chanOn (48 + 0) = true ∧ gh3.view.watched 0 = true ∧ gh3.xa.suspended = false ∧
      gh3.part.fitXa = true ∧ 0 < gh3.xa.watched.length ∧ (gh3.xa.watched.getD 0 { }).halves = [65536 * 2, 65536 * 5
      + 100, 65536 * 8 + 5, 65536 * 11] ∧ Option.any (fun f => decide (65536 * 8 + 5 ≤ f.strobe * 65536 + 65536))
      gh3.engines.ring.head? = true ∧ (gh3.ringSpan (65536 * 2 / 65536) ((65536 * 8 + 5 + 65535) / 65536)).length ≠
      (65536 * 8 + 5 + 65535) / 65536 - 65536 * 2 / 65536) ∧
     (Settled ga2 ∧ 0 < ga2.xa.channels.length ∧ (ga2.xa.channels.getD 0 { }).closed = [psc false, psc true] ∧
      ga2.judgedTo (ga2.view.busOf (0 - 48)) ((psc false).strobe * 65536) = true ∧ (psc false).long = false) ∧
     (Settled ga3 ∧ 0 < ga3.xa.channels.length ∧ (ga3.xa.channels.getD 0 { }).closed = [psc true] ∧ ga3.judgedTo
      (ga3.view.busOf (0 - 48)) ((psc true).strobe * 65536) = true ∧ (psc true).long = true) ∧
     (Settled ga5 ∧ ga5.archiveGate ≠ some Status.busy ∧ List.find? (fun p => decide (p.due ≤ ga5.ticks))
      ga5.xa.pins = some ((List.find? (fun p => decide (p.due ≤ ga5.ticks)) ga5.xa.pins).getD pinz) ∧ 32 ≤
      ga5.pinsThisHour) ∧
     (Settled ga8 ∧ 0 < ga8.xa.channels.length ∧ (ga8.xa.channels.getD 0 { }).closed = [psc false] ∧ ga8.judgedTo
      (ga8.view.busOf (0 - 48)) ((psc false).strobe * 65536) = false) ∧
     (Settled ga4 ∧ ga4.archiveGate ≠ some .busy ∧ ga4.xa.pins.find? (fun p => decide (p.due ≤ ga4.ticks)) = some
      pinr ∧ ga4.pinsThisHour < 32 ∧ ga4.archiveGate = some .wrongState) ∧
     (Settled ga10 ∧ ga10.archiveGate = none ∧ ga10.xa.pins.find? (fun p => decide (p.due ≤ ga10.ticks)) = some pinr
      ∧ ga10.pinsThisHour < 32 ∧ State.overlapping { ga10 with xa.pins := ga10.xa.pins.erase pinr } 5 9 = [9] ∧
      ga10.archive.pins.length < 1024 ∧ ga10.pinFits [9] = true) ∧
     (Settled ga9 ∧ ga9.archiveGate ≠ some .busy ∧ ga9.xa.pins.find? (fun p => decide (p.due ≤ ga9.ticks)) = none ∧
      (∃ b e, ga9.longEvent = some (b, e))) :=
  ⟨⟨rfl, by decide +kernel⟩,
   ⟨rfl, by decide +kernel⟩,
   ⟨rfl, by decide +kernel⟩,
   ⟨rfl, by decide +kernel⟩,
   ⟨rfl, by decide +kernel⟩,
   ⟨rfl, by decide +kernel⟩,
   ⟨rfl, by decide +kernel⟩,
   ⟨rfl, by decide +kernel⟩,
   ⟨rfl, by decide +kernel⟩,
   ⟨rfl, by decide +kernel⟩,
   ⟨rfl, by decide +kernel⟩,
   ⟨rfl, by decide +kernel⟩,
   ⟨rfl, by decide +kernel⟩,
   ⟨rfl, by decide +kernel⟩,
   ⟨rfl, by decide +kernel⟩,
   ⟨rfl, by decide +kernel⟩,
   ⟨rfl, by decide +kernel, by decide +kernel, 0, _, rfl⟩⟩

theorem witness_RecordsAreWritten :
    (Settled up ∧ up.recordingOn = false) ∧
    (Settled up ∧ up.recording.segment = none) ∧
    (Settled up ∧ up.recording.coderTesting = false) ∧
    (Settled up ∧ (up.sense.connected = false ∨ up.held 2 = true)) ∧
    (Settled up ∧ (up.billing.profileClosed = [] ∨ up.sluice.hold = true)) ∧
     (Settled gb0 ∧ gb0.recordingOn = true ∧ (∀ (l : Nat), gb0.lastAligned = some l → l ≤ gb0.sec / 10 * 10 * 32768)
      ∧ gb0.recording.cuts = [] ∧ gb0.settledTo ((evenUp (gb0.strobeOfSecond (gb0.sec / 10 * 10))) - 1) = false) ∧
    (Settled gb0 ∧ gb0.sense.connected = true ∧ gb0.held 2 = false) ∧
     (Settled gb1 ∧ gb1.recordingOn = true ∧ (∀ (l : Nat), gb1.lastAligned = some l → l ≤ gb1.sec / 10 * 10 * 32768)
      ∧ gb1.recording.cuts = [] ∧ gb1.recording.segment = some seg0 ∧ seg0.dropped = false ∧ seg0.codedTo (evenUp
      (gb1.strobeOfSecond (gb1.sec / 10 * 10))) = false) ∧
    (Settled gb1 ∧ gb1.recording.segment = some seg0 ∧ seg0.nextChannel ≠ some 1) ∧
    (Settled gb2 ∧ gb2.lastAligned = some seg1.alignedEnd ∧ gb2.sec / 10 * 10 * 32768 < seg1.alignedEnd) ∧
    (Settled gb3 ∧ gb3.recording.coderTesting = true) ∧
    (Settled gb5 ∧ gb5.billing.profileClosed = [pc0, pc0] ∧ gb5.sluice.hold = false) ∧
     (Settled gb6 ∧ gb6.recordingOn = true ∧ (∀ (l : Nat), gb6.lastAligned = some l → l ≤ gb6.sec / 10 * 10 * 32768)
      ∧ gb6.recording.cuts = [] ∧ gb6.settledTo ((evenUp (gb6.strobeOfSecond (gb6.sec / 10 * 10))) - 1) = true ∧ (∀
      (g : Segment), gb6.recording.segment = some g → g.dropped = true ∨ g.codedTo (evenUp (gb6.strobeOfSecond
      (gb6.sec / 10 * 10))) = true)) ∧
    (Settled gb2 ∧ gb2.lastAligned = some (40 * 32768) ∧ gb2.sec / 10 * 10 * 32768 < 40 * 32768) ∧
     (Settled gb2 ∧ gb2.recording.segment = some seg1 ∧ seg1.dropped = false ∧ seg1.nextChannel = some 0 ∧
      gb2.power.warning = false ∧ gb2.nextBlock seg1 0 = some (4, 256) ∧ gb2.recording.cuts = [] ∧ 0 <
      seg1.channels.length) ∧
     (Settled gb9 ∧ gb9.recording.segment = some seg0 ∧ seg0.dropped = false ∧ seg0.nextChannel = some 0 ∧
      gb9.power.warning = false ∧ gb9.nextBlock seg0 0 = some (4, 100) ∧ gb9.recording.cuts ≠ []) :=
  ⟨⟨rfl, by decide +kernel⟩,
   ⟨rfl, by decide +kernel⟩,
   ⟨rfl, by decide +kernel⟩,
   ⟨rfl, by decide +kernel⟩,
   ⟨rfl, by decide +kernel⟩,
   ⟨rfl, by decide +kernel, (fun l h => nomatch (show (none : Option Nat) = some l from h)), by decide +kernel⟩,
   ⟨rfl, by decide +kernel⟩,
    ⟨rfl, by decide +kernel, (fun l h => by rw [← Option.some.inj (show some 327680 = some l from h)]; decide), by
     decide +kernel⟩,
   ⟨rfl, by decide +kernel⟩,
   ⟨rfl, by decide +kernel⟩,
   ⟨rfl, by decide +kernel⟩,
   ⟨rfl, by decide +kernel⟩,
    ⟨rfl, by decide +kernel, (fun l h => nomatch (show (none : Option Nat) = some l from h)), by decide +kernel,
     by decide +kernel, (fun g h => nomatch (show (none : Option Segment) = some g from h))⟩,
   ⟨rfl, by decide +kernel⟩,
   ⟨rfl, by decide +kernel⟩,
   ⟨rfl, by decide +kernel⟩⟩

theorem witness_ArchiveMounts :
    (Settled up ∧ up.archive.state ≠ ArchiveState.mounting) ∧
    (Settled up ∧ up.archive.state ≠ ArchiveState.scan1) ∧
    (Settled up ∧ up.archive.state ≠ ArchiveState.scan2) ∧
    (Settled up ∧ up.archive.state ≠ ArchiveState.formatting) ∧
     (Settled up ∧ heldIn up.start.heldMask.toNat 16386 = false ∧ Takes 2 (writeReq Port.spi tg 16386 (leBytes 2
      17997)) up ∧ (up.archive.state.busy = true ∨ up.archive.count = 0)) ∧
     (Settled up ∧ heldIn up.start.heldMask.toNat 16386 = false ∧ Takes 2 (writeReq Port.spi tg 16386 (leBytes 2
      19796)) up ∧ up.archive.state.busy = true) ∧
    (Settled m1s ∧ m1s.archive.state = ArchiveState.mounting) ∧
    (Settled m2s ∧ m2s.archive.state = ArchiveState.scan1) ∧
    (Settled m3s ∧ m3s.archive.state = ArchiveState.scan2) ∧
    (Settled m4s ∧ m4s.archive.state = ArchiveState.formatting ∧ m4s.archive.mismatched = false) ∧
     (Settled m5s ∧ heldIn m5s.start.heldMask.toNat 16386 = false ∧ Takes 2 (writeReq Port.spi tg 16386 (leBytes 2
      17997)) m5s ∧ m5s.archive.state.busy = false ∧ m5s.archive.count ≠ 0) ∧
     (Settled m5s ∧ heldIn m5s.start.heldMask.toNat 16386 = false ∧ Takes 2 (writeReq Port.spi tg 16386 (leBytes 2
      19796)) m5s ∧ m5s.archive.state.busy = false) ∧
    (Settled m7s ∧ m7s.archive.state = ArchiveState.formatting ∧ m7s.archive.mismatched = true) :=
  ⟨⟨rfl, by decide +kernel⟩,
   ⟨rfl, by decide +kernel⟩,
   ⟨rfl, by decide +kernel⟩,
   ⟨rfl, by decide +kernel⟩,
   ⟨rfl, by decide +kernel, taken (by decide +kernel), by decide +kernel⟩,
   ⟨rfl, by decide +kernel, taken (by decide +kernel), by decide +kernel⟩,
   ⟨rfl, by decide +kernel⟩,
   ⟨rfl, by decide +kernel⟩,
   ⟨rfl, by decide +kernel⟩,
   ⟨rfl, by decide +kernel⟩,
   ⟨rfl, by decide +kernel, taken (by decide +kernel), by decide +kernel⟩,
   ⟨rfl, by decide +kernel, taken (by decide +kernel), by decide +kernel⟩,
   ⟨rfl, by decide +kernel⟩⟩

theorem witness_FlashWorks :
    (Settled m5s ∧ m5s.archive.offered = []) ∧
    (Settled m5s ∧ m5s.xa.asked = [] ∧ m5s.evidence.pins = [] ∧ (m5s.archive.devices.getD 0 { }).op = none) ∧
     (Settled m5s ∧ m5s.xa.asked = [] ∧ m5s.evidence.pins = [] ∧ (∀ (tag : Nat), (m5s.archive.devices.getD 0 { }).op
      ≠ some (FlashOp.read tag))) ∧
     (Settled m5s ∧ ((m5s.archive.devices.getD 0 { }).op.isSome || (m5s.archive.devices.getD 0 { }).part.isSome &&
      m5s.archive.state.busy) = false) ∧
    (Settled m5s ∧ 0 ≠ 1 ∧ 0 ≠ 2) ∧
    (Settled m5s ∧ m5s.archive.state.writes = true) ∧
    (Settled m6s ∧ m6s.archive.state.writes = false) ∧
    (Settled fl3s ∧ fl3s.archive.offered = [(0, srec), (0, srec)] ∧ srec.seg ≠ none ∧ fl3s.archive.starved = true) ∧
     (Settled fl4s ∧ fl4s.xa.asked = [] ∧ fl4s.evidence.pins = [] ∧ (fl4s.archive.devices.getD 0 { }).op = some
      (FlashOp.erase 7)) ∧
     (Settled fl4s ∧ ((fl4s.archive.devices.getD 0 { }).op.isSome || (fl4s.archive.devices.getD 0 { }).part.isSome
      && fl4s.archive.state.busy) = true ∧ (fl4s.archive.devices.getD 0 { }).retried = false) ∧
     (Settled fl5s ∧ fl5s.xa.asked = [] ∧ fl5s.evidence.pins = [] ∧ (∀ (tag : Nat), (fl5s.archive.devices.getD 0 { }).op
      ≠ some (FlashOp.read tag)) ∧ fl5s.archive.useOf 3 = BlockUse.peat ∧ (fl5s.archive.moves.any fun m => m.lb ==
      3) = false) ∧
     (Settled fl6s ∧ ((fl6s.archive.devices.getD 0 { }).op.isSome || (fl6s.archive.devices.getD 0 { }).part.isSome
      && fl6s.archive.state.busy) = true ∧ (fl6s.archive.devices.getD 0 { }).retried = true) ∧
     (Settled fl8s ∧ fl8s.archive.offered = [(1, mrec)] ∧ (1 ≠ 0 ∨ mrec.seg = none) ∧ mereSize < fl8s.archive.fill +
      List.length mrec.bytes ∧ fl8s.archive.starved = false) ∧
     (Settled fl9s ∧ fl9s.archive.offered = [(2, mrec)] ∧ (2 ≠ 0 ∨ mrec.seg = none) ∧ mereSize < fl9s.archive.fill +
      List.length mrec.bytes ∧ fl9s.archive.starved = true ∧ 2 = 2 ∧ (fl9s.archive.tier 1).queue = [mrec]) ∧
     (Settled fl10s ∧ fl10s.archive.offered = [(1, mrec)] ∧ (1 ≠ 0 ∨ mrec.seg = none) ∧ mereSize <
      fl10s.archive.fill + List.length mrec.bytes ∧ fl10s.archive.starved = true ∧ (1 ≠ 2 ∨ (fl10s.archive.tier
      1).queue = [])) ∧
     (Settled fl13s ∧ fl13s.archive.offered = [(0, srec)] ∧ srec.seg ≠ none ∧ fl13s.archive.starved = false ∧
      fl13s.archive.takesSeep srec = false) ∧
     (Settled fl1s ∧ fl1s.archive.offered = (1, mrec) :: [(2, mrec)] ∧ fl1s.archive.fill + mrec.bytes.length ≤
      mereSize ∧ (admits 1 mrec [(2, mrec)] fl1s.archive).fill < mark90) ∧
     (Settled fl7s ∧ fl7s.archive.offered = (1, mrec) :: [] ∧ fl7s.archive.fill + mrec.bytes.length ≤ mereSize ∧
      mark90 ≤ (admits 1 mrec [] fl7s.archive).fill ∧ (admits 1 mrec [] fl7s.archive).oldestSeep = some (9, none,
      100)) ∧
     (Settled fl11s ∧ fl11s.archive.offered = [(0, sopen)] ∧ sopen.seg ≠ none ∧ fl11s.archive.starved = false ∧
      fl11s.archive.takesSeep sopen = true ∧ fl11s.archive.fill < mark90 ∧ (takes sopen [] fl11s.archive).fill <
      mark90) ∧
     (Settled fl12s ∧ fl12s.archive.offered = [(0, bopen)] ∧ bopen.seg ≠ none ∧ fl12s.archive.starved = false ∧
      fl12s.archive.takesSeep bopen = true ∧ fl12s.archive.fill < mark90 ∧ mark90 ≤ (takes bopen []
      fl12s.archive).fill ∧ (takes bopen [] fl12s.archive).oldestSeep = some (9, none, 100)) :=
  ⟨⟨rfl, by decide +kernel⟩,
   ⟨rfl, by decide +kernel⟩,
    ⟨rfl, by decide +kernel, by decide +kernel,
     (fun t h => nomatch (show (none : Option FlashOp) = some (.read t) from h))⟩,
   ⟨rfl, by decide +kernel⟩,
   ⟨rfl, by decide +kernel⟩,
   ⟨rfl, by decide +kernel⟩,
   ⟨rfl, by decide +kernel⟩,
   ⟨rfl, by decide +kernel⟩,
   ⟨rfl, by decide +kernel⟩,
   ⟨rfl, by decide +kernel⟩,
    ⟨rfl, by decide +kernel, by decide +kernel,
     (fun t h => nomatch (show some (FlashOp.program 1) = some (.read t) from h)), by decide +kernel⟩,
   ⟨rfl, by decide +kernel⟩,
   ⟨rfl, by decide +kernel⟩,
   ⟨rfl, by decide +kernel⟩,
   ⟨rfl, by decide +kernel⟩,
   ⟨rfl, by decide +kernel⟩,
   ⟨rfl, by decide +kernel⟩,
   ⟨rfl, by decide +kernel⟩,
   ⟨rfl, by decide +kernel⟩,
   ⟨rfl, by decide +kernel⟩⟩

theorem witness_ArchiveCommands :
     (Settled ac0 ∧ Fresh 32 gq5 ac0 ∧ opcodeFitted ac0.part 32 = true ∧ (opcodeHeldBits 32).any ac0.held = false ∧
      ac0.archiveGate = none ∧ paramsOk 32 gq5.params = false) ∧
     (Settled ac0 ∧ Takes 32 gq1 ac0 ∧ (getU gq1.params 1 1 = 0 ∧ getU gq1.params 8 2 < 32768 ∨ (getU gq1.params 1 1
      = 1 ∧ getU gq1.params 2 8 / 2 ^ 62 = getU gq1.params 0 1 ∧ field 61 56 (getU gq1.params 2 8) =
      ac0.archive.mountCount.toNat) ∧ ∀ (x : Nat × Bytes), List.find? (fun q => q.1 % 2 ^ 28 == field 55 28 (getU
      gq1.params 2 8)) (ac0.archive.records (getU gq1.params 0 1)) = some x → getU gq1.params 2 8 % 2 ^ 28 ≤
      List.length x.2)) ∧
    (Settled ac0 ∧ Takes 32 gq2 ac0 ∧ getU gq2.params 1 1 = 0 ∧ 32768 ≤ getU gq2.params 8 2) ∧
    (Settled ac0 ∧ Takes 32 gq4 ac0 ∧ getU gq4.params 1 1 = 1 ∧ getU gq4.params 2 8 / 2 ^ 62 ≠ getU gq4.params 0 1) ∧
     (Settled ac0 ∧ Takes 32 gq11 ac0 ∧ (getU gq11.params 1 1 = 1 ∧ getU gq11.params 2 8 / 2 ^ 62 = getU gq11.params
      0 1 ∧ field 61 56 (getU gq11.params 2 8) = ac0.archive.mountCount.toNat) ∧ List.find? (fun q => q.1 % 2 ^ 28
      == field 55 28 (getU gq11.params 2 8)) (ac0.archive.records (getU gq11.params 0 1)) = some ((List.find? (fun q
      => q.1 % 2 ^ 28 == field 55 28 (getU gq11.params 2 8)) (ac0.archive.records (getU gq11.params 0 1))).getD nbz)
      ∧ List.length ((List.find? (fun q => q.1 % 2 ^ 28 == field 55 28 (getU gq11.params 2 8)) (ac0.archive.records
      (getU gq11.params 0 1))).getD nbz).2 < getU gq11.params 2 8 % 2 ^ 28) ∧
    (Settled ac0 ∧ ac0.archive.at75 = false) ∧
     (Settled ac0 ∧ Takes 33 gq6 ac0 ∧ getU gq6.params 0 6 < getU gq6.params 6 6 ∧ getU gq6.params 6 6 - getU
      gq6.params 0 6 ≤ 3600 ∧ getU gq6.params 6 6 ≤ ac0.sec ∧ getU gq6.params 12 1 ≠ 255 ∧ (begun 33 gq6
      ac0).overlapping (getU gq6.params 0 6 * 32768) (getU gq6.params 6 6 * 32768) ≠ [] ∧ ac0.archive.pins.length <
      1024 ∧ (begun 33 gq6 ac0).hostPinFits ((begun 33 gq6 ac0).overlapping (getU gq6.params 0 6 * 32768) (getU
      gq6.params 6 6 * 32768)) = true) ∧
     (Settled ac0 ∧ Takes 33 gq7 ac0 ∧ (getU gq7.params 6 6 ≤ getU gq7.params 0 6 ∨ 3600 < getU gq7.params 6 6 -
      getU gq7.params 0 6 ∨ ac0.sec < getU gq7.params 6 6)) ∧
     (Settled ac0 ∧ (∀ c ∈ ac0.link.outstanding, ∀ (n k : Nat) (l : Option (Nat × Nat)), c.work ≠ Work.pinSegment n
      k l)) ∧
     (Settled ac0 ∧ Takes 34 gq9 ac0 ∧ ac0.xa.suspended = false ∧ ac0.view.auditOn = true ∧ (∀ c ∈
      ac0.link.outstanding, ∀ (i j k : Nat), c.work ≠ Work.audit i j k) ∧ ac0.spanProfiles (getU gq9.params 1 6)
      (getU gq9.params 1 6 + getU gq9.params 7 4) = some ((ac0.spanProfiles (getU gq9.params 1 6) (getU gq9.params 1
      6 + getU gq9.params 7 4)).getD spz) ∧ spanOk (getU gq9.params 0 1) ((ac0.spanProfiles (getU gq9.params 1 6)
      (getU gq9.params 1 6 + getU gq9.params 7 4)).getD spz) = true ∧ ac0.spanSegments (getU gq9.params 1 6 * 32768)
      ((getU gq9.params 1 6 + getU gq9.params 7 4) * 32768) ≠ []) ∧
     (Settled ac1s ∧ ac1s.command tg5.toNat = some (cmdOf 5 32 15 0 (Work.archiveRead 2 0 400 1500)) ∧ (cmdOf 5 32
      15 0 (Work.archiveRead 2 0 400 1500)).work = Work.archiveRead 2 0 400 1500 ∧ (ac1s.archive.reads.any fun x =>
      x.tag == tg5.toNat && Option.any (fun t => decide (t + 10000000 ≤ ac1s.micros)) x.heldFrom) = false) ∧
     (Settled ac1s ∧ ac1s.link.outstanding = [cmdOf 5 32 15 0 (Work.archiveRead 2 0 400 1500)] ++ [cmdOf 6 34 14 0
      (Work.audit 3 1500 900)] ∧ (∀ x ∈ [cmdOf 5 32 15 0 (Work.archiveRead 2 0 400 1500)], ∀ (i j k : Nat), x.work ≠
      Work.audit i j k) ∧ (cmdOf 6 34 14 0 (Work.audit 3 1500 900)).work = Work.audit 3 1500 900) ∧
     (Settled ac3s ∧ ac3s.link.outstanding = [cmdOf 7 5 3 0 Work.replied] ++ [cmdOf 6 33 14 0 (Work.pinSegment 4 1
      none)] ∧ (∀ x ∈ [cmdOf 7 5 3 0 Work.replied], ∀ (i j : Nat) (l : Option (Nat × Nat)), x.work ≠ Work.pinSegment
      i j l) ∧ (cmdOf 6 33 14 0 (Work.pinSegment 4 1 none)).work = Work.pinSegment 4 1 none ∧ ac3s.archive.pinDone 4
      = true ∧ List.find? (fun p => p.number == 4) ac3s.archive.pins = some { number := 4, reason := 2, fromSec := 3, toSec := 4, firstSeg := 44, lastSeg := 44, evidence := 7, covers := [44] })
      ∧
    (Settled ac4s ∧ Takes 34 gq9 ac4s ∧ (ac4s.xa.suspended = true ∨ ac4s.view.auditOn = false)) ∧
     (Settled ac5s ∧ Fresh 32 gq1 ac5s ∧ opcodeFitted ac5s.part 32 = true ∧ (opcodeHeldBits 32).any ac5s.held =
      false ∧ ac5s.archiveGate = some Status.busy) ∧
     (Settled ac7s ∧ Takes 32 gq3 ac7s ∧ getU gq3.params 1 1 = 1 ∧ getU gq3.params 2 8 / 2 ^ 62 = getU gq3.params 0
      1 ∧ field 61 56 (getU gq3.params 2 8) ≠ ac7s.archive.mountCount.toNat) ∧
    (Settled ac9s ∧ ac9s.archive.at75 = true ∧ ac9s.archive.state.writes = false) ∧
     (Settled ac10s ∧ ac10s.command tg5.toNat = some (cmdOf 5 32 15 0 (Work.archiveRead 2 0 400 1500)) ∧ (cmdOf 5 32
      15 0 (Work.archiveRead 2 0 400 1500)).work = Work.archiveRead 2 0 400 1500 ∧ (ac10s.archive.reads.any fun x =>
      x.tag == tg5.toNat && Option.any (fun t => decide (t + 10000000 ≤ ac10s.micros)) x.heldFrom) = true) ∧
     (Settled ac8s ∧ ac8s.link.outstanding = [cmdOf 7 5 3 0 .replied] ++ cmdOf 6 0x21 14 0 (.pinSegment 4 1 (some
      (0, 9999))) :: [] ∧ ac8s.archive.pinDone 4 = true) :=
  ⟨⟨rfl, fresh (by decide +kernel), by decide +kernel⟩,
   ⟨rfl, taken (by decide +kernel), by decide +kernel⟩,
   ⟨rfl, taken (by decide +kernel), by decide +kernel⟩,
   ⟨rfl, taken (by decide +kernel), by decide +kernel⟩,
   ⟨rfl, taken (by decide +kernel), by decide +kernel⟩,
   ⟨rfl, by decide +kernel⟩,
   ⟨rfl, taken (by decide +kernel), by decide +kernel⟩,
   ⟨rfl, taken (by decide +kernel), by decide +kernel⟩,
   ⟨rfl, (fun c h => absurd (show c ∈ [] from h) List.not_mem_nil)⟩,
    ⟨rfl, taken (by decide +kernel), by decide +kernel, by decide +kernel,
     (fun c h => absurd (show c ∈ [] from h) List.not_mem_nil), by decide +kernel⟩,
   ⟨rfl, by decide +kernel⟩,
    ⟨rfl, by decide +kernel, (by intro c h i j k e; rw [List.mem_singleton.1 (show c ∈ [_] from h)] at e; cases e),
     by decide +kernel⟩,
    ⟨rfl, by decide +kernel, (by intro c h i j k e; rw [List.mem_singleton.1 (show c ∈ [_] from h)] at e; cases e),
     by decide +kernel⟩,
   ⟨rfl, taken (by decide +kernel), by decide +kernel⟩,
   ⟨rfl, fresh (by decide +kernel), by decide +kernel⟩,
   ⟨rfl, taken (by decide +kernel), by decide +kernel⟩,
   ⟨rfl, by decide +kernel⟩,
   ⟨rfl, by decide +kernel⟩,
   ⟨rfl, by decide +kernel⟩⟩

theorem witness_StorePagesAreCommitted :
    (Settled up ∧ Memory.wf up.store.cells = true) ∧
    (Settled up ∧ up.store.waiting = []) ∧
    (Settled up ∧ up.start.wardenReady = true ∧ up.store.closed = false) ∧
    (Settled up ∧ (up.store.saveOf = none ∨ up.sluice.hold = true ∨ up.store.closed = true)) ∧
     (Settled po1 ∧ po1.store.waiting = [{ page := 3, offset := 60, data := [1, 2, 3, 4, 5, 6] }, { page := 3, offset := 0, data := [9] }]
      ∧ Memory.wf po1.store.cells = true) ∧
     (Settled po2 ∧ po2.store.saveOf = some (cap1, List.replicate 16 3) ∧ po2.sluice.hold = false ∧ po2.store.closed
      = false) ∧
    (Settled po3 ∧ (po3.start.wardenReady = false ∨ po3.store.closed = true)) ∧
     (Settled po2 ∧ po2.store.saveOf = some (cap1, List.replicate 16 3) ∧ po2.sluice.hold = false ∧ po2.store.closed
      = false ∧ po2.billing.profileClosed = []) :=
  ⟨⟨rfl, by decide +kernel⟩,
   ⟨rfl, by decide +kernel⟩,
   ⟨rfl, by decide +kernel⟩,
   ⟨rfl, by decide +kernel⟩,
   ⟨rfl, by decide +kernel⟩,
   ⟨rfl, by decide +kernel⟩,
   ⟨rfl, by decide +kernel⟩,
   ⟨rfl, by decide +kernel⟩⟩

theorem witness_HeartbeatsAreWatched :
    (Settled he0 ∧ he0.beats 7 = false) ∧
    (Settled he0 ∧ intakeNewer (he0.engine 1).intake ik2 = false) ∧
     (Settled he0 ∧ he0.beats 0 = true ∧ (∀ (k : Takeover), he0.engines.takeover = some k → ¬((he0.engine 0).verdict
      = true ∧ (he0.engine (1 - 0)).verdict = true ∧ k.survivor = 0 ∧ (he0.engine 0).claim = he0.sluice.heldClaim ∧
      k.stage ≠ TakeoverStage.verdict ∧ he0.micros ≤ k.accepted + 3000)) ∧ intakeNewer (he0.engine 0).intake ik1 =
      true) ∧
    (Settled he0 ∧ he0.isWatched 7 = false) ∧
    (Settled he0 ∧ he0.silence (he0.engine 0).beatF < 10000) ∧
    (Settled he0 ∧ he0.silence (he0.engine 0).beatW < 10000) ∧
    (Settled he0 ∧ he0.silence (he0.engine 0).beatF < 3000) ∧
     (Settled he0 ∧ (¬((he0.engine 0).fFault = true ∧ he0.isWatched 0 = true ∧ he0.silence (he0.engine 0).beatF ≤
      2000 ∧ (he0.engine 0).sinceF + 100000 ≤ he0.micros)) ∧ (¬((he0.engine 0).wFault = true ∧ he0.isWatched 0 =
      true ∧ he0.silence (he0.engine 0).beatW ≤ 1000 ∧ (he0.engine 0).sinceW + 100000 ≤ he0.micros))) ∧
     (Settled he1 ∧ he1.isWatched 0 = true ∧ (he1.engine 0).fFault = true ∧ (he1.engine 0).wFault = true ∧ 3000 ≤
      he1.silence (he1.engine 0).beatF ∧ 3000 ≤ he1.silence (he1.engine 0).beatW) ∧
     (Settled he1 ∧ he1.isWatched 0 = true ∧ 0 < he1.engines.engines.length ∧ 3000 ≤ he1.silence (he1.engine
      0).beatF ∧ 3000 ≤ he1.silence (he1.engine 0).beatW) ∧
     (Settled he21 ∧ he21.beats 1 = true ∧ he21.engines.takeover = some (he21.engines.takeover.getD tkz) ∧
      ((he21.engine 1).verdict = true ∧ (he21.engine (1 - 1)).verdict = true ∧ (he21.engines.takeover.getD
      tkz).survivor = 1 ∧ (he21.engine 1).claim = he21.sluice.heldClaim ∧ (he21.engines.takeover.getD tkz).stage ≠
      TakeoverStage.verdict ∧ he21.micros ≤ (he21.engines.takeover.getD tkz).accepted + 3000) ∧ intakeNewer
      (he21.engine 1).intake ik1 = true) ∧
     (Settled he21 ∧ he21.isWatched 1 = true ∧ (he21.engine 1).fFault = false ∧ (he21.engine 1).wFault = false ∧
      10000 ≤ he21.silence (he21.engine 1).beatF ∧ he21.silence (he21.engine 1).beatW < 3000) ∧
     (Settled he22 ∧ he22.isWatched 1 = true ∧ (he22.engine 1).fFault = false ∧ (he22.engine 1).wFault = false ∧
      10000 ≤ he22.silence (he22.engine 1).beatW ∧ he22.silence (he22.engine 1).beatF < 3000) ∧
     (Settled he24 ∧ (he24.engine 0).fFault = true ∧ (he24.isWatched 0 = true ∧ he24.silence (he24.engine 0).beatF ≤
      2000 ∧ (he24.engine 0).sinceF + 100000 ≤ he24.micros)) ∧
     (Settled he24 ∧ (he24.engine 0).wFault = true ∧ (he24.isWatched 0 = true ∧ he24.silence (he24.engine 0).beatW ≤
      1000 ∧ (he24.engine 0).sinceW + 100000 ≤ he24.micros)) :=
  ⟨⟨rfl, by decide +kernel⟩,
   ⟨rfl, by decide +kernel⟩,
   ⟨rfl, by decide +kernel⟩,
   ⟨rfl, by decide +kernel⟩,
   ⟨rfl, by decide +kernel⟩,
   ⟨rfl, by decide +kernel⟩,
   ⟨rfl, by decide +kernel⟩,
   ⟨rfl, by decide +kernel⟩,
   ⟨rfl, by decide +kernel⟩,
   ⟨rfl, by decide +kernel⟩,
   ⟨rfl, by decide +kernel⟩,
   ⟨rfl, by decide +kernel⟩,
   ⟨rfl, by decide +kernel⟩,
   ⟨rfl, by decide +kernel⟩,
   ⟨rfl, by decide +kernel⟩⟩

theorem witness_VerdictsBeginTakeovers :
    (Settled he0 ∧ he0.silence (he0.engine 0).beatF < 3000 ∧ he0.silence (he0.engine 0).beatW < 3000) ∧
    (Settled he0 ∧ he0.isWatched 7 = false) ∧
    (Settled he1 ∧ 3000 ≤ he1.silence (he1.engine 0).beatF ∧ 3000 ≤ he1.silence (he1.engine 0).beatW) ∧
     (Settled he1 ∧ he1.isWatched 0 = true ∧ (he1.engine 0).verdict = false ∧ he1.drawsVerdict 0 = true ∧
      he1.engines.split = false ∧ (he1.engine (1 - 0)).verdict = false ∧ he1.engines.takeover = none ∧
      he1.engines.engines.length = 2 ∧ he1.inService (1 - 0) = true) ∧
     (Settled he1 ∧ he1.isWatched 0 = true ∧ (he1.engine 0).verdict = false ∧ he1.drawsVerdict 0 = true ∧
      he1.engines.split = false ∧ (he1.engine (1 - 0)).verdict = false ∧ he1.engines.takeover = none ∧
      he1.engines.engines.length = 2 ∧ 0 = he1.engines.active) ∧
     (Settled he16 ∧ (he16.engine 0).fFault = false ∧ (he16.engine 0).wFault = false ∧ (10000 ≤ he16.silence
      (he16.engine 0).beatF ∨ 10000 ≤ he16.silence (he16.engine 0).beatW)) ∧
     (Settled he16 ∧ he16.isWatched 1 = true ∧ (he16.engine 1).verdict = false ∧ he16.drawsVerdict 1 = true ∧
      he16.engines.split = false ∧ (he16.engine (1 - 1)).verdict = false ∧ he16.engines.takeover = none ∧
      he16.engines.engines.length = 2 ∧ 1 ≠ he16.engines.active ∧ (after (exec (.verdict 1)
      he16)).evidence.safePending = false) ∧
     (Settled he20 ∧ he20.isWatched 1 = true ∧ (he20.engine 1).verdict = false ∧ he20.drawsVerdict 1 = true ∧
      he20.engines.split = false ∧ (he20.engine (1 - 1)).verdict = true ∧ he20.engines.takeover = some
      (he20.engines.takeover.getD tkz)) :=
  ⟨⟨rfl, by decide +kernel⟩,
   ⟨rfl, by decide +kernel⟩,
   ⟨rfl, by decide +kernel⟩,
   ⟨rfl, by decide +kernel⟩,
   ⟨rfl, by decide +kernel⟩,
   ⟨rfl, by decide +kernel⟩,
   ⟨rfl, by decide +kernel⟩,
   ⟨rfl, by decide +kernel⟩⟩

theorem witness_ClaimsAreHeld :
    (Settled he0 ∧ 0 < 2 ∧ he0.engines.engines.length = 2 ∧ he0.sluice.heldClaim ≠ 0 ∧ (he0.engine 0).read = none) ∧
     (Settled he0 ∧ 0 < 2 ∧ he0.engines.engines.length = 2 ∧ he0.engines.takeover = none ∧ ((he0.engine (1 -
      0)).verdict = false ∨ 0 ≠ he0.engines.active)) ∧
    (Settled he0 ∧ 0 < 2 ∧ he0.engines.engines.length = 2 ∧ (he0.wardenDue = false ∨ he0.sluice.wardenHolds = true)) ∧
     (Settled he0 ∧ 0 < 2 ∧ he0.engines.engines.length = 2 ∧ du1 ≠ he0.sluice.heldClaim ∧ (du1 = 0 ∨
      he0.sluice.heldClaim < du1 ∨ (he0.engine he0.engines.active).claim ≠ du1)) ∧
     (Settled he2 ∧ 0 < 2 ∧ he2.engines.engines.length = 2 ∧ he2.wardenDue = true ∧ he2.sluice.wardenHolds = false ∧
      he2.sluice.heldClaim.toNat / 2 < 32767) ∧
     (Settled he2 ∧ 1 < 2 ∧ he2.engines.engines.length = 2 ∧ he2.awake = true ∧ he2.sluice.heldClaim ≠ 0 ∧
      he2.sluice.wardenHolds = false ∧ (he2.engine 1).read = some 2 ∧ (2 : BitVec 16).toNat / 2 < 32767 ∧
      he2.sluice.heldClaim < BitVec.ofNat 16 (((2 : BitVec 16).toNat / 2 + 1) * 2 + 1)) ∧
     (Settled he3 ∧ 0 < 2 ∧ he3.engines.engines.length = 2 ∧ he3.engines.takeover = some (he3.engines.takeover.getD
      tkz) ∧ (he3.engines.takeover.getD tkz).stage ≠ TakeoverStage.holding ∧ (he3.engines.takeover.getD tkz).at_ +
      5000 ≤ he3.micros) ∧
     (Settled he4 ∧ 0 < 2 ∧ he4.engines.engines.length = 2 ∧ he4.engines.takeover = some (he4.engines.takeover.getD
      tkz) ∧ (he4.engine 0).claim ≠ 0 ∧ (he4.engine 0).claim < he4.sluice.heldClaim ∧ ((he4.engine 0).role ≠
      Role.selftest ∧ (he4.engine 0).role ≠ Role.retired ∧ (he4.engine 0).role ≠ Role.notStarted)) ∧
     (Settled he4 ∧ 1 < 2 ∧ he4.engines.engines.length = 2 ∧ he4.awake = true ∧ he4.sluice.heldClaim ≠ 0 ∧
      he4.sluice.wardenHolds = false ∧ (he4.engine 1).read = some 2 ∧ (2 : BitVec 16).toNat / 2 < 32767 ∧
      BitVec.ofNat 16 (((2 : BitVec 16).toNat / 2 + 1) * 2 + 1) ≤ he4.sluice.heldClaim ∧ ((he4.engine 1).role ≠
      Role.selftest ∧ (he4.engine 1).role ≠ Role.retired ∧ (he4.engine 1).role ≠ Role.notStarted)) ∧
     (Settled he4 ∧ 1 < 2 ∧ he4.engines.engines.length = 2 ∧ he4.engines.takeover = some (he4.engines.takeover.getD
      tkz) ∧ (he4.engines.takeover.getD tkz).survivor = 1 ∧ (he4.engines.takeover.getD tkz).stage =
      TakeoverStage.settling ∧ (he4.engine 1).claim = he4.sluice.heldClaim ∧ he4.sluice.heldClaim ≠ 0) ∧
     (Settled he6 ∧ 0 < 2 ∧ he6.engines.engines.length = 2 ∧ he6.awake = true ∧ he6.sluice.heldClaim = 0 ∧
      (he6.engine 0).role = Role.active) ∧
     (Settled he25 ∧ 0 < 2 ∧ he25.engines.engines.length = 2 ∧ he25.engines.takeover = none ∧ 0 =
      he25.engines.active ∧ (he25.engine 0).claim = he25.sluice.heldClaim ∧ he25.sluice.heldClaim ≠ 0 ∧ (he25.engine
      (1 - 0)).verdict = true ∧ ((he25.engine (1 - 0)).role = Role.lockstep ∨ (he25.engine (1 - 0)).role =
      Role.standby)) ∧
     (Settled he26 ∧ 0 < 2 ∧ he26.engines.engines.length = 2 ∧ du1 ≠ he26.sluice.heldClaim ∧ du1 ≠ 0 ∧ du1 <
      he26.sluice.heldClaim ∧ 0 = he26.engines.active ∧ (he26.engine 0).claim = du1 ∧ ((he26.engine 0).role ≠
      Role.selftest ∧ (he26.engine 0).role ≠ Role.retired ∧ (he26.engine 0).role ≠ Role.notStarted)) :=
  ⟨⟨rfl, by decide +kernel⟩,
   ⟨rfl, by decide +kernel⟩,
   ⟨rfl, by decide +kernel⟩,
   ⟨rfl, by decide +kernel⟩,
   ⟨rfl, by decide +kernel⟩,
   ⟨rfl, by decide +kernel⟩,
   ⟨rfl, by decide +kernel⟩,
   ⟨rfl, by decide +kernel⟩,
   ⟨rfl, by decide +kernel⟩,
   ⟨rfl, by decide +kernel⟩,
   ⟨rfl, by decide +kernel⟩,
   ⟨rfl, by decide +kernel⟩,
   ⟨rfl, by decide +kernel⟩⟩

theorem witness_CommandsUnderTheHeldClaim :
    (Settled he0 ∧ he0.sluice.hold = false ∧ billingRegion 131072 (List.length by3b) = true) ∧
    (Settled he0 ∧ billingRegion 0 (List.length by3b) = false) ∧
    (Settled he0 ∧ he0.engines.takeover = none) ∧
    (Settled he3 ∧ he3.sluice.hold = true ∧ billingRegion 131072 (List.length by3b) = true) ∧
     (Settled he3 ∧ he3.engines.takeover = some (he3.engines.takeover.getD tkz) ∧ ((he3.engines.takeover.getD
      tkz).stage = TakeoverStage.verdict ∨ he3.sluice.wardenHolds = true)) ∧
     (Settled he4 ∧ he4.engines.takeover = some (he4.engines.takeover.getD tkz) ∧ (he4.engines.takeover.getD
      tkz).stage ≠ TakeoverStage.verdict ∧ he4.sluice.wardenHolds = false ∧ he4.engines.split = false ∧
      (he4.engines.takeover.getD tkz).source = 0 ∧ (he4.engines.takeover.getD tkz).record = none ∧
      (he4.engines.takeover.getD tkz).survivor < 2 ∧ he4.engines.engines.length = 2 ∧ (∀ c ∈ he4.link.outstanding, ∀
      (r : Req) (op : Nat) (code : Option (BitVec 12)), c.work ≠ Work.heldRead r op code) ∧ (∀ p < 2,
      (he4.sluice.pairs.getD p { }).waiting = [] ∧ (he4.sluice.pairs.getD p { }).unsaved = false ∧
      (he4.sluice.pairs.getD p { }).pendingCmd = none) ∧ (∀ f ∈ he4.engines.ring, f.strobe < he4.billing.stamp +
      1224)) :=
  ⟨⟨rfl, by decide +kernel⟩,
   ⟨rfl, by decide +kernel⟩,
   ⟨rfl, by decide +kernel⟩,
   ⟨rfl, by decide +kernel⟩,
   ⟨rfl, by decide +kernel⟩,
    ⟨rfl, by decide +kernel, by decide +kernel, by decide +kernel, by decide +kernel, by decide +kernel,
     by decide +kernel, by decide +kernel, by decide +kernel,
     (fun c h => absurd (show c ∈ [] from h) List.not_mem_nil), by decide +kernel⟩⟩

theorem witness_DigestsAndCheckpoints :
     (Settled he0 ∧ he0.engines.engines.length = 2 ∧ he0.engines.active < 2 ∧ List.find? (fun x => x.block == 0)
      he0.engines.blocks = none) ∧
    (Settled he0 ∧ he0.engines.engines.length = 2 ∧ he0.engines.active < 2 ∧ he0.engines.digests = none) ∧
    (Settled he0 ∧ he0.engines.engines.length = 2 ∧ he0.engines.active < 2 ∧ he0.engines.arbitration = none) ∧
     (Settled he0 ∧ he0.engines.engines.length = 2 ∧ he0.engines.active < 2 ∧ (he0.ready = false ∨ he0.engines.split
      = false ∨ he0.engines.cut = none)) ∧
    (Settled he2 ∧ he2.engines.engines.length = 2 ∧ he2.engines.active < 2 ∧ he2.inLockstep = false) ∧
     (Settled he9 ∧ he9.engines.engines.length = 2 ∧ he9.engines.active < 2 ∧ he9.inLockstep = true ∧ 1 < 2 ∧
      List.find? (fun x => x.block == 7) he9.engines.blocks = some ((List.find? (fun x => x.block == 7)
      he9.engines.blocks).getD bez) ∧ (he9.engines.digests = some (7, if 1 = 0 then none else some ((if 1 = 0 then
      ((List.find? (fun x => x.block == 7) he9.engines.blocks).getD bez).digest0 else ((List.find? (fun x => x.block
      == 7) he9.engines.blocks).getD bez).digest1) ^^^ dg1), if 1 = 0 then some ((if 1 = 0 then ((List.find? (fun x
      => x.block == 7) he9.engines.blocks).getD bez).digest0 else ((List.find? (fun x => x.block == 7)
      he9.engines.blocks).getD bez).digest1) ^^^ dg1) else none)) ∧ dg1 = 0 ∧ he9.engines.agreed.length = 2) ∧
     (Settled he9 ∧ he9.engines.engines.length = 2 ∧ he9.engines.active < 2 ∧ he9.engines.digests = some (7, some
      85, none)) ∧
     (Settled he9 ∧ he9.engines.engines.length = 2 ∧ he9.engines.active < 2 ∧ he9.engines.arbitration = some arb1 ∧
      arb1.digest0 ≠ arb1.digest1 ∧ (after (exec (.arbitrationEnd false dg1) he9)).evidence.safePending = false) ∧
     (Settled he9 ∧ he9.engines.engines.length = 2 ∧ he9.engines.active < 2 ∧ he9.engines.arbitration = some arb1 ∧
      arb1.digest0 ≠ arb1.digest1 ∧ ((after (exec (.arbitrationEnd true ((he9.rebuilt arb1).1 ^^^ if he9.partner = 0
      then arb1.digest1 else arb1.digest0)) he9)).evidence.safePending = false)) ∧
     (Settled he9 ∧ he9.engines.engines.length = 2 ∧ he9.engines.active < 2 ∧ he9.engines.arbitration = some arb1 ∧
      arb1.digest0 ≠ arb1.digest1 ∧ (dg1 ≠ if he9.partner = 0 then arb1.digest0 else arb1.digest1) ∧ (dg1 ≠ if
      he9.partner = 0 then arb1.digest1 else arb1.digest0) ∧ (after (exec (.arbitrationEnd true ((he9.rebuilt
      arb1).1 ^^^ dg1)) he9)).evidence.safePending = false) ∧
     (Settled he11 ∧ he11.engines.engines.length = 2 ∧ he11.engines.active < 2 ∧ he11.ready = true ∧
      he11.engines.split = true ∧ he11.engines.partnerOk = true ∧ he11.engines.takeover = none ∧ (he11.engine
      he11.partner).role = Role.standby ∧ (he11.engine he11.partner).verdict = false ∧ he11.engines.cut = some (9, { },
      []) ∧ he11.engines.buffers.length = 2 ∧ he11.engines.sequences.length = 8) ∧
     (Settled he11 ∧ he11.engines.engines.length = 2 ∧ he11.engines.active < 2 ∧ he11.engines.split = true ∧
      he11.engines.partnerOk = true ∧ he11.engines.sequences.getD (4 * he11.engines.active + 1) 0 ≠ 0 ∧
      he11.engines.buffers.getD (((he11.engines.sequences.getD (4 * he11.engines.active + 1) 0).toNat - 1) % 2) none
      = some sr0 ∧ he11.engines.badRun ≠ 2) ∧
     (Settled he12 ∧ he12.engines.engines.length = 2 ∧ he12.engines.active < 2 ∧ he12.engines.split = true ∧
      he12.engines.partnerOk = true ∧ he12.engines.sequences.getD (4 * he12.engines.active + 1) 0 ≠ 0 ∧
      he12.engines.buffers.getD (((he12.engines.sequences.getD (4 * he12.engines.active + 1) 0).toNat - 1) % 2) none
      = some sr0 ∧ he12.engines.badRun = 2) ∧
     (Settled he18 ∧ he18.engines.engines.length = 2 ∧ he18.engines.active < 2 ∧ he18.inLockstep = true ∧ 0 < 2 ∧
      List.find? (fun x => x.block == 7) he18.engines.blocks = some ((List.find? (fun x => x.block == 7)
      he18.engines.blocks).getD bez) ∧ he18.engines.digests = none ∧ dg2 ≠ 0) ∧
     (Settled he18 ∧ he18.engines.engines.length = 2 ∧ he18.engines.active < 2 ∧ he18.inLockstep = true ∧ 1 < 2 ∧
      List.find? (fun x => x.block == 7) he18.engines.blocks = some ((List.find? (fun x => x.block == 7)
      he18.engines.blocks).getD bez) ∧ he18.engines.digests = none ∧ dg2 ≠ 0 ∧ 1 ≠ he18.engines.active) ∧
     (Settled he29 ∧ he29.engines.engines.length = 2 ∧ he29.engines.active < 2 ∧ he29.inLockstep = true ∧ 1 < 2 ∧
      List.find? (fun x => x.block == 7) he29.engines.blocks = some ((List.find? (fun x => x.block == 7)
      he29.engines.blocks).getD bez) ∧ dg3 ≠ (if 1 = 0 then ((List.find? (fun x => x.block == 7)
      he29.engines.blocks).getD bez).digest0 else ((List.find? (fun x => x.block == 7) he29.engines.blocks).getD
      bez).digest1) ^^^ dg1 ∧ (he29.engines.digests = some (7, if 1 = 0 then none else some dg3, if 1 = 0 then some
      dg3 else none)) ∧ (dg1 = 0 ∨ 1 ≠ he29.engines.active)) :=
  ⟨⟨rfl, by decide +kernel⟩,
   ⟨rfl, by decide +kernel⟩,
   ⟨rfl, by decide +kernel⟩,
   ⟨rfl, by decide +kernel⟩,
   ⟨rfl, by decide +kernel⟩,
   ⟨rfl, by decide +kernel⟩,
   ⟨rfl, by decide +kernel⟩,
   ⟨rfl, by decide +kernel⟩,
   ⟨rfl, by decide +kernel⟩,
   ⟨rfl, by decide +kernel⟩,
   ⟨rfl, by decide +kernel⟩,
   ⟨rfl, by decide +kernel⟩,
   ⟨rfl, by decide +kernel⟩,
   ⟨rfl, by decide +kernel⟩,
   ⟨rfl, by decide +kernel⟩,
   ⟨rfl, by decide +kernel⟩⟩

theorem witness_EnginesRejoin :
    (Settled he0 ∧ 0 < 2 ∧ he0.engines.engines.length = 2 ∧ (he0.engine 0).role ≠ Role.selftest) ∧
     (Settled he0 ∧ 0 < 2 ∧ he0.engines.engines.length = 2 ∧ ((he0.engine he0.partner).role ≠ Role.resync ∨
      he0.engines.resync = none ∨ he0.engines.takeover.isSome = true)) ∧
     (Settled he2 ∧ 1 < 2 ∧ he2.engines.engines.length = 2 ∧ (he2.engine 1).role = Role.selftest ∧ (he2.engine
      1).hostTest = false ∧ du1.toNat ≤ 400) ∧
     (Settled he2 ∧ 1 < 2 ∧ he2.engines.engines.length = 2 ∧ (he2.engine 1).role = Role.selftest ∧ (he2.engine
      1).hostTest = false ∧ (after (exec (.engineSelftestEnd 1 false du1) he2)).evidence.safePending = false) ∧
     (Settled he13 ∧ 0 < 2 ∧ he13.engines.engines.length = 2 ∧ (he13.engine he13.partner).role = Role.resync ∧
      he13.engines.resync = some sr0 ∧ he13.engines.takeover = none ∧ he13.engines.split = false) ∧
     (Settled he14 ∧ 0 < 2 ∧ he14.engines.engines.length = 2 ∧ (he14.engine he14.partner).role = Role.resync ∧
      he14.engines.resync = some sr0 ∧ he14.engines.takeover = none ∧ he14.engines.split = true) ∧
     (Settled he28 ∧ 0 < 2 ∧ he28.engines.engines.length = 2 ∧ he28.engines.joining = true ∧ he28.engines.split =
      false ∧ he28.engines.takeover = none ∧ he28.engines.active < 2 ∧ (he28.engine he28.partner).role = Role.resync
      ∧ 63 % 64 = 63) :=
  ⟨⟨rfl, by decide +kernel⟩,
   ⟨rfl, by decide +kernel⟩,
   ⟨rfl, by decide +kernel⟩,
   ⟨rfl, by decide +kernel⟩,
   ⟨rfl, by decide +kernel⟩,
   ⟨rfl, by decide +kernel⟩,
   ⟨rfl, by decide +kernel⟩⟩

theorem witness_SuperframesAndSlots :
     (Settled z0 ∧ (z0.awake = false ∨ z0.net.state = NetState.off ∨ z0.net.started = false ∧ z0.instantNow <
      networkStart)) ∧
    (Settled z0 ∧ (z0.lineOn = false ∨ z0.net.started = false ∨ 4 ≤ z0.net.slot)) ∧
    (Settled z0 ∧ z0.net.openBalances = []) ∧
     (Settled z0 ∧ z0.part.fitZlk = true ∧ heldIn z0.start.heldMask.toNat 20548 = false ∧ Takes 2 (writeReq Port.spi
      tg 20548 (leBytes 2 17998)) z0 ∧ z0.view.zlOn = true) ∧
     (Settled z1 ∧ z1.awake = true ∧ z1.net.state ≠ NetState.off ∧ (z1.net.started = true ∨ networkStart ≤
      z1.instantNow) ∧ z1.netOpen = true ∧ z1.startPasses = true ∧ z1.line.state = LineState.listening ∧
      z1.power.warning = false ∧ (z1.sense.lanes.getD 5 { }).faulty = false) ∧
     (Settled z1 ∧ z1.lineOn = true ∧ z1.net.started = true ∧ z1.net.slot < 4 ∧ dataSlot z1.net.state
      z1.net.superframe.toNat (z1.net.slot + 1) = true ∧ z1.netOpen = true ∧ z1.net.broadcastLeft = some 3 ∧ 2 ≤ 3)
      ∧
     (Settled z2 ∧ z2.lineOn = true ∧ z2.net.started = true ∧ z2.net.slot < 4 ∧ dataSlot z2.net.state
      z2.net.superframe.toNat (z2.net.slot + 1) = true ∧ z2.netOpen = true ∧ z2.net.broadcastLeft = none ∧
      z2.net.trans = some (trn TransKind.statusReq 0) ∧ (trn TransKind.statusReq 0).sent = true ∧ ((trn
      TransKind.statusReq 0).heard = true ∨ (trn TransKind.statusReq 0).wait + 1 < (trn TransKind.statusReq 0).due))
      ∧
     (Settled z7 ∧ z7.awake = true ∧ z7.net.state ≠ NetState.off ∧ (z7.net.started = true ∨ networkStart ≤
      z7.instantNow) ∧ (z7.netOpen = false ∨ z7.startPasses = false ∨ z7.power.warning = true ∨ z7.line.state =
      LineState.transmitting ∨ (z7.sense.lanes.getD 5 { }).faulty = true)) ∧
     (Settled z7 ∧ z7.lineOn = true ∧ z7.net.started = true ∧ z7.net.slot < 4 ∧ dataSlot z7.net.state
      z7.net.superframe.toNat (z7.net.slot + 1) = false) ∧
     (Settled z9 ∧ z9.net.openBalances = [obal, obal] ∧ obal.handed = true ∧ obal.deadline ≤ z9.instantNow ∧
      z9.balanceOn = true ∧ z9.xa.suspended = false) ∧
    (Settled z10 ∧ z10.net.openBalances = [obal2] ∧ (obal2.handed = false ∨ z10.instantNow < obal2.deadline)) ∧
     (Settled z13 ∧ z13.lineOn = true ∧ z13.net.started = true ∧ z13.net.slot < 4 ∧ dataSlot z13.net.state
      z13.net.superframe.toNat (z13.net.slot + 1) = true ∧ z13.netOpen = true ∧ z13.net.broadcastLeft = none ∧
      z13.net.trans = none ∧ z13.net.candidates = [] ∧ ({ z13 with net := { z13.net with slot := z13.net.slot + 1 } }
      : State).nextTransaction = none) ∧
     (Settled up ∧ up.part.fitZlk = true ∧ heldIn up.start.heldMask.toNat 20548 = false ∧ Takes 2 (writeReq Port.spi
      tg 20548 (leBytes 2 17998)) up ∧ up.view.zlOn = false) ∧
     (Settled z17 ∧ z17.lineOn = true ∧ z17.net.started = true ∧ z17.net.slot < 4 ∧ dataSlot z17.net.state
      z17.net.superframe.toNat (z17.net.slot + 1) = true ∧ z17.netOpen = false) :=
  ⟨⟨rfl, by decide +kernel⟩,
   ⟨rfl, by decide +kernel⟩,
   ⟨rfl, by decide +kernel⟩,
   ⟨rfl, by decide +kernel, by decide +kernel, taken (by decide +kernel), by decide +kernel⟩,
   ⟨rfl, by decide +kernel⟩,
   ⟨rfl, by decide +kernel⟩,
   ⟨rfl, by decide +kernel⟩,
   ⟨rfl, by decide +kernel⟩,
   ⟨rfl, by decide +kernel⟩,
   ⟨rfl, by decide +kernel⟩,
   ⟨rfl, by decide +kernel⟩,
   ⟨rfl, by decide +kernel⟩,
   ⟨rfl, by decide +kernel, by decide +kernel, taken (by decide +kernel), by decide +kernel⟩,
   ⟨rfl, by decide +kernel⟩⟩

theorem witness_NetworkFrames :
    (Settled z0 ∧ z0.hearsFrame zf9 = true ∧ z0.lineOn = true ∧ (z0.judgeFrame zf9).1 = none) ∧
     (Settled z0 ∧ z0.hearsFrame zf2 = true ∧ z0.lineOn = true ∧ (z0.judgeFrame zf2).1 = some (heardOf z0 zf2) ∧ (∀
      (n : NetFrame), readFrame (heardOf z0 zf2).payload = some n → n.netId ≠ z0.view.netId ∨ n.type ∉ [16])) ∧
     (Settled z0 ∧ z0.hearsFrame zf1 = true ∧ z0.lineOn = true ∧ (z0.judgeFrame zf1).1 = some (heardOf z0 zf1) ∧
      readFrame (heardOf z0 zf1).payload = some ((readFrame (heardOf z0 zf1).payload).getD nfz) ∧ ((readFrame
      (heardOf z0 zf1).payload).getD nfz).netId = z0.view.netId ∧ ((readFrame (heardOf z0 zf1).payload).getD
      nfz).type = 16 ∧ ((readFrame (heardOf z0 zf1).payload).getD nfz).src = 0) ∧
    (Settled z0 ∧ z0.net.trans = none) ∧
     (Settled z2 ∧ z2.hearsFrame zf2 = true ∧ z2.lineOn = true ∧ (z2.judgeFrame zf2).1 = some (heardOf z2 zf2) ∧
      readFrame (heardOf z2 zf2).payload = some ((readFrame (heardOf z2 zf2).payload).getD nfz) ∧ ((readFrame
      (heardOf z2 zf2).payload).getD nfz).netId = z2.view.netId ∧ z2.net.trans = some (trn TransKind.statusReq 0) ∧
      (trn TransKind.statusReq 0).sent = true ∧ ((readFrame (heardOf z2 zf2).payload).getD nfz).up = true ∧
      ((readFrame (heardOf z2 zf2).payload).getD nfz).seq = BitVec.toNat (trn TransKind.statusReq 0).seq ∧
      ((readFrame (heardOf z2 zf2).payload).getD nfz).src = (trn TransKind.statusReq 0).node ∧ (trn
      TransKind.statusReq 0).node ≠ 0 ∧ (trn TransKind.statusReq 0).node < z2.net.nodes.length ∧ (z2.node (trn
      TransKind.statusReq 0).node).state ≠ NodeState.free ∧ (((readFrame (heardOf z2 zf2).payload).getD nfz).type =
      35 ∧ (trn TransKind.statusReq 0).kind = TransKind.statusReq)) ∧
     (Settled z2 ∧ z2.hearsFrame zf6 = true ∧ z2.lineOn = true ∧ (z2.judgeFrame zf6).1 = some (heardOf z2 zf6) ∧
      readFrame (heardOf z2 zf6).payload = some ((readFrame (heardOf z2 zf6).payload).getD nfz) ∧ ((readFrame
      (heardOf z2 zf6).payload).getD nfz).netId = z2.view.netId ∧ z2.net.trans = some (trn TransKind.statusReq 0) ∧
      (trn TransKind.statusReq 0).sent = true ∧ ((readFrame (heardOf z2 zf6).payload).getD nfz).up = false ∧
      ((readFrame (heardOf z2 zf6).payload).getD nfz).seq = BitVec.toNat (trn TransKind.statusReq 0).seq ∧ 0 <
      ((readFrame (heardOf z2 zf6).payload).getD nfz).hop ∧ ((readFrame (heardOf z2 zf6).payload).getD nfz).type ∈
      [64, 34, 48, 17, 32]) ∧
     (Settled z2 ∧ z2.hearsFrame zf7 = true ∧ z2.lineOn = true ∧ (z2.judgeFrame zf7).1 = some (heardOf z2 zf7) ∧
      readFrame (heardOf z2 zf7).payload = some ((readFrame (heardOf z2 zf7).payload).getD nfz) ∧ ((readFrame
      (heardOf z2 zf7).payload).getD nfz).netId = z2.view.netId ∧ ((readFrame (heardOf z2 zf7).payload).getD
      nfz).type = 2 ∧ ((readFrame (heardOf z2 zf7).payload).getD nfz).src ≠ 0 ∧ ((readFrame (heardOf z2
      zf7).payload).getD nfz).src < z2.net.nodes.length ∧ (z2.node ((readFrame (heardOf z2 zf7).payload).getD
      nfz).src).state ≠ NodeState.free) ∧
     (Settled z2 ∧ z2.net.trans = some (trn TransKind.statusReq 0) ∧ (trn TransKind.statusReq 0).sent = true ∧ 6 *
      ((trn TransKind.statusReq 0).route.length + 1) ≤ (trn TransKind.statusReq 0).age ∧ (trn TransKind.statusReq
      0).try_ < 2) ∧
     (Settled z3 ∧ z3.net.trans = some (trn (TransKind.data 5 [1, 2]) 2) ∧ (trn (TransKind.data 5 [1, 2]) 2).sent =
      true ∧ 6 * ((trn (TransKind.data 5 [1, 2]) 2).route.length + 1) ≤ (trn (TransKind.data 5 [1, 2]) 2).age ∧ 2 ≤
      (trn (TransKind.data 5 [1, 2]) 2).try_ ∧ (trn (TransKind.data 5 [1, 2]) 2).kind.unjoined = false ∧ (trn
      (TransKind.data 5 [1, 2]) 2).node < z3.net.nodes.length) ∧
     (Settled z6 ∧ z6.net.trans = some (trn TransKind.statusReq 0 true true 3) ∧ ((trn TransKind.statusReq 0 true
      true 3).sent = false ∨ (trn TransKind.statusReq 0 true true 3).age < 6 * ((trn TransKind.statusReq 0 true true
      3).route.length + 1))) ∧
    (Settled up ∧ up.hearsFrame zf1 = false) :=
  ⟨⟨rfl, by decide +kernel⟩,
    ⟨rfl, by decide +kernel, by decide +kernel, by decide +kernel,
     (fun n h => Or.inr (by rw [show n = ((readFrame (heardOf z0 zf2).payload).getD nfz) from by rw [h]; rfl]; decide +kernel))⟩,
   ⟨rfl, by decide +kernel⟩,
   ⟨rfl, by decide +kernel⟩,
   ⟨rfl, by decide +kernel⟩,
   ⟨rfl, by decide +kernel⟩,
   ⟨rfl, by decide +kernel⟩,
   ⟨rfl, by decide +kernel⟩,
   ⟨rfl, by decide +kernel⟩,
   ⟨rfl, by decide +kernel⟩,
   ⟨rfl, by decide +kernel⟩⟩

theorem witness_NetworkCommands :
     (Settled z0 ∧ Takes 40 zq1 z0 ∧ z0.view.zlOn = true ∧ getU zq1.params 0 1 ≠ 0 ∧ (z0.node (getU zq1.params 0
      1)).state = NodeState.free) ∧
     (Settled z0 ∧ Takes 40 zq2 z0 ∧ z0.view.zlOn = true ∧ (getU zq2.params 0 1 = 0 ∨ (z0.node (getU zq2.params 0
      1)).state ≠ NodeState.free)) ∧
    (Settled z0 ∧ Takes 41 zq1 z0) ∧
    (Settled z0 ∧ Takes 42 zq5 z0 ∧ z0.view.balOn = true ∧ z0.net.balances = []) ∧
     (Settled z9 ∧ Takes 42 zq6 z9 ∧ z9.view.balOn = true ∧ z9.xa.suspended = false ∧ z9.net.balances[getU
      zq6.params 0 1]? = some [1, 2, 3]) ∧
     (Settled z10 ∧ Takes 42 zq5 z10 ∧ z10.view.balOn = true ∧ z10.xa.suspended = true ∧ z10.net.balances[0]? = some
      [1, 2, 3]) ∧
    (Settled up ∧ Takes 40 zq1 up ∧ up.view.zlOn = false) ∧
    (Settled up ∧ Takes 42 zq5 up ∧ up.view.balOn = false) :=
  ⟨⟨rfl, taken (by decide +kernel), by decide +kernel⟩,
   ⟨rfl, taken (by decide +kernel), by decide +kernel⟩,
   ⟨rfl, taken (by decide +kernel)⟩,
   ⟨rfl, taken (by decide +kernel), by decide +kernel⟩,
   ⟨rfl, taken (by decide +kernel), by decide +kernel⟩,
   ⟨rfl, taken (by decide +kernel), by decide +kernel⟩,
   ⟨rfl, taken (by decide +kernel), by decide +kernel⟩,
   ⟨rfl, taken (by decide +kernel), by decide +kernel⟩⟩

theorem witness_ConvertersRun :
    (Settled v0 ∧ v0.aux.loaded = true ∧ 0 < 2 ∧ v0.aux.periods.getD 0 0 ≠ 0) ∧
    (Settled v0 ∧ v0.aux.periods.getD 1 0 = 0) ∧
    (Settled v0 ∧ (v0.conv 0).due = []) ∧
    (Settled v0 ∧ (v0.conv 0).state ≠ ConvState.converting ∧ (v0.conv 0).closing = none) ∧
    (Settled v0 ∧ (v0.conv 0).state ≠ ConvState.delay) ∧
    (Settled v0 ∧ (v0.conv 0).state = ConvState.stopped) ∧
     (Settled v1 ∧ 0 < 2 ∧ 0 < v1.aux.converters.length ∧ v1.view.auxPaired = false ∧ (v1.conv 0).due = [5, 6] ∧
      (v1.conv 0).state = ConvState.waiting ∧ (v1.conv 0).waits = true ∧ (v1.conv 0).pendingTrig = false ∧
      v1.aux.lost = 0 ∧ v1.aux.queue.length < 256) ∧
     (Settled v1 ∧ 0 < 2 ∧ 0 < v1.aux.converters.length ∧ v1.view.auxPaired = false ∧ (v1.conv 0).state ≠
      ConvState.stopped ∧ (v1.conv 0).state ≠ ConvState.heldOff ∧ ((v1.conv 0).done ≠ 0 ∨ (v1.conv 0).entry ≠ 0 ∧
      (v1.conv 0).begun = false)) ∧
     (Settled v2 ∧ 0 < 2 ∧ 0 < v2.aux.converters.length ∧ v2.view.auxPaired = false ∧ (v2.conv 0).due = [5] ∧
      ((v2.conv 0).state = ConvState.converting ∨ (v2.conv 0).state = ConvState.delay) ∧ (v2.conv 0).waits = true) ∧
     (Settled v2 ∧ 0 < v2.aux.converters.length ∧ v2.view.auxPaired = false ∧ (v2.conv 0).state =
      ConvState.converting ∧ (v2.conv 0).badPass = false ∧ (v2.conv 0).closing = none ∧ cds.length = v2.view.auxOsr
      0 ∧ v2.aux.lost = 0 ∧ v2.aux.queue.length < 256 ∧ entryCh (v2.auxEntry 0 (v2.conv 0).entry) < 29 ∧
      (v2.aux.comparators.getD (entryWin (v2.auxEntry 0 (v2.conv 0).entry)) { }).enable = false ∧ entryRepeat
      (v2.auxEntry 0 (v2.conv 0).entry) ≤ (v2.conv 0).done ∧ entryDelay (v2.auxEntry 0 (v2.conv 0).entry) ≠ 0) ∧
     (Settled v3 ∧ 0 < v3.aux.converters.length ∧ v3.view.auxPaired = false ∧ (v3.conv 0).state = ConvState.delay ∧
      (v3.conv 0).entry < 63 ∧ entryCh (v3.auxEntry 0 ((v3.conv 0).entry + 1)) < 30) ∧
     (Settled v4 ∧ 0 < v4.aux.converters.length ∧ v4.view.auxPaired = false ∧ (v4.conv 0).state =
      ConvState.converting ∧ (v4.conv 0).badPass = false ∧ (v4.conv 0).closing = none ∧ cds.length = v4.view.auxOsr
      0 ∧ v4.aux.lost = 0 ∧ v4.aux.queue.length < 256 ∧ entryCh (v4.auxEntry 0 (v4.conv 0).entry) < 29 ∧
      (v4.aux.comparators.getD (entryWin (v4.auxEntry 0 (v4.conv 0).entry)) { }).enable = false ∧ (v4.conv 0).done <
      entryRepeat (v4.auxEntry 0 (v4.conv 0).entry)) ∧
     (Settled v7 ∧ 0 < 2 ∧ 0 < v7.aux.converters.length ∧ v7.view.auxPaired = false ∧ (v7.conv 0).due = [5] ∧
      ((v7.conv 0).state = ConvState.stopped ∨ (v7.conv 0).state = ConvState.heldOff ∨ (v7.conv 0).waits = false)) ∧
     (Settled v8 ∧ 0 < 2 ∧ 0 < v8.aux.converters.length ∧ v8.view.auxPaired = false ∧ (v8.conv 0).state ≠
      ConvState.stopped ∧ (v8.conv 0).state ≠ ConvState.heldOff ∧ (v8.conv 0).done = 0 ∧ ((v8.conv 0).entry = 0 ∨
      (v8.conv 0).begun = true)) ∧
     (Settled v9 ∧ 0 < v9.aux.converters.length ∧ (v9.conv 0).closing = some ((v9.conv 0).closing.getD lrz) ∧
      ((v9.conv 0).closing.getD lrz).pairWord = none ∧ cds.length = ((v9.conv 0).closing.getD lrz).codes) :=
  ⟨⟨rfl, by decide +kernel⟩,
   ⟨rfl, by decide +kernel⟩,
   ⟨rfl, by decide +kernel⟩,
   ⟨rfl, by decide +kernel⟩,
   ⟨rfl, by decide +kernel⟩,
   ⟨rfl, by decide +kernel⟩,
   ⟨rfl, by decide +kernel⟩,
   ⟨rfl, by decide +kernel⟩,
   ⟨rfl, by decide +kernel⟩,
   ⟨rfl, by decide +kernel⟩,
   ⟨rfl, by decide +kernel⟩,
   ⟨rfl, by decide +kernel⟩,
   ⟨rfl, by decide +kernel⟩,
   ⟨rfl, by decide +kernel⟩,
   ⟨rfl, by decide +kernel⟩⟩

theorem witness_ConverterCommands :
     (Settled v0 ∧ Takes 48 vq1 v0 ∧ (tab (getU vq1.params 2 1) fun i => getU vq1.params (3 + 4 * i) 4).all entryOk
      = true ∧ v0.view.auxPaired = false ∧ getU vq1.params 0 1 < v0.aux.converters.length ∧ (v0.conv (getU
      vq1.params 0 1)).state = ConvState.stopped) ∧
     (Settled v0 ∧ Takes 48 vq2 v0 ∧ (tab (getU vq2.params 2 1) fun i => getU vq2.params (3 + 4 * i) 4).all entryOk
      = false) ∧
    (Settled v0 ∧ Takes 49 vq3 v0 ∧ getU vq3.params 0 1 < v0.aux.converters.length) ∧
     (Settled v0 ∧ 0 < 2 ∧ 0 < v0.aux.converters.length ∧ v0.view.auxPaired = false ∧ heldIn v0.start.heldMask.toNat
      (24612 + 8 * 0) = false ∧ Takes 2 (writeReq Port.spi tg (24612 + 8 * 0) (leBytes 2 21328)) v0) ∧
     (Settled v0 ∧ 0 < 2 ∧ 0 < v0.aux.converters.length ∧ v0.view.auxPaired = false ∧ heldIn v0.start.heldMask.toNat
      (24612 + 8 * 0) = false ∧ Takes 2 (writeReq Port.spi tg (24612 + 8 * 0) (leBytes 2 17228)) v0) ∧
     (Settled v0 ∧ 0 < 2 ∧ 0 < v0.aux.converters.length ∧ v0.view.auxPaired = false ∧ heldIn v0.start.heldMask.toNat
      (24612 + 8 * 0) = false ∧ Takes 2 (writeReq Port.spi tg (24612 + 8 * 0) (leBytes 2 21332)) v0 ∧ entryCh
      (v0.auxEntry 0 0) < 30) ∧
     (Settled v0 ∧ heldIn v0.start.heldMask.toNat 24594 = false ∧ Takes 2 (writeReq Port.spi tg 24594 cmpA) v0 ∧
      comparatorsOk cmpA = true ∧ 0 < 8) ∧
     (Settled v0 ∧ heldIn v0.start.heldMask.toNat 24594 = false ∧ Takes 2 (writeReq Port.spi tg 24594 cmpB) v0 ∧
      comparatorsOk cmpB = false) ∧
    (Settled v0 ∧ Takes 1 (readReq Port.spi tg 24596) v0 ∧ v0.aux.lost = 0) ∧
    (Settled v0 ∧ Takes 1 (readReq Port.spi tg 24597) v0 ∧ v0.aux.lost = 0) ∧
    (Settled v0 ∧ Takes 1 (readReq Port.spi tg 24592) v0) :=
  ⟨⟨rfl, taken (by decide +kernel), by decide +kernel⟩,
   ⟨rfl, taken (by decide +kernel), by decide +kernel⟩,
   ⟨rfl, taken (by decide +kernel), by decide +kernel⟩,
   ⟨rfl, by decide +kernel, by decide +kernel, by decide +kernel, by decide +kernel, taken (by decide +kernel)⟩,
   ⟨rfl, by decide +kernel, by decide +kernel, by decide +kernel, by decide +kernel, taken (by decide +kernel)⟩,
    ⟨rfl, by decide +kernel, by decide +kernel, by decide +kernel, by decide +kernel, taken (by decide +kernel), by
     decide +kernel⟩,
   ⟨rfl, by decide +kernel, taken (by decide +kernel), by decide +kernel⟩,
   ⟨rfl, by decide +kernel, taken (by decide +kernel), by decide +kernel⟩,
   ⟨rfl, taken (by decide +kernel), by decide +kernel⟩,
   ⟨rfl, taken (by decide +kernel), by decide +kernel⟩,
   ⟨rfl, taken (by decide +kernel)⟩⟩

theorem witness_ClockAndStateAreWatched :
    (Settled y0 ∧ y0.integrity.holding = none ∧ y0.dieRuns = true ∧ 6165 < 6291 ∧ 6291 < 6418) ∧
    (Settled y0 ∧ 5 ≤ 6291) ∧
    (Settled y0 ∧ y0.dieRuns = true ∧ BitVec.toNat by6 ∉ validCodes 0) ∧
    (Settled y0 ∧ y0.dieRuns = true ∧ BitVec.toNat by5 ∉ validCodes 1) ∧
    (Settled y0 ∧ y0.dieRuns = true ∧ BitVec.toNat by5 ∉ validCodes 3) ∧
    (Settled y0 ∧ y0.dieRuns = true ∧ BitVec.toNat by5 ∉ validCodes 4) ∧
    (Settled y1 ∧ y1.integrity.holding = some 99) ∧
    (Settled y1 ∧ y1.dieRuns = false) ∧
     (Settled y2 ∧ y2.integrity.holding = none ∧ y2.dieRuns = true ∧ y2.integrity.watchOsc = false ∧
      y2.integrity.highRun = 2 ∧ 6418 ≤ 6418) ∧
     (Settled y3 ∧ y3.integrity.holding = none ∧ y3.dieRuns = true ∧ y3.integrity.watchOsc = false ∧
      y3.integrity.lowRun = 2 ∧ 6165 ≤ 6165) ∧
     (Settled y4 ∧ y4.integrity.holding = none ∧ y4.dieRuns = false ∧ (y4.start.phase ≠ Phase.inReset ∨
      y4.integrity.cause = none)) ∧
     (Settled y8 ∧ y8.integrity.holding = none ∧ y8.start.phase = Phase.inReset ∧ y8.integrity.cause = some (16,
      6500, 0)) :=
  ⟨⟨rfl, by decide +kernel⟩,
   ⟨rfl, by decide +kernel⟩,
   ⟨rfl, by decide +kernel⟩,
   ⟨rfl, by decide +kernel⟩,
   ⟨rfl, by decide +kernel⟩,
   ⟨rfl, by decide +kernel⟩,
   ⟨rfl, by decide +kernel⟩,
   ⟨rfl, by decide +kernel⟩,
   ⟨rfl, by decide +kernel⟩,
   ⟨rfl, by decide +kernel⟩,
   ⟨rfl, by decide +kernel⟩,
   ⟨rfl, by decide +kernel⟩⟩

theorem witness_TargetedTests :
     (Settled y0 ∧ y0.dieRuns = true ∧ kn0 ≠ 3#2 ∧ busCodeOf ea5 kn0 bw2.data ≠ bw2.code.toNat ∧ busCodeOf ea5 kn0
      bw1.data = bw1.code.toNat) ∧
    (Settled y0 ∧ y0.integrity.fabricTests = []) ∧
    (Settled y0 ∧ regionSize 0 ≤ ea8.toNat) ∧
    (Settled y0 ∧ y0.dieRuns = true ∧ ea5.toNat < 262144 ∧ rowOf 4 ea5 ∉ y0.integrity.rowTests) ∧
    (Settled y0 ∧ rowOf 0 ea5 ∉ y0.integrity.rowTests) ∧
    (Settled y0 ∧ y0.dieRuns = true ∧ y0.integrity.wardenTesting = false) ∧
    (Settled y1 ∧ (y1.dieRuns = false ∨ y1.integrity.wardenTesting = true)) ∧
    (Settled y5 ∧ y5.integrity.fabricTests = [(5, 6), (7, 7)]) ∧
     (Settled y5 ∧ y5.dieRuns = true ∧ y5.engines.ring ≠ [] ∧ ea7.toNat < 6241 * 168 ∧ rowOf 2 ea7 ∉
      y5.integrity.rowTests) ∧
    (Settled y5 ∧ rowOf 0 ea5 ∈ y5.integrity.rowTests ∧ y5.integrity.spares.getD 0 0 < 8) ∧
    (Settled y6 ∧ rowOf 2 ea5 ∈ y6.integrity.rowTests ∧ 8 ≤ y6.integrity.spares.getD 2 0 ∧ 2 ≤ 2) ∧
    (Settled y6 ∧ y6.integrity.wardenTesting = true) ∧
     (Settled y7 ∧ y7.dieRuns = true ∧ y7.integrity.wardenTesting = false ∧ cm1 ∈ (after (exec .wardenLockstep
      y7)).link.outstanding) :=
  ⟨⟨rfl, by decide +kernel⟩,
   ⟨rfl, by decide +kernel⟩,
   ⟨rfl, by decide +kernel⟩,
   ⟨rfl, by decide +kernel⟩,
   ⟨rfl, by decide +kernel⟩,
   ⟨rfl, by decide +kernel⟩,
   ⟨rfl, by decide +kernel⟩,
   ⟨rfl, by decide +kernel⟩,
   ⟨rfl, by decide +kernel⟩,
   ⟨rfl, by decide +kernel⟩,
   ⟨rfl, by decide +kernel⟩,
   ⟨rfl, by decide +kernel⟩,
   ⟨rfl, by decide +kernel⟩⟩

theorem witness_RequestsRunInOrder :
    (Settled up ∧ Takes 0x01 rqLn2 up) ∧
    (Settled up ∧ Takes 0x02 q3 up) ∧
    (Settled up ∧ Takes 0x03 q4e up) ∧
    (Settled up ∧ Takes 0x04 q4e up) ∧
    (Settled up ∧ Takes 0x05 rqLn up) ∧
    (Settled up ∧ Takes 0x10 q9 up) ∧
    (Settled up ∧ Takes 0x11 q3 up) ∧
    (Settled up ∧ Takes 0x12 rqLn up) ∧
    (Settled up ∧ Takes 0x18 rqLn up) ∧
    (Settled up ∧ Takes 0x19 q3 up) ∧
    (Settled s15 ∧ Takes 0x20 gq1 s15) ∧
    (Settled s15 ∧ Takes 0x21 gq6 s15) ∧
    (Settled s15 ∧ Takes 0x22 gq9 s15) ∧
    (Settled up ∧ Takes 0x28 rqLn2 up) ∧
    (Settled up ∧ Takes 0x29 rqLn2 up) ∧
    (Settled up ∧ Takes 0x2A zq5 up) ∧
    (Settled up ∧ Takes 0x30 vq1 up) ∧
    (Settled up ∧ Takes 0x31 rqLn2 up) ∧
    (Settled up ∧ Takes 0x38 q22 up) ∧
    (Settled up ∧ Takes 0x39 rqLn2 up) ∧
    (Settled up ∧ Takes 0x40 rqLn2 up) ∧
    (Settled up ∧ Takes 0x41 rqLn2 up) ∧
    (Settled up ∧ Takes 0x42 q31 up) ∧
    (Settled up ∧ Takes 0x43 q32 up) ∧
    (Settled up ∧ Fresh 0x01 rqLn up ∧ judge 0x01 rqLn.params (begun 0x01 rqLn up) = some (.done .badParam [])) ∧
    (Settled up ∧ Machine.opcodeKnown (0x06 : Byte).toNat = false ∧ Fresh (0x06 : Byte).toNat rqLn up) :=
  ⟨⟨rfl, taken (by decide +kernel)⟩,
   ⟨rfl, taken (by decide +kernel)⟩,
   ⟨rfl, taken (by decide +kernel)⟩,
   ⟨rfl, taken (by decide +kernel)⟩,
   ⟨rfl, taken (by decide +kernel)⟩,
   ⟨rfl, taken (by decide +kernel)⟩,
   ⟨rfl, taken (by decide +kernel)⟩,
   ⟨rfl, taken (by decide +kernel)⟩,
   ⟨rfl, taken (by decide +kernel)⟩,
   ⟨rfl, taken (by decide +kernel)⟩,
   ⟨rfl, taken (by decide +kernel)⟩,
   ⟨rfl, taken (by decide +kernel)⟩,
   ⟨rfl, taken (by decide +kernel)⟩,
   ⟨rfl, taken (by decide +kernel)⟩,
   ⟨rfl, taken (by decide +kernel)⟩,
   ⟨rfl, taken (by decide +kernel)⟩,
   ⟨rfl, taken (by decide +kernel)⟩,
   ⟨rfl, taken (by decide +kernel)⟩,
   ⟨rfl, taken (by decide +kernel)⟩,
   ⟨rfl, taken (by decide +kernel)⟩,
   ⟨rfl, taken (by decide +kernel)⟩,
   ⟨rfl, taken (by decide +kernel)⟩,
   ⟨rfl, taken (by decide +kernel)⟩,
   ⟨rfl, taken (by decide +kernel)⟩,
   ⟨rfl, fresh (by decide +kernel), by decide +kernel⟩,
   ⟨rfl, by decide, fresh (by decide +kernel)⟩⟩

theorem witness_StepTakesTheFrontCommand :
     ({ up with pending := [.latchNow rqLn, .chronicleSecond] } : State).pending = .latchNow rqLn ::
      [.chronicleSecond] ∧
    up.pending = [] :=
  ⟨rfl, rfl⟩

theorem witness_RunsStaySettled : Settled up := rfl

theorem witness_TheStoreStaysCanonical :
    Memory.wf po1.store.cells = true ∧ po1.store.waiting ≠ [] ∧
     step { po1 with pending := [.storeCommitDone] } = .next (after (step { po1 with pending := [.storeCommitDone] }))
      :=
  ⟨by decide +kernel, by decide +kernel, rfl⟩

/-! ### Single results that the spec works out -/

/-- R7: a KQ4856-PA of stepping B0 reads 0x4856_1003. -/
theorem test_identity_word :
    State.identity { State.reset with stepLetter := 1, stepDigit := 0, part := .pa }
      = 0x48561003 := by decide +kernel

/-- R15, worked example: member 5 of service S03 is object 0x20C5. -/
theorem test_object_index : idx 2 3 5 = 0x20C5 := by decide

/-- R43, R47, worked example: the check of the request for the identity word. -/
theorem test_request_check : crc16 [0x00, 0x05, 0x00, 0x01, 0x00, 0x01, 0x00, 0x00] = 0xD5F8 := by decide +kernel

/-- R57, R58: the reply to a command that arrived behind a held read joins the queue behind it. -/
theorem test_replies_keep_their_order :
    let held : State := { up with link.outstanding := [cmdOf 9 1 5 0 (.heldRead { port := .uart, tag := 9 } 1 none)] }
    (match exec (.getObj { port := .uart, tag := 5, params := [0x05, 0x00] }) held with
      | .next t => (t.link.replies.length, t.link.behind.length, (runHeld t).link.replies.map (·.tag))
      | _ => (9, 9, [])) = (0, 1, [9, 5]) := by decide +kernel

/-- R14: the checks of the ASCII digits 1 to 9. -/
theorem test_crc_check_values :
    let nine : Bytes := [0x31, 0x32, 0x33, 0x34, 0x35, 0x36, 0x37, 0x38, 0x39]
    crc32 nine = 0xCBF43926 ∧ crc32c nine = 0xE3069283 ∧ crc16 nine = 0x29B1 := by decide +kernel

/-- R170: at 10,000 imp/kWh and 1 mWh, W = 100; at 1,600 imp/kWh and 1 µWh, W = 625,000. -/
theorem test_pulse_weights :
    weightOfSettings (2 ^ 44 + 10000 * 2 ^ 17) 3 = 100 ∧ weightOfSettings (2 ^ 44 + 1600 * 2 ^ 17) 0 = 625000 := by
  decide +kernel

/-- R246, worked example: the mapped value and the code of a residual of 4 under K = 3. -/
theorem test_rice_code : zigzag 4 = 8 ∧ riceBits 3 8 = [false, true, false, false, false] := by decide

/-- R314: E1 presents 0x0005 over a held 0x0002, and E0 after it 0x0006; each is accepted. -/
theorem test_claims_follow :
    nextClaim 0x0002 1 = some 0x0005 ∧ nextClaim 0x0005 0 = some 0x0006 ∧
    (presentClaim 0x0005 { State.reset with sluice.heldClaim := 0x0002 }).sluice.heldClaim = 0x0005 ∧
     (presentClaim 0x0002 { State.reset with sluice.heldClaim := 0x0005 }).sluice.heldClaim = 0x0005 := by
      decide +kernel

/-- R440: an interrupted commit leaves new data in the bytes below p and old data from p on. -/
theorem test_torn_commit :
    let st := Store.tear { cells := [(64, 1), (65, 2), (66, 3)], waiting := [⟨1, 0, [7, 8, 9]⟩] } 2
    st.cells = [(64, 7), (65, 8), (66, 3)] ∧ st.waiting = [] := by decide +kernel

/-- R468: the century ends at 99, and a year whose low bits say so has a 29 February. -/
theorem test_calendar_century :
     (Calendar.advance { seconds := 0x59, minutes := 0x59, hours := 0x23, weekday := 4, day := 0x31, month := 0x12, year := 0x99 })
      = { seconds := 0, minutes := 0, hours := 0, weekday := 5, day := 1, month := 1, year := 0 } ∧
     (Calendar.advance { seconds := 0x59, minutes := 0x59, hours := 0x23, weekday := 6, day := 0x28, month := 2, year := 0 })
       = { seconds := 0, minutes := 0, hours := 0, weekday := 0, day := 0x29, month := 2, year := 0 } := by
        decide +kernel

/-- R476, worked example: points 20 and 21 of −46 and −62, TRIM +3, 41.50 °C. -/
theorem test_compensation :
    let curve : List Int × Int := (List.replicate 20 0 ++ [-46, -62] ++ List.replicate 10 0, 3)
    let s := { up with backup.curve := some curve, backup.accumA := 0, backup.adjust := 0, backup.sec := 0 }
    let t := after (execCompensationMeasure 166 3000 s)
    correction (some curve) 166 = -48 ∧ t.backup.corrC = -48 ∧ t.backup.adjust = -12 ∧ t.backup.accumA = -582912 := by
  decide +kernel

end Sys2Proof.Tests
end

section
/-! Bytes on the two host ports (R47–R54): the rules of the UART receiver and of the SPI target, one for each way in
which a byte can meet the receiver, and the statement that bytes become frames. -/

namespace Sys2Proof.Laws
open Sys2Proof Sys2Proof.Machine

/-! ### Edges of the link -/

/-- An effect that leaves the evidence log alone is the answer of its edge. -/
theorem edge_next {s t : State} (h : Settled s) {f : State → State} (e : f s = t) (k : t.evidence = s.evidence) :
    edge f s = .next t := by
  have q : Settled (f s) := by rw [e, Settled, k]; exact h
  rw [edge_quiet h q, e]

/-! ### The UART receiver (R47, R48, R54) -/

section Uart
variable {s : State} {f : Bytes} {b : Byte}

/-- A byte without its stop bit ends the frame in progress, or is hunted. -/
theorem uartByteReceive_noStop (l : s.listening = true) (k : s.lockedOut .uart = false) :
    uartByteReceive b false s = if s.link.uartRx.frame.isSome then uartDiscard s else huntByte s := by
  simp [uartByteReceive, l, k]

/-- A byte with its stop bit reaches the receiver. -/
theorem uartByteReceive_stop (l : s.listening = true) (k : s.lockedOut .uart = false) :
    uartByteReceive b true s = uartByte b s := by
  simp [uartByteReceive, l, k]

/-- Between frames, a byte that is no Sync byte is hunted. -/
theorem uartByte_hunts (h : s.link.uartRx.frame = none) (n : b ≠ 0xA5) : uartByte b s = huntByte s := by
  simp only [uartByte, h, if_neg n]

/-- Between frames, a Sync byte opens a frame. -/
theorem uartByte_opens (h : s.link.uartRx.frame = none) :
    uartByte 0xA5 s = { s with link.uartRx := { frame := some [0xA5] } } := by
  simp only [uartByte, h, if_true]

/-- A raw Sync byte inside a frame discards it and opens the next one. -/
theorem uartByte_reopens (h : s.link.uartRx.frame = some f) :
    uartByte 0xA5 s = { uartDiscard s with link.uartRx := { frame := some [0xA5] } } := by
  simp only [uartByte, h, if_true]

/-- The escape byte waits for the byte that follows it. -/
theorem uartByte_escapes (h : s.link.uartRx.frame = some f) (e : s.link.uartRx.escape = false) :
    uartByte 0x7D s = { s with link.uartRx := { frame := some f, escape := true } } := by
  have n : (0x7D : Byte) ≠ 0xA5 := by decide
  simp only [uartByte, h, e, if_neg n, if_true, Bool.false_eq_true, if_false]

/-- A byte of the frame that is not stuffed joins it as it is. -/
theorem uartByte_joins (h : s.link.uartRx.frame = some f) (e : s.link.uartRx.escape = false) (n : b ≠ 0xA5)
    (m : b ≠ 0x7D) : uartByte b s = uartTake f b s := by
  simp only [uartByte, h, e, if_neg n, if_neg m, Bool.false_eq_true, if_false]

/-- Behind an escape the two stuffed forms join the frame unstuffed. -/
theorem uartByte_unstuffs (h : s.link.uartRx.frame = some f) (e : s.link.uartRx.escape = true)
    (o : b = 0x85 ∨ b = 0x5D) : uartByte b s = uartTake f (b ^^^ 0x20) s := by
  have n : b ≠ 0xA5 := by rcases o with rfl | rfl <;> decide
  simp only [uartByte, h, e, if_neg n, if_pos o, if_true]

/-- Behind an escape any other byte discards the frame. -/
theorem uartByte_badEscape (h : s.link.uartRx.frame = some f) (e : s.link.uartRx.escape = true) (n : b ≠ 0xA5)
    (o : ¬ (b = 0x85 ∨ b = 0x5D)) : uartByte b s = uartDiscard s := by
  simp only [uartByte, h, e, if_neg n, if_neg o, if_true]

/-- An unstuffed byte that leaves the frame unfinished lengthens it. -/
theorem uartTake_more (m : frameStep (f ++ [b]) = .more) :
    uartTake f b s = { s with link.uartRx := { frame := some (f ++ [b]) } } := by
  simp only [uartTake, m]

/-- A break discards the frame in progress and nothing else. -/
theorem uartBreak_eq (l : s.listening = true) (k : s.lockedOut .uart = false) :
    uartBreak s = if s.link.uartRx.frame.isSome then uartDiscard s else s := by
  simp [uartBreak, l, k]

/-- A gap of more than 5 ms discards the frame in progress and nothing else. -/
theorem uartTimeout_eq (l : s.listening = true) :
    uartTimeout s = if s.link.uartRx.frame.isSome then
      countFraming (fun f => { f with uartTimeout := f.uartTimeout + 1 }) { s with link.uartRx := {} } else s := by
  simp [uartTimeout, l]

/-- The step of a UART byte without its stop bit. -/
theorem exec_uartByteReceive_noStop {t : State} (h : Settled s) (l : s.listening = true)
    (k : s.lockedOut .uart = false) (e : (if s.link.uartRx.frame.isSome then uartDiscard s else huntByte s) = t)
    (q : t.evidence = s.evidence) : exec (.uartByteReceive b false) s = .next t :=
  edge_next h ((uartByteReceive_noStop l k).trans e) q

/-- The step of a UART byte with its stop bit. -/
theorem exec_uartByteReceive_stop {t : State} (h : Settled s) (l : s.listening = true)
    (k : s.lockedOut .uart = false) (e : uartByte b s = t) (q : t.evidence = s.evidence) :
    exec (.uartByteReceive b true) s = .next t :=
  edge_next h ((uartByteReceive_stop l k).trans e) q

end Uart

/-! ### The SPI target (R50–R53) -/

section Spi
variable {s : State} {f : Bytes} {b : Byte}

/-- What HSPI_DO carries in `t`, one transfer after `s`: fill, or the next byte of the oldest reply of the port (R52). -/
def SpiSends (s t : State) : Prop :=
  match s.spiReplies with
  | [] => t.link.spiOut = 0
  | r :: _ => t.link.spiOut = (r.frame[s.link.spiSent]?).getD 0 ∧
      t.link.spiSent = (if s.link.spiSent < r.frame.length then s.link.spiSent + 1 else s.link.spiSent)

/-- The next byte out touches the two fields of HSPI_DO only. -/
theorem spiNext_frame (s : State) :
    { spiNext s with link.spiOut := s.link.spiOut, link.spiSent := s.link.spiSent } = s := by
  simp only [spiNext]
  split
  · split <;> rfl
  · rfl

@[simp] theorem spiNext_spiRx (s : State) : (spiNext s).link.spiRx = s.link.spiRx :=
  congrArg (·.link.spiRx) (spiNext_frame s)

@[simp] theorem spiNext_framing (s : State) : (spiNext s).link.framing = s.link.framing :=
  congrArg (·.link.framing) (spiNext_frame s)

@[simp] theorem spiNext_evidence (s : State) : (spiNext s).evidence = s.evidence :=
  congrArg (·.evidence) (spiNext_frame s)

/-- The next byte out is the one that R52 names. -/
theorem spiNext_sends (s : State) : SpiSends s (spiNext s) := by
  unfold SpiSends spiNext
  cases s.spiReplies with
  | nil => rfl
  | cons r rest =>
    by_cases h : s.link.spiSent < r.frame.length
    · simp [h]
    · simp [h]

/-- A byte in that leaves the fields of HSPI_DO alone does not change what is sent. -/
theorem SpiSends.congr {t u : State} (h : SpiSends s t) (o : u.link.spiOut = t.link.spiOut)
    (n : u.link.spiSent = t.link.spiSent) : SpiSends s u := by
  unfold SpiSends at *
  rw [o, n]
  exact h

/-- Zeros between frames are fill. -/
theorem spiTake_fill (h : s.link.spiRx = none) : spiTake 0 s = s := by
  simp only [spiTake, h, if_true]

/-- Between frames, a Sync byte opens a frame. -/
theorem spiTake_opens (h : s.link.spiRx = none) : spiTake 0xA5 s = { s with link.spiRx := some [0xA5] } := by
  have n : (0xA5 : Byte) ≠ 0 := by decide
  simp only [spiTake, h, if_neg n, if_true]

/-- Between frames, any other byte is hunted. -/
theorem spiTake_hunts (h : s.link.spiRx = none) (z : b ≠ 0) (n : b ≠ 0xA5) : spiTake b s = huntByte s := by
  simp only [spiTake, h, if_neg z, if_neg n]

/-- A byte that leaves the frame unfinished lengthens it. -/
theorem spiTake_more (h : s.link.spiRx = some f) (m : frameStep (f ++ [b]) = .more) :
    spiTake b s = { s with link.spiRx := some (f ++ [b]) } := by
  simp only [spiTake, h, m]

/-- A transfer moves a byte each way. -/
theorem spiByteReceive_eq (l : s.listening = true) (c : s.link.csLow = true) (k : s.lockedOut .spi = false) :
    spiByteReceive b s = spiTake b (spiNext s) := by
  simp [spiByteReceive, l, c, k]

/-- The step of a transfer whose byte in leads to `t` and leaves the fields of HSPI_DO alone. -/
theorem exec_spiByteReceive {t : State} (h : Settled s) (l : s.listening = true) (c : s.link.csLow = true)
    (k : s.lockedOut .spi = false) (e : spiTake b (spiNext s) = t) (o : t.link.spiOut = (spiNext s).link.spiOut)
    (n : t.link.spiSent = (spiNext s).link.spiSent) (q : t.evidence = (spiNext s).evidence) :
    exec (.spiByteReceive b) s = .next t ∧ SpiSends s t :=
  ⟨edge_next h ((spiByteReceive_eq l c k).trans e) (q.trans (spiNext_evidence s)), (spiNext_sends s).congr o n⟩

/-- The end of a chip-select period discards a frame in progress and counts it, while host bytes are taken. -/
theorem spiCsRise_eq (s : State) :
    spiCsRise s =
      let out := { s with link := { s.link with csLow := false, spiRx := none, spiSent := 0, spiOut := 0 } }
      if s.listening = true ∧ s.link.spiRx ≠ none then
        countFraming (fun f => { f with spiCsDiscard := f.spiCsDiscard + 1 }) out else out := by
  simp [spiCsRise, Option.isSome_iff_ne_none]

end Spi

/-! ### Bytes become frames -/

/-- The UART receiver between frames. -/
theorem uart_between_frames {s : State} (h : Settled s) (l : s.listening = true) (k : s.lockedOut .uart = false)
    (hf : s.link.uartRx.frame = none) :
    (∀ b, exec (.uartByteReceive b false) s = .next (huntByte s)) ∧
    (∀ b, b ≠ 0xA5 → exec (.uartByteReceive b true) s = .next (huntByte s)) ∧
    exec (.uartByteReceive 0xA5 true) s = .next { s with link.uartRx := { frame := some [0xA5] } } ∧
    exec .uartBreak s = .next s ∧ exec .uartTimeout s = .next s := by
  refine ⟨fun b => ?noStop, fun b n => ?other, ?sync, ?brk, ?gap⟩
  case noStop => exact exec_uartByteReceive_noStop h l k (by simp [hf]) rfl
  case other => exact exec_uartByteReceive_stop h l k (uartByte_hunts hf n) rfl
  case sync => exact exec_uartByteReceive_stop h l k (uartByte_opens hf) rfl
  case brk => exact edge_next h ((uartBreak_eq l k).trans (by simp [hf])) rfl
  case gap => exact edge_next h ((uartTimeout_eq l).trans (by simp [hf])) rfl

/-- The UART receiver inside a frame, for the events that mean the same whether an escape is open or not. -/
theorem uart_inside_frame {s : State} {f : Bytes} (h : Settled s) (l : s.listening = true)
    (k : s.lockedOut .uart = false) (hf : s.link.uartRx.frame = some f) :
    (∀ b, exec (.uartByteReceive b false) s = .next (uartDiscard s)) ∧
    exec (.uartByteReceive 0xA5 true) s = .next { uartDiscard s with link.uartRx := { frame := some [0xA5] } } ∧
    exec .uartBreak s = .next (uartDiscard s) ∧
    exec .uartTimeout s = .next
      (countFraming (fun f => { f with uartTimeout := f.uartTimeout + 1 }) { s with link.uartRx := {} }) := by
  refine ⟨fun b => ?noStop, ?sync, ?brk, ?gap⟩
  case noStop => exact exec_uartByteReceive_noStop h l k (by simp [hf]) rfl
  case sync => exact exec_uartByteReceive_stop h l k (uartByte_reopens hf) rfl
  case brk => exact edge_next h ((uartBreak_eq l k).trans (by simp [hf])) rfl
  case gap => exact edge_next h ((uartTimeout_eq l).trans (by simp [hf])) rfl

/-- Settles O12: each clause is the rule above for the way in which its byte meets the receiver. All of them touch the
link only, so that the edge ends with its effect. -/
theorem bytesBecomeFrames : Obligations.BytesBecomeFrames := by
  unfold Obligations.BytesBecomeFrames
  refine ⟨fun s h l k => ⟨fun hf => uart_between_frames h l k hf, fun f hf => ?inside⟩, fun s h => ⟨?fall, ?transfer, ?rise⟩⟩
  case inside =>
    obtain ⟨noStop, sync, brk, gap⟩ := uart_inside_frame h l k hf
    refine ⟨noStop, sync, brk, gap, fun e => ⟨?_, fun b n m more => ?_⟩, fun e => ⟨fun more => ?_, fun b n n₁ n₂ => ?_⟩⟩
    · exact exec_uartByteReceive_stop h l k (uartByte_escapes hf e) rfl
    · exact exec_uartByteReceive_stop h l k ((uartByte_joins hf e n m).trans (uartTake_more more)) rfl
    · exact exec_uartByteReceive_stop h l k ((uartByte_unstuffs hf e (.inl rfl)).trans (uartTake_more more)) rfl
    · exact exec_uartByteReceive_stop h l k (uartByte_badEscape hf e n (not_or.mpr ⟨n₁, n₂⟩)) rfl
  case fall => exact edge_next h rfl rfl
  case rise =>
    refine edge_next h (spiCsRise_eq s) ?_
    dsimp only
    split <;> rfl
  case transfer =>
    intro l c k
    refine ⟨fun hr => ?between, fun f b hr more => ?inside⟩
    case inside =>
      obtain ⟨step, sends⟩ := exec_spiByteReceive h l c k (spiTake_more (by simp [hr]) more) rfl rfl rfl
      exact ⟨_, step, sends, rfl, spiNext_framing s⟩
    case between =>
      have idle : (spiNext s).link.spiRx = none := (spiNext_spiRx s).trans hr
      refine ⟨?fill, ?sync, fun b z n => ?other⟩
      case fill =>
        obtain ⟨step, sends⟩ := exec_spiByteReceive h l c k (spiTake_fill idle) rfl rfl rfl
        exact ⟨_, step, sends, idle, spiNext_framing s⟩
      case sync =>
        obtain ⟨step, sends⟩ := exec_spiByteReceive h l c k (spiTake_opens idle) rfl rfl rfl
        exact ⟨_, step, sends, rfl⟩
      case other =>
        obtain ⟨step, sends⟩ := exec_spiByteReceive h l c k (spiTake_hunts idle z n) rfl rfl rfl
        exact ⟨_, step, sends, idle, by simp [huntByte, countFraming]⟩

end Sys2Proof.Laws
end

section
/-! Timekeeping and the supplies (R465–R469, R586): how the calendar advances at a chronicle second, and a supply-fail
warning that finds a ninth pulse output. -/

namespace Sys2Proof.Laws
open Sys2Proof Sys2Proof.Machine

/-! ### How far a second carries (R468) -/

section Calendar
variable {c : Calendar}

/-- A step carries from nine or more units into the tens and adds a unit otherwise, on the numbers of the fields. -/
theorem stepField_eq {w : Nat} (x : BitVec w) :
    stepField x = BitVec.ofNat w (if x.toNat % 16 < 9 then x.toNat + 1 else x.toNat / 16 * 16 + 16) := by
  unfold stepField
  by_cases units : x.toNat % 16 < 9
  · rw [if_pos units, if_neg (by omega)]
    exact BitVec.eq_of_toNat_eq (by simp [BitVec.toNat_add])
  · rw [if_neg units, if_pos (by omega), Nat.succ_mul]

theorem advance_within_minute (s : c.seconds.toNat < 0x59) :
    c.advance = { c with seconds := stepField c.seconds } := by
  rw [Calendar.advance, if_pos s]

theorem advance_within_hour (s : 0x59 ≤ c.seconds.toNat) (m : c.minutes.toNat < 0x59) :
    c.advance = { c with seconds := 0, minutes := stepField c.minutes } := by
  rw [Calendar.advance, if_neg s.not_gt, if_pos m]

theorem advance_within_day (s : 0x59 ≤ c.seconds.toNat) (m : 0x59 ≤ c.minutes.toNat) (h : c.hours.toNat < 0x23) :
    c.advance = { c with seconds := 0, minutes := 0, hours := stepField c.hours } := by
  rw [Calendar.advance, if_neg s.not_gt, if_neg m.not_gt, if_pos h]

/-- At midnight the time of day starts again and the date advances. -/
theorem advance_midnight (s : 0x59 ≤ c.seconds.toNat) (m : 0x59 ≤ c.minutes.toNat) (h : 0x23 ≤ c.hours.toNat) :
    c.advance = { c.nextDay with seconds := 0, minutes := 0, hours := 0 } := by
  rw [Calendar.advance, if_neg s.not_gt, if_neg m.not_gt, if_neg h.not_gt]
  simp only [Calendar.nextDay]
  split_ifs <;> rfl

/-- The weekday of the next day, from 6 back to 0. -/
theorem nextDay_weekday (c : Calendar) :
    c.nextDay.weekday = if 6 ≤ c.weekday.toNat then 0 else c.weekday + 1 := by
  simp only [Calendar.nextDay]
  split_ifs <;> rfl

theorem nextDay_within_month (d : c.day.toNat < monthCode c.month c.year) :
    c.nextDay.day = stepField c.day ∧ c.nextDay.month = c.month ∧ c.nextDay.year = c.year := by
  simp only [Calendar.nextDay, if_pos d, and_self]

theorem nextDay_within_year (d : monthCode c.month c.year ≤ c.day.toNat) (m : c.month.toNat < 0x12) :
    c.nextDay.day = 1 ∧ c.nextDay.month = stepField c.month ∧ c.nextDay.year = c.year := by
  simp only [Calendar.nextDay, if_neg d.not_gt, if_pos m, and_self]

/-- The new year, after 99 the first of a century. -/
theorem nextDay_new_year (d : monthCode c.month c.year ≤ c.day.toNat) (m : 0x12 ≤ c.month.toNat) :
    c.nextDay.day = 1 ∧ c.nextDay.month = 1 ∧
      c.nextDay.year = if 0x99 ≤ c.year.toNat then 0 else stepField c.year := by
  simp only [Calendar.nextDay, if_neg d.not_gt, if_neg m.not_gt]
  by_cases y : c.year.toNat < 0x99
  · simp only [if_pos y, if_neg y.not_ge, and_self]
  · simp only [if_neg y, if_pos (Nat.not_lt.mp y), and_self]

end Calendar

/-! ### A chronicle second -/

/-- What the digital die does at a second leaves the backup domain alone. -/
@[simp] theorem digitalSecond_backup (s : State) : (digitalSecond s).backup = s.backup := by
  simp only [digitalSecond, saveDevice]
  split_ifs <;> rfl

/-- While the count runs, the calendar takes the value that waits for it, or advances. -/
theorem chronicleSecond_calendar {s : State} (halt : s.backup.halt = false)
    (crystal : s.backup.crystalStopped = false) :
    (chronicleSecond s).backup.calendar = s.backup.calendarLoad.getD s.backup.calendar.advance := by
  simp [chronicleSecond, halt, crystal, apply_ite State.backup]

/-- Settles O3: the calendar behind the second is the advanced one, and each of the six ways in which a second can carry
gives its fields. -/
theorem calendarAdvances : Obligations.CalendarAdvances := by
  unfold Obligations.CalendarAdvances
  intro up s settled halt crystal load
  refine ⟨_, edge_settled settled chronicleSecond, ?_⟩
  have backup : (chronicleSecond s).endEdge.backup = (chronicleSecond s).backup := by
    obtain ⟨-, -, -, -, -, -, -, -, -, -, -, -, kept, -⟩ := endEdge_frame (chronicleSecond s)
    exact kept
  rw [backup, chronicleSecond_calendar halt crystal, load, Option.getD_none]
  generalize s.backup.calendar = c
  have stepped : ∀ {w : Nat} (x : BitVec w), BitVec.ofNat w (up x.toNat) = stepField x := fun x => (stepField_eq x).symm
  simp only [stepped]
  rcases Nat.lt_or_ge c.seconds.toNat 0x59 with sec | sec
  · simp [advance_within_minute sec, sec.not_ge]
  rcases Nat.lt_or_ge c.minutes.toNat 0x59 with mins | mins
  · simp [advance_within_hour sec mins, sec, mins.not_ge]
  rcases Nat.lt_or_ge c.hours.toNat 0x23 with hour | hour
  · simp [advance_within_day sec mins hour, sec, mins, hour.not_ge]
  rw [advance_midnight sec mins hour]
  rcases Nat.lt_or_ge c.day.toNat (monthCode c.month c.year) with day | day
  · simp [nextDay_within_month day, nextDay_weekday, sec, mins, hour, day.not_ge]
  rcases Nat.lt_or_ge c.month.toNat 0x12 with month | month
  · simp [nextDay_within_year day month, nextDay_weekday, sec, mins, hour, day, month.not_ge]
  · simp [nextDay_new_year day month, nextDay_weekday, sec, mins, hour, day, month]

/-! ### The supply-fail warning -/

/-- A running device whose sluice lists a ninth pulse output, high, behind the eight that it has. -/
def nineOutputs : State :=
  { State.reset with start.phase := .running, sluice.pulses := List.replicate 8 {} ++ [{ pulse := true }] }

/-- The warning releases the outputs 0 to 7 by number, so that a ninth keeps its level. -/
theorem supplyWarning_ninthOutput :
    ((supplyWarning nineOutputs).endEdge.sluice.pulses.getD 8 {}).pulse = true := by
  decide +kernel

/-- Refutes O7: the statement bounds neither the outputs it speaks of nor the sluice's list of them, and in `nineOutputs` the
supply-fail warning leaves output 8 high. -/
theorem not_suppliesComeAndGo : ¬ Obligations.SuppliesComeAndGo := by
  unfold Obligations.SuppliesComeAndGo
  rintro ⟨-, atWarning⟩
  obtain ⟨warned, -⟩ := atWarning nineOutputs rfl
  obtain ⟨t, step, -, released, -⟩ := warned rfl (.inr rfl)
  have reached : exec .supplyFailWarning nineOutputs = .next (supplyWarning nineOutputs).endEdge :=
    edge_settled (s := nineOutputs) rfl supplyWarning
  obtain rfl : t = (supplyWarning nineOutputs).endEdge := Host.Outcome.next.inj (step.symm.trans reached)
  exact absurd (released 8) (by rw [supplyWarning_ninthOutput]; decide)

end Sys2Proof.Laws
end

section
/-! The log's commands (R497, R510, R511, R529): what a request leaves alone as it begins and as it is answered, the rules
of LOG_READ, of LOG_APPEND and of the alarm clear member, and the statement on the three. -/

namespace Sys2Proof.Laws
open Sys2Proof Sys2Proof.Machine

/-! ### A request begins, passes its checks and is answered -/

section Request
variable {op : Nat} {r : Req} {s : State} {st : Status} {ps : Bytes}

/-- A request that begins touches the link only. -/
theorem begun_frame (op : Nat) (r : Req) (s : State) : begun op r s = { s with link := (begun op r s).link } := by
  simp only [begun, lockPort]
  split <;> rfl

@[simp] theorem begun_evidence : (begun op r s).evidence = s.evidence := by rw [begun_frame]
@[simp] theorem begun_ticks : (begun op r s).ticks = s.ticks := by rw [begun_frame]; rfl
@[simp] theorem begun_sec : (begun op r s).sec = s.sec := by rw [begun_frame]; rfl
@[simp] theorem begun_protects (a : Nat) : (begun op r s).protects a = s.protects a := by rw [begun_frame]; rfl
@[simp] theorem begun_logRead (p : Bytes) : (begun op r s).logRead p = s.logRead p := by rw [begun_frame]; rfl
@[simp] theorem begun_appendsNow : (begun op r s).appendsNow = s.appendsNow := by rw [begun_frame]; rfl
@[simp] theorem begun_nextEntry : (begun op r s).nextEntry = s.nextEntry := by rw [begun_frame]; rfl
@[simp] theorem begun_logHasRoom (n : Nat) : (begun op r s).logHasRoom n = s.logHasRoom n := by
  rw [begun_frame]; rfl

/-- What passes the checks of R62 has the form of its opcode. -/
theorem paramsOk_of_judge {p : Bytes} (h : judge op p s = none) : paramsOk op p = true := by
  by_contra bad
  rw [Bool.not_eq_true] at bad
  revert h
  simp only [judge, bad]
  -- both ways to the end of the checks, through the archive's gate and past it, ask for the form
  cases s.archiveGate <;> split_ifs <;> simp_all

/-- A reply that is sent waits its turn or is queued; the rest of the link stays as it is. -/
theorem send_link (s : State) (x : Reply) :
    (s.send x).link = if s.behindHeld x.tag then { s.link with behind := s.link.behind ++ [x] }
      else { s.link with replies := s.link.replies ++ [x] } := by
  simp only [State.send]
  split <;> rfl

theorem send_evidence (s : State) (x : Reply) : (s.send x).evidence = s.evidence := by
  obtain ⟨l, e⟩ := send_frame (s := s) x
  rw [e]

@[simp] theorem answered_evidence (op : Nat) (r : Req) (st : Status) (ps : Bytes) (s : State) :
    (answered op r st ps s).evidence = s.evidence :=
  send_evidence _ _

/-- Of the state a reply shows no more than the link and the start. -/
theorem answered_link_congr {t : State} (link : t.link = s.link) (start : t.start = s.start) :
    (answered op r st ps t).link = (answered op r st ps s).link := by
  have held : t.behindHeld r.tag.toNat = s.behindHeld r.tag.toNat := by simp only [State.behindHeld, link]
  simp only [answered, State.alertFlag, State.limpFlag, link, start]
  rw [send_link, send_link, held, link]

theorem answered_begun_settled (h : Settled s) : Settled (answered op r st ps (begun op r s)) :=
  (congrArg Evidence.raised (answered_evidence op r st ps _)).trans (begun_settled h)

/-- A request that is answered and does nothing else. -/
theorem runs_answered {code : Option (BitVec 12)} (h : Settled s) (q : Takes op r s)
    (e : execute op r.tag.toNat r.params code (begun op r s) = .only (.done st ps) (begun op r s)) :
    edge (arrive op r code) s = .next (answered op r st ps (begun op r s)) := by
  have ran := runs_done (t := begun op r s) h q e
  rwa [endEdge_settled (answered_begun_settled h)] at ran

end Request

/-! ### The end of an edge in the log -/

@[simp] theorem endEdge_latched (s : State) : s.endEdge.evidence.latched = s.evidence.latched := by
  simp only [State.endEdge]
  split <;> rfl

@[simp] theorem endEdge_queue (s : State) :
    s.endEdge.evidence.queue = joinEdge s.evidence.queue s.evidence.raised := by
  simp only [State.endEdge]
  split <;> rfl

@[simp] theorem endEdge_link (s : State) : s.endEdge.link = s.link := (endEdge_frame s).2.1

/-- An extension that is raised alone waits behind all others, the first of its edge. -/
theorem joinEdge_extension (q : List Raised) {x : Raised} (ext : x.ext = true) :
    joinEdge q [x] = q ++ [{ x with sub := 0 }] := by
  simp [joinEdge, Raised.crystal, ext, sortRaised, insertRaised, numberRaised]

/-! ### LOG_READ (R510) -/

section LogRead
variable {s : State} {p : Bytes}

theorem logRead_notFound (ok : paramsOk 0x38 p = true)
    (out : getU p 0 4 < s.oldestEntry ∨ s.evidence.newest < getU p 0 4 ∨ getU p 0 4 = 0) :
    s.logRead p = refuse .notFound := by
  simp only [paramsOk, Bool.and_eq_true, beq_iff_eq, decide_eq_true_eq] at ok
  obtain ⟨⟨length, nonempty⟩, limit⟩ := ok
  simp [State.logRead, length, Nat.ne_of_gt nonempty, limit.not_gt, or_assoc, out]

/-- From an entry that the region still has, up to the newest and at most as many as were asked for. -/
theorem logRead_entries (ok : paramsOk 0x38 p = true) (old : s.oldestEntry ≤ getU p 0 4)
    (new : getU p 0 4 ≤ s.evidence.newest) (first : 1 ≤ getU p 0 4) :
    s.logRead p = .done .ok ((List.range (min (getU p 4 1) (s.evidence.newest + 1 - getU p 0 4))).flatMap
      (fun k => logEntry s.store.seen (getU p 0 4 + k))) := by
  simp only [paramsOk, Bool.and_eq_true, beq_iff_eq, decide_eq_true_eq] at ok
  obtain ⟨⟨length, nonempty⟩, limit⟩ := ok
  simp [State.logRead, length, Nat.ne_of_gt nonempty, limit.not_gt, old.not_gt, new.not_gt, Nat.ne_of_gt first, tabBytes]

end LogRead

/-! ### LOG_APPEND (R511) -/

section LogAppend
variable {s : State} {p : Bytes}

/-- A ninth note within the second. -/
theorem logAppend_busy (nonempty : 1 ≤ p.length) (limit : p.length ≤ 16) (unprotected : s.protects 0 = false)
    (full : 8 ≤ s.appendsNow) : logAppend p s = (refuse .busy, s) := by
  simp [logAppend, List.length_pos_iff.mp nonempty, limit.not_gt, unprotected, full]

theorem logAppend_overflow (nonempty : 1 ≤ p.length) (limit : p.length ≤ 16) (unprotected : s.protects 0 = false)
    (few : s.appendsNow < 8) (noRoom : s.logHasRoom s.nextEntry = false) : logAppend p s = (refuse .overflow, s) := by
  simp [logAppend, List.length_pos_iff.mp nonempty, limit.not_gt, unprotected, few.not_ge, noRoom]

/-- A note is counted in its second and raised; the answer is the number that it will take. -/
theorem logAppend_notes (nonempty : 1 ≤ p.length) (limit : p.length ≤ 16) (unprotected : s.protects 0 = false)
    (few : s.appendsNow < 8) (room : s.logHasRoom s.nextEntry = true) :
    logAppend p s = (.done .ok (leBytes 4 s.nextEntry),
      { s with evidence := { s.evidence with
        appends := s.appendsNow + 1, appendSec := s.sec
        raised := s.evidence.raised ++ [{ time := s.ticks, code := 0xF0, payload := p, host := true }] } }) := by
  simp [logAppend, List.length_pos_iff.mp nonempty, limit.not_gt, unprotected, few.not_ge, room]
  rfl

end LogAppend

/-! ### The alarm clear member (R497, R529) -/

@[simp] theorem saveLatched_evidence (s : State) : (saveLatched s).evidence = s.evidence := rfl
@[simp] theorem saveLatched_link (s : State) : (saveLatched s).link = s.link := rfl
@[simp] theorem saveLatched_start (s : State) : (saveLatched s).start = s.start := rfl

/-- A clearing touches the log only. -/
theorem clearCode_frame (code : Nat) (s : State) :
    clearCode code s = { s with evidence := (clearCode code s).evidence } := by
  simp only [clearCode]
  split <;> rfl

@[simp] theorem clearCode_link (code : Nat) (s : State) : (clearCode code s).link = s.link := by rw [clearCode_frame]
@[simp] theorem clearCode_start (code : Nat) (s : State) : (clearCode code s).start = s.start := by rw [clearCode_frame]

/-- A latched code that is cleared loses its bit and extends its latest entry. -/
theorem clearCode_of_latched {code : Nat} {s : State} (h : s.evidence.latched.getLsbD code = true) :
    (clearCode code s).evidence.latched = s.evidence.latched &&& ~~~(1#256 <<< code) ∧
    (clearCode code s).evidence.queue = s.evidence.queue ∧
    (clearCode code s).evidence.raised = s.evidence.raised ++
      [{ time := s.ticks, code := code, payload := leBytes 4 (getKey code s.evidence.latest) ++ [1], ext := true }] := by
  simp only [clearCode, h]
  exact ⟨rfl, rfl, rfl⟩

theorem clearCode_of_clear {code : Nat} {s : State} (h : s.evidence.latched.getLsbD code = false) :
    clearCode code s = s := by
  simp [clearCode, h]

/-- Only the code that is cleared leaves the latched ones. -/
theorem clearCode_getLsbD (code k : Nat) (s : State) :
    (clearCode code s).evidence.latched.getLsbD k = (s.evidence.latched.getLsbD k && k != code) := by
  cases h : s.evidence.latched.getLsbD code with
  | false =>
    rw [clearCode_of_clear h]
    by_cases e : k = code
    · subst e; simp [h]
    · simp [e]
  | true =>
    obtain ⟨latched, -, -⟩ := clearCode_of_latched h
    rw [latched, BitVec.getLsbD_and, BitVec.getLsbD_not, ← BitVec.twoPow_eq, BitVec.getLsbD_twoPow]
    cases g : s.evidence.latched.getLsbD k with
    | false => rfl
    | true =>
      have := BitVec.lt_of_getLsbD g
      have := BitVec.lt_of_getLsbD h
      have same : decide (code = k) = (k == code) :=
        Bool.eq_iff_iff.mpr (by rw [decide_eq_true_iff, beq_iff_eq, eq_comm])
      simp [*, bne]

/-- Codes cleared one after the other. -/
def clearCodes (codes : List Nat) (s : State) : State := codes.foldl (fun s c => clearCode c s) s

theorem clearCodes_frame (codes : List Nat) (s : State) :
    (clearCodes codes s).link = s.link ∧ (clearCodes codes s).start = s.start := by
  induction codes generalizing s with
  | nil => exact ⟨rfl, rfl⟩
  | cons c cs ih =>
    obtain ⟨link, start⟩ := ih (clearCode c s)
    exact ⟨link.trans (clearCode_link c s), start.trans (clearCode_start c s)⟩

theorem clearCodes_getLsbD (codes : List Nat) (k : Nat) (s : State) :
    (clearCodes codes s).evidence.latched.getLsbD k = (s.evidence.latched.getLsbD k && !codes.contains k) := by
  induction codes generalizing s with
  | nil => simp [clearCodes]
  | cons c cs ih =>
    have first : clearCodes (c :: cs) s = clearCodes cs (clearCode c s) := rfl
    rw [first, ih, clearCode_getLsbD, List.contains_cons, Bool.not_or, Bool.and_assoc]
    rfl

theorem alarmClear_one {code : Nat} (h : code < 256) (s : State) :
    alarmClear code s = (.ok, if s.evidence.latched.getLsbD code then saveLatched (clearCode code s) else s) := by
  cases latched : s.evidence.latched.getLsbD code with
  | false => simp [alarmClear, h.le.not_gt, h.ne, latched, clearCode_of_clear]
  | true => simp [alarmClear, h.le.not_gt, h.ne, latched]

theorem clearCodes_all_latched (s : State) : (clearCodes (List.range 256) s).evidence.latched = 0 := by
  apply BitVec.eq_of_getLsbD_eq
  intro k lt
  rw [clearCodes_getLsbD]
  simp [List.mem_range.mpr lt]

/-- The clearing of all codes leaves none latched; of what a reply shows it changes nothing. -/
theorem alarmClear_all (s : State) :
    ∃ t, alarmClear 0x100 s = (.ok, t) ∧ t.evidence.latched = 0 ∧ t.link = s.link ∧ t.start = s.start := by
  have latched := clearCodes_all_latched s
  obtain ⟨link, start⟩ := clearCodes_frame (List.range 256) s
  refine ⟨if (List.range 256).any (fun c => s.evidence.latched.getLsbD c) then saveLatched (clearCodes (List.range 256) s)
    else clearCodes (List.range 256) s, rfl, ?_⟩
  split
  · exact ⟨latched, link, start⟩
  · exact ⟨latched, link, start⟩

section AlarmClear
variable {s : State} {port : Port} {tag : BitVec 16} {v : Nat}

/-- A write of the alarm clear member runs as the clearing does, and is answered. -/
theorem alarmClear_runs {t : State} (h : Settled s) (lt : v < 65536)
    (q : Takes 0x02 (writeReq port tag 0x9002 (leBytes 2 v)) s)
    (e : alarmClear v (begun 0x02 (writeReq port tag 0x9002 (leBytes 2 v)) s) = (.ok, t)) :
    edge (setRow port tag 0x9002 (leBytes 2 v)) s =
      .next (answered 0x02 (writeReq port tag 0x9002 (leBytes 2 v)) .ok [] t).endEdge := by
  have value : leNat (leBytes 2 v) = v := by simp [leNat, leBytes]; omega
  refine runs_done h q ?_
  change execute 0x02 _ (leBytes 2 0x9002 ++ leBytes 2 v) none _ = _
  rw [execute_write _ _ (by decide) (by decide), setObject_writes (.inl rfl) rfl rfl rfl rfl]
  change Done.of (answerOf (alarmClear (leNat (leBytes 2 v)) _)) = _
  rw [value]
  exact congrArg (fun x => Done.of (answerOf x)) e

end AlarmClear

/-! ### The statement -/

/-- Settles O23: each clause is the rule above for the way in which its command ends. What begins a request leaves the log
alone, so that the rules hold of the state that the statement speaks of. -/
theorem logCommands : Obligations.LogCommands := by
  unfold Obligations.LogCommands
  intro s settled
  have nothing : ∀ op r, (begun op r s).evidence.raised = [] := fun op r => begun_settled settled
  refine ⟨fun r q => ?_, fun r q nonempty limit unprotected => ?_, fun port tag code => ?_, fun port tag => ?_⟩
  · have ok := paramsOk_of_judge q.passes
    refine ⟨fun out => runs_answered settled q ?_, fun old new first => runs_answered settled q ?_⟩
    · simp only [execute, begun_logRead, logRead_notFound ok out, refuse]
    · simp only [execute, begun_logRead, logRead_entries ok old new first]
  · rw [← begun_protects (op := 0x39) (r := r)] at unprotected
    refine ⟨fun full => ?_, fun few noRoom => ?_, fun few room => ?_⟩
    · have run := logAppend_busy nonempty limit unprotected (full.trans_eq begun_appendsNow.symm)
      exact runs_answered settled q (congrArg Done.of run)
    · have run := logAppend_overflow nonempty limit unprotected (begun_appendsNow.trans_lt few) (by simpa using noRoom)
      exact runs_answered settled q (congrArg Done.of run)
    · have run := logAppend_notes nonempty limit unprotected (begun_appendsNow.trans_lt few) (by simpa using room)
      rw [begun_appendsNow, begun_nextEntry, begun_sec, begun_ticks, nothing 0x39 r, List.nil_append] at run
      exact runs_done settled q (congrArg Done.of run)
  · intro r b q
    have run := alarmClear_one code.isLt b
    rw [show b.evidence = s.evidence from begun_evidence] at run
    refine ⟨fun clear => ?_, fun latched => ?_⟩
    · rw [clear] at run
      have ran := alarmClear_runs settled (by omega) q run
      rwa [if_neg (by decide), endEdge_settled (answered_begun_settled settled)] at ran
    · rw [latched, if_pos rfl] at run
      obtain ⟨bits, queue, raised⟩ := clearCode_of_latched (s := b) (begun_evidence ▸ latched)
      rw [begun_evidence] at bits queue
      rw [nothing, List.nil_append, begun_ticks, begun_evidence] at raised
      refine ⟨_, alarmClear_runs settled (by omega) q run, ?_, ?_, ?_⟩
      · rw [endEdge_latched, answered_evidence, saveLatched_evidence, bits]
      · rw [endEdge_queue, answered_evidence, saveLatched_evidence, queue, raised, joinEdge_extension _ rfl]
      · rw [endEdge_link]
        exact answered_link_congr (clearCode_link _ _) (clearCode_start _ _)
  · intro r q
    obtain ⟨t, run, latched, link, start⟩ := alarmClear_all (begun 0x02 r s)
    refine ⟨_, alarmClear_runs settled (by decide) q run, ?_, ?_⟩
    · rw [endEdge_latched, answered_evidence, latched]
    · rw [endEdge_link, answered_link_congr link start]

end Sys2Proof.Laws
end

section
/-! The machine as a whole: what power-on leaves, how a step takes its command, and that every step goes on. -/

namespace Sys2Proof.Laws
open Sys2Proof Sys2Proof.Machine

/-! ### One step -/

/-- Whatever its command does, each arm of `exec` ends with the end of an edge. -/
theorem exec_ends_edge (c : Instr) (s : State) : ∃ u : State, exec c s = .next u.endEdge := by
  cases c <;> exact ⟨_, rfl⟩

/-- The clocks of a crystal cycle move the strobe count only. -/
theorem reachClock_frame (n : Nat) (s : State) : ∃ q : Sense, s.reachClock n = { s with sense := q } := ⟨_, rfl⟩

@[simp] theorem reachClock_backup (n : Nat) (s : State) : (s.reachClock n).backup = s.backup := by
  obtain ⟨q, e⟩ := reachClock_frame n s
  rw [e]

/-- The idle tick moves the strobe count and the prescaler only. -/
theorem idle_frame (s : State) : ∃ (q : Sense) (b : Backup), idle s = { s with sense := q, backup := b } := by
  have reached : ∃ q : Sense, (if s.awake || s.start.phase = .failed then s.reachClock (s.sense.modCount.toNat + 125)
      else s) = { s with sense := q } := by
    split
    · exact reachClock_frame _ s
    · exact ⟨s.sense, rfl⟩
  obtain ⟨q, e⟩ := reached
  rw [idle, e]
  generalize 32767#15 = last
  dsimp only
  split
  · exact ⟨q, s.backup, rfl⟩
  · exact ⟨q, _, rfl⟩

/-- The idle tick by the conditions under which the count and the prescaler stand. -/
theorem idle_eq (s : State) : idle s =
    let u := if s.awake = true ∨ s.start.phase = .failed then s.reachClock (s.sense.modCount.toNat + 125) else s
    if s.backup.halt = true ∨ s.backup.crystalStopped = true ∨ s.backup.tick = 32767#15 then u
    else { u with backup := { s.backup with tick := s.backup.tick + 1 } } := by
  have same : (if s.awake = true ∨ s.start.phase = .failed then s.reachClock (s.sense.modCount.toNat + 125) else s).backup =
      s.backup := by split <;> simp
  unfold idle
  generalize 32767#15 = last
  simp only [Bool.or_eq_true, decide_eq_true_eq, same, or_assoc, beq_iff_eq]

/-- Settles O56: both clauses are what `step` and `idle` say of the two forms of the queue. -/
theorem stepTakesTheFrontCommand : Obligations.StepTakesTheFrontCommand := by
  unfold Obligations.StepTakesTheFrontCommand
  refine ⟨fun s c rest front => ?_, fun s empty => ?_⟩
  · simp only [step, front]
  · simp only [step, empty]
    exact congrArg _ (idle_eq s)

/-! ### Every step goes on -/

/-- Settles O57: a command ends with the end of an edge, which leaves nothing unordered. -/
theorem everyCommandAnswers : Obligations.EveryCommandAnswers := by
  unfold Obligations.EveryCommandAnswers
  intro c s
  obtain ⟨u, run⟩ := exec_ends_edge c s
  exact ⟨_, run, endEdge_raised u⟩

/-- From a settled state a step goes on to a settled state. -/
theorem step_settled {s : State} (h : Settled s) : ∃ t, step s = .next t ∧ Settled t := by
  cases front : s.pending with
  | nil =>
    obtain ⟨q, b, e⟩ := idle_frame s
    exact ⟨idle s, by simp only [step, front], by rw [e]; exact h⟩
  | cons c rest =>
    obtain ⟨t, run, settled⟩ := everyCommandAnswers c { s with pending := rest }
    exact ⟨t, by simp only [step, front, run], settled⟩

/-- The state behind a step that goes on, and the state itself behind one that does not. -/
def after (s : State) : State :=
  match step s with
  | .next t => t
  | _ => s

theorem step_after {s : State} (h : Settled s) : step s = .next (after s) ∧ Settled (after s) := by
  obtain ⟨t, run, settled⟩ := step_settled h
  have e : after s = t := by rw [after, run]
  exact ⟨by rw [run, e], e ▸ settled⟩

/-- Settles O58: the run that takes one step after the other, settled by induction on their number. -/
theorem runsStaySettled : Obligations.RunsStaySettled := by
  unfold Obligations.RunsStaySettled
  intro s h
  have settled : ∀ n, Settled (after^[n] s) := by
    intro n
    induction n with
    | zero => exact h
    | succ n ih => rw [Function.iterate_succ_apply']; exact (step_after ih).2
  refine ⟨fun n => after^[n] s, rfl, fun n => ⟨settled n, ?_⟩⟩
  exact (step_after (settled n)).1.trans (congrArg _ (Function.iterate_succ_apply' after n s).symm)

/-! ### Power-on -/

/-- Settles O60: each field of the reset state has its default, and the empty array is canonical. -/
theorem resetState : Obligations.ResetState := by
  unfold Obligations.ResetState
  exact ⟨rfl, rfl, wf_reset, rfl, rfl, rfl, rfl, rfl, rfl, rfl, rfl, rfl, rfl, rfl⟩

end Sys2Proof.Laws
end

section
/-! The power-line unit (R347, R352, R355, R365, R370): what its supply, its driver and its frames do to the line. -/

namespace Sys2Proof.Laws
open Sys2Proof Sys2Proof.Machine

section Line
variable {s : State} {f : LineFrame}

/-! ### Holding off and coming back (R365) -/

/-- A condition that cuts the frame in progress counts it and holds a usable unit off. -/
theorem holdLineOff_eq (s : State) : holdLineOff s = { s with line := { s.line with
    state := if s.line.usable then .heldOff else s.line.state
    sending := if s.line.usable then none else s.line.sending
    counters := if s.line.state = .transmitting then modAt s.line.counters 8 (· + 1) else s.line.counters } } := by
  have usable : (if s.line.state = .transmitting then countLine 8 s else s).line.usable = s.line.usable := by
    split <;> rfl
  simp only [holdLineOff, usable]
  split_ifs <;> rfl

/-- The unit listens again where it was held off and no condition stands. -/
theorem lineBack_eq (s : State) : lineBack s = { s with line := { s.line with
    state := if s.line.state = .heldOff ∧ s.line.vplcLow = false ∧ s.line.thermal = false then .listening
      else s.line.state } } := by
  simp only [lineBack, Bool.and_eq_true, decide_eq_true_eq, Bool.not_eq_true', and_assoc]
  split_ifs <;> rfl

/-! ### Sending and detecting (R347, R355) -/

theorem transmitEnd_idle (h : s.line.sending = none ∨ s.line.state ≠ .transmitting) : transmitEnd s = s := by
  unfold transmitEnd
  cases sending : s.line.sending with
  | none => rfl
  | some f => simp [h.resolve_left (by simp [sending])]

/-- The end of a frame takes effect once its last symbol has passed. -/
theorem transmitEnd_sending {f : LineSend} (h : s.line.sending = some f) (tx : s.line.state = .transmitting) :
    transmitEnd s = if f.start + s.view.symbolSpan f.tones.length ≤ s.instantNow then
      { s with line := { s.line with
        state := .listening, sending := none, counters := modAt s.line.counters 0 (· + 1)
        deafUntil := s.instantNow + s.view.symbolSpan 1 } } else s := by
  simp only [transmitEnd, h, tx, decide_true, Bool.true_and, decide_eq_true_eq]
  split_ifs <;> rfl

/-- The receiver hears by the lane that brings its samples and by what the unit does. -/
theorem hears_eq (s : State) : s.hears = true ↔
    (s.line.state = .listening ∨ s.line.state = .receiving) ∧ (s.sense.lanes.getD 4 {}).faulty = false := by
  simp [State.hears]

theorem frameDetected_eq (peak : Nat) (level noise : Int) (s : State) : frameDetected peak level noise s =
    if s.line.state = .listening ∧ (s.sense.lanes.getD 4 {}).faulty = false ∧ s.line.deafUntil ≤ s.instantNow ∧
        noise + 60 < level then
      { s with line := { s.line with state := .receiving, gain := gainStep peak, noise := noise } } else s := by
  have same : (s.hears && s.line.state = .listening && s.line.deafUntil ≤ s.instantNow && noise + 60 < level) = true ↔
      s.line.state = .listening ∧ (s.sense.lanes.getD 4 {}).faulty = false ∧ s.line.deafUntil ≤ s.instantNow ∧
        noise + 60 < level := by
    simp only [Bool.and_eq_true, hears_eq, decide_eq_true_eq]
    tauto
  simp only [frameDetected, same]

/-! ### The end of a reception (R352, R357, R370, R374) -/

theorem frameReject_deaf (h : (s.sense.lanes.getD 4 {}).faulty = true ∨
    (s.line.state ≠ .listening ∧ s.line.state ≠ .receiving) ∨ f.start < s.line.deafUntil) : frameReject f s = s := by
  have deaf : ¬ s.hearsFrame f = true := by
    simp only [State.hearsFrame, Bool.and_eq_true, hears_eq, decide_eq_true_eq]
    rintro ⟨⟨state, lane⟩, start⟩
    rcases h with faulty | away | early
    · exact Bool.noConfusion (lane.symm.trans faulty)
    · exact state.elim away.1 away.2
    · omega
  rw [frameReject, if_neg deaf]

theorem frameReject_heard (lane : (s.sense.lanes.getD 4 {}).faulty = false)
    (state : s.line.state = .listening ∨ s.line.state = .receiving) (start : s.line.deafUntil ≤ f.start) :
    frameReject f s = endReception f s := by
  have heard : s.hearsFrame f = true := by
    simp only [State.hearsFrame, Bool.and_eq_true, hears_eq, decide_eq_true_eq]
    exact ⟨⟨state, lane⟩, start⟩
  rw [frameReject, if_pos heard]

theorem modAt_id {α : Type} (l : List α) (i : Nat) {g : α → α} (h : ∀ x, g x = x) : modAt l i g = l := by
  refine List.ext_getElem? fun j => ?_
  rw [modAt_getElem?, funext h]
  split <;> simp

/-- A two-tone reception whose check fails leaves no trace but that the receiver listens. -/
theorem endReception_twoTone (two : s.view.zlTwoTone = true) (bad : checkOk f.bytes = false) :
    endReception f s = { s with line := { s.line with state := .listening } } := by
  simp only [endReception, State.judgeFrame, two, bad, if_true, Bool.false_eq_true, if_false]
  rw [modAt_id _ _ (by simp)]

/-- A four-tone reception that gives no frame is counted by its cause, with its blanked samples. -/
theorem endReception_fourTone {counters : List (BitVec 32)} (four : s.view.zlTwoTone = false)
    (cause : match readTones s.belowSquelch (s.symbolsOf f) with
      | .codeword => counters = modAt s.line.counters 3 (· + 1)
      | .header => counters = modAt s.line.counters 4 (· + 1)
      | .truncated => counters = modAt s.line.counters 5 (· + 1)
      | .nothing => counters = s.line.counters
      | .frame p _ _ _ => checkOk (p.map (BitVec.ofNat 8)) = false ∧ counters = s.line.counters) :
    endReception f s = { s with line := { s.line with
      state := .listening, counters := modAt counters 9 (· + BitVec.ofNat 32 (s.blankedSamples f)) } } := by
  simp only [endReception, State.judgeFrame, four, Bool.false_eq_true, if_false]
  cases read : readTones s.belowSquelch (s.symbolsOf f) with
  | frame p n slotSym relayed =>
    obtain ⟨bad, rfl⟩ := (by simpa only [read] using cause :
      checkOk (p.map (BitVec.ofNat 8)) = false ∧ counters = s.line.counters)
    simp [bad]
  | codeword => simp_all [countLine]
  | header => simp_all [countLine]
  | truncated => simp_all [countLine]
  | nothing => simp_all

end Line

/-- Settles O1: each event of the unit touches the line only, so that its edge ends with its effect. -/
theorem theLineUnitFollowsItsEvents : Obligations.TheLineUnitFollowsItsEvents := by
  unfold Obligations.TheLineUnitFollowsItsEvents
  refine ⟨fun s h => ⟨?low, ?hot, ?recovered, ?cool⟩, fun s h =>
    ⟨?limit, fun idle => ?idle, fun f sending tx => ?sent, fun peak level noise => ?detected, fun f deaf => ?deaf,
      fun f lane state start => ⟨fun two bad => ?twoTone, fun four counters cause => ?fourTone⟩⟩⟩
  case low => change execVplcLow s = _; exact edge_next h (holdLineOff_eq _) rfl
  case hot => change execThermal s = _; exact edge_next h (holdLineOff_eq _) rfl
  case recovered => change execVplcRecovered s = _; exact edge_next h ((lineBack_eq _).trans (by simp)) rfl
  case cool => change execThermalClear s = _; exact edge_next h ((lineBack_eq _).trans (by simp)) rfl
  case limit => exact edge_next h (by simp only [txLimit, countLine]) (by split <;> rfl)
  case idle => exact edge_next h (transmitEnd_idle idle) rfl
  case sent => exact edge_next h (transmitEnd_sending sending tx) (by split <;> rfl)
  case detected => exact edge_next h (frameDetected_eq peak level noise s) (by split <;> rfl)
  case deaf => exact edge_next h (frameReject_deaf deaf) rfl
  case twoTone => exact edge_next h ((frameReject_heard lane state start).trans (endReception_twoTone two bad)) rfl
  case fourTone => exact edge_next h ((frameReject_heard lane state start).trans (endReception_fourTone four cause)) rfl

end Sys2Proof.Laws
end

section
/-! Time and the backup domain (R465, R474–R485, R512, R513): seconds and the correction of the crystal, chronicle pairs,
wakes, and the events of the crystal and the tamper pins. -/

namespace Sys2Proof.Laws
open Sys2Proof Sys2Proof.Machine

/-- An effect that raises entries ends its edge with them. -/
theorem edge_ends {s t : State} (h : Settled s) {f : State → State} (e : f s = t) : edge f s = .next t.endEdge := by
  rw [edge_settled h, e]

/-- An event that acts under a condition and does nothing without it. -/
theorem edge_ite {s t : State} (h : Settled s) {f : State → State} {c : Prop} [Decidable c]
    (e : f s = if c then t else s) : edge f s = .next (if c then t.endEdge else s) := by
  by_cases q : c
  · rw [if_pos q] at e ⊢
    exact edge_ends h e
  · rw [if_neg q] at e ⊢
    exact edge_next h e rfl

/-! ### Chronicle seconds (R465) -/

@[simp] theorem digitalSecond_sense (s : State) : (digitalSecond s).sense = { s.sense with
    lanes := s.sense.lanes.map (fun (l : Lane) => ({ l with failedNow := 0 } : Lane))
    channels := ageChannels s.sense.channels } := by
  simp only [digitalSecond, saveDevice]
  split_ifs <;> rfl

@[simp] theorem digitalSecond_cells (s : State) : (digitalSecond s).store.cells = s.store.cells := by
  simp only [digitalSecond, saveDevice]
  split_ifs <;> simp

/-- The work of the digital die at a second touches the array and the store only. -/
theorem digitalSecond_frame (s : State) : { digitalSecond s with sense := s.sense, store := s.store } = s := by
  simp only [digitalSecond, saveDevice]
  split_ifs <;> rfl

/-- What the backup domain holds behind a second. -/
def nextSecond (s : State) : Backup :=
  { s.backup with
    sec := s.backup.sec + 1, tick := 0, calendar := s.backup.calendarLoad.getD s.backup.calendar.advance
    calendarLoad := none, measureDue := (s.backup.sec + 1).toNat % 32 == 0
    pairOut := if s.awake then some
      { sec := (s.backup.sec + 1).toNat, strobe := s.sense.modCount.toNat / 256, clock := s.sense.modCount.toNat % 256 }
      else none }

section Second
variable {s : State}

theorem chronicleSecond_stands (h : s.backup.halt = true ∨ s.backup.crystalStopped = true) : chronicleSecond s = s := by
  rw [chronicleSecond, if_pos (by simpa using h)]

/-- While the count runs, a second is that of the backup domain, and of the digital die where it is awake. -/
theorem chronicleSecond_runs (halt : s.backup.halt = false) (crystal : s.backup.crystalStopped = false) :
    chronicleSecond s = if s.awake then digitalSecond { s with backup := nextSecond s }
      else { s with backup := nextSecond s } := by
  rw [chronicleSecond, if_neg (by simp [halt, crystal])]
  rfl

end Second

/-! ### The correction of the crystal (R476, R485) -/

section Correction
variable {s : State}

theorem compensationMeasure_none {temp : Int} {vbat : Nat}
    (h : s.backup.crystalStopped = true ∨ s.backup.measureDue = false) : compensationMeasure temp vbat s = s := by
  rw [compensationMeasure, if_pos (by simpa using h.symm)]

theorem tickAdjust_waits (h : s.backup.crystalStopped = true ∨ s.ticks < s.backup.adjustDue) : tickAdjust s = s := by
  rw [tickAdjust, if_pos]
  rcases h with stopped | early
  · simp [stopped]
  · simp [early]

theorem tickAdjust_due (halt : s.backup.halt = false) (crystal : s.backup.crystalStopped = false)
    (due : s.backup.adjustDue ≤ s.ticks) : tickAdjust s =
      if 0 < s.backup.adjust ∧ s.backup.tick ≠ 32767 then
        { s with backup := { s.backup with tick := s.backup.tick + 1, adjust := s.backup.adjust - 1, adjusted := s.ticks } }
      else if s.backup.adjust < 0 ∧ s.backup.tick ≠ 0 then
        { s with backup := { s.backup with tick := s.backup.tick - 1, adjust := s.backup.adjust + 1, adjusted := s.ticks } }
      else s := by
  rw [tickAdjust, if_neg (by simp [halt, crystal, due])]
  simp only [Bool.and_eq_true, decide_eq_true_eq, bne_iff_ne]
  rfl

end Correction

/-- Settles O2: a second is that of the backup domain with that of the digital die behind it; the clauses on the correction
are the branches of its two events. -/
theorem secondsAndCompensation : Obligations.SecondsAndCompensation := by
  unfold Obligations.SecondsAndCompensation
  refine ⟨fun s h => ⟨fun stands => ?stands, fun halt crystal => ?runs⟩, fun s h =>
    ⟨fun temp vbat crystal due => ?measured, fun halt crystal due => ?adjusted, fun early => ?early,
      fun temp vbat idle => ?unmeasured, fun stopped => ?stopped⟩⟩
  case stands => exact edge_next h (chronicleSecond_stands stands) rfl
  case runs =>
    have run := chronicleSecond_runs halt crystal
    cases awake : s.awake with
    | false =>
      rw [awake, if_neg Bool.false_ne_true] at run
      exact ⟨_, edge_next h run rfl, by simp [nextSecond, awake], rfl, rfl, rfl⟩
    | true =>
      rw [awake, if_pos rfl] at run
      have frame := digitalSecond_frame { s with backup := nextSecond s }
      refine ⟨_, edge_next h run (congrArg State.evidence frame :), ?_, ?_, ?_, ?_⟩
      · rw [digitalSecond_backup]; simp [nextSecond, awake]
      · rw [digitalSecond_sense]; rfl
      · rw [digitalSecond_cells]
      · exact congrArg (fun t : State => { t with backup := s.backup }) frame
  case measured =>
    dsimp only
    by_cases event : vbat < 2600 ∧ (s.backup.measured = false ∨ s.backup.batLow = false)
    · rw [if_pos event]
      refine edge_ends h ?_
      simp [compensationMeasure, due, crystal, event, State.backupClass]
    · rw [if_neg event]
      refine edge_next h ?_ rfl
      simp [compensationMeasure, due, crystal, event]
  case adjusted => 
    refine edge_next h (tickAdjust_due halt crystal due) ?_
    split_ifs <;> rfl
  case early =>
    exact edge_next h (tickAdjust_waits (.inr (by simp [Backup.adjustDue, tps, Nat.mul_assoc, early]))) rfl
  case unmeasured => exact edge_next h (compensationMeasure_none idle) rfl
  case stopped => exact edge_next h (tickAdjust_waits (.inl stopped)) rfl

/-! ### Pairs, wakes and the shadow (R29, R474, R477, R478) -/

section Wake
variable {s : State}

theorem periodicWake_battery (due : s.backup.wakePeriod ≠ 0) (now : s.ticks / 128 % s.backup.wakePeriod = 0)
    (battery : s.backup.onBattery = true) : periodicWake s = { s with backup := { s.backup with
      wake := s.backup.wake || s.backup.wakeOnTick
      wakeSince := if s.backup.wakeOnTick then s.ticks else s.backup.wakeSince } } := by
  rw [periodicWake, if_neg (by simp [due, now]), if_pos battery]
  cases wakes : s.backup.wakeOnTick with
  | false => simp
  | true => simp [assertWake, battery]

theorem wakeHoldExpiry_eq (s : State) : wakeHoldExpiry s = { s with backup := { s.backup with
    wake := s.backup.wake &&
      (decide (s.backup.wakeHold = 0) || decide (s.ticks < s.backup.wakeSince + s.backup.wakeHold * 32768)) } } := by
  unfold wakeHoldExpiry tps
  split
  · next held => rw [held, Bool.and_true]
  · next past => rw [Bool.eq_false_iff.mpr past, Bool.and_false]

end Wake

/-- Settles O4: each event by its two or three conditions. -/
theorem pairsWakeAndShadow : Obligations.PairsWakeAndShadow := by
  unfold Obligations.PairsWakeAndShadow
  refine fun s h => ⟨fun p awake lane pair => ?pair, fun absent => ?noPair, fun off => ?noWake,
    fun due now => ⟨fun battery => ?battery, fun main awake => ?main⟩, ?expiry, ?shadow⟩
  case pair =>
    refine edge_next h ?_ rfl
    rw [chroniclePair, if_neg (by simp [awake, lane, -List.getD_eq_getElem?_getD])]
    cases pairs : s.time.pairs <;> simp [pair]
  case noPair =>
    refine edge_next h ?_ rfl
    unfold chroniclePair
    split
    · rfl
    · next taken =>
      have pair : s.backup.pairOut = none := by
        rcases absent with asleep | faulty | pair
        · simp [asleep] at taken
        · exact absurd (Bool.or_eq_true _ _ |>.mpr (.inr faulty)) taken
        · exact pair
      rw [pair]
  case noWake => exact edge_next h (by rw [periodicWake, if_pos (by simpa using off)]) rfl
  case battery => exact edge_next h (periodicWake_battery due now battery) rfl
  case main =>
    have up : (s.awake || s.start.phase == .failed) = true := by simpa using awake
    exact edge_next h (by rw [periodicWake, if_neg (by simp [due, now]), if_neg (by simp [main]), if_pos up]; rfl) rfl
  case expiry => exact edge_next h (wakeHoldExpiry_eq s) rfl
  case shadow => exact edge_next h rfl rfl

/-! ### Events of the backup domain (R481, R482) -/

theorem insertBackup_length (e : BackupEntry) (l : List BackupEntry) : (insertBackup e l).length = l.length + 1 := by
  induction l with
  | nil => rfl
  | cons x xs ih =>
    simp only [insertBackup]
    split <;> simp [ih]

theorem mem_insertBackup (e : BackupEntry) (l : List BackupEntry) : e ∈ insertBackup e l := by
  induction l with
  | nil => simp [insertBackup]
  | cons x xs ih =>
    simp only [insertBackup]
    split <;> simp [ih]

theorem numberBackup_length (sec tick n : Nat) (l : List BackupEntry) : (numberBackup sec tick n l).length = l.length := by
  induction l generalizing n with
  | nil => rfl
  | cons x xs ih =>
    simp only [numberBackup]
    split <;> simp [ih]

/-- Numbering gives an entry its place among those of its instant and nothing else. -/
theorem mem_numberBackup {sec tick : Nat} {e : BackupEntry} {l : List BackupEntry} (h : e ∈ l) (n : Nat) :
    ∃ m, { e with sub := m } ∈ numberBackup sec tick n l := by
  induction l generalizing n with
  | nil => simp at h
  | cons x xs ih =>
    simp only [numberBackup]
    rcases List.mem_cons.mp h with rfl | later
    · split
      · exact ⟨n, List.mem_cons_self⟩
      · exact ⟨e.sub, List.mem_cons_self⟩
    · split
      · obtain ⟨m, mem⟩ := ih later (n + 1)
        exact ⟨m, List.mem_cons_of_mem _ mem⟩
      · obtain ⟨m, mem⟩ := ih later n
        exact ⟨m, List.mem_cons_of_mem _ mem⟩

/-- An event of the backup domain before the transfer of the buffer. -/
def bufferedEntry (code data cls : Nat) (s : State) : BackupEntry :=
  { sec := s.sec, tick := s.backup.tick.toNat, code := code, cls := cls, sub := 0, data := data }

/-- What the backup domain holds behind an event that the log does not take. -/
def bufferedBackup (code data cls : Nat) (s : State) : Backup :=
  { s.backup with
    buffer := if s.backup.buffer.length < 8 then
        numberBackup s.sec s.backup.tick.toNat 0 (insertBackup (bufferedEntry code data cls s) s.backup.buffer)
      else s.backup.buffer
    overflow := if s.backup.buffer.length < 8 then s.backup.overflow
      else if s.backup.overflow = 255#8 then 255#8 else s.backup.overflow + 1
    wake := s.backup.wake || (s.backup.onBattery && s.backup.wakeOnAlarm && decide (1 ≤ cls))
    wakeSince := if s.backup.onBattery = true ∧ (s.backup.wake = true ∨ (s.backup.wakeOnAlarm = true ∧ 1 ≤ cls)) then s.ticks
      else s.backup.wakeSince }

/-- An event drives WAKE low on the battery, where one is asserted already or the event is an alarm that asks for it. -/
theorem assertWake_asked (cls : Nat) (s : State) :
    (if s.backup.wake || (1 ≤ cls && s.backup.wakeOnAlarm) then assertWake s else s) = { s with backup := { s.backup with
      wake := s.backup.wake || (s.backup.onBattery && s.backup.wakeOnAlarm && decide (1 ≤ cls))
      wakeSince := if s.backup.onBattery = true ∧ (s.backup.wake = true ∨ (s.backup.wakeOnAlarm = true ∧ 1 ≤ cls)) then
          s.ticks else s.backup.wakeSince } } := by
  by_cases asserted : s.backup.onBattery = true ∧ (s.backup.wake = true ∨ (s.backup.wakeOnAlarm = true ∧ 1 ≤ cls))
  · obtain ⟨battery, asks⟩ := asserted
    have low : (s.backup.wake || (s.backup.onBattery && s.backup.wakeOnAlarm && decide (1 ≤ cls))) = true := by
      simpa [battery] using asks
    rw [low, if_pos (by simpa [and_comm] using asks), assertWake, if_pos battery, if_pos ⟨battery, asks⟩]
  · have kept : (s.backup.wake || (s.backup.onBattery && s.backup.wakeOnAlarm && decide (1 ≤ cls))) = s.backup.wake := by
      cases low : s.backup.wake with
      | true => rfl
      | false => simp_all
    rw [kept, if_neg asserted, assertWake]
    split_ifs with asks battery
    · exact absurd ⟨battery, by simpa [and_comm] using asks⟩ asserted
    all_goals rfl

theorem backupEvent_buffered {s : State} (h : s.logsDirect = false) (code data cls : Nat) :
    backupEvent code data cls s = { s with backup := bufferedBackup code data cls s } := by
  unfold backupEvent bufferedBackup
  rw [if_neg (by simp [h])]
  dsimp only
  generalize numberBackup s.sec s.backup.tick.toNat 0 = number
  rw [assertWake_asked]
  split_ifs <;> rfl

/-- The overflow count of the buffer stops at 255. -/
theorem overflow_saturates (x : BitVec 8) : (if x = 255#8 then 255#8 else x + 1).toNat = min 255 (x.toNat + 1) := by
  split
  · next full => rw [full]; rfl
  · next room =>
    have : x.toNat ≠ 255 := fun q => room (BitVec.eq_of_toNat_eq q)
    have := x.isLt
    rw [BitVec.toNat_add]
    simp
    omega

/-! ### The crystal and the tamper pins (R479, R512, R513) -/

section Pin
variable {s : State} {n : Nat} {x : Bool} {samples past : List Bool}

theorem sampled_eq_false (h : (s.tamper.getD n {}).enable = false ∨ s.backup.crystalStopped = true) :
    s.sampled n = false := by
  rcases h with disabled | stopped
  · rw [State.sampled, disabled, Bool.false_and]
  · rw [State.sampled, stopped, Bool.not_true, Bool.and_false]

theorem tamper_unsampled (h : s.sampled n = false) : tamperAssert n samples s = s ∧ tamperRelease n samples s = s ∧
    tamperGlitch n samples s = s := by
  simp [tamperAssert, tamperRelease, tamperGlitch, h]

/-- Samples that agree with a state of the pin are those of the level that stands for it. -/
theorem agreeing_eq (p : TamperPin) (asserted : Bool) (l : List Bool) :
    p.agreeing asserted l = (l.takeWhile (fun y => y == (p.activeHigh == asserted))).length := by
  have same : (fun high => (high == p.activeHigh) == asserted) = fun y => y == (p.activeHigh == asserted) := by
    funext y
    cases y <;> cases p.activeHigh <;> cases asserted <;> rfl
  rw [TamperPin.agreeing, same]

/-- The newest sample agrees with the accepted state again, behind a change that did not last. -/
theorem glitched_iff (p : TamperPin) : p.glitched (x :: past) = true ↔ x = (p.activeHigh == p.asserted) ∧
    1 ≤ p.agreeing (!p.asserted) past ∧ p.agreeing (!p.asserted) past < p.debounce := by
  have newest : (p.agreeing p.asserted [x] == 1) = decide (x = (p.activeHigh == p.asserted)) := by
    rw [agreeing_eq]
    cases x <;> cases p.activeHigh <;> cases p.asserted <;> rfl
  simp only [TamperPin.glitched, newest, Bool.and_eq_true, decide_eq_true_eq, bne_iff_ne, Nat.one_le_iff_ne_zero, and_assoc]

theorem tamperAssert_sampled (h : s.sampled n = true) (released : (s.tamper.getD n {}).asserted = false) :
    tamperAssert n samples s = if (s.tamper.getD n {}).debounce ≤ (s.tamper.getD n {}).agreeing true samples then
      backupEvent 1 n (s.backupClass n) { s with tamper := modAt s.tamper n (fun p =>
        ({ p with asserted := true, assertions := p.assertions + 1 } : TamperPin)) } else s := by
  simp only [tamperAssert, h, released, Bool.not_true, Bool.false_or, decide_eq_true_eq, ← not_le, ite_not]
  rfl

theorem tamperRelease_sampled (h : s.sampled n = true) (asserted : (s.tamper.getD n {}).asserted = true) :
    tamperRelease n samples s = if (s.tamper.getD n {}).debounce ≤ (s.tamper.getD n {}).agreeing false samples then
      backupEvent 2 n (s.backupClass 4) { s with tamper := modAt s.tamper n (fun p =>
        ({ p with asserted := false } : TamperPin)) } else s := by
  simp only [tamperRelease, h, asserted, Bool.not_true, Bool.false_or, decide_eq_true_eq, ← not_le, ite_not]
  rfl

theorem tamperAssert_asserted (asserted : (s.tamper.getD n {}).asserted = true) : tamperAssert n samples s = s := by
  simp only [tamperAssert, asserted, Bool.or_true, Bool.true_or, if_true]

theorem tamperRelease_released (released : (s.tamper.getD n {}).asserted = false) : tamperRelease n samples s = s := by
  simp only [tamperRelease, released, Bool.not_false, Bool.or_true, Bool.true_or, if_true]

theorem tamperGlitch_sampled (h : s.sampled n = true) (main : s.backup.onBattery = false) :
    tamperGlitch n samples s = if (s.tamper.getD n {}).glitched samples then
      { s with tamper := modAt s.tamper n (fun p => { p with glitches := p.glitches + 1 }) } else s := by
  simp only [tamperGlitch, h, main, Bool.not_true, Bool.false_or, Bool.not_eq_true', ← Bool.not_eq_true, ite_not]
  rfl

theorem tamperGlitch_battery (battery : s.backup.onBattery = true) : tamperGlitch n samples s = s := by
  simp only [tamperGlitch, battery, Bool.or_true, Bool.true_or, if_true]

end Pin

/-- Settles O5: the events of the crystal and of the pins by their conditions, and what `backupEvent` leaves in the buffer. -/
theorem crystalAndTamperEvents : Obligations.CrystalAndTamperEvents := by
  unfold Obligations.CrystalAndTamperEvents
  refine ⟨fun s h => ⟨fun first awake => ?first, fun again => ?again, fun stopped => ?restart, fun runs => ?runs,
    fun n x past runs => ?pin, fun n samples off => ?off⟩, fun code data cls s =>
    ⟨fun direct => ?direct, fun buffered => ?buffered⟩⟩
  case first =>
    refine edge_ends h ?_
    have up : (!s.backup.oscStopped && (s.awake || s.start.phase == .failed)) = true := by simp [first, awake]
    rw [oscStopped]
    exact if_pos up
  case again => exact edge_next h (by simp [oscStopped, again]) rfl
  case restart => exact edge_ends h (by rw [oscRestart, if_pos stopped])
  case runs => exact edge_next h (by simp [oscRestart, runs]) rfl
  case off =>
    obtain ⟨asserts, releases, glitches⟩ := tamper_unsampled (samples := samples) (sampled_eq_false off)
    exact ⟨edge_next h asserts rfl, edge_next h releases rfl, edge_next h glitches rfl⟩
  case pin =>
    dsimp only
    intro enabled
    have sampled : s.sampled n = true := by rw [State.sampled, enabled, runs]; rfl
    refine ⟨fun released => ?_, fun asserted => ?_, fun asserted => ?_, fun released => ?_,
      fun main released => ?_, fun main asserted => ?_, fun battery => ?_⟩
    · have run := tamperAssert_sampled (samples := x :: past) sampled released
      rw [agreeing_eq, beq_true] at run
      exact edge_ite h run
    · have run := tamperRelease_sampled (samples := x :: past) sampled asserted
      rw [agreeing_eq, beq_false] at run
      exact edge_ite h run
    · exact edge_next h (tamperAssert_asserted asserted) rfl
    · exact edge_next h (tamperRelease_released released) rfl
    · have run := tamperGlitch_sampled (samples := x :: past) sampled main
      simp only [glitched_iff, released, agreeing_eq, beq_false, Bool.not_false, beq_true, Bool.eq_not] at run
      exact edge_next h run (by split <;> rfl)
    · have run := tamperGlitch_sampled (samples := x :: past) sampled main
      simp only [glitched_iff, asserted, agreeing_eq, beq_true, Bool.not_true, beq_false] at run
      exact edge_next h run (by split <;> rfl)
    · exact edge_next h (tamperGlitch_battery battery) rfl
  case direct => rw [backupEvent, if_pos direct]
  case buffered =>
    dsimp only
    rw [backupEvent_buffered buffered]
    refine ⟨fun space => ⟨?_, if_pos space, ?_⟩, fun full => ⟨if_neg full.not_gt, ?_⟩, rfl, rfl, rfl⟩
    · simp [bufferedBackup, space, numberBackup_length, insertBackup_length]
    · obtain ⟨m, mem⟩ := mem_numberBackup (sec := s.sec) (tick := s.backup.tick.toNat)
        (mem_insertBackup (bufferedEntry code data cls s) s.backup.buffer) 0
      exact ⟨_, by simpa [bufferedBackup, space] using mem, rfl, rfl, rfl, rfl, rfl⟩
    · simpa [bufferedBackup, full.not_gt] using overflow_saturates s.backup.overflow

end Sys2Proof.Laws
end

section
/-! Reset and the begin of a start (R439, R440, R534–R537, R543, R544, R576–R580, R587): what enters reset and what outlives
it, and how a start begins, fails and is tried again. -/

namespace Sys2Proof.Laws
open Sys2Proof Sys2Proof.Machine

/-! ### Entering reset -/

/-- An effect that leaves nothing unordered, whatever its edge began with, is the answer of its edge. -/
theorem edge_clears {s t : State} {f : State → State} (e : f { s with evidence.raised := [] } = t) (q : Settled t) :
    edge f s = .next t := by
  rw [edge, e, endEdge_settled q]

/-- What outlives a reset, and what starts again, between a state and the one that it leaves (R439, R534, R576). -/
def EntersReset (s t : State) : Prop :=
  t.start.phase = .inReset ∧ t.backup = s.backup ∧ t.tamper = s.tamper ∧ t.archive.flash = s.archive.flash ∧
  t.store.waiting = [] ∧ t.link = {} ∧ t.sense = {} ∧ t.billing = {} ∧ t.xa = {} ∧ t.recording = {} ∧
  t.engines = {} ∧ t.sluice = {} ∧ t.net = {} ∧ t.aux = {} ∧ t.time = {} ∧ t.evidence.queue = [] ∧
  t.line = { vplcLow := s.line.vplcLow, thermal := s.line.thermal } ∧ t.pending = s.pending

theorem enterReset_enters (next : Option (StartKind × Nat)) (e : StoreEnd) (power : Bool) (s : State) :
    EntersReset s (enterReset next e power s) :=
  ⟨rfl, rfl, rfl, rfl, rfl, rfl, rfl, rfl, rfl, rfl, rfl, rfl, rfl, rfl, rfl, rfl, rfl, rfl⟩

/-- RESET_N while the die has its supply. -/
theorem resetNAssert_powered {s : State} (torn : Nat) (h : s.start.phase ≠ .unpowered) : resetNAssert torn s =
    { enterReset (if s.start.phase = .inReset then s.start.next else some (.warm, 1)) (.torn torn) false s with
      power := { s.power with resetN := false }
      integrity := { cause := s.integrity.cause, holding := s.integrity.holding, heldWindows := s.integrity.heldWindows
                     spares := s.integrity.spares } } := by
  rw [resetNAssert, if_neg h]
  rfl

theorem supplyCollapse_powered {s : State} (torn : Nat) (h : s.start.phase ≠ .unpowered) : supplyCollapse torn s =
    { enterReset none (s.lostSupply torn) true s with start := { (enterReset none (s.lostSupply torn) true s).start with
        mainLost := s.start.mainLost } } := by
  rw [supplyCollapse, if_neg h]

theorem supplyRecovered_warned {s : State} (h : s.power.warning = true) : supplyRecovered s =
    { enterReset (some (.warm, 7)) .drained false s with power := { s.power with warning := false } } := by
  rw [supplyRecovered, if_neg (by simp [h])]
  rfl

/-- The page that stood in the buffer at the warning is whole, any other breaks where it stands. -/
theorem atReset_lostSupply (s : State) (torn : Nat) : s.store.atReset (s.lostSupply torn) =
    (s.store.tear (if s.power.warning ∧ s.store.firm then 64 else torn)).cells := by
  simp only [State.lostSupply, Store.atReset, Bool.and_eq_true]
  rfl

/-- Settles O6: every way into reset is `enterReset`, by what it does with the page in progress and by the start that
follows. -/
theorem resetKeepsWhatOutlivesIt : Obligations.ResetKeepsWhatOutlivesIt := by
  unfold Obligations.ResetKeepsWhatOutlivesIt
  intro s torn
  dsimp only
  refine ⟨fun up => ?assert, fun inReset => ?again, fun powered => ?collapse, fun warned => ?recovered,
    fun h unpowered => ⟨?noAssert, ?noCollapse⟩, fun h calm => ?noRecovery⟩
  case assert =>
    have powered : s.start.phase ≠ .unpowered := by rintro q; simp [q] at up
    have next : (if s.start.phase = .inReset then s.start.next else some (.warm, 1)) = some (.warm, 1) :=
      if_neg (by rintro q; simp [q] at up)
    refine ⟨_, edge_clears (resetNAssert_powered torn powered) rfl, enterReset_enters _ _ _ _, rfl, rfl, ?_⟩
    exact next
  case again =>
    have powered : s.start.phase ≠ .unpowered := by rw [inReset]; decide
    refine ⟨_, edge_clears (resetNAssert_powered torn powered) rfl, enterReset_enters _ _ _ _, rfl, rfl, if_pos inReset⟩
  case collapse =>
    exact ⟨_, edge_clears (supplyCollapse_powered torn powered) rfl,
      enterReset_enters none (s.lostSupply torn) true s, atReset_lostSupply s torn,
      rfl, rfl⟩
  case recovered =>
    exact ⟨_, edge_clears (supplyRecovered_warned warned) rfl, enterReset_enters _ _ _ _, rfl, rfl, rfl⟩
  case noAssert => exact edge_next h (if_pos unpowered) rfl
  case noCollapse => exact edge_next h (if_pos unpowered) rfl
  case noRecovery => exact edge_next h (if_pos (by simp [calm])) rfl

/-! ### The device state record (R445) -/

/-- A ring that is read counts its failed slots in the store. -/
theorem countRing_touches (r : Ring) (s : State) : ∃ st : Store, countRing r s = { s with store := st } := ⟨_, rfl⟩

/-- The record that a start takes up stands for the history, the store's bookkeeping and the retired engines. -/
theorem loadDevice_touches (s : State) : ∃ c l v f, ∃ (st : Store) (en : Engines), loadDevice s = { s with
    start := { s.start with startCount := c, limp := l, limpLevel := v, failures := f }, store := st, engines := en } := by
  obtain ⟨st, e⟩ := countRing_touches Ring.device s
  unfold loadDevice
  rw [e]
  dsimp only
  split
  · exact ⟨s.start.startCount, s.start.limp, s.start.limpLevel, s.start.failures, st, s.engines, rfl⟩
  · exact ⟨_, _, _, _, _, _, rfl⟩

/-- No record leaves the history as it is. -/
theorem loadDevice_none {s : State} (h : newestSlot s.store.seen Ring.device = none) :
    ∃ st : Store, loadDevice s = { s with store := st } := by
  unfold loadDevice
  dsimp only
  have none : newestSlot (countRing Ring.device s).store.seen Ring.device = none := h
  rw [none]
  exact ⟨_, rfl⟩

/-! ### The begin of a start (R535–R537) -/

/-- A failure is recorded in the history and the store. -/
theorem recordFailure_touches (cause : Nat) (s : State) : ∃ l v d, ∃ st : Store, recordFailure cause s = { s with
    start := { s.start with
      failures := ({ sec := s.sec, cause := cause, kind := s.start.kind } :: s.start.failures).take 3
      limp := l, limpLevel := v, cfgDefaulted := d }
    store := st } := ⟨_, _, _, _, rfl⟩

theorem placeEngines_touches (ok0 ok1 : Bool) (s : State) : ∃ en : Engines, placeEngines ok0 ok1 s = { s with engines := en } :=
  ⟨_, rfl⟩

theorem marginScan_touches (kind : StartKind) (s : State) : ∃ (n : Nat) (st : Store),
    marginScan kind s = { s with free := n, store := st } := by
  unfold marginScan
  split
  · exact ⟨_, _, rfl⟩
  · exact ⟨s.free, s.store, rfl⟩

/-- The state in which the kind of a start is chosen: the record read, and the failure recorded that a restart stands for. -/
def startHistory (s : State) : State :=
  match (loadDevice s).start.next with
  | some (_, 5) => recordFailure 4 (loadDevice s)
  | _ => if (loadDevice s).start.unrecorded then recordFailure 3 (loadDevice s) else loadDevice s

theorem startHistory_touches (s : State) : ∃ c l v f d, ∃ (st : Store) (en : Engines), startHistory s =
    { s with start := { s.start with startCount := c, limp := l, limpLevel := v, failures := f, cfgDefaulted := d }
             store := st, engines := en } := by
  obtain ⟨c, l, v, f, st, en, e⟩ := loadDevice_touches s
  unfold startHistory
  rw [e]
  split
  · exact ⟨c, _, _, _, _, _, en, rfl⟩
  · split
    · exact ⟨c, _, _, _, _, _, en, rfl⟩
    · exact ⟨c, l, v, f, s.start.cfgDefaulted, st, en, rfl⟩

/-- The kind and the cause with which a start begins. -/
def beginsAs (s : State) : StartKind × Nat := (startHistory s).startKind (newestSlot s.store.seen Ring.device).isSome

/-- A start begins. -/
theorem beginStart_eq (ok0 ok1 : Bool) (devices : List FlashDevice) (s : State) : beginStart ok0 ok1 devices s =
    let u := marginScan (beginsAs s).1 (placeEngines ok0 ok1 (startHistory s))
    { u with
      archive.devices := devices
      sense.slices := startSlices (beginsAs s).1 u.sense.slices
      tamper := u.tamper.map (fun (p : TamperPin) => ({ p with assertions := 0, glitches := 0 } : TamperPin))
      start := { u.start with
        phase := .starting, heldMask := if (beginsAs s).1 = .limp then u.part.units else 0, kind := (beginsAs s).1
        cause := (beginsAs s).2, next := none, unrecorded := false, coldCut := false, releaseSec := u.sec
        releaseTick := u.backup.tick.toNat, porAtStart := u.backup.bkpPor, oscStoppedAtStart := u.backup.oscStopped }
      power.resetN := true } := rfl

/-- What a start that begins holds, and what it leaves. -/
structure BeginsStart (devices : List FlashDevice) (s t : State) : Prop where
  phase : t.start.phase = .starting
  kind : t.start.kind = (beginsAs s).1
  cause : t.start.cause = (beginsAs s).2
  next : t.start.next = none
  releaseSec : t.start.releaseSec = s.sec
  releaseTick : t.start.releaseTick = s.backup.tick.toNat
  devices : t.archive.devices = devices
  resetN : t.power.resetN = true
  backup : t.backup = s.backup
  link : t.link = s.link
  evidence : t.evidence = s.evidence

theorem beginStart_begins (ok0 ok1 : Bool) (devices : List FlashDevice) (s : State) :
    BeginsStart devices s (beginStart ok0 ok1 devices s) := by
  obtain ⟨c, l, v, f, d, st, en, history⟩ := startHistory_touches s
  obtain ⟨en', placed⟩ := placeEngines_touches ok0 ok1 (startHistory s)
  obtain ⟨n, st', scanned⟩ := marginScan_touches (beginsAs s).1 (placeEngines ok0 ok1 (startHistory s))
  rw [beginStart_eq]
  dsimp only
  rw [scanned, placed, history]
  exact ⟨rfl, rfl, rfl, rfl, rfl, rfl, rfl, rfl, rfl, rfl, rfl⟩

section Kind
variable {s : State}

/-- A start that no restart asked for has CAUSE 0, and without a record it is a cold one, or limp. -/
theorem beginsAs_powerOn (next : s.start.next = none) (recorded : s.start.unrecorded = false) : (beginsAs s).2 = 0 ∧
    (newestSlot s.store.seen Ring.device = none → (beginsAs s).1 = if s.start.limp then .limp else .cold) := by
  obtain ⟨c, l, v, f, st, en, e⟩ := loadDevice_touches s
  have history : startHistory s = loadDevice s := by
    have nothing : (loadDevice s).start.next = none := by rw [e]; exact next
    have noFailure : (loadDevice s).start.unrecorded = false := by rw [e]; exact recorded
    rw [startHistory, nothing, noFailure]
    rfl
  constructor
  · rw [beginsAs, history, e]
    simp only [State.startKind, next]
    split <;> rfl
  · intro unread
    obtain ⟨st', e'⟩ := loadDevice_none unread
    rw [beginsAs, history, e', unread]
    simp only [State.startKind, next]
    split <;> rfl

/-- A start that a restart asked for with a cause of its own takes its kind, or is a limp one. -/
theorem beginsAs_next {k : StartKind} {c : Nat} (next : s.start.next = some (k, c)) (own : 1 < c) :
    (beginsAs s).2 = c ∧ ((beginsAs s).1 = k ∨ (beginsAs s).1 = .limp) := by
  obtain ⟨n, l, v, f, d, st, en, e⟩ := startHistory_touches s
  rw [beginsAs, e]
  simp only [State.startKind, next, if_neg own.not_ge]
  split
  · exact ⟨rfl, .inr rfl⟩
  · exact ⟨rfl, .inl rfl⟩

end Kind

/-! ### A start fails and is tried again (R543, R544) -/

/-- What a start that fails leaves. -/
theorem failStart_fails (cause : Nat) (s : State) : ∃ t, failStart cause s = t ∧ t.start.phase = .failed ∧
    t.start.retryAt = s.micros + (if s.start.kind = .limp ∧ s.start.limpLevel = 2 then 60000000 else 2000000) ∧
    t.start.failures = ({ sec := s.sec, cause := cause, kind := s.start.kind } :: s.start.failures).take 3 ∧
    t.link = s.link ∧ t.backup = s.backup ∧ t.billing = {} ∧ t.sluice = {} ∧ t.net = {} ∧ t.aux = {} ∧
    t.evidence = s.evidence := by
  refine ⟨_, rfl, rfl, ?_, rfl, rfl, rfl, rfl, rfl, rfl, rfl, rfl⟩
  simp only [failStart, Bool.and_eq_true, decide_eq_true_eq]
  rfl

/-- Settles O8: each event by its conditions; what begins is `beginStart`, and what fails `failStart`. -/
theorem startsBeginAndFail : Obligations.StartsBeginAndFail := by
  unfold Obligations.StartsBeginAndFail
  refine fun s h => ⟨fun e0 e1 flash inReset free => ?released, fun e0 e1 test flash off => ?unreleased, ?opened,
    fun early => ?early, fun starting late => ?failed, fun e0 e1 off => ?noRetry, fun e0 e1 failed calm due => ?retry⟩
  case released =>
    have b := beginStart_begins e0 e1 (probeDevices flash) s
    have run : resetRelease e0 e1 false flash s = beginStart e0 e1 (probeDevices flash) s :=
      if_neg (by simp [inReset, free])
    refine ⟨_, edge_next h run b.evidence, b.phase, b.releaseSec, b.releaseTick, b.devices, b.resetN, b.next, b.backup,
      fun next recorded => ?_⟩
    rw [b.cause, b.kind]
    exact beginsAs_powerOn next recorded
  case unreleased =>
    refine edge_next h (if_pos ?_) rfl
    rcases off with phase | held | high
    · simp [phase]
    · simp [Option.isSome_iff_ne_none.mpr held]
    · simp [high]
  case opened =>
    refine edge_next h ?_ (by split <;> rfl)
    simp [hostPortOpen, State.awake, or_assoc]
  case early => exact edge_next h (if_neg fun ⟨starting, late⟩ => early.elim (· starting) late.not_gt) rfl
  case failed =>
    obtain ⟨t, run, phase, retry, failures, link, backup, billing, sluice, net, aux, evidence⟩ := failStart_fails 1 s
    exact ⟨t, edge_next h ((if_pos ⟨starting, late⟩).trans run) evidence, phase, retry, failures, link, backup, billing,
      sluice, net, aux⟩
  case noRetry =>
    refine edge_next h (if_pos ?_) rfl
    rcases off with phase | warned | early
    · simp [phase]
    · simp [warned]
    · simp [early]
  case retry =>
    have b := beginStart_begins e0 e1 s.archive.devices (enterReset (some (s.start.kind, 6)) .drained false s)
    obtain ⟨cause, kind⟩ := beginsAs_next (s := enterReset (some (s.start.kind, 6)) .drained false s) rfl
      (by decide)
    have run : startRetry e0 e1 s = beginStart e0 e1 s.archive.devices (enterReset (some (s.start.kind, 6)) .drained false s) :=
      if_neg (by simp [failed, calm, due])
    have settled : Settled (startRetry e0 e1 s) := by rw [Settled, run, b.evidence]; rfl
    exact ⟨_, (edge_quiet h settled).trans (congrArg _ run), b.phase, b.cause.trans cause, b.kind ▸ kind, b.backup, b.link⟩

end Sys2Proof.Laws
end

section
/-! Requests and replies on the host link (R39–R58, R62, R79): the frames that become requests, the requests that run and
those that are not taken, and the replies that leave; and the exact accumulation of a register. -/

namespace Sys2Proof.Laws
open Sys2Proof Sys2Proof.Machine

/-! ### A register accumulates exactly (R134, R138) -/

/-- A sum split at the 48 bits of the residue is whole again, modulo the count. -/
theorem total_split (c : Nat) (r : Nat) :
    (c + r / 2 ^ 48) % 2 ^ 64 * 2 ^ 48 + r % 2 ^ 48 = (c * 2 ^ 48 + r) % 2 ^ 112 := by omega

/-- So is the sum of a signed increment. -/
theorem signed_split (c r : Nat) (d : Int) :
    (c + ((r + d) / 2 ^ 48 % (2 ^ 64 : Nat)).toNat) % 2 ^ 64 * 2 ^ 48 + ((r + d) % (2 ^ 48 : Nat)).toNat =
      (((c * 2 ^ 48 + r : Nat) + d) % 2 ^ 112).toNat := by
  norm_num
  omega

/-- Settles O29: the carry into the count is the quotient by the residue's 2^48, also of a negative sum. -/
theorem registersAccumulateExactly : Obligations.RegistersAccumulateExactly := by
  unfold Obligations.RegistersAccumulateExactly
  intro a inc d
  constructor
  · simp only [Acc.total, Acc.add, BitVec.toNat_add, BitVec.toNat_ofNat, Nat.add_mod_mod]
    rw [total_split, ← Nat.add_assoc]
  · simp only [Acc.total, Acc.addSigned, BitVec.toNat_add, BitVec.toNat_ofInt]
    rw [Int.fdiv_eq_ediv_of_nonneg _ (by norm_num)]
    exact signed_split _ _ _

/-! ### Requests that run (R55–R62) -/

section Requests
variable {s : State} {r : Req} {op : Nat}

/-- A request that is taken runs in the state in which it is outstanding, and its edge ends. -/
theorem runs_executed {code : Option (BitVec 12)} (h : Settled s) (q : Takes op r s) :
    edge (arrive op r code) s = .next
      (answerRequest r.port r.tag.toNat op (execute op r.tag.toNat r.params code (begun op r s))).endEdge := by
  rw [edge_settled h, arrive_fresh q.toFresh, runRequest, q.passes]

/-- The side effects of reads change none of the queues of the link, and raise nothing. -/
theorem readEffect_frame (i : Nat) (s : State) :
    (readEffect i s).evidence = s.evidence ∧ (readEffect i s).link.replies = s.link.replies ∧
    (readEffect i s).link.behind = s.link.behind ∧ (readEffect i s).link.outstanding = s.link.outstanding := by
  unfold readEffect
  split_ifs <;> exact ⟨rfl, rfl, rfl, rfl⟩

/-- A final reply joins the replies that wait, or those kept behind an earlier read. -/
theorem send_queues (x : Reply) (s : State) :
    (s.send x).link.replies = (if s.behindHeld x.tag then s.link.replies else s.link.replies ++ [x]) ∧
    (s.send x).link.behind = (if s.behindHeld x.tag then s.link.behind ++ [x] else s.link.behind) := by
  unfold State.send
  split <;> exact ⟨rfl, rfl⟩

/-- The answer of a GET_OBJ that is taken, as its reply stands in the queue. -/
theorem getObj_answer (h : Settled s) (q : Takes 0x01 r s) : let b := begun 0x01 r s
    ∃ t x, edge (arrive 0x01 r none) s = .next t ∧ x.tag = r.tag.toNat ∧ x.ends = true ∧
      ((b.spec (getU r.params 0 2)).access ≠ 0 → x.params = b.value (getU r.params 0 2)) ∧
      t.link.replies = (if b.behindHeld r.tag.toNat then b.link.replies else b.link.replies ++ [x]) ∧
      t.link.behind = (if b.behindHeld r.tag.toNat then b.link.behind ++ [x] else b.link.behind) := by
  intro b
  have raised : ∀ x : Reply, ∀ u : State, u.evidence = b.evidence → Settled (u.send x) := by
    intro x u e
    obtain ⟨l, k⟩ := send_frame u x
    rw [k, Settled]
    exact (congrArg _ e).trans (begun_settled (op := 0x01) (r := r) h)
  rw [runs_executed h q]
  by_cases found : (b.spec (getU r.params 0 2)).access = 0
  · have run : execute 0x01 r.tag.toNat r.params none (begun 0x01 r s) = .only (refuse .notFound) b := if_pos found
    rw [run, endEdge_settled]
    · obtain ⟨replies, behind⟩ := send_queues (s := b) _
      exact ⟨_, _, rfl, rfl, rfl, fun n => absurd found n, replies, behind⟩
    · exact raised _ _ rfl
  · obtain ⟨evidence, replies₀, behind₀, outstanding⟩ := readEffect_frame (getU r.params 0 2) b
    have run : execute 0x01 r.tag.toNat r.params none (begun 0x01 r s) =
        .of (.done (b.readStatus [getU r.params 0 2]) (b.value (getU r.params 0 2)), readEffect (getU r.params 0 2) b) :=
      if_neg found
    rw [run, endEdge_settled]
    · obtain ⟨replies, behind⟩ := send_queues (s := readEffect (getU r.params 0 2) b) _
      simp only [State.behindHeld, outstanding, replies₀] at replies
      simp only [State.behindHeld, outstanding, behind₀] at behind
      exact ⟨_, _, rfl, rfl, rfl, fun _ => rfl, replies, behind⟩
    · exact raised _ _ evidence

/-- Settles O10: every opcode arrives by the same rule, and a check that turns it away answers for it. -/
theorem requestsRunInOrder : Obligations.RequestsRunInOrder := by
  unfold Obligations.RequestsRunInOrder
  intro s r h
  have runs : ∀ op code, (Takes op r s → edge (arrive op r code) s = .next
        (answerRequest r.port r.tag.toNat op (execute op r.tag.toNat r.params code (begun op r s))).endEdge) ∧
      (∀ st ps, Fresh op r s → judge op r.params (begun op r s) = some (.done st ps) →
        edge (arrive op r code) s = .next (answered op r st ps (begun op r s))) :=
    fun op code => ⟨runs_executed h, fun st ps => runs_refused h⟩
  refine ⟨runs _ _, runs _ _, runs _ _, runs _ _, runs _ _, runs _ _, runs _ _, runs _ _, runs _ _, runs _ _, runs _ _,
    runs _ _, runs _ _, runs _ _, runs _ _, runs _ _, runs _ _, fun code => runs _ code, runs _ _, runs _ _, runs _ _,
    runs _ _, runs _ _, runs _ _, getObj_answer h, fun op known fresh => ?_⟩
  exact runs_refused h fresh (by simp [judge, known, refuse])

/-! ### Requests that are not taken (R39, R40, R42, R54–R58) -/

/-- An error reply, unless sixteen wait (R54). -/
theorem errorReply_eq (port : Port) (tag op : Nat) (st : Status) (s : State) : errorReply port tag op st s =
    if s.link.replies.countP (fun x => x.errorQueue) < 16 then
      s.pushReply { port := port, kind := .final, alert := s.alertFlag, limp := s.limpFlag, tag := tag, opcode := op
                    status := st, generation := s.link.generation, errorQueue := true }
    else countFraming (fun f => { f with noReplyDiscard := f.noReplyDiscard + 1 }) s := by
  unfold errorReply
  split <;> split <;> first | omega | rfl

theorem errorReply_evidence (port : Port) (tag op : Nat) (st : Status) (s : State) :
    (errorReply port tag op st s).evidence = s.evidence := by
  rw [errorReply_eq]
  split <;> rfl

theorem lockPort_evidence (p : Port) (s : State) : (lockPort p s).evidence = s.evidence := by
  unfold lockPort
  split <;> rfl

/-- The bytes of a frame before stuffing. -/
theorem hostFrame_length (flags : Byte) (tag op : Nat) (p : Bytes) : (hostFrame flags tag op p).length = 9 + p.length := by
  simp [hostFrame, coveredBytes, leBytes]; omega

/-- Stuffing takes no byte away. -/
theorem length_le_stuff (f : Bytes) : f.length ≤ (stuff f).length := by
  have each : ∀ l : Bytes, l.length ≤
      (l.flatMap (fun b => if b = 0xA5 ∨ b = 0x7D then [0x7D, b ^^^ 0x20] else [b])).length := by
    intro l
    induction l with
    | nil => exact Nat.le_refl _
    | cons b l ih =>
      rw [List.flatMap_cons, List.length_append, List.length_cons]
      split <;> simp only [List.length_cons, List.length_nil] <;> omega
  have rest := each (f.drop 1)
  rw [stuff, List.length_append, List.length_take]
  rw [List.length_drop] at rest
  omega

/-- On the locked-out port the bytes of a request are counted, all of them (R39). -/
theorem arrive_lockedOut (l : s.listening = true) (k : s.lockedOut r.port = true) : ∃ n, 9 + r.params.length ≤ n ∧
    arrive op r none s = countFraming (fun f => { f with otherPort := f.otherPort + BitVec.ofNat 16 n }) s := by
  have frame := hostFrame_length r.flags r.tag.toNat op r.params
  have stuffed := length_le_stuff (hostFrame r.flags r.tag.toNat op r.params)
  refine ⟨match r.port with
    | .spi => (hostFrame r.flags r.tag.toNat op r.params).length
    | .uart => (stuff (hostFrame r.flags r.tag.toNat op r.params)).length, ?_, ?_⟩
  · split <;> omega
  · simp only [arrive, l, k, countOther, Bool.not_true, Bool.false_eq_true, if_false, if_true]
    refine if_neg ?_
    split <;> omega

/-- A whole request on an open port is looked at once it has locked the port. -/
theorem arrive_looked (l : s.listening = true) (k : s.lockedOut r.port = false) (n : r.params.length ≤ 4096) :
    arrive op r none s = hostRequest op r none (lockPort r.port s) := by
  simp only [arrive, l, k, Bool.not_true, Bool.false_eq_true, if_false, if_neg (Nat.not_lt.2 n)]

/-- One with Flags or tag out of range is answered BAD_PARAM. -/
theorem hostRequest_badParam {code : Option (BitVec 12)} (bad : r.tag = 0xFFFF ∨ r.flags ≠ 0) (s : State) :
    hostRequest op r code s = errorReply r.port r.tag.toNat op .badParam s := by
  have : (r.tag.toNat = 0xFFFF || r.flags != 0) = true := by
    rcases bad with t | f
    · simp [t]
    · simpa using .inr f
  simp only [hostRequest, this, if_true]

section InRange
variable {code : Option (BitVec 12)} (ht : r.tag ≠ 0xFFFF) (hf : r.flags = 0)
include ht hf

/-- One within them is compared with the outstanding command of its tag, then with the cache, then with the limit. -/
theorem hostRequest_inRange (s : State) : hostRequest op r code s =
    match s.command r.tag.toNat with
    | some c =>
      if c.opcode = op && c.length = r.params.length + 3 && c.check = checkOf op r then
        (match c.accepted with | some a => s.pushReply { a with retry := true } | none => s)
      else errorReply r.port r.tag.toNat op .badParam s
    | none =>
      match s.link.cache.find? (fun e => e.tag == r.tag.toNat && e.opcode == op && e.length == r.params.length + 3 &&
          e.check == checkOf op r) with
      | some e => s.pushReply { e.reply with retry := true }
      | none =>
        if s.overLimitFor op then errorReply r.port r.tag.toNat op .busy s
        else newRequest op (checkOf op r) r code s := by
  have n : r.tag.toNat ≠ 0xFFFF := fun e => ht (BitVec.eq_of_toNat_eq e)
  have : (r.tag.toNat = 0xFFFF || r.flags != 0) = false := by simp [hf, n]
  simp only [hostRequest, this, Bool.false_eq_true, if_false]
  rfl

/-- The duplicate of an outstanding command brings its ACCEPTED again, where it has one. -/
theorem hostRequest_duplicate {c : Command} (e : s.command r.tag.toNat = some c) (o : c.opcode = op)
    (n : c.length = r.params.length + 3) (k : c.check = checkOf op r) : hostRequest op r code s =
      match c.accepted with | some a => s.pushReply { a with retry := true } | none => s := by
  simp [hostRequest_inRange ht hf, e, o, n, k]

/-- Another opcode under the tag of an outstanding command is answered BAD_PARAM. -/
theorem hostRequest_reused {c : Command} (e : s.command r.tag.toNat = some c) (o : c.opcode ≠ op) :
    hostRequest op r code s = errorReply r.port r.tag.toNat op .badParam s := by
  simp [hostRequest_inRange ht hf, e, o]

/-- The duplicate of an ended command brings its cached reply. -/
theorem hostRequest_cached {e : Cached} (c : s.command r.tag.toNat = none)
    (f : s.link.cache.find? (fun e => e.tag == r.tag.toNat && e.opcode == op && e.length == r.params.length + 3 &&
      e.check == checkOf op r) = some e) : hostRequest op r code s = s.pushReply { e.reply with retry := true } := by
  simp only [hostRequest_inRange ht hf, c, f]

/-- Past the outstanding limit a request is answered BUSY. -/
theorem hostRequest_overLimit (c : s.command r.tag.toNat = none)
    (f : s.link.cache.find? (fun e => e.tag == r.tag.toNat && e.opcode == op && e.length == r.params.length + 3 &&
      e.check == checkOf op r) = none) (o : s.overLimitFor op = true) :
    hostRequest op r code s = errorReply r.port r.tag.toNat op .busy s := by
  simp only [hostRequest_inRange ht hf, c, f, o, if_true]

/-- A read that a takeover holds back waits outstanding (R58). -/
theorem hostRequest_held (c : s.command r.tag.toNat = none) (u : s.link.cache.any (fun e => e.tag == r.tag.toNat) = false)
    (o : s.overLimitFor op = false) (b : s.holdsBack op r.params = true) : hostRequest op r code s =
      { s with link := { s.link with outstanding := s.link.outstanding ++ [{
          port := r.port, tag := r.tag.toNat, opcode := op, length := r.params.length + 3
          check := checkOf op r, work := .heldRead r op code }] } } := by
  have f : s.link.cache.find? (fun e => e.tag == r.tag.toNat && e.opcode == op && e.length == r.params.length + 3 &&
      e.check == checkOf op r) = none := by
    simpa only [Bool.and_assoc] using cache_find_none (p := fun e => e.opcode == op && (e.length == r.params.length + 3 &&
      e.check == checkOf op r)) u
  have kept : s.link.cache.filter (fun e => e.tag != r.tag.toNat) = s.link.cache := by
    rw [List.filter_eq_self]
    intro e he
    simpa using List.any_eq_false.1 u e he
  simp only [hostRequest_inRange ht hf, c, f, o, Bool.false_eq_true, if_false, newRequest, b, if_true, kept]

end InRange

/-- Settles O11: each way of not being taken, by the order in which a request is looked at. -/
theorem requestsNotTaken : Obligations.RequestsNotTaken := by
  unfold Obligations.RequestsNotTaken
  intro s r h
  dsimp only
  have err : ∀ st, errorReply r.port r.tag.toNat 0x05 st (lockPort r.port s) = _ := fun st => errorReply_eq _ _ _ st _
  refine ⟨fun l => edge_next h (if_pos (by simp [l])) rfl, fun l k => ?_, fun l k => ⟨fun n => ?_, fun n => ⟨fun bad => ?_,
    fun ht hf => ⟨fun c hc => ⟨fun o n' k' => ?_, fun o => ?_⟩, fun hc => ⟨fun e he => ?_, fun he o => ?_, fun u o sp tk b => ?_⟩⟩⟩⟩⟩
  · obtain ⟨n, le, e⟩ := arrive_lockedOut (op := 0x05) l k
    exact ⟨n, le, edge_next h e rfl⟩
  · refine edge_next h ?_ rfl
    simp only [arrive, l, k, Bool.not_true, Bool.false_eq_true, if_false, if_pos n]
  · refine edge_next h (((arrive_looked l k n).trans (hostRequest_badParam bad _)).trans (err _)) ?_
    rw [← err, errorReply_evidence, lockPort_evidence]
  · refine edge_next h ((arrive_looked l k n).trans (hostRequest_duplicate ht hf hc o n' k')) ?_
    split <;> exact lockPort_evidence _ _
  · refine edge_next h (((arrive_looked l k n).trans (hostRequest_reused ht hf hc o)).trans (err _)) ?_
    rw [← err, errorReply_evidence, lockPort_evidence]
  · exact edge_next h ((arrive_looked l k n).trans (hostRequest_cached ht hf hc he)) (lockPort_evidence _ _)
  · refine edge_next h (((arrive_looked l k n).trans (hostRequest_overLimit ht hf hc he o)).trans (err _)) ?_
    rw [← err, errorReply_evidence, lockPort_evidence]
  · refine edge_next h ((arrive_looked l k n).trans (hostRequest_held ht hf hc u o ?_)) (lockPort_evidence _ _)
    rw [holdsBack_lockPort]
    simp [State.holdsBack, sp, tk, b]

end Requests

end Sys2Proof.Laws
end

section
/-! Frames that end (R42, R43, R47, R51, R54) and replies that leave (R53, R55, R56, R78). -/

namespace Sys2Proof.Laws
open Sys2Proof Sys2Proof.Machine

/-! ### Whole frames -/

section Frames
variable {s : State} {f g : Bytes} {b : Byte} {l : Nat} {port : Port}

/-- The request that the bytes of a whole frame spell. -/
def spelled (port : Port) (g : Bytes) (l : Nat) : Req :=
  { port := port, flags := (g.drop 1).headD 0, tag := BitVec.ofNat 16 (getU g 4 2), params := (g.drop 7).take (l - 3) }

theorem deliver_badCheck (n : ¬ crc16 ((g.drop 1).take (l + 3)) = getU g (l + 4) 2) : deliver port g l s =
    errorReply port 0xFFFF 0x00 .badCheck (countFraming (fun x => { x with checkErr := x.checkErr + 1 }) s) :=
  if_pos n

theorem deliver_request (y : crc16 ((g.drop 1).take (l + 3)) = getU g (l + 4) 2) : deliver port g l s =
    hostRequest (getU g 6 1) (spelled port g l)
      (if s.freeValue % 4097 = 4096 then none else some (BitVec.ofNat 12 s.freeValue))
      (lockPort port (if getU g 6 1 = 0x31 then { s with free := s.free + 1 } else s)) :=
  if_neg (not_not.2 y)

theorem uartTake_badLength (e : frameStep (f ++ [b]) = .badLength) : uartTake f b s =
    countFraming (fun x => { x with lengthErr := x.lengthErr + 1 }) { s with link.uartRx := {} } := by
  simp only [uartTake, e]

theorem uartTake_whole (e : frameStep (f ++ [b]) = .whole l) :
    uartTake f b s = deliver .uart (f ++ [b]) l { s with link.uartRx := {} } := by
  simp only [uartTake, e]

theorem spiTake_badLength (h : s.link.spiRx = some f) (e : frameStep (f ++ [b]) = .badLength) : spiTake b s =
    countFraming (fun x => { x with lengthErr := x.lengthErr + 1 }) { s with link.spiRx := none } := by
  simp only [spiTake, h, e]

theorem spiTake_whole (h : s.link.spiRx = some f) (e : frameStep (f ++ [b]) = .whole l) :
    spiTake b s = deliver .spi (f ++ [b]) l { s with link.spiRx := none } := by
  simp only [spiTake, h, e]

theorem spiNext_free (s : State) : (spiNext s).free = s.free := congrArg (·.free) (spiNext_frame s)

/-- What the end of a frame comes to, for a byte that ends it with `idle` as the state behind the receiver. -/
theorem frame_ends {e : State → State} {idle : State} (h : Settled s) (bad : frameStep g = .badLength →
      e s = countFraming (fun x => { x with lengthErr := x.lengthErr + 1 }) idle)
    (whole : ∀ l, frameStep g = .whole l → e s = deliver port g l idle) (q : idle.evidence = s.evidence)
    (free : idle.free = s.free) :
    (frameStep g = .badLength → edge e s = .next (countFraming (fun x => { x with lengthErr := x.lengthErr + 1 }) idle)) ∧
    (∀ l, frameStep g = .whole l →
      (¬ crc16 ((g.drop 1).take (l + 3)) = getU g (l + 4) 2 → edge e s = .next
        (errorReply port 0xFFFF 0x00 .badCheck (countFraming (fun x => { x with checkErr := x.checkErr + 1 }) idle))) ∧
      (crc16 ((g.drop 1).take (l + 3)) = getU g (l + 4) 2 → edge e s = .next (hostRequest (getU g 6 1) (spelled port g l)
        (if s.freeValue % 4097 = 4096 then none else some (BitVec.ofNat 12 s.freeValue))
        (lockPort port (if getU g 6 1 = 0x31 then { idle with free := s.free + 1 } else idle))).endEdge)) := by
  refine ⟨fun w => edge_next h (bad w) q, fun l w => ⟨fun n => ?_, fun y => ?_⟩⟩
  · exact edge_next h ((whole l w).trans (deliver_badCheck n)) ((errorReply_evidence _ _ _ _ _).trans q)
  · refine edge_ends h ((whole l w).trans ((deliver_request y).trans ?_))
    rw [show idle.freeValue = s.freeValue from congrArg Config.freeValue free, free]

/-- Settles O13: on either port the byte leads to `deliver` from a receiver that is idle again. -/
theorem framesAreChecked : Obligations.FramesAreChecked := by
  unfold Obligations.FramesAreChecked
  intro s f b h l
  dsimp only
  refine ⟨fun k hf n m => ?_, fun k hf o => ?_, fun k c hf => ?_⟩
  · have take : uartByteReceive b true s = uartTake f b s :=
      (uartByteReceive_stop l k).trans (uartByte_joins (by rw [hf]) (by rw [hf]) n m)
    exact frame_ends h (fun w => take.trans (uartTake_badLength w)) (fun _ w => take.trans (uartTake_whole w)) rfl rfl
  · have take : uartByteReceive b true s = uartTake f (b ^^^ 0x20) s :=
      (uartByteReceive_stop l k).trans (uartByte_unstuffs (by rw [hf]) (by rw [hf]) o)
    exact frame_ends h (fun w => take.trans (uartTake_badLength w)) (fun _ w => take.trans (uartTake_whole w)) rfl rfl
  · have take : spiByteReceive b s = spiTake b (spiNext s) := spiByteReceive_eq l c k
    have inside : (spiNext s).link.spiRx = some f := (spiNext_spiRx s).trans hf
    exact frame_ends h (fun w => take.trans (spiTake_badLength inside w)) (fun _ w => take.trans (spiTake_whole inside w))
      (spiNext_evidence s) (spiNext_free s)

end Frames

/-! ### Replies that leave -/

section Replies
variable {s : State} {port : Port} {r : Reply} {rest : List Reply}

/-- The oldest reply of a port is taken, those before and behind it stay. -/
theorem takeReply_oldest {before : List Reply} (b : ∀ x ∈ before, x.port ≠ port) (p : r.port = port) :
    takeReply port (before ++ r :: rest) = some (r, before ++ rest) := by
  induction before with
  | nil => simp [takeReply, p]
  | cons x xs ih =>
    simp only [List.mem_cons, forall_eq_or_imp] at b
    simp [takeReply, b.1, ih b.2]

theorem takeReply_none {l : List Reply} (n : ∀ x ∈ l, x.port ≠ port) : takeReply port l = none := by
  induction l with
  | nil => rfl
  | cons x xs ih =>
    simp only [List.mem_cons, forall_eq_or_imp] at n
    simp [takeReply, n.1, ih n.2]

/-- The last byte of a reply out on its port. -/
def replyOut (port : Port) (r : Reply) (rest : List Reply) (s : State) : State :=
  match port with
  | .spi => { s with link.replies := rest, link.spiSent := 0 }
  | .uart => { s with link.replies := rest, link.uartTx := stuff r.frame }

/-- What a reply that has left leaves of its command. -/
def replyNoted (r : Reply) (s : State) : State :=
  let s := if r.ends then endCommand r s else s
  if r.kind == .accepted && !r.retry then noteAccepted r s else s

theorem replySent_takes (e : takeReply port s.link.replies = some (r, rest)) : replySent port s =
    let u := replyNoted r (replyOut port r rest s)
    let t := match r.newRate with
      | some k => { u with link.uartRate := k }
      | none => u
    match r.restart with
    | some k => enterReset (some (k, if k = .cold then 3 else 2)) .drained false t
    | none => t := by
  simp only [replySent, e]
  rfl

/-- A cached reply of a command that has ended. -/
def CachesReply (r : Reply) (c : Command) (cache : List Cached) : Prop :=
  cache.length ≤ 8 ∧ ∃ e ∈ cache.head?, e.tag = c.tag ∧ e.opcode = c.opcode ∧ e.length = c.length ∧ e.check = c.check ∧
    e.reply = r.copy

/-- The end of a command takes it out of the outstanding ones, and caches its reply first. -/
theorem endCommand_touches (r : Reply) (s : State) : ∃ o c,
    endCommand r s = { s with link := { s.link with outstanding := o, cache := c } } ∧
    o.find? (fun x => x.tag == r.tag) = none ∧ ∀ x, s.command r.tag = some x → CachesReply r x c := by
  cases found : s.command r.tag with
  | none => exact ⟨_, _, by simp only [endCommand, found]; rfl, found, fun x n => by simp at n⟩
  | some c =>
    refine ⟨_, _, by simp only [endCommand, found]; rfl, by simp [List.find?_eq_none], fun x e => ?_⟩
    obtain rfl := Option.some.inj e
    exact ⟨by simp, _, rfl, rfl, rfl, rfl, rfl, rfl⟩

/-- An ACCEPTED that has left is kept with its command, if there is one. -/
theorem noteAccepted_touches (r : Reply) (s : State) : ∃ o,
    noteAccepted r s = { s with link := { s.link with outstanding := o } } ∧
    (s.command r.tag = none → o.find? (fun x => x.tag == r.tag) = none) ∧
    ∀ c, o.find? (fun x => x.tag == r.tag) = some c → c.accepted = some r.copy := by
  refine ⟨_, rfl, fun n => ?_, fun c found => ?_⟩
  · simp only [State.command, List.find?_eq_none] at n
    simp only [List.find?_eq_none, List.mem_map, forall_exists_index, and_imp, forall_apply_eq_imp_iff₂]
    intro x hx
    have := n x hx
    split <;> exact this
  · have tag : c.tag = r.tag := by simpa using List.find?_some found
    obtain ⟨x, -, e⟩ := List.mem_map.1 (List.mem_of_find?_eq_some found)
    by_cases q : x.tag = r.tag
    · rw [← e, if_pos q]
    · rw [if_neg q] at e
      exact absurd (e ▸ tag) q

/-- What a reply that has left leaves behind: the outstanding commands and the cache alone change. -/
theorem replyNoted_touches (r : Reply) (s : State) : ∃ o c,
    replyNoted r s = { s with link := { s.link with outstanding := o, cache := c } } ∧
    (r.ends = true → o.find? (fun x => x.tag == r.tag) = none ∧ ∀ x, s.command r.tag = some x → CachesReply r x c) ∧
    (r.kind = .accepted → r.retry = false → ∀ c, o.find? (fun x => x.tag == r.tag) = some c → c.accepted = some r.copy) := by
  have ended : ∃ o c, (if r.ends then endCommand r s else s) = { s with link := { s.link with outstanding := o, cache := c } } ∧
      (r.ends = true → o.find? (fun x => x.tag == r.tag) = none ∧ ∀ x, s.command r.tag = some x → CachesReply r x c) := by
    by_cases q : r.ends = true
    · obtain ⟨o, c, e, gone, cached⟩ := endCommand_touches r s
      exact ⟨o, c, by rw [if_pos q, e], fun _ => ⟨gone, cached⟩⟩
    · exact ⟨_, _, by rw [if_neg q], fun n => absurd n q⟩
  obtain ⟨o, c, e, gone⟩ := ended
  simp only [replyNoted, e]
  by_cases q : r.kind = .accepted ∧ r.retry = false
  · rw [if_pos (by simp [q.1, q.2])]
    obtain ⟨o', e', none', some'⟩ := noteAccepted_touches r { s with link := { s.link with outstanding := o, cache := c } }
    exact ⟨o', c, e', fun n => ⟨none' (gone n).1, (gone n).2⟩, fun _ _ => some'⟩
  · rw [if_neg (by simpa using q)]
    exact ⟨o, c, rfl, gone, fun a n => absurd ⟨a, n⟩ q⟩

/-- Settles O14: the reply leaves its queue, ends its command, and sets the rate or begins the start it carries. -/
theorem repliesLeave : Obligations.RepliesLeave := by
  unfold Obligations.RepliesLeave
  refine fun s port h => ⟨fun n => ?_, fun before r rest e b p => ?_⟩
  · refine edge_next h ?_ rfl
    simp only [replySent, takeReply_none n]
  have takes := replySent_takes (s := s) (e ▸ takeReply_oldest (rest := rest) b p)
  refine ⟨fun n => ?_, fun k q => ?_⟩
  · obtain ⟨o, c, noted, ends, accepts⟩ := replyNoted_touches r (replyOut port r (before ++ rest) s)
    have run : replySent port s = { replyOut port r (before ++ rest) s with link :=
        { (replyOut port r (before ++ rest) s).link with
          outstanding := o, cache := c, uartRate := r.newRate.getD s.link.uartRate } } := by
      rw [takes, noted]
      cases r.newRate <;> cases port <;> simp only [n] <;> rfl
    refine ⟨_, edge_next h run ?_, ?_, fun p => ?_, fun p => ?_, rfl, fun q => ?_, accepts, ?_⟩
    · cases port <;> rfl
    · cases port <;> rfl
    · subst p; exact ⟨rfl, rfl⟩
    · subst p; exact ⟨rfl, rfl⟩
    · obtain ⟨gone, cached⟩ := ends q
      exact ⟨gone, fun c found => cached c (by cases port <;> exact found)⟩
    · cases port <;> rfl
  · refine ⟨_, edge_settled h _, ?_⟩
    simp only [takes, q]
    exact ⟨rfl, rfl, rfl⟩

end Replies

end Sys2Proof.Laws
end

section
/-! The objects (R63, R73–R75, R166, R447): how a request that leaves the log alone is answered, how a write past its checks
runs, and the statements on reads and writes. -/

namespace Sys2Proof.Laws
open Sys2Proof Sys2Proof.Machine

/-! ### Answers to requests that leave the log alone -/

section Answers
variable {s t : State} {r : Req} {op : Nat} {st : Status} {ps : Bytes} {code : Option (BitVec 12)}

/-- A request that does its work at once. -/
theorem runs_answers (h : Settled s) (q : Takes op r s)
    (e : execute op r.tag.toNat r.params code (begun op r s) = .of (.done st ps, t)) (k : t.evidence = s.evidence) :
    edge (arrive op r code) s = .next (answered op r st ps t) := by
  rw [runs_done h q e, endEdge_settled]
  rw [Settled, answered_evidence, k]
  exact h

@[simp] theorem accepted_evidence (op : Nat) (r : Req) (w : Work) (s : State) :
    (accepted op r w s).evidence = s.evidence :=
  send_evidence _ _

/-- A request whose work goes on behind ACCEPTED. -/
theorem runs_accepts {w : Work} (h : Settled s) (q : Takes op r s) (hw : ∀ k, w ≠ .abortHeld k)
    (e : execute op r.tag.toNat r.params code (begun op r s) = .of (.long w, t)) (k : t.evidence = s.evidence) :
    edge (arrive op r code) s = .next (accepted op r w t) := by
  rw [runs_long h q hw e, endEdge_settled]
  rw [Settled, accepted_evidence, k]
  exact h

end Answers

/-! ### Numbers as bytes (R8) -/

/-- The number that little-endian bytes spell. -/
theorem leNat_leBytes (n v : Nat) (rest : Bytes) : leNat (leBytes n v ++ rest) = v % 256 ^ n + 256 ^ n * leNat rest := by
  induction n generalizing v with
  | zero => simp [leBytes, Nat.mod_one]
  | succ n ih =>
    simp only [leBytes, List.cons_append, leNat, ih, BitVec.toNat_ofNat]
    rw [show 256 ^ (n + 1) = 256 * 256 ^ n from Nat.pow_succ', Nat.mod_mul]
    ring

theorem leNat_leBytes_of_lt {n v : Nat} (h : v < 256 ^ n) : leNat (leBytes n v) = v := by
  simpa [leNat, Nat.mod_eq_of_lt h] using leNat_leBytes n v []

theorem leNat_word (v : BitVec 32) : leNat (leBytes 4 v.toNat) = v.toNat := leNat_leBytes_of_lt v.isLt

@[simp] theorem leBytes_length (n v : Nat) : (leBytes n v).length = n := by
  induction n generalizing v with
  | zero => rfl
  | succ n ih => simp [leBytes, ih]

/-- A value that has its length is not fitted. -/
theorem fit_self {b : Bytes} {n : Nat} (h : b.length = n) : fit n b = b := by
  subst h
  simp [fit, zeros]

/-! ### Reads (R63, R73–R75) -/

section Reads
variable {s : State}

theorem readAll_evidence (is : List Nat) (s : State) : (readAll is s).2.evidence = s.evidence := by
  induction is generalizing s with
  | nil => rfl
  | cons i is ih => exact (ih _).trans (readEffect_frame i s).1

/-- Every listed object has its copy. -/
theorem copies_found {x : Snapshot} {is : List Nat} (h : ∀ i ∈ is, (x.find i).isSome = true) :
    is.zipIdx.find? (fun y => (x.find y.1).isNone) = none := by
  rw [List.find?_eq_none]
  intro y hy
  simp [Option.isNone_eq_false_iff.2 (h y.1 (List.fst_mem_of_mem_zipIdx hy))]

theorem bulkSnapshot_copies {x : Snapshot} {is : List Nat} (f : s.link.snapshot = some x)
    (h : ∀ i ∈ is, (x.find i).isSome = true) (n : (is.flatMap (fun i => (x.find i).getD [])).length ≤ listRoom) :
    bulkSnapshot is s = { Done.only (.done .ok (leBytes 4 x.generation.toNat ++ is.flatMap (fun i => (x.find i).getD []))) s
      with generation := some x.generation } := by
  simp only [bulkSnapshot, f, copies_found h, if_neg n.not_gt]

/-- A snapshot while no other goes on: at once, or at the next latch. -/
theorem snapshotRequest_takes {p : Bytes} (n : ∀ c ∈ s.link.outstanding, c.opcode = 0x04 → c.long = false)
    (f : s.listFault (listIndices p) = none) : snapshotRequest p s =
    if getU p 0 1 = 0 then .of (.done .ok [], { s with link := { s.link with
      snapshot := some { generation := s.link.generation, values := (listIndices p).map (fun i => (i, s.value i)) } } })
    else .of (.long (.snapshot (listIndices p)), s) := by
  have free : s.link.outstanding.any (fun c => c.opcode == 0x04 && c.long) = false := by
    simpa [List.any_eq_false] using n
  simp only [snapshotRequest, free, f]
  rfl

/-- Settles O15: what each of the object commands comes to as it runs. -/
theorem objectReads : Obligations.ObjectReads := by
  unfold Obligations.ObjectReads
  intro s r h
  dsimp only
  have same : ∀ op, (begun op r s).evidence = s.evidence := fun op => begun_evidence
  refine ⟨fun q => ?get, fun q => ⟨fun live found => ?live, fun copy absent => ?none, fun x copy f all n => ?copies⟩,
    fun q => ⟨fun busy => ?busy, fun found free => ?snapshot⟩, fun q => ?latch⟩
  case get =>
    by_cases absent : ((begun 0x01 r s).spec (getU r.params 0 2)).access = 0
    · rw [if_pos absent]
      exact runs_answered h q (if_pos absent)
    · rw [if_neg absent]
      exact runs_answers h q (if_neg absent) ((readEffect_frame _ _).1.trans (same _))
  case live =>
    have run : execute 0x03 r.tag.toNat r.params none (begun 0x03 r s) = .of (.done ((begun 0x03 r s).readStatus
        (listIndices r.params)) _, (readAll (listIndices r.params) (begun 0x03 r s)).2) :=
      (if_pos live).trans (by simp only [bulkLive, found]; rfl)
    exact runs_answers h q run ((readAll_evidence _ _).trans (same _))
  case none =>
    exact runs_answered h q ((if_neg (by rw [copy]; decide)).trans (by simp only [bulkSnapshot, absent]; rfl))
  case copies =>
    have run : execute 0x03 r.tag.toNat r.params none (begun 0x03 r s) = _ :=
      (if_neg (by rw [copy]; decide)).trans (bulkSnapshot_copies f all n)
    change edge (arrive 0x03 r none) s = _
    rw [runs_executed h q, run]
    exact congrArg _ (endEdge_settled (by rw [Settled]; exact (congrArg _ (send_evidence _ _)).trans (begun_settled h)))
  case busy =>
    have any : (begun 0x04 r s).link.outstanding.any (fun c => c.opcode == 0x04 && c.long) = true := by
      simpa [List.any_eq_true] using busy
    exact runs_answered h q (if_pos any)
  case snapshot =>
    have run : execute 0x04 r.tag.toNat r.params none (begun 0x04 r s) = _ := snapshotRequest_takes free found
    by_cases now : getU r.params 0 1 = 0
    · rw [if_pos now] at run ⊢
      exact runs_answers h q run (same 0x04)
    · rw [if_neg now] at run ⊢
      exact runs_accepts h q (by simp) run (same 0x04)
  case latch =>
    refine runs_accepts h q (by simp) (t := begun 0x05 r s) ?_ (same _)
    rw [begun_frame]
    rfl

end Reads

/-! ### Writes (R63, R68–R71, R447) -/

section Writes
variable {s : State} {i : Nat} {b : Bytes}

/-- A SET_OBJ past its checks. -/
theorem execute_writes (hi : i < 65536) (n4 : i ≠ 4) (a : (s.spec i).access = 2 ∨ (s.spec i).access = 3)
    (l : s.relayLocked i = false) (p : s.blockProtected i = false) (h : heldIn s.start.heldMask.toNat i = false)
    (n : b.length = (s.spec i).size) (own : Nat) (code : Option (BitVec 12)) :
    execute 0x02 own (leBytes 2 i ++ b) code s = .of (writeMember i b s) := by
  rw [execute_write i b hi n4, setObject_writes a l p h n]

section Row
variable {port : Port} {tag : BitVec 16} {st : Status} {ps : Bytes} {t : State} (h : Settled s)
  (q : Takes 0x02 (writeReq port tag i b) s) (hi : i < 65536) (n4 : i ≠ 4)
  (a : ((begun 0x02 (writeReq port tag i b) s).spec i).access = 2 ∨ ((begun 0x02 (writeReq port tag i b) s).spec i).access = 3)
  (l : (begun 0x02 (writeReq port tag i b) s).relayLocked i = false)
  (p : (begun 0x02 (writeReq port tag i b) s).blockProtected i = false)
  (m : heldIn (begun 0x02 (writeReq port tag i b) s).start.heldMask.toNat i = false)
  (n : b.length = ((begun 0x02 (writeReq port tag i b) s).spec i).size)
  (e : writeMember i b (begun 0x02 (writeReq port tag i b) s) = (.done st ps, t))
include h q hi n4 a l p m n e

/-- A write to an object whose checks it passes, up to the end of its edge. -/
theorem setRow_done : edge (setRow port tag i b) s = .next (answered 0x02 (writeReq port tag i b) st ps t).endEdge :=
  runs_done h q ((execute_writes hi n4 a l p m n _ _).trans (congrArg Done.of e))

/-- One that raises nothing. -/
theorem setRow_answers (k : t.evidence = s.evidence) :
    edge (setRow port tag i b) s = .next (answered 0x02 (writeReq port tag i b) st ps t) :=
  runs_answers h q ((execute_writes hi n4 a l p m n _ _).trans (congrArg Done.of e)) k

end Row

/-- A write that is refused is answered so, whatever its object. -/
theorem setRequest_refuses {p : Bytes} {st : Status} {t : State} (n : st ≠ .ok)
    (e : setObject (getU p 0 2) (p.drop 2) s = (refuse st, t)) : setRequest p s = .only (refuse st) t := by
  have : (refuse st == Answer.done .ok []) = false := by cases st <;> first | rfl | exact absurd rfl n
  simp only [setRequest, e, this, Bool.and_false, Bool.false_eq_true, if_false]
  rfl

/-- The interrupt pending member (R69). -/
theorem writePending_eq (v : BitVec 32) (s : State) : writePending v.toNat s = if v.toNat < 4096 then
    (.ok, { s with link := { s.link with irqPending := s.link.irqPending &&& ~~~(v.setWidth 12 &&& 0xFFE#12) } })
    else (.badParam, s) := by
  unfold writePending
  rw [BitVec.ofNat_toNat]
  split <;> split <;> first | rfl | omega

/-- The interrupt enable member (R68). -/
theorem writeEnable_inRange {v : BitVec 32} (h : v.toNat < 4096) (s : State) :
    writeEnable v.toNat s = (.ok, { s with link := { s.link with irqEnable := v.setWidth 12 } }) := by
  unfold writeEnable
  rw [BitVec.ofNat_toNat, if_neg (by omega)]

/-- The host link settings member: the rate waits for the reply (R46, R70). -/
theorem setRequest_rate (v : BitVec 32) (s : State) : setRequest (leBytes 2 0x0004 ++ leBytes 4 v.toNat) s =
    if v.toNat ≤ 6 then { Done.only (.done .ok []) s with newRate := some (v.setWidth 4) }
    else Done.only (.done .badParam []) s := by
  have index : getU (leBytes 2 0x0004 ++ leBytes 4 v.toNat) 0 2 = 4 := getU_index _ (by decide)
  have value : getU (leBytes 2 0x0004 ++ leBytes 4 v.toNat) 2 4 = v.toNat := by
    have whole : ((leBytes 2 0x0004 ++ leBytes 4 v.toNat).drop 2).take 4 = leBytes 4 v.toNat := by
      rw [drop_index]; exact List.take_of_length_le (by simp)
    rw [getU, whole, leNat_word]
  have write : setObject 4 (leBytes 4 v.toNat) s = answerOf (writeLinkSettings (leNat (leBytes 4 v.toNat)) s) :=
    setObject_writes (.inl rfl) rfl rfl rfl rfl
  rw [leNat_word] at write
  simp only [setRequest, index, drop_index, write, value, writeLinkSettings, answerOf, refuse, BitVec.ofNat_toNat]
  by_cases q : v.toNat ≤ 6
  · simp [q, q.not_gt, Done.of, Done.only]
  · simp [q, Nat.lt_of_not_le q, Done.of, Done.only]

/-- The framing counters read what they hold, and FRAMING is cleared (R71, R75). -/
theorem framing_read (s : State) : s.value 5 = s.link.framing.bytes ∧
    readEffect 5 s = { s with link := { s.link with framing := { s.link.framing with unread := false } } } ∧
    s.readStatus [5] = .ok := by
  refine ⟨?_, rfl, ?_⟩
  · exact fit_self rfl
  · have plain : [5].any xaObject = false := by decide
    rw [State.readStatus, plain, Bool.and_false]
    rfl

/-- A read of an object that exists. -/
theorem getRow_reads {port : Port} {tag : BitVec 16} (h : Settled s) (q : Takes 0x01 (readReq port tag i) s)
    (hi : i < 65536) : let b := begun 0x01 (readReq port tag i) s
    (b.spec i).access ≠ 0 →
    edge (getRow port tag i) s = .next (answered 0x01 (readReq port tag i) (b.readStatus [i]) (b.value i) (readEffect i b)) := by
  intro b a
  refine runs_answers h q ?_ ((readEffect_frame _ _).1.trans begun_evidence)
  have index : getU (readReq port tag i).params 0 2 = i := by simpa [readReq] using getU_index [] hi
  change getRequest (readReq port tag i).params b = _
  unfold getRequest
  rw [index]
  exact if_neg a

/-- The level of protection, within the range of its member (R447). -/
theorem setProtection_eq {v : BitVec 32} (z : field 29 16 v.toNat = 0) (s : State) :
    let old := s.store.level.toNat
    let new := v.toNat / 2 ^ 30
    setProtection v.toNat s = if new = old then (.ok, s)
      else if old < new ∨ v.toNat % 2 ^ 16 = 0x554C then
        (.ok, (saveDevice { s with store := { s.store with level := BitVec.ofNat 2 new } }).raise 0x43
          [BitVec.ofNat 8 old, BitVec.ofNat 8 new])
      else (.isProtected, s.countStore 6) := by
  intro old new
  have level : field 31 30 v.toNat = new := by
    have := v.isLt
    simp only [field, new]
    omega
  have key : field 15 0 v.toNat = v.toNat % 2 ^ 16 := by simp [field]
  simp only [setProtection, level, key, z, ne_eq, not_true_eq_false, if_false, refuseProtected, old]
  by_cases same : new = s.store.level.toNat
  · simp [same]
  · rw [if_neg same, if_neg same]
    by_cases up : s.store.level.toNat < new ∨ v.toNat % 2 ^ 16 = 0x554C
    · rw [if_pos up, if_neg]
      simp only [Bool.and_eq_true, decide_eq_true_eq, not_and, not_not]
      rintro lt
      exact up.resolve_left (by omega)
    · rw [if_neg up, if_pos]
      simp only [Bool.and_eq_true, decide_eq_true_eq]
      omega

/-- Settles O16: the order of the checks, and each member's write as it is answered. -/
theorem objectWrites : Obligations.ObjectWrites := by
  unfold Obligations.ObjectWrites
  intro s h
  dsimp only
  have same : ∀ op r, (begun op r s).evidence = s.evidence := fun op r => begun_evidence
  refine ⟨fun r q => ⟨fun absent => ?_, fun fixed => ?_, fun a l k n => ?_⟩, fun port tag v q lt => ?enable,
    fun port tag v q => ⟨fun lt => ?clear, fun le => ?keep⟩, fun port tag v q => ⟨fun le => ?rate, fun lt => ?noRate⟩,
    fun port tag q => ?framing, fun port tag v q z => ⟨fun up => ?level, fun eq => ?stay, fun dn n => ?locked⟩⟩
  · refine runs_answered h q (setRequest_refuses (by decide) ?_)
    simp [setObject, absent]
  · refine runs_answered h q (setRequest_refuses (by decide) ?_)
    rcases fixed with a | a <;> simp [setObject, a]
  · refine runs_answered h q (setRequest_refuses (by decide) ?_)
    simp [setObject, a, l, k, n, State.blockProtected, -List.length_drop]
  case enable =>
    refine setRow_answers h q (by decide) (by decide) (.inl rfl) rfl rfl rfl rfl ?_ (same 0x02 _)
    change answerOf (writeEnable (leNat (leBytes 4 v.toNat)) _) = _
    rw [leNat_word, writeEnable_inRange lt]
    rfl
  case clear =>
    refine setRow_answers h q (by decide) (by decide) (.inl rfl) rfl rfl rfl rfl ?_ (same 0x02 _)
    change answerOf (writePending (leNat (leBytes 4 v.toNat)) _) = _
    rw [leNat_word, writePending_eq, if_pos lt]
    rfl
  case keep =>
    refine setRow_answers h q (by decide) (by decide) (.inl rfl) rfl rfl rfl rfl ?_ (same 0x02 _)
    change answerOf (writePending (leNat (leBytes 4 v.toNat)) _) = _
    rw [leNat_word, writePending_eq, if_neg le.not_gt]
    rfl
  case rate =>
    have run := (setRequest_rate v (begun 0x02 (writeReq port tag 0x0004 (leBytes 4 v.toNat)) s)).trans (if_pos le)
    refine (runs_executed h q).trans (Eq.trans (congrArg (fun d => Host.Outcome.next
      (answerRequest port tag.toNat 0x02 d).endEdge) run) ?_)
    exact congrArg _ (endEdge_settled (by rw [Settled]; exact (congrArg _ (send_evidence _ _)).trans (begun_settled h)))
  case noRate =>
    exact runs_answered h q ((setRequest_rate v _).trans (if_neg lt.not_ge))
  case framing =>
    obtain ⟨value, effect, status⟩ := framing_read (begun 0x01 (readReq port tag 0x0005) s)
    refine (getRow_reads h q (by decide) ?_).trans ?_
    · rw [spec_framing]; decide
    · rw [value, effect, status]
  case level =>
    refine setRow_done h q (by decide) (by decide) (.inr rfl) rfl rfl rfl rfl ?_
    change answerOf (setProtection (leNat (leBytes 4 v.toNat)) _) = _
    rw [leNat_word, setProtection_eq z, if_neg (by omega), if_pos (by omega)]
    rfl
  case stay =>
    refine setRow_answers h q (by decide) (by decide) (.inr rfl) rfl rfl rfl rfl ?_ (same 0x02 _)
    change answerOf (setProtection (leNat (leBytes 4 v.toNat)) _) = _
    rw [leNat_word, setProtection_eq z, if_pos eq]
    rfl
  case locked =>
    refine setRow_answers h q (by decide) (by decide) (.inr rfl) rfl rfl rfl rfl ?_ (same 0x02 _)
    change answerOf (setProtection (leNat (leBytes 4 v.toNat)) _) = _
    rw [leNat_word, setProtection_eq z, if_neg (by omega), if_neg (by omega)]
    rfl

end Writes

end Sys2Proof.Laws
end

section
/-! The array of the store under the operations of the model (R438–R440): a write waits for the page buffer, so that every
operation but the end of a commit and a reset leaves the array as it is. One lemma per operation, in the order in which they
call each other. -/

namespace Sys2Proof.Laws
open Sys2Proof Sys2Proof.Machine
/-- A fold whose steps keep a part of the state keeps it. -/
theorem foldl_keeps {α β : Type} (part : State → β) {f : State → α → State} (h : ∀ s x, part (f s x) = part s)
    (l : List α) (s : State) : part (l.foldl f s) = part s := by
  induction l generalizing s with
  | nil => rfl
  | cons x xs ih => exact (ih (f s x)).trans (h s x)

@[simp] theorem foldl_cells {α : Type} {f : State → α → State} (h : ∀ s x, (f s x).store.cells = s.store.cells)
    (l : List α) (s : State) : (l.foldl f s).store.cells = s.store.cells := foldl_keeps (·.store.cells) h l s

@[simp] theorem ite_cells (c : Prop) [Decidable c] (s t : State) :
    (if c then s else t).store.cells = if c then s.store.cells else t.store.cells := apply_ite (·.store.cells) c s t


@[simp] theorem countRing_cells (r : Ring) (s : State) :
    (countRing r s).store.cells = s.store.cells := rfl

@[simp] theorem nextFree_cells (s : State) :
    (State.nextFree s).store.cells = s.store.cells := rfl

@[simp] theorem setIrq_cells (b : Irq) (s : State) :
    (State.setIrq b s).store.cells = s.store.cells := rfl

@[simp] theorem raiseEntry_cells (r : Raised) (s : State) :
    (State.raiseEntry r s).store.cells = s.store.cells := rfl

@[simp] theorem raiseAt_cells (t code : ℕ) (payload : Bytes) (s : State) :
    (State.raiseAt t code payload s).store.cells = s.store.cells := rfl

@[simp] theorem raise_cells (code : ℕ) (payload : Bytes) (s : State) :
    (State.raise code payload s).store.cells = s.store.cells := rfl

@[simp] theorem raiseExt_cells (code seq : ℕ) (rest : Bytes) (s : State) :
    (State.raiseExt code seq rest s).store.cells = s.store.cells := rfl

@[simp] theorem enterHold_cells (s : State) :
    (State.enterHold s).store.cells = s.store.cells := rfl

@[simp] theorem safeStep_cells (s : State) :
    (State.safeStep s).store.cells = s.store.cells := rfl

@[simp] theorem endEdge_cells (s : State) :
    (State.endEdge s).store.cells = s.store.cells := by
  simp only [State.endEdge]
  split_ifs <;> rfl

@[simp] theorem pushReply_cells (r : Reply) (s : State) :
    (State.pushReply r s).store.cells = s.store.cells := rfl

@[simp] theorem send_cells (r : Reply) (s : State) :
    (State.send r s).store.cells = s.store.cells := by
  unfold State.send
  split <;> rfl

@[simp] theorem sendAfter_cells (after : ℕ) (r : Reply) (s : State) :
    (State.sendAfter after r s).store.cells = s.store.cells := by
  unfold State.sendAfter
  split <;> rfl

@[simp] theorem setWork_cells (tag : ℕ) (w : Work) (s : State) :
    (State.setWork tag w s).store.cells = s.store.cells := rfl

@[simp] theorem noteLong_cells (tag : ℕ) (s : State) :
    (State.noteLong tag s).store.cells = s.store.cells := rfl

@[simp] theorem releaseAborts_cells (tag : ℕ) (s : State) :
    (State.releaseAborts tag s).store.cells = s.store.cells := by
  simp [State.releaseAborts]

@[simp] theorem complete_cells (tag : ℕ) (st : Status) (params : Bytes) (s : State) :
    (State.complete tag st params s).store.cells = s.store.cells := by
  unfold State.complete
  split <;> simp

@[simp] theorem completeAll_cells (test : Work → Bool) (st : Status) (s : State) :
    (State.completeAll test st s).store.cells = s.store.cells := by
  simp [State.completeAll]

@[simp] theorem modChannel_cells (c : ℕ) (f : Channel → Channel) (s : State) :
    (State.modChannel c f s).store.cells = s.store.cells := rfl

@[simp] theorem modSlice_cells (i : ℕ) (f : Slice → Slice) (s : State) :
    (State.modSlice i f s).store.cells = s.store.cells := rfl

@[simp] theorem modQuarter_cells (q : ℕ) (f : Quarter → Quarter) (s : State) :
    (State.modQuarter q f s).store.cells = s.store.cells := rfl

@[simp] theorem modEngine_cells (e : ℕ) (f : Engine → Engine) (s : State) :
    (State.modEngine e f s).store.cells = s.store.cells := rfl

@[simp] theorem countIntegrity_cells (k : ℕ) (s : State) :
    (State.countIntegrity k s).store.cells = s.store.cells := rfl

@[simp] theorem countStore_cells (k : ℕ) (s : State) :
    (State.countStore k s).store.cells = s.store.cells := rfl

@[simp] theorem auxEventAt_cells (t src : ℕ) (s : State) :
    (State.auxEventAt t src s).store.cells = s.store.cells := by
  unfold State.auxEventAt
  split <;> rfl

@[simp] theorem auxEvent_cells (src : ℕ) (s : State) :
    (State.auxEvent src s).store.cells = s.store.cells := by
  simp [State.auxEvent]

@[simp] theorem reachClock_cells (x : ℕ) (s : State) :
    (State.reachClock x s).store.cells = s.store.cells := by
  obtain ⟨q, e⟩ := reachClock_frame x s
  rw [e]

@[simp] theorem reachStrobe_cells (k : ℕ) (s : State) :
    (State.reachStrobe k s).store.cells = s.store.cells := by
  simp [State.reachStrobe]

@[simp] theorem flitReceive_cells (lane : ℕ) (flit : BitVec 64) (s : State) :
    (flitReceive lane flit s).store.cells = s.store.cells := by
  simp [flitReceive]

@[simp] theorem connect_cells (q slot : ℕ) (x : SliceSource) (s : State) :
    (State.connect q slot x s).store.cells = s.store.cells := rfl

@[simp] theorem modHomes_cells (q : ℕ) (f : Channel → Channel) (s : State) :
    (State.modHomes q f s).store.cells = s.store.cells := rfl

@[simp] theorem stopRotation_cells (q : ℕ) (s : State) :
    (State.stopRotation q s).store.cells = s.store.cells := rfl

@[simp] theorem returnHome_cells (q : ℕ) (s : State) :
    (State.returnHome q s).store.cells = s.store.cells := by
  simp only [State.returnHome]
  split <;> simp

@[simp] theorem loseChannel_cells (c : ℕ) (s : State) :
    (State.loseChannel c s).store.cells = s.store.cells := rfl

@[simp] theorem retireLane_cells (lane : ℕ) (s : State) :
    (State.retireLane lane s).store.cells = s.store.cells := by
  unfold State.retireLane
  dsimp only
  split
  · exact (foldl_keeps (·.store.cells) (fun s x => by simp) _ _).trans (by simp)
  · split
    · exact foldl_keeps (·.store.cells) (fun s x => by simp) _ _
    · rfl

@[simp] theorem laneTestEnd_cells (lane : ℕ) (passed : Bool) (s : State) :
    (laneTestEnd lane passed s).store.cells = s.store.cells := by
  unfold laneTestEnd
  split <;> simp

@[simp] theorem switchMessage_cells (flit : BitVec 64) (strobe : BitVec 48) (s : State) :
    (switchMessage flit strobe s).store.cells = s.store.cells := by
  unfold switchMessage
  dsimp only
  repeat' split
  all_goals simp

@[simp] theorem switchAct_cells (strobe : BitVec 48) (s : State) :
    (switchAct strobe s).store.cells = s.store.cells := by
  unfold switchAct
  exact (foldl_keeps (·.store.cells) (fun s m => by simp) _ _).trans (reachStrobe_cells strobe.toNat s)

@[simp] theorem measure_cells (q slot start part : ℕ) (s : State) :
    (State.measure q slot start part s).store.cells = s.store.cells := rfl

@[simp] theorem stepQuarter_cells (p q start : ℕ) (s : State) :
    (stepQuarter p q start s).store.cells = s.store.cells := by
  simp only [stepQuarter]
  split_ifs <;> rfl

@[simp] theorem waderStepStart_cells (strobe : BitVec 48) (s : State) :
    (waderStepStart strobe s).store.cells = s.store.cells := by
  simp [waderStepStart]

@[simp] theorem suspect_cells (c : ℕ) (s : State) :
    (State.suspect c s).store.cells = s.store.cells := rfl

@[simp] theorem qrefFault_cells (q : ℕ) (s : State) :
    (State.qrefFault q s).store.cells = s.store.cells := by
  simp [State.qrefFault]

@[simp] theorem testSlice_cells (q slot : ℕ) (s : State) :
    (State.testSlice q slot s).store.cells = s.store.cells := rfl

@[simp] theorem openTwin_cells (q : ℕ) (rot : Rotation) (s : State) :
    (State.openTwin q rot s).store.cells = s.store.cells := rfl

@[simp] theorem homeToReference_cells (q p : ℕ) (s : State) :
    (homeToReference q p s).store.cells = s.store.cells := by
  unfold homeToReference
  split <;> rfl

@[simp] theorem waderMeasured_cells (q p : ℕ) (s : State) :
    (waderMeasured q p s).store.cells = s.store.cells := by
  simp [waderMeasured]

@[simp] theorem homeMeasured_cells (q p : ℕ) (s : State) :
    (homeMeasured q p s).store.cells = s.store.cells := by
  simp only [homeMeasured]
  split_ifs <;> rfl

@[simp] theorem measured_cells (q p : ℕ) (wader : Bool) (c : SliceCoef) (s : State) :
    (measured q p wader c s).store.cells = s.store.cells := by
  simp [measured]

@[simp] theorem referenceMeasurementEnd_cells (q slot : ℕ) (s : State) :
    (referenceMeasurementEnd q slot s).store.cells = s.store.cells := by
  unfold referenceMeasurementEnd
  split <;> simp

@[simp] theorem twinVerificationEnd_cells (q : ℕ) (gain delay : ℤ) (s : State) :
    (twinVerificationEnd q gain delay s).store.cells = s.store.cells := by
  unfold twinVerificationEnd
  dsimp only
  repeat' split
  all_goals simp

@[simp] theorem preSettle_cells (q c : ℕ) (host : Bool) (s : State) :
    (preSettle q c host s).store.cells = s.store.cells := rfl

@[simp] theorem preempt_cells (q c : ℕ) (host : Bool) (s : State) :
    (preempt q c host s).store.cells = s.store.cells := by
  unfold preempt
  dsimp only
  repeat' split
  all_goals simp

@[simp] theorem endPreemption_cells (q : ℕ) (s : State) :
    (endPreemption q s).store.cells = s.store.cells := by
  simp only [endPreemption]
  split <;> simp

@[simp] theorem fadeDone_cells (q : ℕ) (f : Fade) (s : State) :
    (fadeDone q f s).store.cells = s.store.cells := by
  simp only [fadeDone]
  split <;> simp

@[simp] theorem fadeSample_cells (q : ℕ) (s : State) :
    (fadeSample q s).store.cells = s.store.cells := by
  unfold fadeSample
  split <;> simp

@[simp] theorem sustainedClip_cells (c : ℕ) (s : State) :
    (sustainedClip c s).store.cells = s.store.cells := by
  unfold sustainedClip
  dsimp only
  repeat' split
  all_goals simp

@[simp] theorem retireSlice_cells (c : ℕ) (s : State) :
    (State.retireSlice c s).store.cells = s.store.cells := by
  simp [State.retireSlice]

@[simp] theorem passSlice_cells (c : ℕ) (k : SliceCoef) (host : Bool) (s : State) :
    (State.passSlice c k host s).store.cells = s.store.cells := by
  simp only [State.passSlice]
  split_ifs <;> rfl

@[simp] theorem testPassed_cells (q : ℕ) (s : State) :
    (testPassed q s).store.cells = s.store.cells := by
  simp only [testPassed]
  split <;> simp

@[simp] theorem sliceSelftestEnd_cells (q : ℕ) (errors : List ℤ) (s : State) :
    (sliceSelftestEnd q errors s).store.cells = s.store.cells := by
  unfold sliceSelftestEnd
  dsimp only
  repeat' split
  all_goals simp

@[simp] theorem modulatorReset_cells (q slot : ℕ) (s : State) :
    (modulatorReset q slot s).store.cells = s.store.cells := by
  unfold modulatorReset
  dsimp only
  repeat' split
  all_goals simp

@[simp] theorem rogowskiSeed_cells (c : ℕ) (s : State) :
    (rogowskiSeed c s).store.cells = s.store.cells := by
  unfold rogowskiSeed
  split <;> rfl

@[simp] theorem startMeasured_cells (c : ℕ) (s : State) :
    (startMeasured c s).store.cells = s.store.cells := by
  simp only [startMeasured]
  split <;> simp

@[simp] theorem startBlame_cells (q : ℕ) (s : State) :
    (startBlame q s).store.cells = s.store.cells := by
  simp [startBlame]

@[simp] theorem connectInputs_cells (s : State) :
    (connectInputs s).store.cells = s.store.cells := by
  simp [connectInputs]

@[simp] theorem modBus_cells (b : ℕ) (f : Bus → Bus) (s : State) :
    (State.modBus b f s).store.cells = s.store.cells := rfl

@[simp] theorem modXaBus_cells (b : ℕ) (f : XaBus → XaBus) (s : State) :
    (State.modXaBus b f s).store.cells = s.store.cells := rfl

@[simp] theorem offer_cells (tier : ℕ) (r : MereRec) (s : State) :
    (State.offer tier r s).store.cells = s.store.cells := rfl

@[simp] theorem writePoolGap_cells (tick : ℕ) (s : State) :
    (writePoolGap tick s).store.cells = s.store.cells := by
  unfold writePoolGap
  split <;> rfl

@[simp] theorem xaBoundary_cells (b instant : ℕ) (synth : Bool) (s : State) :
    (xaBoundary b instant synth s).store.cells = s.store.cells := by
  simp [xaBoundary]

@[simp] theorem hitLatchNow_cells (strobe : ℕ) (s : State) :
    (hitLatchNow strobe s).store.cells = s.store.cells := rfl

@[simp] theorem unhitLatchNow_cells (b : ℕ) (s : State) :
    (unhitLatchNow b s).store.cells = s.store.cells := rfl

@[simp] theorem countCycle_cells (strobe : ℕ) (synth : Bool) (s : State) :
    (countCycle strobe synth s).store.cells = s.store.cells := rfl

@[simp] theorem paceBoundary_cells (strobe : ℕ) (synth : Bool) (s : State) :
    (paceBoundary strobe synth s).store.cells = s.store.cells := by
  simp only [paceBoundary]
  split_ifs <;> rfl

@[simp] theorem layBoundary_cells (b instant : ℕ) (synth : Bool) (s : State) :
    (layBoundary b instant synth s).store.cells = s.store.cells := by
  simp [layBoundary]

@[simp] theorem lineCrossing_cells (b : ℕ) (channel : Option ℕ) (instant : ℕ) (s : State) :
    (lineCrossing b channel instant s).store.cells = s.store.cells := by
  unfold lineCrossing
  split <;> simp

@[simp] theorem zeroCrossing_cells (b : ℕ) (s : State) :
    (zeroCrossing b s).store.cells = s.store.cells := by
  unfold zeroCrossing
  split <;> simp

@[simp] theorem lineHeld_cells (b instant : ℕ) (s : State) :
    (lineHeld b instant s).store.cells = s.store.cells := by
  simp [lineHeld]

@[simp] theorem frequencyHold_cells (b : ℕ) (s : State) :
    (frequencyHold b s).store.cells = s.store.cells := by
  simp only [frequencyHold]
  split <;> simp

@[simp] theorem synthesisedBoundary_cells (b : ℕ) (s : State) :
    (synthesisedBoundary b s).store.cells = s.store.cells := by
  simp only [synthesisedBoundary]
  split <;> simp

@[simp] theorem captureLatch_cells (bd : Boundary) (s : State) :
    (captureLatch bd s).store.cells = s.store.cells := rfl

@[simp] theorem modPulse_cells (o : ℕ) (f : PulseOut → PulseOut) (s : State) :
    (State.modPulse o f s).store.cells = s.store.cells := rfl

@[simp] theorem modEnginePulse_cells (o : ℕ) (f : PulseEngine → PulseEngine) (s : State) :
    (State.modEnginePulse o f s).store.cells = s.store.cells := rfl

@[simp] theorem beginPulse_cells (o due t : ℕ) (s : State) :
    (beginPulse o due t s).store.cells = s.store.cells := by
  simp [beginPulse]

@[simp] theorem pulseStart_cells (o t : ℕ) (s : State) :
    (pulseStart o t s).store.cells = s.store.cells := by
  unfold pulseStart
  dsimp only
  repeat' split
  all_goals simp

@[simp] theorem reachMicros_cells (t : ℕ) (s : State) :
    (State.reachMicros t s).store.cells = s.store.cells := by
  simp [State.reachMicros]

@[simp] theorem pulseEnd_cells (o t : ℕ) (s : State) :
    (pulseEnd o t s).store.cells = s.store.cells := by
  simp [pulseEnd]

@[simp] theorem moveOrigin_cells (o b : ℕ) (s : State) :
    (moveOrigin o b s).store.cells = s.store.cells := rfl

@[simp] theorem takePolarity_cells (o : ℕ) (s : State) :
    (State.takePolarity o s).store.cells = s.store.cells := rfl

@[simp] theorem modPair_cells (p : ℕ) (f : RelayPair → RelayPair) (s : State) :
    (State.modPair p f s).store.cells = s.store.cells := rfl

@[simp] theorem savePair_cells (p : ℕ) (s : State) :
    (State.savePair p s).store.cells = s.store.cells := by
  simp [State.savePair]

@[simp] theorem savePairsUnknown_cells (all : Bool) (s : State) :
    (State.savePairsUnknown all s).store.cells = s.store.cells := by
  simp [State.savePairsUnknown]

@[simp] theorem driveCoil_cells (p : ℕ) (c : RelayCmd) (src : RelaySource) (s : State) :
    (driveCoil p c src s).store.cells = s.store.cells := by
  simp [driveCoil]

@[simp] theorem setLevel_cells (out : ℕ) (on : Bool) (src : RelaySource) (s : State) :
    (setLevel out on src s).store.cells = s.store.cells := by
  simp [setLevel]

@[simp] theorem setPending_cells (p : ℕ) (c : RelayCmd) (src : RelaySource) (s : State) :
    (setPending p c src s).store.cells = s.store.cells := by
  simp [setPending]

@[simp] theorem runPending_cells (p : ℕ) (s : State) :
    (runPending p s).store.cells = s.store.cells := by
  simp only [runPending]
  split <;> simp

@[simp] theorem operateRelay_cells (out : ℕ) (c : RelayCmd) (src : RelaySource) (s : State) :
    (operateRelay out c src s).store.cells = s.store.cells := by
  unfold operateRelay
  split <;> simp

@[simp] theorem commandRelay_cells (out : ℕ) (c : RelayCmd) (src : RelaySource) (s : State) :
    (commandRelay out c src s).store.cells = s.store.cells := by
  simp [commandRelay]

@[simp] theorem runWaiting_cells (s : State) :
    (runWaiting s).store.cells = s.store.cells := by
  simp [runWaiting]

@[simp] theorem takeMode_cells (p : ℕ) (level : Bool) (s : State) :
    (takeMode p level s).store.cells = s.store.cells := by
  simp [takeMode]

@[simp] theorem modeEffect_cells (p : ℕ) (s : State) :
    (modeEffect p s).store.cells = s.store.cells := by
  simp [modeEffect]

@[simp] theorem coilPulseEnd_cells (p : ℕ) (s : State) :
    (coilPulseEnd p s).store.cells = s.store.cells := by
  unfold coilPulseEnd
  dsimp only
  repeat' split
  all_goals simp

@[simp] theorem guardTimeEnd_cells (p : ℕ) (s : State) :
    (guardTimeEnd p s).store.cells = s.store.cells := by
  simp [guardTimeEnd]

@[simp] theorem closeSub_cells (endSec a : ℕ) (early step gap : Bool) (s : State) :
    (closeSub endSec a early step gap s).store.cells = s.store.cells := rfl

@[simp] theorem reachSubEnds_cells (x0 x1 x2 : ℕ) (x3 : State) :
    (reachSubEnds x0 x1 x2 x3).store.cells = x3.store.cells := by
  induction x0 generalizing x3 with
  | zero => rfl
  | succ n ih =>
    unfold reachSubEnds
    split
    · rfl
    · dsimp only
      split
      · split <;> simp [ih]
      · split <;> simp [ih]

@[simp] theorem demandBoundary_cells (s : State) :
    (demandBoundary s).store.cells = s.store.cells := by
  unfold demandBoundary
  split <;> rfl

@[simp] theorem publishDemand_cells (n : ℕ) (s : State) :
    (publishDemand n s).store.cells = s.store.cells := by
  simp only [publishDemand]
  split <;> simp

@[simp] theorem trackFrame_cells (f : RingFrame) (s : State) :
    (trackFrame f s).store.cells = s.store.cells := rfl

@[simp] theorem restartMeters_cells (part : Bool) (s : State) :
    (restartMeters part s).store.cells = s.store.cells := rfl

@[simp] theorem closePsts_cells (endSec k : ℕ) (part long : Bool) (s : State) :
    (closePsts endSec k part long s).store.cells = s.store.cells := rfl

@[simp] theorem reachPst_cells (k : ℕ) (s : State) :
    (reachPst k s).store.cells = s.store.cells := by
  unfold reachPst
  extract_lets past _ s₁
  have closed : s₁.store.cells = s.store.cells := foldl_keeps (·.store.cells) (fun s x => by simp) _ _
  clear_value s₁
  split
  · split
    · simp [closed]
    · exact closed
  · exact closed

@[simp] theorem flickerFrame_cells (f : RingFrame) (s : State) :
    (flickerFrame f s).store.cells = s.store.cells := by
  simp [flickerFrame]

@[simp] theorem pstIntervalEnd_cells (s : State) :
    (pstIntervalEnd s).store.cells = s.store.cells := rfl

@[simp] theorem stepPst_cells (k oldSec newSec : ℕ) (s : State) :
    (stepPst k oldSec newSec s).store.cells = s.store.cells := by
  unfold stepPst
  split <;> rfl

@[simp] theorem flushWindows_cells (b upTo : ℕ) (s : State) :
    (flushWindows b upTo s).store.cells = s.store.cells := by
  unfold flushWindows
  refine foldl_keeps (·.store.cells) (fun s r => ?_) _ _
  dsimp only
  repeat' split
  all_goals rfl

@[simp] theorem analyseFirst_cells (b : ℕ) (s : State) :
    (analyseFirst b s).store.cells = s.store.cells := by
  simp only [analyseFirst]
  split <;> simp

@[simp] theorem analyseWindow_cells (b : ℕ) (s : State) :
    (analyseWindow b s).store.cells = s.store.cells := by
  unfold analyseWindow
  split <;> simp

@[simp] theorem analyseBefore_cells (strobe b : ℕ) (s : State) :
    (analyseBefore strobe b s).store.cells = s.store.cells := by
  unfold analyseBefore
  dsimp only
  generalize List.length _ = n
  induction n generalizing s with
  | zero => rfl
  | succ n ih => exact (analyseFirst_cells b _).trans (ih s)

@[simp] theorem markFlicker_cells (b from_ upTo : ℕ) (s : State) :
    (markFlicker b from_ upTo s).store.cells = s.store.cells := rfl

@[simp] theorem closeEvent_cells (b : ℕ) (e : OpenEvent) (last : RmsValue) (cut lost : Bool) (s : State) :
    (closeEvent b e last cut lost s).store.cells = s.store.cells := by
  simp only [closeEvent]
  split_ifs <;> rfl

@[simp] theorem modEvent_cells (b : ℕ) (k : EventKind) (f : OpenEvent → OpenEvent) (s : State) :
    (modEvent b k f s).store.cells = s.store.cells := rfl

@[simp] theorem openEvent_cells (b u : ℕ) (k : EventKind) (x : RmsValue) (extreme mask : ℕ) (first : Bool) (before : List ℕ) (s : State) :
    (openEvent b u k x extreme mask first before s).store.cells = s.store.cells := rfl

@[simp] theorem discardChange_cells (b : ℕ) (s : State) :
    (discardChange b s).store.cells = s.store.cells := by
  unfold discardChange
  split <;> rfl

@[simp] theorem judgeDip_cells (b u : ℕ) (x : RmsValue) (first : Bool) (s : State) :
    (judgeDip b u x first s).store.cells = s.store.cells := by
  unfold judgeDip
  split <;> simp

@[simp] theorem judgeSwell_cells (b u : ℕ) (x : RmsValue) (first : Bool) (s : State) :
    (judgeSwell b u x first s).store.cells = s.store.cells := by
  unfold judgeSwell
  split <;> simp

@[simp] theorem judgeInterruption_cells (b u : ℕ) (x : RmsValue) (first : Bool) (s : State) :
    (judgeInterruption b u x first s).store.cells = s.store.cells := by
  unfold judgeInterruption
  split <;> simp

@[simp] theorem judgeRvc_cells (b u : ℕ) (x : RmsValue) (s : State) :
    (judgeRvc b u x s).store.cells = s.store.cells := by
  unfold judgeRvc
  split <;> simp

@[simp] theorem halfFrame_cells (f : RingFrame) (s : State) :
    (halfFrame f s).store.cells = s.store.cells := by
  unfold halfFrame
  split <;> rfl

@[simp] theorem judgeCycle_cells (u a b : ℕ) (fs : List RingFrame) (s : State) :
    (judgeCycle u a b fs s).store.cells = s.store.cells := by
  simp [judgeCycle]

@[simp] theorem halfCycleRms_cells (c : ℕ) (s : State) :
    (halfCycleRms c s).store.cells = s.store.cells := by
  unfold halfCycleRms
  dsimp only
  repeat' split
  all_goals simp

@[simp] theorem closeAllEvents_cells (cut lost : Bool) (s : State) :
    (closeAllEvents cut lost s).store.cells = s.store.cells := by
  simp [closeAllEvents]

@[simp] theorem suspendXa_cells (s : State) :
    (suspendXa s).store.cells = s.store.cells := by
  simp [suspendXa]

@[simp] theorem countGap_cells (s : State) :
    (countGap s).store.cells = s.store.cells := rfl

@[simp] theorem offerGap_cells (reason seq startTick endTick : ℕ) (s : State) :
    (offerGap reason seq startTick endTick s).store.cells = s.store.cells := rfl

@[simp] theorem openSegment_cells (strobe flags : ℕ) (s : State) :
    (openSegment strobe flags s).store.cells = s.store.cells := by
  unfold Machine.openSegment
  extract_lets v r t whole mask seq g h s'
  clear_value g h
  split_ifs
  · rfl
  · exact offer_cells _ _ _
  · exact offerGap_cells _ _ _ _ _

@[simp] theorem closeSegment_cells (extra ends : ℕ) (s : State) :
    (closeSegment extra ends s).store.cells = s.store.cells := by
  unfold closeSegment
  split <;> simp

@[simp] theorem turnSegments_cells (x0 : ℕ) (x1 : State) :
    (turnSegments x0 x1).store.cells = x1.store.cells := by
  induction x0 generalizing x1 with
  | zero => rfl
  | succ n ih =>
    unfold turnSegments
    split
    · rfl
    · dsimp only
      split_ifs
      · exact (ih _).trans ((openSegment_cells _ _ _).trans (closeSegment_cells _ _ _))
      · rfl

@[simp] theorem runCuts_cells (s : State) :
    (runCuts s).store.cells = s.store.cells := by
  simp [runCuts]

@[simp] theorem splitSegment_cells (strobe ends before after : ℕ) (s : State) :
    (splitSegment strobe ends before after s).store.cells = s.store.cells := by
  simp [splitSegment]

@[simp] theorem segmentBoundary_cells (s : State) :
    (segmentBoundary s).store.cells = s.store.cells := by
  simp [segmentBoundary]

@[simp] theorem codeNext_cells (g : Segment) (c : ℕ) (xs : List ℤ) (marks : Bool × Bool) (verified : Bool) (s : State) :
    (codeNext g c xs marks verified s).store.cells = s.store.cells := rfl

@[simp] theorem seepBlock_cells (c : ℕ) (verified : Bool) (s : State) :
    (seepBlock c verified s).store.cells = s.store.cells := by
  unfold seepBlock
  split
  · rfl
  · split_ifs
    · rfl
    · split
      · rfl
      · exact (runCuts_cells _).trans (codeNext_cells _ _ _ _ _ _)

@[simp] theorem codeBlocks_cells (x0 : ℕ) (x1 : State) :
    (codeBlocks x0 x1).store.cells = x1.store.cells := by
  induction x0 generalizing x1 with
  | zero => rfl
  | succ n ih =>
    unfold codeBlocks
    split
    · rfl
    · split
      · rfl
      · split
        · rfl
        · split_ifs
          · rfl
          · exact (ih _).trans ((runCuts_cells _).trans (codeNext_cells _ _ _ _ _ _))

@[simp] theorem cutRecording_cells (s : State) :
    (cutRecording s).store.cells = s.store.cells := by
  simp [cutRecording]

@[simp] theorem abandonSegment_cells (reason : ℕ) (s : State) :
    (abandonSegment reason s).store.cells = s.store.cells := by
  unfold abandonSegment
  split <;> simp

@[simp] theorem writeLayout_cells (start resume : Bool) (time b : ℕ) (s : State) :
    (writeLayout start resume time b s).store.cells = s.store.cells := by
  simp only [writeLayout]
  split_ifs <;> rfl

@[simp] theorem writeLayouts_cells (start resume : Bool) (time : ℕ) (s : State) :
    (writeLayouts start resume time s).store.cells = s.store.cells := by
  simp [writeLayouts]

@[simp] theorem layoutHourly_cells (s : State) :
    (layoutHourly s).store.cells = s.store.cells := by
  simp [layoutHourly]

@[simp] theorem closeProfile_cells (b endTick flags nextFlags : ℕ) (s : State) :
    (closeProfile b endTick flags nextFlags s).store.cells = s.store.cells := rfl

@[simp] theorem writeProfile_cells (c : ProfileClose) (s : State) :
    (writeProfile c s).store.cells = s.store.cells := by
  simp [writeProfile]

@[simp] theorem profileWrite_cells (s : State) :
    (profileWrite s).store.cells = s.store.cells := by
  unfold profileWrite
  dsimp only
  repeat' split
  all_goals simp

@[simp] theorem giveWay_cells (seg start : ℕ) (s : State) :
    (giveWay seg start s).store.cells = s.store.cells := rfl

@[simp] theorem dropOldest_cells (s : State) :
    (dropOldest s).store.cells = s.store.cells := by
  unfold dropOldest
  split <;> rfl

@[simp] theorem heedFill_cells (s : State) :
    (heedFill s).store.cells = s.store.cells := by
  simp [heedFill]

@[simp] theorem discardPool_cells (s : State) :
    (discardPool s).store.cells = s.store.cells := by
  unfold discardPool
  split <;> rfl

@[simp] theorem mereTake_cells (s : State) :
    (mereTake s).store.cells = s.store.cells := by
  unfold mereTake
  split <;> simp

@[simp] theorem skipCopies_cells (s : State) :
    (skipCopies s).store.cells = s.store.cells := by
  simp only [skipCopies]
  split_ifs <;> rfl

@[simp] theorem giveWork_cells (s : State) :
    (giveWork s).store.cells = s.store.cells := by
  unfold giveWork
  dsimp only
  split
  · rfl
  · refine (foldl_keeps (·.store.cells) (fun s d => ?_) _ _).trans (skipCopies_cells _)
    repeat' split
    all_goals rfl

@[simp] theorem noteDone_cells (done : List BufFrame) (s : State) :
    (noteDone done s).store.cells = s.store.cells := by
  unfold noteDone
  refine foldl_keeps (·.store.cells) (fun s f => ?_) _ _
  split <;> rfl

@[simp] theorem setOutcome_cells (number outcome : ℕ) (s : State) :
    (setOutcome number outcome s).store.cells = s.store.cells := rfl

@[simp] theorem pinExtension_cells (code seq outcome pin : ℕ) (s : State) :
    (pinExtension code seq outcome pin s).store.cells = s.store.cells := rfl

@[simp] theorem settlePins_cells (s : State) :
    (settlePins s).store.cells = s.store.cells := by
  unfold settlePins
  refine (foldl_keeps (·.store.cells) (fun s p => pinExtension_cells _ _ _ _ s) _ _).trans ?_
  exact foldl_keeps (·.store.cells) (fun s p => setOutcome_cells _ _ s) _ _

@[simp] theorem copyPage_cells (seg : ℕ) (s : State) :
    (copyPage seg s).store.cells = s.store.cells := by
  unfold copyPage
  dsimp only
  repeat' split
  all_goals simp

@[simp] theorem checkpointPage_cells (s : State) :
    (checkpointPage s).store.cells = s.store.cells := by
  unfold checkpointPage
  dsimp only
  repeat' split
  all_goals simp

@[simp] theorem relocateBlock_cells (lb t : ℕ) (s : State) :
    (relocateBlock lb t s).store.cells = s.store.cells := by
  unfold relocateBlock
  split <;> simp

@[simp] theorem countPage_cells (d : ℕ) (s : State) :
    (countPage d s).store.cells = s.store.cells := rfl

@[simp] theorem readDone_cells (d tag : ℕ) (s : State) :
    (readDone d tag s).store.cells = s.store.cells := rfl

@[simp] theorem applyOp_cells (d : ℕ) (op : FlashOp) (s : State) :
    (applyOp d op s).store.cells = s.store.cells := by
  unfold applyOp
  split <;> simp

@[simp] theorem badProgram_cells (lb : ℕ) (s : State) :
    (badProgram lb s).store.cells = s.store.cells := rfl

@[simp] theorem drawFailed_cells (s : State) :
    (drawFailed s).store.cells = s.store.cells := by
  unfold drawFailed
  split <;> rfl

@[simp] theorem programFailed_cells (t : ℕ) (s : State) :
    (programFailed t s).store.cells = s.store.cells := by
  unfold programFailed
  split <;> simp

@[simp] theorem moveFailed_cells (lb : ℕ) (s : State) :
    (moveFailed lb s).store.cells = s.store.cells := by
  unfold moveFailed
  split <;> simp

@[simp] theorem failOp_cells (op : FlashOp) (s : State) :
    (failOp op s).store.cells = s.store.cells := by
  unfold failOp
  split <;> simp

@[simp] theorem endRead_cells (d : ℕ) (s : State) :
    (endRead d s).store.cells = s.store.cells := by
  unfold endRead
  split <;> rfl

@[simp] theorem flashDone_cells (d : ℕ) (result : FlashResult) (s : State) :
    (flashDone d result s).store.cells = s.store.cells := by
  unfold flashDone
  dsimp only
  repeat' split
  all_goals simp

@[simp] theorem unmount_cells (next : ArchiveState) (s : State) :
    (unmount next s).store.cells = s.store.cells := by
  simp only [unmount]
  split_ifs <;> rfl

@[simp] theorem archiveFail_cells (d : ℕ) (s : State) :
    (archiveFail d s).store.cells = s.store.cells := by
  unfold archiveFail
  rw [completeAll_cells, raise_store, unmount_cells]
  refine (foldl_keeps (·.store.cells) (fun s p => ?_) _ _).trans (foldl_keeps (·.store.cells) (fun s p => by simp) _ _)
  split
  · exact pinExtension_cells _ _ _ _ s
  · rfl

@[simp] theorem flashTimeout_cells (d : ℕ) (s : State) :
    (flashTimeout d s).store.cells = s.store.cells := by
  simp [flashTimeout]

@[simp] theorem pageFlush_cells (t : ℕ) (s : State) :
    (pageFlush t s).store.cells = s.store.cells := by
  simp [pageFlush]

@[simp] theorem checkpointDue_cells (s : State) :
    (checkpointDue s).store.cells = s.store.cells := by
  simp [checkpointDue]

@[simp] theorem beginMount_cells (atStart warm : Bool) (s : State) :
    (beginMount atStart warm s).store.cells = s.store.cells := by
  unfold beginMount
  split <;> rfl

@[simp] theorem dropOneTorn_cells (marked : List ℕ) (x : ℕ × Bytes) (s : State) :
    (dropOneTorn marked x s).store.cells = s.store.cells := by
  simp only [dropOneTorn]
  split_ifs <;> rfl

@[simp] theorem dropTorn_cells (s : State) :
    (dropTorn s).store.cells = s.store.cells := by
  simp [dropTorn]

@[simp] theorem offerMissing_cells (stop x1 x2 x3 : ℕ) (x4 : State) :
    (offerMissing stop x1 x2 x3 x4).store.cells = x4.store.cells := by
  induction x1 generalizing x2 x3 x4 with
  | zero => rfl
  | succ n ih => exact (ih _ _ _).trans (offerGap_cells _ _ _ _ _)

@[simp] theorem markMissing_cells (s : State) :
    (markMissing s).store.cells = s.store.cells := by
  unfold markMissing
  dsimp only
  repeat' split
  all_goals simp

@[simp] theorem mountDone_cells (s : State) :
    (mountDone s).store.cells = s.store.cells := by
  simp [mountDone]

@[simp] theorem mountCheckpoint_cells (s : State) :
    (mountCheckpoint s).store.cells = s.store.cells := by
  unfold mountCheckpoint
  split <;> simp

@[simp] theorem scanPhase1_cells (s : State) :
    (scanPhase1 s).store.cells = s.store.cells := by
  unfold scanPhase1
  split <;> simp

@[simp] theorem scanPhase2_cells (s : State) :
    (scanPhase2 s).store.cells = s.store.cells := by
  unfold scanPhase2
  split <;> simp

@[simp] theorem formatEnd_cells (s : State) :
    (formatEnd s).store.cells = s.store.cells := by
  unfold formatEnd
  split <;> simp

@[simp] theorem archiveCommand_cells (value : ℕ) (s : State) :
    (archiveCommand value s).2.store.cells = s.store.cells := by
  simp only [archiveCommand]
  split_ifs <;> simp

@[simp] theorem coderSelftestEnd_cells (passed : Bool) (s : State) :
    (coderSelftestEnd passed s).store.cells = s.store.cells := by
  simp [coderSelftestEnd]

@[simp] theorem makePin_cells (fromTick toTick reason evidence : ℕ) (segs : List ℕ) (s : State) :
    (makePin fromTick toTick reason evidence segs s).1.store.cells = s.store.cells := rfl

@[simp] theorem pinSegment_cells (p : Bytes) (s : State) :
    (pinSegment p s).2.store.cells = s.store.cells := by
  unfold pinSegment
  dsimp only
  repeat' split
  all_goals simp

@[simp] theorem unpin_cells (n : ℕ) (s : State) :
    (unpin n s).store.cells = s.store.cells := rfl

@[simp] theorem releasePins_cells (f t : ℕ) (s : State) :
    (releasePins f t s).store.cells = s.store.cells := rfl

@[simp] theorem pinComplete_cells (s : State) :
    (pinComplete s).store.cells = s.store.cells := by
  unfold pinComplete
  dsimp only
  repeat' split
  all_goals simp

@[simp] theorem devicePin_cells (fromTick toTick reason evidence : ℕ) (s : State) :
    (devicePin fromTick toTick reason evidence s).1.store.cells = s.store.cells := by
  simp only [devicePin]
  split_ifs <;> rfl

@[simp] theorem askEventPin_cells (p : PinRequest) (s : State) :
    (askEventPin p s).store.cells = s.store.cells := by
  unfold askEventPin
  dsimp only
  repeat' split
  all_goals simp

@[simp] theorem eventPinDue_cells (s : State) :
    (eventPinDue s).store.cells = s.store.cells := by
  unfold eventPinDue
  dsimp only
  repeat' split
  all_goals simp

@[simp] theorem archiveRead_cells (p : Bytes) (s : State) :
    (archiveRead p s).2.store.cells = s.store.cells := by
  unfold archiveRead
  dsimp only
  repeat' split
  all_goals simp

@[simp] theorem readRequest_cells (own : ℕ) (p : Bytes) (s : State) :
    (readRequest own p s).2.store.cells = s.store.cells := by
  simp only [readRequest]
  split <;> simp

@[simp] theorem dropReads_cells (tag : ℕ) (s : State) :
    (dropReads tag s).store.cells = s.store.cells := rfl

@[simp] theorem archiveReadComplete_cells (tag : ℕ) (s : State) :
    (archiveReadComplete tag s).store.cells = s.store.cells := by
  unfold archiveReadComplete
  dsimp only
  repeat' split
  all_goals simp

@[simp] theorem archiveReadTimeout_cells (tag : ℕ) (s : State) :
    (archiveReadTimeout tag s).store.cells = s.store.cells := by
  unfold archiveReadTimeout
  dsimp only
  repeat' split
  all_goals simp

@[simp] theorem auditReplay_cells (p : Bytes) (s : State) :
    (auditReplay p s).2.store.cells = s.store.cells := by
  unfold auditReplay
  dsimp only
  repeat' split
  all_goals simp

@[simp] theorem auditRequest_cells (own : ℕ) (p : Bytes) (s : State) :
    (auditRequest own p s).2.store.cells = s.store.cells := by
  simp only [auditRequest]
  split <;> simp

@[simp] theorem auditComplete_cells (s : State) :
    (auditComplete s).store.cells = s.store.cells := by
  unfold auditComplete
  dsimp only
  repeat' split
  all_goals simp

@[simp] theorem saveDevice_cells (s : State) :
    (saveDevice s).store.cells = s.store.cells := by
  simp [saveDevice]

@[simp] theorem loadDevice_cells (s : State) :
    (loadDevice s).store.cells = s.store.cells := by
  simp only [loadDevice]
  split <;> simp

@[simp] theorem saveLatched_cells (s : State) :
    (saveLatched s).store.cells = s.store.cells := by
  simp [saveLatched]

@[simp] theorem loadLatched_cells (s : State) :
    (loadLatched s).store.cells = s.store.cells := by
  simp only [loadLatched]
  split <;> simp

@[simp] theorem refuseProtected_cells (s : State) :
    (refuseProtected s).2.store.cells = s.store.cells := rfl

@[simp] theorem setProtection_cells (value : ℕ) (s : State) :
    (setProtection value s).2.store.cells = s.store.cells := by
  simp only [setProtection]
  split_ifs <;> simp

@[simp] theorem flushProfiles_cells (point x1 : ℕ) (x2 : State) :
    (flushProfiles point x1 x2).store.cells = x2.store.cells := by
  induction x1 generalizing x2 with
  | zero => rfl
  | succ n ih =>
    unfold flushProfiles
    split
    · split
      · exact (ih _).trans (writeProfile_cells _ _)
      · rfl
    · rfl

@[simp] theorem billingSave_cells (kind writer : ℕ) (c : Capture) (smax : List ℕ) (s : State) :
    (billingSave kind writer c smax s).store.cells = s.store.cells := by
  simp [billingSave]

@[simp] theorem saveLive_cells (kind : ℕ) (s : State) :
    (saveLive kind s).store.cells = s.store.cells := by
  simp [saveLive]

@[simp] theorem wardenSave_cells (s : State) :
    (wardenSave s).store.cells = s.store.cells := by
  simp [wardenSave]

@[simp] theorem periodicSave_cells (s : State) :
    (periodicSave s).store.cells = s.store.cells := by
  unfold periodicSave
  split <;> simp

@[simp] theorem recoverOutput_cells (o : ℕ) (f : FoundOutput) (s : State) :
    (recoverOutput o f s).store.cells = s.store.cells := rfl

@[simp] theorem recoverBilling_cells (s : State) :
    (recoverBilling s).store.cells = s.store.cells := by
  unfold recoverBilling
  extract_lets u m v save mirror newer base found services smax _ _ _ _ a _ _ b _ c
  have first : u.store.cells = s.store.cells := by simp [u]
  have second : a.store.cells = s.store.cells := first
  clear_value u m v save newer base a
  have third : b.store.cells = s.store.cells := by
    unfold b
    split
    · exact second
    · split <;> exact second
  clear_value b
  split
  · have slices : c.store.cells = s.store.cells := by
      unfold c
      split <;> exact third
    clear_value c
    split <;> exact slices
  · extract_lets outs c d
    have outputs : c.store.cells = b.store.cells :=
      foldl_keeps (·.store.cells) (fun s o => recoverOutput_cells o _ s) _ _
    have slices : d.store.cells = c.store.cells :=
      foldl_keeps (·.store.cells) (fun s i => congrArg (·.cells) (modSlice_store s _ _)) _ _
    clear_value c d
    refine Eq.trans ?_ (slices.trans (outputs.trans third))
    generalize movedOutputs _ _ _ = moves
    rfl

@[simp] theorem resumeProfile_cells (s : State) :
    (resumeProfile s).store.cells = s.store.cells := by
  simp [resumeProfile]

@[simp] theorem energyGap_cells (first : ℕ) (s : State) :
    (energyGap first s).store.cells = s.store.cells := by
  unfold energyGap
  split <;> rfl

@[simp] theorem scrubPage_cells (weak : ℕ) (s : State) :
    (scrubPage weak s).store.cells = s.store.cells := by
  simp only [scrubPage]
  split_ifs <;> simp

@[simp] theorem noteSilence_cells (e : ℕ) (s : State) :
    (State.noteSilence e s).store.cells = s.store.cells := rfl

@[simp] theorem startResync_cells (e : ℕ) (s : State) :
    (startResync e s).store.cells = s.store.cells := rfl

@[simp] theorem rejoin_cells (e : ℕ) (s : State) :
    (rejoin e s).store.cells = s.store.cells := rfl

@[simp] theorem presentClaim_cells (c : BitVec 16) (s : State) :
    (presentClaim c s).store.cells = s.store.cells := by
  unfold presentClaim
  split <;> rfl

@[simp] theorem engineClaims_cells (e : ℕ) (c : BitVec 16) (s : State) :
    (engineClaims e c s).store.cells = s.store.cells := by
  simp [engineClaims]

@[simp] theorem withdrawVerdict_cells (e : ℕ) (s : State) :
    (withdrawVerdict e s).store.cells = s.store.cells := by
  unfold withdrawVerdict
  split <;> simp

@[simp] theorem hearBeat_cells (e path : ℕ) (s : State) :
    (hearBeat e path s).store.cells = s.store.cells := by
  simp [hearBeat]

@[simp] theorem heartbeatF_cells (e : ℕ) (intake : BitVec 32) (s : State) :
    (heartbeatF e intake s).store.cells = s.store.cells := by
  simp [heartbeatF]

@[simp] theorem heartbeatW_cells (e : ℕ) (s : State) :
    (heartbeatW e s).store.cells = s.store.cells := by
  simp [heartbeatW]

@[simp] theorem underTest_cells (e : ℕ) (s : State) :
    (underTest e s).store.cells = s.store.cells := by
  simp only [underTest]
  split_ifs <;> rfl

@[simp] theorem standDown_cells (e : ℕ) (s : State) :
    (standDown e s).store.cells = s.store.cells := by
  unfold standDown
  split <;> simp

@[simp] theorem beginTakeover_cells (survivor cause source : ℕ) (record : Option StateRecord) (s : State) :
    (beginTakeover survivor cause source record s).store.cells = s.store.cells := rfl

@[simp] theorem declareFailed_cells (e : ℕ) (both : Bool) (s : State) :
    (declareFailed e both s).store.cells = s.store.cells := by
  unfold declareFailed
  dsimp only
  repeat' split
  all_goals simp

@[simp] theorem verdict_cells (e : ℕ) (s : State) :
    (verdict e s).store.cells = s.store.cells := by
  unfold verdict
  split <;> simp

@[simp] theorem faultPath_cells (e path : ℕ) (s : State) :
    (faultPath e path s).store.cells = s.store.cells := by
  simp only [faultPath]
  split_ifs <;> rfl

@[simp] theorem pathFault_cells (e path : ℕ) (s : State) :
    (pathFault e path s).store.cells = s.store.cells := by
  simp [pathFault]

@[simp] theorem restorePath_cells (e path : ℕ) (s : State) :
    (restorePath e path s).store.cells = s.store.cells := by
  unfold restorePath
  split <;> rfl

@[simp] theorem pathRestored_cells (e path : ℕ) (s : State) :
    (pathRestored e path s).store.cells = s.store.cells := by
  simp [pathRestored]

@[simp] theorem claimPresent_cells (e : ℕ) (s : State) :
    (claimPresent e s).store.cells = s.store.cells := by
  unfold claimPresent
  dsimp only
  repeat' split
  all_goals simp

@[simp] theorem claimSettleEnd_cells (e : ℕ) (s : State) :
    (claimSettleEnd e s).store.cells = s.store.cells := by
  unfold claimSettleEnd
  dsimp only
  repeat' split
  all_goals simp

@[simp] theorem wardenTakesCharge_cells (s : State) :
    (wardenTakesCharge s).store.cells = s.store.cells := by
  unfold wardenTakesCharge
  dsimp only
  repeat' split
  all_goals simp

@[simp] theorem writeRecord_cells (kind writer c : ℕ) (crcOk : Bool) (body : Billing) (pairs : List RelayPair) (s : State) :
    (State.writeRecord kind writer c crcOk body pairs s).2.store.cells = s.store.cells := rfl

@[simp] theorem agreeRecord_cells (e : ℕ) (x : BlockEnd) (s : State) :
    (agreeRecord e x s).store.cells = s.store.cells := rfl

@[simp] theorem compareDigests_cells (x : BlockEnd) (d0 d1 : BitVec 64) (s : State) :
    (compareDigests x d0 d1 s).store.cells = s.store.cells := by
  unfold compareDigests
  split <;> rfl

@[simp] theorem joinLockstep_cells (s : State) :
    (joinLockstep s).store.cells = s.store.cells := by
  unfold joinLockstep
  split <;> rfl

@[simp] theorem noteBlock_cells (a : ℕ) (s : State) :
    (noteBlock a s).store.cells = s.store.cells := by
  simp [noteBlock]

@[simp] theorem errEngine_cells (e : ℕ) (s : State) :
    (errEngine e s).store.cells = s.store.cells := rfl

@[simp] theorem blockDigestArrives_cells (e block : ℕ) (flips : BitVec 64) (s : State) :
    (blockDigestArrives e block flips s).store.cells = s.store.cells := by
  unfold blockDigestArrives
  dsimp only
  repeat' split
  all_goals simp

@[simp] theorem digestLate_cells (s : State) :
    (digestLate s).store.cells = s.store.cells := by
  unfold digestLate
  split <;> rfl

@[simp] theorem retireEngine_cells (e : ℕ) (s : State) :
    (retireEngine e s).store.cells = s.store.cells := by
  simp only [retireEngine]
  split_ifs <;> simp

@[simp] theorem resyncEngine_cells (e duration : ℕ) (s : State) :
    (resyncEngine e duration s).store.cells = s.store.cells := rfl

@[simp] theorem recordBoundary_cells (c : ℕ) (s : State) :
    (recordBoundary c s).store.cells = s.store.cells := by
  simp only [recordBoundary]
  split_ifs <;> rfl

@[simp] theorem noteBoundary_cells (c : ℕ) (s : State) :
    (noteBoundary c s).store.cells = s.store.cells := by
  simp [noteBoundary]

@[simp] theorem writeBilling_cells (s : State) :
    (writeBilling s).store.cells = s.store.cells := by
  unfold writeBilling
  split <;> simp

@[simp] theorem checkpointArrival_cells (intact : Bool) (s : State) :
    (checkpointArrival intact s).store.cells = s.store.cells := by
  unfold checkpointArrival
  dsimp only
  repeat' split
  all_goals simp

@[simp] theorem noteTest_cells (word unit : ℕ) (s : State) :
    (noteTest word unit s).store.cells = s.store.cells := rfl

@[simp] theorem completeTest_cells (unit word : ℕ) (s : State) :
    (completeTest unit word s).store.cells = s.store.cells := by
  unfold completeTest
  refine (foldl_keeps (·.store.cells) (fun s c => ?_) _ _).trans (noteTest_cells _ _ _)
  split
  · split
    · exact complete_cells _ _ _ _
    · rfl
  · rfl

@[simp] theorem engineTested_cells (e : ℕ) (passed : Bool) (duration : ℕ) (s : State) :
    (engineTested e passed duration s).store.cells = s.store.cells := by
  simp [engineTested]

@[simp] theorem lineEffect_cells (s : State) :
    (lineEffect s).store.cells = s.store.cells := by
  simp only [lineEffect]
  split_ifs <;> rfl

@[simp] theorem countLine_cells (k : ℕ) (s : State) :
    (countLine k s).store.cells = s.store.cells := rfl

@[simp] theorem transmit_cells (frame : Bytes) (anchor : ℕ) (s : State) :
    (transmit frame anchor s).store.cells = s.store.cells := by
  simp only [transmit]
  split_ifs <;> rfl

@[simp] theorem holdLineOff_cells (s : State) :
    (holdLineOff s).store.cells = s.store.cells := by
  simp only [holdLineOff]
  split_ifs <;> rfl

@[simp] theorem lineBack_cells (s : State) :
    (lineBack s).store.cells = s.store.cells := by
  unfold lineBack
  split <;> rfl

@[simp] theorem txLimit_cells (s : State) :
    (txLimit s).store.cells = s.store.cells := by
  unfold txLimit
  split <;> rfl

@[simp] theorem transmitEnd_cells (s : State) :
    (transmitEnd s).store.cells = s.store.cells := by
  unfold transmitEnd
  split <;> simp

@[simp] theorem frameDetected_cells (peak : ℕ) (level noise : ℤ) (s : State) :
    (frameDetected peak level noise s).store.cells = s.store.cells := by
  unfold frameDetected
  split <;> rfl

@[simp] theorem endReception_cells (f : LineFrame) (s : State) :
    (endReception f s).store.cells = s.store.cells := by
  unfold endReception
  dsimp only
  repeat' split
  all_goals simp

@[simp] theorem frameReject_cells (f : LineFrame) (s : State) :
    (frameReject f s).store.cells = s.store.cells := by
  simp [frameReject]

@[simp] theorem modNode_cells (a : ℕ) (f : Node → Node) (s : State) :
    (State.modNode a f s).store.cells = s.store.cells := rfl

@[simp] theorem countNet_cells (k : ℕ) (s : State) :
    (countNet k s).store.cells = s.store.cells := rfl

@[simp] theorem saveNode_cells (a : ℕ) (s : State) :
    (saveNode a s).store.cells = s.store.cells := by
  simp [saveNode]

@[simp] theorem saveHead_cells (s : State) :
    (saveHead s).store.cells = s.store.cells := by
  simp [saveHead]

@[simp] theorem hearLink_cells (hearing heard margin : ℕ) (s : State) :
    (hearLink hearing heard margin s).store.cells = s.store.cells := by
  unfold hearLink
  dsimp only
  repeat' split
  all_goals simp

@[simp] theorem gradeRoute_cells (ok : Bool) (route : List ℕ) (a : ℕ) (s : State) :
    (gradeRoute ok route a s).store.cells = s.store.cells := rfl

@[simp] theorem setRole_cells (a : ℕ) (on : Bool) (s : State) :
    (setRole a on s).store.cells = s.store.cells := by
  simp [setRole]

@[simp] theorem setRoles_cells (s : State) :
    (setRoles s).store.cells = s.store.cells := by
  simp [setRoles]

@[simp] theorem reroute_cells (s : State) :
    (reroute s).store.cells = s.store.cells := by
  unfold reroute
  dsimp only
  refine (setRoles_cells _).trans (foldl_keeps (·.store.cells) (fun s a => ?_) _ _)
  cases (routesOf _ _ _).find? _ with
  | none => rfl
  | some w =>
    dsimp only
    split_ifs <;> simp

@[simp] theorem loseNode_cells (a : ℕ) (s : State) :
    (loseNode a s).store.cells = s.store.cells := by
  unfold loseNode
  split <;> rfl

@[simp] theorem nodeAbsent_cells (a : ℕ) (s : State) :
    (nodeAbsent a s).store.cells = s.store.cells := by
  simp [nodeAbsent]

@[simp] theorem nodeHeard_cells (a : ℕ) (s : State) :
    (nodeHeard a s).store.cells = s.store.cells := by
  simp [nodeHeard]

@[simp] theorem formNetwork_cells (s : State) :
    (formNetwork s).store.cells = s.store.cells := by
  have saved : ∀ (l : List Nat) (u : State), (l.foldl (fun s a => saveNode a s) u).store.cells = u.store.cells :=
    foldl_keeps (·.store.cells) (fun s a => saveNode_cells a s)
  unfold formNetwork
  dsimp only
  generalize List.replicate 256 ({} : Node) = nodes
  exact (saveHead_cells _).trans (saved _ _)

@[simp] theorem restoreNodes_cells (s : State) :
    (restoreNodes s).store.cells = s.store.cells := by
  unfold restoreNodes
  dsimp only
  exact foldl_keeps (·.store.cells) (fun s x => by simp) _ _

@[simp] theorem startNetwork_cells (warm : Bool) (s : State) :
    (startNetwork warm s).store.cells = s.store.cells := by
  unfold startNetwork
  dsimp only
  repeat' split
  all_goals simp

@[simp] theorem endRejoin_cells (s : State) :
    (endRejoin s).store.cells = s.store.cells := by
  unfold endRejoin
  split <;> rfl

@[simp] theorem noteCheck_cells (a check : ℕ) (s : State) :
    (noteCheck a check s).store.cells = s.store.cells := by
  unfold noteCheck
  split <;> rfl

@[simp] theorem reportBin_cells (a theta : ℕ) (s : State) :
    (reportBin a theta s).store.cells = s.store.cells := by
  simp only [reportBin]
  split <;> simp

@[simp] theorem publishBalance_cells (deadline : Bool) (s : State) :
    (publishBalance deadline s).store.cells = s.store.cells := by
  unfold publishBalance
  split
  · rfl
  · exact foldl_keeps (·.store.cells) (fun s x => by simp) _ _

@[simp] theorem publishReady_cells (x0 : ℕ) (x1 : State) :
    (publishReady x0 x1).store.cells = x1.store.cells := by
  induction x0 generalizing x1 with
  | zero => rfl
  | succ n ih =>
    unfold publishReady
    split
    · exact (ih _).trans (publishBalance_cells _ _)
    · rfl

@[simp] theorem tryPublish_cells (s : State) :
    (tryPublish s).store.cells = s.store.cells := by
  simp [tryPublish]

@[simp] theorem balanceDeadline_cells (s : State) :
    (balanceDeadline s).store.cells = s.store.cells := by
  unfold balanceDeadline
  split <;> simp

@[simp] theorem markFeed_cells (flags : ℕ) (s : State) :
    (markFeed flags s).store.cells = s.store.cells := by
  unfold markFeed
  split <;> rfl

@[simp] theorem feedSample_cells (flagged : ℕ → Bool) (s : State) :
    (feedSample flagged s).store.cells = s.store.cells := by
  simp [feedSample]

@[simp] theorem handFeeds_cells (stamp : ℕ) (s : State) :
    (handFeeds stamp s).store.cells = s.store.cells := by
  simp [handFeeds]

@[simp] theorem passLatch_cells (number boundary anchor : ℕ) (s : State) :
    (passLatch number boundary anchor s).store.cells = s.store.cells := rfl

@[simp] theorem fixLatch_cells (anchor : ℕ) (s : State) :
    (fixLatch anchor s).store.cells = s.store.cells := by
  unfold fixLatch
  split <;> simp

@[simp] theorem beacon_cells (s : State) :
    (beacon s).store.cells = s.store.cells := by
  simp [beacon]

@[simp] theorem superframeStart_cells (s : State) :
    (superframeStart s).store.cells = s.store.cells := by
  unfold superframeStart
  dsimp only
  repeat' split
  all_goals simp

@[simp] theorem sendRequest_cells (t : Transaction) (s : State) :
    (sendRequest t s).store.cells = s.store.cells := by
  unfold sendRequest
  dsimp only
  repeat' split
  all_goals simp

@[simp] theorem sendBroadcast_cells (tag : ℕ) (p : Bytes) (s : State) :
    (sendBroadcast tag p s).store.cells = s.store.cells := by
  simp [sendBroadcast]

@[simp] theorem refuseCandidate_cells (s : State) :
    (refuseCandidate s).store.cells = s.store.cells := by
  simp only [refuseCandidate]
  split <;> simp

@[simp] theorem reclaim_cells (a uid : ℕ) (s : State) :
    (reclaim a uid s).store.cells = s.store.cells := by
  simp [reclaim]

@[simp] theorem startTransaction_cells (s : State) :
    (startTransaction s).store.cells = s.store.cells := by
  unfold startTransaction
  dsimp only
  repeat' split
  all_goals simp

@[simp] theorem continueTransaction_cells (t : Transaction) (s : State) :
    (continueTransaction t s).store.cells = s.store.cells := by
  simp [continueTransaction]

@[simp] theorem slotStart_cells (s : State) :
    (slotStart s).store.cells = s.store.cells := by
  unfold slotStart
  dsimp only
  repeat' split
  all_goals simp

@[simp] theorem failTransaction_cells (t : Transaction) (s : State) :
    (failTransaction t s).store.cells = s.store.cells := by
  unfold failTransaction
  split <;> simp

@[simp] theorem transactionTimeout_cells (s : State) :
    (transactionTimeout s).store.cells = s.store.cells := by
  unfold transactionTimeout
  split <;> simp

@[simp] theorem hear_cells (types : List ℕ) (f : LineFrame) (k : HeardFrame → NetFrame → State → State)
    (keeps : ∀ h n s, (k h n s).store.cells = s.store.cells) (s : State) :
    (hear types f k s).store.cells = s.store.cells := by
  unfold hear
  split
  · rfl
  · extract_lets heard s₁
    have ended : s₁.store.cells = s.store.cells := endReception_cells _ _
    clear_value heard s₁
    split
    · exact ended
    · split
      · exact ended
      · split
        · exact ended
        · extract_lets who s₂ s₃
          have noted : s₂.store.cells = s.store.cells := (noteCheck_cells _ _ _).trans ended
          clear_value s₂
          have judged : s₃.store.cells = s.store.cells := by
            refine (keeps _ _ _).trans ?_
            split
            · exact noted
            · exact Eq.trans (by simp) noted
          split
          · exact judged
          · exact (reroute_cells _).trans judged

@[simp] theorem endTransaction_cells (t : Transaction) (s : State) :
    (endTransaction t s).store.cells = s.store.cells := by
  simp [endTransaction]

@[simp] theorem addCandidate_cells (uid proxy margin : ℕ) (s : State) :
    (addCandidate uid proxy margin s).store.cells = s.store.cells := by
  unfold addCandidate
  split <;> rfl

@[simp] theorem joinReq_cells (f : LineFrame) (s : State) :
    (joinReq f s).store.cells = s.store.cells := by
  simp [joinReq]

@[simp] theorem enterNode_cells (t : Transaction) (uid : ℕ) (s : State) :
    (enterNode t uid s).store.cells = s.store.cells := by
  simp [enterNode]

@[simp] theorem takeStatus_cells (a : ℕ) (route : List ℕ) (b : Bytes) (s : State) :
    (takeStatus a route b s).store.cells = s.store.cells := by
  simp [takeStatus]

@[simp] theorem status_cells (f : LineFrame) (s : State) :
    (status f s).store.cells = s.store.cells := hear_cells _ _ _ (fun h n s => by
    dsimp only
    repeat' split
    all_goals simp) s

@[simp] theorem takeReport_cells (a : ℕ) (b : Bytes) (s : State) :
    (takeReport a b s).store.cells = s.store.cells := by
  unfold takeReport
  dsimp only
  split
  · exact reportBin_cells _ _ _
  · exact (foldl_keeps (·.store.cells) (fun s r => by simp) _ _).trans (reportBin_cells _ _ _)

@[simp] theorem noteSwept_cells (a last : ℕ) (s : State) :
    (noteSwept a last s).store.cells = s.store.cells := rfl

@[simp] theorem report_cells (f : LineFrame) (s : State) :
    (report f s).store.cells = s.store.cells := hear_cells _ _ _ (fun h n s => by
    dsimp only
    repeat' split
    all_goals simp) s

@[simp] theorem dataAck_cells (f : LineFrame) (s : State) :
    (dataAck f s).store.cells = s.store.cells := hear_cells _ _ _ (fun h n s => by
    dsimp only
    repeat' split
    all_goals simp) s

@[simp] theorem roleAck_cells (f : LineFrame) (s : State) :
    (roleAck f s).store.cells = s.store.cells := hear_cells _ _ _ (fun h n s => by
    repeat' split
    all_goals simp) s

@[simp] theorem frameOverheard_cells (f : LineFrame) (s : State) :
    (frameOverheard f s).store.cells = s.store.cells := hear_cells _ _ _ (fun h n s => by
    split
    · split <;> rfl
    · rfl) s

@[simp] theorem relayBeacon_cells (f : LineFrame) (s : State) :
    (relayBeacon f s).store.cells = s.store.cells := by
  simp [relayBeacon]

@[simp] theorem formingEnd_cells (s : State) :
    (formingEnd s).store.cells = s.store.cells := by
  simp only [formingEnd]
  split_ifs <;> rfl

@[simp] theorem zlinkSend_cells (p : Bytes) (s : State) :
    (zlinkSend p s).2.store.cells = s.store.cells := by
  simp only [zlinkSend]
  split_ifs <;> rfl

@[simp] theorem networkCommand_cells (v : ℕ) (s : State) :
    (networkCommand v s).2.store.cells = s.store.cells := by
  simp only [networkCommand]
  split_ifs <;> simp

@[simp] theorem modConv_cells (k : ℕ) (f : Converter → Converter) (s : State) :
    (State.modConv k f s).store.cells = s.store.cells := rfl

@[simp] theorem auxAt_cells (t : ℕ) (s : State) :
    (auxAt t s).store.cells = s.store.cells := by
  unfold auxAt
  split <;> rfl

@[simp] theorem beginEntry_cells (k t x2 x3 : ℕ) (x4 : State) :
    (beginEntry k t x2 x3 x4).store.cells = x4.store.cells := by
  induction x2 generalizing x3 x4 with
  | zero => rfl
  | succ n ih =>
    unfold beginEntry
    dsimp only
    split
    · split
      · rfl
      · refine (ih _ _).trans ?_
        split <;> rfl
    · split
      · split
        · refine (ih _ _).trans ?_
          split <;> rfl
        · split <;> rfl
      · split <;> rfl

@[simp] theorem pairUp_cells (s : State) :
    (pairUp s).store.cells = s.store.cells := by
  unfold pairUp
  split <;> rfl

@[simp] theorem goEntry_cells (k t e : ℕ) (s : State) :
    (goEntry k t e s).store.cells = s.store.cells := by
  simp [goEntry]

@[simp] theorem startTable_cells (k t : ℕ) (s : State) :
    (startTable k t s).store.cells = s.store.cells := by
  simp [startTable]

@[simp] theorem stopAt_cells (s : State) (k now : ℕ) :
    (State.stopAt s k now).store.cells = s.store.cells := rfl

@[simp] theorem stopConv_cells (ks : List ℕ) (s : State) :
    (stopConv ks s).store.cells = s.store.cells := by
  unfold stopConv
  dsimp only
  exact foldl_keeps (·.store.cells) (fun s x => by simp) _ _

@[simp] theorem dropTrigger_cells (ks : List ℕ) (s : State) :
    (dropTrigger ks s).store.cells = s.store.cells := foldl_keeps (·.store.cells) (fun s k => by simp) ks s

@[simp] theorem loadAux_cells (s : State) :
    (loadAux s).store.cells = s.store.cells := by
  unfold loadAux
  extract_lets v s₁ comps tableOf s₂ _ s₃ t s₄
  split
  · rfl
  · have stopped : s₁.store.cells = s.store.cells := by simp [s₁]
    have tables : s₂.store.cells = s₁.store.cells := foldl_keeps (·.store.cells) (fun s k => by simp) _ _
    have loaded : s₃.store.cells = s.store.cells := tables.trans stopped
    clear_value s₃
    have started : s₄.store.cells = s.store.cells := by
      unfold s₄
      split
      · exact (startTable_cells _ _ _).trans loaded
      · exact loaded
    split
    · exact (startTable_cells _ _ _).trans started
    · exact started

@[simp] theorem auxSupplyFail_cells (s : State) :
    (auxSupplyFail s).store.cells = s.store.cells := rfl

@[simp] theorem auxTimerFire_cells (k : ℕ) (s : State) :
    (auxTimerFire k s).store.cells = s.store.cells := by
  simp [auxTimerFire]

@[simp] theorem auxTriggerAct_cells (k : ℕ) (s : State) :
    (auxTriggerAct k s).store.cells = s.store.cells := by
  simp [auxTriggerAct]

@[simp] theorem checkWindow_cells (win v : ℕ) (s : State) :
    (checkWindow win v s).1.store.cells = s.store.cells := by
  simp only [checkWindow]
  split_ifs <;> rfl

@[simp] theorem oneResult_cells (k ch win entry : ℕ) (codes : List (Option (BitVec 12))) (lost : Bool) (t : ℕ) (s : State) :
    (oneResult k ch win entry codes lost t s).store.cells = s.store.cells := by
  simp only [oneResult]
  split_ifs <;> simp

@[simp] theorem putResult_cells (k : ℕ) (r : LastResult) (codes : List (Option (BitVec 12))) (s : State) :
    (putResult k r codes s).store.cells = s.store.cells := by
  unfold putResult
  split <;> simp

@[simp] theorem afterResult_cells (k : ℕ) (r : LastResult) (s : State) :
    (afterResult k r s).store.cells = s.store.cells := by
  simp [afterResult]

@[simp] theorem auxResult_cells (k : ℕ) (codes : List (Option (BitVec 12))) (s : State) :
    (auxResult k codes s).store.cells = s.store.cells := by
  unfold auxResult
  dsimp only
  repeat' split
  all_goals simp

@[simp] theorem auxDelayEnd_cells (k : ℕ) (s : State) :
    (auxDelayEnd k s).store.cells = s.store.cells := by
  simp [auxDelayEnd]

@[simp] theorem alignmentMessage_cells (k : ℕ) (s : State) :
    (alignmentMessage k s).store.cells = s.store.cells := by
  simp [alignmentMessage]

@[simp] theorem auxSeqLoad_cells (p : Bytes) (s : State) :
    (auxSeqLoad p s).2.store.cells = s.store.cells := by
  simp only [auxSeqLoad]
  split_ifs <;> simp

@[simp] theorem placeUrgent_cells (k : ℕ) (s : State) :
    (placeUrgent k s).2.store.cells = s.store.cells := by
  unfold placeUrgent
  dsimp only
  repeat' split
  all_goals simp

@[simp] theorem auxUrgent_cells (p : Bytes) (code : Option (BitVec 12)) (s : State) :
    (auxUrgent p code s).2.store.cells = s.store.cells := by
  simp only [auxUrgent]
  split_ifs <;> simp

@[simp] theorem auxCommand_cells (k value : ℕ) (s : State) :
    (auxCommand k value s).2.store.cells = s.store.cells := by
  simp only [auxCommand]
  split_ifs <;> simp

@[simp] theorem writeComparators_cells (b : Bytes) (s : State) :
    (writeComparators b s).2.store.cells = s.store.cells := by
  unfold writeComparators
  split <;> rfl

@[simp] theorem takeWords_cells (n : ℕ) (s : State) :
    (takeWords n s).store.cells = s.store.cells := rfl

@[simp] theorem clearFired_cells (s : State) :
    (clearFired s).store.cells = s.store.cells := rfl

@[simp] theorem assertWake_cells (s : State) :
    (assertWake s).store.cells = s.store.cells := by
  unfold assertWake
  split <;> rfl

@[simp] theorem backupEvent_cells (code data cls : ℕ) (s : State) :
    (backupEvent code data cls s).store.cells = s.store.cells := by
  simp [backupEvent]

@[simp] theorem chronicleSecond_cells (s : State) :
    (chronicleSecond s).store.cells = s.store.cells := by
  simp [chronicleSecond]

@[simp] theorem chroniclePair_cells (s : State) :
    (chroniclePair s).store.cells = s.store.cells := by
  unfold chroniclePair
  dsimp only
  repeat' split
  all_goals simp

@[simp] theorem stepBefore_cells (strobe old : ℕ) (s : State) :
    (stepBefore strobe old s).store.cells = s.store.cells := by
  simp only [stepBefore]
  split_ifs <;> rfl

@[simp] theorem timeStep_cells (old : ℕ) (s : State) :
    (timeStep old s).store.cells = s.store.cells := by
  simp [timeStep]

@[simp] theorem timeSet_cells (p : Bytes) (s : State) :
    (timeSet p s).2.store.cells = s.store.cells := by
  simp only [timeSet]
  split_ifs <;> simp

@[simp] theorem haltWrite_cells (value : ℕ) (s : State) :
    (haltWrite value s).2.store.cells = s.store.cells := by
  simp only [haltWrite]
  split_ifs <;> simp

@[simp] theorem calendarWrite_cells (b : Bytes) (s : State) :
    (calendarWrite b s).2.store.cells = s.store.cells := by
  unfold calendarWrite
  split <;> rfl

@[simp] theorem backupRamWrite_cells (b : Bytes) (s : State) :
    (backupRamWrite b s).2.store.cells = s.store.cells := by
  simp only [backupRamWrite]
  split_ifs <;> rfl

@[simp] theorem curveWrite_cells (b : Bytes) (s : State) :
    (curveWrite b s).2.store.cells = s.store.cells := by
  simp only [curveWrite]
  split_ifs <;> simp

@[simp] theorem copyCurve_cells (s : State) :
    (copyCurve s).store.cells = s.store.cells := by
  simp only [copyCurve]
  split <;> simp

@[simp] theorem compensationMeasure_cells (temp : ℤ) (vbat : ℕ) (s : State) :
    (compensationMeasure temp vbat s).store.cells = s.store.cells := by
  simp [compensationMeasure]

@[simp] theorem tickAdjust_cells (s : State) :
    (tickAdjust s).store.cells = s.store.cells := by
  simp only [tickAdjust]
  split_ifs <;> rfl

@[simp] theorem periodicWake_cells (s : State) :
    (periodicWake s).store.cells = s.store.cells := by
  simp [periodicWake]

@[simp] theorem wakeHoldExpiry_cells (s : State) :
    (wakeHoldExpiry s).store.cells = s.store.cells := by
  unfold wakeHoldExpiry
  split <;> rfl

@[simp] theorem freezeShadow_cells (s : State) :
    (freezeShadow s).store.cells = s.store.cells := rfl

@[simp] theorem shadowRelease_cells (s : State) :
    (shadowRelease s).store.cells = s.store.cells := rfl

@[simp] theorem oscStopped_cells (s : State) :
    (oscStopped s).store.cells = s.store.cells := by
  simp only [oscStopped]
  split_ifs <;> rfl

@[simp] theorem oscRestart_cells (s : State) :
    (oscRestart s).store.cells = s.store.cells := by
  simp [oscRestart]

@[simp] theorem modTamper_cells (n : ℕ) (f : TamperPin → TamperPin) (s : State) :
    (State.modTamper n f s).store.cells = s.store.cells := rfl

@[simp] theorem tamperAssert_cells (n : ℕ) (samples : List Bool) (s : State) :
    (tamperAssert n samples s).store.cells = s.store.cells := by
  simp [tamperAssert]

@[simp] theorem tamperRelease_cells (n : ℕ) (samples : List Bool) (s : State) :
    (tamperRelease n samples s).store.cells = s.store.cells := by
  simp [tamperRelease]

@[simp] theorem tamperGlitch_cells (n : ℕ) (samples : List Bool) (s : State) :
    (tamperGlitch n samples s).store.cells = s.store.cells := by
  unfold tamperGlitch
  split <;> rfl

@[simp] theorem copyBackupSettings_cells (s : State) :
    (copyBackupSettings s).store.cells = s.store.cells := rfl

@[simp] theorem clearPor_cells (s : State) :
    (clearPor s).store.cells = s.store.cells := rfl

@[simp] theorem redoFrom_cells (b : ℕ) (s : State) :
    (redoFrom b s).store.cells = s.store.cells := rfl

@[simp] theorem takeCalibrations_cells (b : ℕ) (s : State) :
    (takeCalibrations b s).store.cells = s.store.cells := rfl

@[simp] theorem pushFrame_cells (f : RingFrame) (s : State) :
    (pushFrame f s).store.cells = s.store.cells := rfl

@[simp] theorem senseSample_cells (raw : List ℤ) (s : State) :
    (senseSample raw s).store.cells = s.store.cells := by
  simp [senseSample]

@[simp] theorem recordFailure_cells (cause : ℕ) (s : State) :
    (recordFailure cause s).store.cells = s.store.cells := by
  simp [recordFailure]

@[simp] theorem clearFailures_cells (s : State) :
    (clearFailures s).store.cells = s.store.cells := by
  simp [clearFailures]

@[simp] theorem placeEngines_cells (ok0 ok1 : Bool) (s : State) :
    (placeEngines ok0 ok1 s).store.cells = s.store.cells := rfl

@[simp] theorem marginScan_cells (kind : StartKind) (s : State) :
    (marginScan kind s).store.cells = s.store.cells := by
  unfold marginScan
  split <;> rfl

@[simp] theorem beginStart_cells (ok0 ok1 : Bool) (devices : List FlashDevice) (s : State) :
    (beginStart ok0 ok1 devices s).store.cells = s.store.cells := by
  simp only [beginStart]
  split <;> simp

@[simp] theorem resetRelease_cells (ok0 ok1 test : Bool) (flash : List ProbeAnswer) (s : State) :
    (resetRelease ok0 ok1 test flash s).store.cells = s.store.cells := by
  simp [resetRelease]

@[simp] theorem hostPortOpen_cells (s : State) :
    (hostPortOpen s).store.cells = s.store.cells := by
  unfold hostPortOpen
  split <;> rfl

@[simp] theorem failStart_cells (cause : ℕ) (s : State) :
    (failStart cause s).store.cells = s.store.cells := by
  simp [failStart]

@[simp] theorem startTimeout_cells (s : State) :
    (startTimeout s).store.cells = s.store.cells := by
  simp [startTimeout]

@[simp] theorem queueGroup_cells (n : ℕ) (s : State) :
    (queueGroup n s).store.cells = s.store.cells := rfl

@[simp] theorem writeEntry_cells (r : Raised) (s : State) :
    (writeEntry r s).store.cells = s.store.cells := by
  simp [writeEntry]

@[simp] theorem latchCode_cells (code cls : ℕ) (s : State) :
    (latchCode code cls s).store.cells = s.store.cells := by
  simp [latchCode]

@[simp] theorem respond_cells (r : Raised) (seq : ℕ) (s : State) :
    (respond r seq s).store.cells = s.store.cells := by
  simp [respond]

@[simp] theorem numberEvent_cells (event seq : ℕ) (s : State) :
    (numberEvent event seq s).store.cells = s.store.cells := rfl

@[simp] theorem commitEntry_cells (r : Raised) (s : State) :
    (commitEntry r s).store.cells = s.store.cells := by
  unfold commitEntry
  extract_lets lost _ s₁ n fits _ s₂ _ s₃ _ s₄ s₅
  have gap : s₁.store.cells = s.store.cells := by simp only [s₁]; split <;> simp
  have written : s₂.store.cells = s.store.cells := by simp only [s₂]; split <;> simp [gap]
  have moved : s₃.store.cells = s.store.cells := by simp only [s₃]; split <;> exact written
  have cleared : s₄.store.cells = s.store.cells := by simp only [s₄]; split <;> exact moved
  have numbered : s₅.store.cells = s.store.cells := by
    simp only [s₅]
    split
    · split
      · exact (numberEvent_cells _ _ _).trans cleared
      · exact cleared
    · exact cleared
  split
  · exact (respond_cells _ _ _).trans numbered
  · exact numbered

@[simp] theorem wardenStep_cells (s : State) :
    (wardenStep s).store.cells = s.store.cells := by
  unfold wardenStep
  dsimp only
  repeat' split
  all_goals simp

@[simp] theorem askAlarmPin_cells (p : AlarmPin) (s : State) :
    (askAlarmPin p s).store.cells = s.store.cells := by
  unfold askAlarmPin
  dsimp only
  repeat' split
  all_goals simp

@[simp] theorem alarmPinDue_cells (s : State) :
    (alarmPinDue s).store.cells = s.store.cells := by
  unfold alarmPinDue
  split
  · rfl
  · split
    · exact askAlarmPin_cells _ _
    · rfl

@[simp] theorem logAppend_cells (p : Bytes) (s : State) :
    (logAppend p s).2.store.cells = s.store.cells := by
  simp only [logAppend]
  split_ifs <;> rfl

@[simp] theorem clearCode_cells (code : ℕ) (s : State) :
    (clearCode code s).store.cells = s.store.cells := by
  unfold clearCode
  split <;> rfl

@[simp] theorem alarmClear_cells (value : ℕ) (s : State) :
    (alarmClear value s).2.store.cells = s.store.cells := by
  unfold alarmClear
  split <;> simp

@[simp] theorem heldWindow_cells (c run : ℕ) (s : State) :
    (heldWindow c run s).store.cells = s.store.cells := rfl

@[simp] theorem releaseWindow_cells (s : State) :
    (releaseWindow s).store.cells = s.store.cells := rfl

@[simp] theorem watchOsc_cells (c : ℕ) (s : State) :
    (watchOsc c s).store.cells = s.store.cells := by
  simp only [watchOsc]
  split_ifs <;> rfl

@[simp] theorem raiseCause_cells (s : State) :
    (raiseCause s).store.cells = s.store.cells := by
  unfold raiseCause
  split <;> rfl

@[simp] theorem spoilSlot_cells (s : State) :
    (spoilSlot s).store.cells = s.store.cells := by
  simp [spoilSlot]

@[simp] theorem commitInvalid_cells (s : State) :
    (commitInvalid s).store.cells = s.store.cells := by
  simp [commitInvalid]

@[simp] theorem busCode_cells (address : BitVec 32) (kind : BitVec 2) (producer : Byte) (first again : BusWord) (s : State) :
    (busCode address kind producer first again s).store.cells = s.store.cells := by
  simp only [busCode]
  split_ifs <;> rfl

@[simp] theorem fabricTestEnd_cells (passed : Bool) (s : State) :
    (fabricTestEnd passed s).store.cells = s.store.cells := by
  unfold fabricTestEnd
  split <;> simp

@[simp] theorem ringWordLost_cells (address : ℕ) (s : State) :
    (ringWordLost address s).store.cells = s.store.cells := by
  simp only [ringWordLost]
  split_ifs <;> rfl

@[simp] theorem mereWordLost_cells (s : State) :
    (mereWordLost s).store.cells = s.store.cells := by
  unfold mereWordLost
  dsimp only
  repeat' split
  all_goals simp

@[simp] theorem wordLost_cells (region address : ℕ) (s : State) :
    (wordLost region address s).store.cells = s.store.cells := by
  simp only [wordLost]
  split <;> simp

@[simp] theorem eccDouble_cells (region : ℕ) (address : BitVec 32) (s : State) :
    (eccDouble region address s).store.cells = s.store.cells := by
  simp [eccDouble]

@[simp] theorem sramRowTestEnd_cells (region : ℕ) (address : BitVec 32) (passed : Bool) (s : State) :
    (sramRowTestEnd region address passed s).store.cells = s.store.cells := by
  simp [sramRowTestEnd]

@[simp] theorem wardenLockstep_cells (s : State) :
    (wardenLockstep s).store.cells = s.store.cells := by
  simp [wardenLockstep]

@[simp] theorem wardenTestEnd_cells (passed : Bool) (s : State) :
    (wardenTestEnd passed s).store.cells = s.store.cells := by
  simp only [wardenTestEnd]
  split_ifs <;> rfl

@[simp] theorem beginSlotWrite_cells (tag : ℕ) (s : State) :
    (beginSlotWrite tag s).store.cells = s.store.cells := by
  simp [beginSlotWrite]

@[simp] theorem reachSlotWrite_cells (s : State) :
    (reachSlotWrite s).store.cells = s.store.cells := by
  unfold reachSlotWrite
  split <;> simp

@[simp] theorem failCommit_cells (tag : ℕ) (st : Status) (s : State) :
    (failCommit tag st s).store.cells = s.store.cells := by
  simp [failCommit]

@[simp] theorem endSlotWrite_cells (tag : ℕ) (readBack : Bool) (s : State) :
    (endSlotWrite tag readBack s).store.cells = s.store.cells := by
  simp [endSlotWrite]

@[simp] theorem commitComplete_cells (readBack : Bool) (s : State) :
    (commitComplete readBack s).store.cells = s.store.cells := by
  unfold commitComplete
  split
  · rfl
  · split
    · exact endSlotWrite_cells _ _ _
    · split
      · exact (endSlotWrite_cells _ _ _).trans (beginSlotWrite_cells _ _)
      · exact failCommit_cells _ _ _

@[simp] theorem loadCalibration_cells (s : State) :
    (loadCalibration s).store.cells = s.store.cells := rfl

@[simp] theorem saveCalibration_cells (c m value : ℕ) (s : State) :
    (saveCalibration c m value s).store.cells = s.store.cells := by
  simp [saveCalibration]

@[simp] theorem readLog_cells (s : State) :
    (readLog s).store.cells = s.store.cells := by
  unfold readLog
  dsimp only
  exact foldl_keeps (·.store.cells) (fun s x => by simp) _ _

@[simp] theorem chooseConfig_cells (s : State) :
    (chooseConfig s).store.cells = s.store.cells := rfl

@[simp] theorem loadPatch_cells (s : State) :
    (loadPatch s).store.cells = s.store.cells := rfl

@[simp] theorem restorePair_cells (p : ℕ) (s : State) :
    (restorePair p s).store.cells = s.store.cells := by
  simp only [restorePair]
  split <;> simp

@[simp] theorem setWeights_cells (s : State) :
    (setWeights s).store.cells = s.store.cells := rfl

@[simp] theorem firstPublished_cells (s : State) :
    (firstPublished s).store.cells = s.store.cells := rfl

@[simp] theorem startEntry_cells (code : ℕ) (payload : Bytes) (s : State) :
    (startEntry code payload s).store.cells = s.store.cells := by
  simp [startEntry]

@[simp] theorem transferBuffer_cells (s : State) :
    (transferBuffer s).store.cells = s.store.cells := by
  simp [transferBuffer]

@[simp] theorem startEntries_cells (s : State) :
    (startEntries s).store.cells = s.store.cells := by
  simp [startEntries]

@[simp] theorem setMode_cells (s : State) :
    (setMode s).store.cells = s.store.cells := by
  simp [setMode]

@[simp] theorem wardenReady_cells (s : State) :
    (wardenReady s).store.cells = s.store.cells := by
  simp [wardenReady]

@[simp] theorem inputsConnected_cells (s : State) :
    (inputsConnected s).store.cells = s.store.cells := by
  simp [inputsConnected]

@[simp] theorem firstEnergySample_cells (s : State) :
    (firstEnergySample s).store.cells = s.store.cells := by
  simp [firstEnergySample]

@[simp] theorem driveLevels_cells (s : State) :
    (driveLevels s).store.cells = s.store.cells := by
  simp [driveLevels]

@[simp] theorem billingReady_cells (s : State) :
    (billingReady s).store.cells = s.store.cells := by
  unfold billingReady
  extract_lets reached _ s₁ s₂
  clear_value reached
  split
  · rfl
  · rw [writeBilling_cells, runWaiting_cells, driveLevels_cells, setIrq_store]
    exact foldl_keeps (·.store.cells) (fun s o => takePolarity_cells o s) _ _

@[simp] theorem limpRelease_cells (value : ℕ) (s : State) :
    (limpRelease value s).2.store.cells = s.store.cells := by
  simp only [limpRelease]
  split_ifs <;> rfl

@[simp] theorem patchWrite_cells (b : Bytes) (s : State) :
    (patchWrite b s).2.store.cells = s.store.cells := by
  simp only [patchWrite]
  split_ifs <;> simp

@[simp] theorem dropPeriodicSave_cells (s : State) :
    (dropPeriodicSave s).store.cells = s.store.cells := by
  unfold dropPeriodicSave
  split <;> rfl

@[simp] theorem releaseOutputs_cells (s : State) :
    (releaseOutputs s).store.cells = s.store.cells := rfl

@[simp] theorem survivorSave_cells (kind : ℕ) (t : Takeover) (s : State) :
    (survivorSave kind t s).store.cells = s.store.cells := by
  simp [survivorSave]

@[simp] theorem closingSave_cells (kind : ℕ) (s : State) :
    (closingSave kind s).store.cells = s.store.cells := by
  unfold closingSave
  dsimp only
  repeat' split
  all_goals simp

@[simp] theorem archiveWarned_cells (s : State) :
    (archiveWarned s).store.cells = s.store.cells := by
  simp [archiveWarned]

@[simp] theorem abandonSteps_cells (s : State) :
    (abandonSteps s).store.cells = s.store.cells := by
  simp [abandonSteps]

@[simp] theorem supplyWarning_cells (s : State) :
    (supplyWarning s).store.cells = s.store.cells := by
  unfold supplyWarning
  cases s.power.warning with
  | true => rfl
  | false =>
    cases s.start.phase with
    | unpowered | inReset | failed => rfl
    | starting | running =>
      dsimp only [Bool.false_eq_true, if_false]
      split <;> simp

@[simp] theorem mainPowerUp_cells (s : State) :
    (mainPowerUp s).store.cells = s.store.cells := by
  unfold mainPowerUp
  split <;> rfl

@[simp] theorem restartBuses_cells (b : ℕ) (old new : View) (s : State) :
    (restartBuses b old new s).store.cells = s.store.cells := by
  unfold restartBuses
  extract_lets changed pace here inst synth s₁ _ s₂
  have renewed : s₁.store.cells = s.store.cells := foldl_keeps (·.store.cells) (fun s n => by simp) _ _
  have nominal : s₂.store.cells = s.store.cells := renewed
  clear_value s₂
  split
  · exact nominal
  · refine (foldl_keeps (·.store.cells) (fun s n => ?_) _ _).trans nominal
    split
    · simp
    · rfl

@[simp] theorem repace_cells (b : ℕ) (old : View) (s : State) :
    (repace b old s).store.cells = s.store.cells := by
  unfold repace
  dsimp only
  split
  · rfl
  · exact (foldl_keeps (·.store.cells) (fun s x => countCycle_cells _ _ s) _ _).trans (unhitLatchNow_cells _ _)

@[simp] theorem fixConfig_cells (b : ℕ) (s : State) :
    (fixConfig b s).store.cells = s.store.cells := by
  simp [fixConfig]

@[simp] theorem fixBoundary_cells (b : ℕ) (s : State) :
    (fixBoundary b s).store.cells = s.store.cells := by
  simp [fixBoundary]

@[simp] theorem latchBoundary_cells (s : State) :
    (latchBoundary s).store.cells = s.store.cells := by
  simp only [latchBoundary]
  split <;> simp

@[simp] theorem takeConfig_cells (x : Applying) (s : State) :
    (takeConfig x s).store.cells = s.store.cells := by
  simp [takeConfig]

@[simp] theorem changeQuanta_cells (b : ℕ) (old new : View) (s : State) :
    (changeQuanta b old new s).store.cells = s.store.cells := rfl

@[simp] theorem profileEffect_cells (b : ℕ) (old new : View) (s : State) :
    (profileEffect b old new s).store.cells = s.store.cells := by
  unfold profileEffect
  split <;> rfl

@[simp] theorem outputEffect_cells (b : ℕ) (old new : View) (wasHeld : Bool) (s : State) :
    (outputEffect b old new wasHeld s).store.cells = s.store.cells := by
  unfold outputEffect
  extract_lets s₁ s₂ s₃
  have placed : s₂.store.cells = s.store.cells :=
    (foldl_keeps (·.store.cells) (fun s o => takePolarity_cells o s) _ _).trans
      (foldl_keeps (·.store.cells) (fun s o => moveOrigin_cells _ _ s) _ _)
  have modes : s₃.store.cells = s.store.cells :=
    (foldl_keeps (·.store.cells) (fun s p => modeEffect_cells p s) _ _).trans placed
  split_ifs
  · exact placed
  · exact (driveLevels_cells _).trans modes
  · exact modes

@[simp] theorem modeChange_cells (s : State) :
    (modeChange s).store.cells = s.store.cells := by
  simp only [modeChange]
  split_ifs <;> rfl

@[simp] theorem flickerEffect_cells (old new : View) (s : State) :
    (flickerEffect old new s).store.cells = s.store.cells := rfl

@[simp] theorem analysisEffect_cells (carried : Bool) (old new : View) (s : State) :
    (analysisEffect carried old new s).store.cells = s.store.cells := by
  simp [analysisEffect]

@[simp] theorem lineBindingEffect_cells (old new : View) (s : State) :
    (lineBindingEffect old new s).store.cells = s.store.cells := by
  unfold lineBindingEffect
  split <;> rfl

@[simp] theorem networkEffect_cells (s : State) :
    (networkEffect s).store.cells = s.store.cells := by
  simp [networkEffect]

@[simp] theorem balanceEffect_cells (old new : View) (s : State) :
    (balanceEffect old new s).store.cells = s.store.cells := by
  simp [balanceEffect]

@[simp] theorem archiveEffect_cells (wasHeld : Bool) (s : State) :
    (archiveEffect wasHeld s).store.cells = s.store.cells := by
  simp [archiveEffect]

@[simp] theorem takeEffect_cells (x : Applying) (ring : List RingFrame) (s : State) :
    (takeEffect x ring s).store.cells = s.store.cells := by
  simp [takeEffect]

@[simp] theorem reachLatch_cells (a : ℕ) (before : List RingFrame) (s : State) :
    (reachLatch a before s).store.cells = s.store.cells := by
  unfold reachLatch
  split <;> simp

@[simp] theorem stepProfile_cells (a : ℕ) (s : State) :
    (stepProfile a s).store.cells = s.store.cells := by
  unfold stepProfile
  split <;> simp

@[simp] theorem reachProfile_cells (a t : ℕ) (s : State) :
    (reachProfile a t s).store.cells = s.store.cells := by
  unfold reachProfile
  split <;> simp

@[simp] theorem reachTimes_cells (a : ℕ) (s : State) :
    (reachTimes a s).store.cells = s.store.cells := by
  simp [reachTimes]

@[simp] theorem markChannels_cells (f : RingFrame) (s : State) :
    (markChannels f s).store.cells = s.store.cells := rfl

@[simp] theorem addWindows_cells (a : ℕ) (s : State) :
    (addWindows a s).store.cells = s.store.cells := rfl

@[simp] theorem gapClips_cells (frame : Option RingFrame) (s : State) :
    (gapClips frame s).store.cells = s.store.cells := by
  unfold gapClips
  split <;> rfl

@[simp] theorem accumulateSample_cells (replay : Bool) (a : ℕ) (frame : Option RingFrame) (s : State) :
    (accumulateSample replay a frame s).store.cells = s.store.cells := by
  unfold accumulateSample
  split <;> simp

@[simp] theorem reckonFrame_cells (replay : Bool) (ring : List RingFrame) (s : State) :
    (reckonFrame replay ring s).store.cells = s.store.cells := by
  unfold reckonFrame
  split
  · rfl
  · extract_lets a intake s₁ s₂
    have taken : s₁.store.cells = s.store.cells := by simp [s₁, intake]
    have moved : s₂.store.cells = s.store.cells :=
      (foldl_keeps (·.store.cells) (fun s o => moveOrigin_cells _ _ s) _ _).trans taken
    clear_value s₂
    split
    · rfl
    · split
      · split
        · exact (gapClips_cells _ _).trans moved
        · exact (accumulateSample_cells _ _ _ _).trans moved
      · exact (accumulateSample_cells _ _ _ _).trans moved

@[simp] theorem reckonBoth_cells (ring : List RingFrame) (s : State) :
    (reckonBoth ring s).store.cells = s.store.cells := by
  simp [reckonBoth]

@[simp] theorem reckonedSample_cells (s : State) :
    (reckonedSample s).store.cells = s.store.cells := by
  unfold reckonedSample
  dsimp only
  repeat' split
  all_goals simp

@[simp] theorem readEffect_cells (i : ℕ) (s : State) :
    (readEffect i s).store.cells = s.store.cells := by
  simp only [readEffect]
  split_ifs <;> rfl

@[simp] theorem readAll_cells (x0 : List ℕ) (x1 : State) :
    (readAll x0 x1).2.store.cells = x1.store.cells := by
  induction x0 generalizing x1 with
  | nil => rfl
  | cons i is ih => exact (ih _).trans (readEffect_cells i x1)

@[simp] theorem writePending_cells (v : ℕ) (s : State) :
    (writePending v s).2.store.cells = s.store.cells := by
  unfold writePending
  split <;> rfl

@[simp] theorem writeEnable_cells (v : ℕ) (s : State) :
    (writeEnable v s).2.store.cells = s.store.cells := by
  unfold writeEnable
  split <;> rfl

@[simp] theorem writeLinkSettings_cells (v : ℕ) (s : State) :
    (writeLinkSettings v s).2.store.cells = s.store.cells := by
  unfold writeLinkSettings
  split <;> rfl

@[simp] theorem writeCalibration_cells (c m v : ℕ) (s : State) :
    (writeCalibration c m v s).2.store.cells = s.store.cells := by
  unfold writeCalibration
  split <;> simp

@[simp] theorem noteDemandReset_cells (n : ℕ) (ms : List MaxDemand) (s : State) :
    (noteDemandReset n ms s).store.cells = s.store.cells := rfl

@[simp] theorem writeDemandReset_cells (n v : ℕ) (s : State) :
    (writeDemandReset n v s).2.store.cells = s.store.cells := by
  unfold writeDemandReset
  split <;> rfl

@[simp] theorem writeRelay_cells (out v : ℕ) (s : State) :
    (writeRelay out v s).2.store.cells = s.store.cells := by
  unfold writeRelay
  dsimp only
  repeat' split
  all_goals simp

theorem answerOf_state (r : Status × State) : (answerOf r).2 = r.2 := rfl

@[simp] theorem writeMember_cells (i : ℕ) (b : Bytes) (s : State) :
    (writeMember i b s).2.store.cells = s.store.cells := by
  unfold writeMember
  dsimp only
  split
  all_goals try rw [answerOf_state]
  all_goals (repeat' split)
  all_goals simp

@[simp] theorem setObject_cells (i : ℕ) (b : Bytes) (s : State) :
    (setObject i b s).2.store.cells = s.store.cells := by
  unfold setObject
  dsimp only
  repeat' split
  all_goals first | rfl | simp

@[simp] theorem catchUp_cells (from_ upTo : ℕ) (x2 : List RingFrame) (x3 : State) :
    (catchUp from_ upTo x2 x3).store.cells = x3.store.cells := by
  induction x2 generalizing x3 with
  | nil => rfl
  | cons f before ih =>
    unfold catchUp
    dsimp only
    split
    · exact (reckonFrame_cells _ _ _).trans (ih x3)
    · exact ih x3

@[simp] theorem resyncEnd_cells (s : State) :
    (resyncEnd s).store.cells = s.store.cells := by
  unfold resyncEnd
  split <;> simp

@[simp] theorem arbitrationEnd_cells (passed : Bool) (flips : BitVec 64) (s : State) :
    (arbitrationEnd passed flips s).store.cells = s.store.cells := by
  unfold arbitrationEnd
  split <;> simp

@[simp] theorem resumeBilling_cells (s : State) :
    (resumeBilling s).store.cells = s.store.cells := rfl

@[simp] theorem gapLatch_cells (m : LineMark) (live : ℕ) (s : State) :
    (gapLatch m live s).store.cells = s.store.cells := by
  simp [gapLatch]

@[simp] theorem passChannels_cells (live : ℕ) (s : State) :
    (passChannels live s).store.cells = s.store.cells := by
  unfold passChannels
  dsimp only
  exact foldl_keeps (·.store.cells) (fun s x => by simp) _ _

@[simp] theorem resumeFromLatch_cells (s : State) :
    (resumeFromLatch s).store.cells = s.store.cells := by
  simp [resumeFromLatch]

@[simp] theorem settleMeters_cells (s : State) :
    (settleMeters s).store.cells = s.store.cells := by
  unfold settleMeters
  split <;> rfl

@[simp] theorem passBilling_cells (t : Takeover) (micros deepest : ℕ) (s : State) :
    (passBilling t micros deepest s).store.cells = s.store.cells := by
  simp [passBilling]

@[simp] theorem takeUpBilling_cells (t : Takeover) (s : State) :
    (takeUpBilling t s).store.cells = s.store.cells := by
  simp [takeUpBilling]

@[simp] theorem runWrites_cells (s : State) :
    (runWrites s).store.cells = s.store.cells := by
  have each : ∀ (l : List (Nat × Bytes)) (st : Store), (l.foldl (fun st w => st.put w.1 w.2) st).cells = st.cells := by
    intro l
    induction l with
    | nil => exact fun _ => rfl
    | cons w l ih => exact fun st => (ih _).trans (put_cells st _ _)
  exact each _ _

@[simp] theorem refuseCommand_cells (claim : BitVec 16) (s : State) :
    (refuseCommand claim s).store.cells = s.store.cells := by
  simp [refuseCommand]

@[simp] theorem release_cells (claim : BitVec 16) (deepest : ℕ) (s : State) :
    (release claim deepest s).store.cells = s.store.cells := by
  unfold release
  dsimp only
  repeat' split
  all_goals simp

@[simp] theorem pulseCommand_cells (o number : ℕ) (s : State) :
    (pulseCommand o number s).store.cells = s.store.cells := by
  simp [pulseCommand]

@[simp] theorem billingWrite_cells (a : ℕ) (b : Bytes) (s : State) :
    (billingWrite a b s).store.cells = s.store.cells := by
  simp [billingWrite]

@[simp] theorem obeySluice_cells (c : SluiceCmd) (s : State) :
    (obeySluice c s).store.cells = s.store.cells := by
  unfold obeySluice
  split
  · split <;> simp
  · split
    · split <;> simp
    · rfl
  · rfl
  · exact billingWrite_cells _ _ _

@[simp] theorem sluiceCommand_cells (claim : BitVec 16) (c : SluiceCmd) (s : State) :
    (sluiceCommand claim c s).store.cells = s.store.cells := by
  simp [sluiceCommand]

@[simp] theorem noteSmax_cells (c : Capture) (s : State) :
    (noteSmax c s).store.cells = s.store.cells := by
  unfold noteSmax
  split <;> simp

@[simp] theorem completeLatched_cells (b : Boundary) (s : State) :
    (completeLatched b s).store.cells = s.store.cells := by
  unfold completeLatched
  refine foldl_keeps (·.store.cells) (fun s c => ?_) _ _
  dsimp only
  split
  · exact complete_cells _ _ _ _
  · split
    · exact complete_cells _ _ _ _
    · rfl
  · rfl

@[simp] theorem latchPublish_cells (s : State) :
    (latchPublish s).store.cells = s.store.cells := by
  unfold latchPublish
  dsimp only
  repeat' split
  all_goals simp

@[simp] theorem endTest_cells (tag unit : ℕ) (failed : Bool) (outcome duration : ℕ) (s : State) :
    (endTest tag unit failed outcome duration s).store.cells = s.store.cells := by
  simp [endTest]

@[simp] theorem selftestComplete_cells (tag outcome duration : ℕ) (s : State) :
    (selftestComplete tag outcome duration s).store.cells = s.store.cells := by
  unfold selftestComplete
  split
  · rfl
  · split
    · split <;> simp
    · rfl

@[simp] theorem dropSend_cells (tag : ℕ) (s : State) :
    (dropSend tag s).store.cells = s.store.cells := by
  unfold dropSend
  dsimp only
  repeat' split
  all_goals simp

@[simp] theorem countFraming_cells (f : Framing → Framing) (s : State) :
    (countFraming f s).store.cells = s.store.cells := rfl

@[simp] theorem countOther_cells (n : ℕ) (s : State) :
    (countOther n s).store.cells = s.store.cells := by
  unfold countOther
  split <;> rfl

@[simp] theorem errorReply_cells (port : Port) (tag op : ℕ) (st : Status) (s : State) :
    (errorReply port tag op st s).store.cells = s.store.cells := by
  unfold errorReply
  split <;> rfl

@[simp] theorem lockPort_cells (p : Port) (s : State) :
    (lockPort p s).store.cells = s.store.cells := by
  unfold lockPort
  split <;> rfl

/-- How a request is answered touches the link only. -/
@[simp] theorem answerRequest_cells (port : Port) (tag op : Nat) (d : Done) :
    (answerRequest port tag op d).store.cells = d.state.store.cells := by
  unfold answerRequest
  dsimp only
  split
  · exact send_cells _ _
  · rfl
  · split
    · exact (complete_cells _ _ _ _).trans (send_cells _ _)
    · exact send_cells _ _

theorem dropSliceTest_cells {c : Nat} {s t : State} (h : dropSliceTest c s = some t) : t.store.cells = s.store.cells := by
  unfold dropSliceTest at h
  dsimp only at h
  repeat' split at h
  all_goals first | contradiction | (obtain rfl := Option.some.inj h; rfl)

theorem abortWork_cells {c : Command} {s t : State} (h : abortWork c s = some t) : t.store.cells = s.store.cells := by
  unfold abortWork at h
  split at h
  all_goals (try split at h)
  all_goals (try split at h)
  all_goals first
    | contradiction
    | exact dropSliceTest_cells h
    | (obtain rfl := Option.some.inj h; simp)

theorem testSlice_state_cells (unit c : Nat) (s : State) : (testSlice unit c s).state.store.cells = s.store.cells := by
  unfold testSlice
  split_ifs
  · rfl
  · rfl
  · rfl
  · exact preempt_cells _ _ _ _

theorem testEngine_cells (unit e : Nat) (s : State) : (testEngine unit e s).state.store.cells = s.store.cells := by
  have tested : ((underTest e s).modEngine e (fun x => { x with hostTest := true })).store.cells = s.store.cells := by simp
  unfold testEngine
  dsimp only
  repeat' split
  all_goals first | rfl | exact tested

theorem selftestRequest_cells (p : Bytes) (s : State) : (selftestRequest p s).state.store.cells = s.store.cells := by
  unfold selftestRequest
  dsimp only
  split_ifs
  all_goals first | rfl | exact testSlice_state_cells _ _ _ | exact testEngine_cells _ _ _

theorem bulkRequest_cells (p : Bytes) (s : State) : (bulkRequest p s).state.store.cells = s.store.cells := by
  unfold bulkRequest bulkLive bulkSnapshot
  split
  · split
    · rfl
    · exact readAll_cells _ _
  · split
    · rfl
    · split
      · rfl
      · dsimp only
        split <;> rfl

theorem abortRequest_cells (own : Nat) (p : Bytes) (s : State) : (abortRequest own p s).state.store.cells = s.store.cells := by
  have reached : ∀ c : Command, (match c.work with | .commit _ => reachSlotWrite s | _ => s).store.cells = s.store.cells := by
    intro c
    split
    · exact reachSlotWrite_cells s
    · rfl
  unfold abortRequest
  extract_lets t absent
  split
  · rfl
  · split
    · rfl
    · next c _ =>
      extract_lets u
      have same : u.store.cells = s.store.cells := reached c
      clear_value u
      split
      · exact same
      · exact same
      · split
        · next v h => exact (complete_cells _ _ _ _).trans ((abortWork_cells h).trans same)
        · exact same

theorem startRequest_cells (kind : StartKind) (s : State) : (startRequest kind s).state.store.cells = s.store.cells := by
  have ended : ∀ u : State, (u.link.outstanding.foldl (fun s c =>
      if c.work.long then ((abortWork c s).getD s).complete c.tag .aborted [] else s) u).store.cells = u.store.cells := by
    intro u
    refine foldl_keeps (·.store.cells) (fun s c => ?_) _ _
    split
    · rw [complete_cells]
      cases h : abortWork c s with
      | none => rfl
      | some t => exact abortWork_cells h
    · rfl
  unfold startRequest
  extract_lets u v w
  have reached : u.store.cells = s.store.cells := reachSlotWrite_cells s
  split
  · exact reached
  · refine (clearFailures_cells w).trans ?_
    have saved : w.store.cells = v.store.cells := by
      unfold w
      split
      · exact closingSave_cells _ _
      · rfl
    exact saved.trans ((ended u).trans reached)

/-- What an opcode does leaves the array: its writes wait for the page buffer. -/
theorem execute_cells (op own : Nat) (p : Bytes) (code : Option (BitVec 12)) (s : State) :
    (execute op own p code s).state.store.cells = s.store.cells := by
  unfold execute
  split
  case h_1 =>
    unfold getRequest
    dsimp only
    split
    · rfl
    · exact readEffect_cells _ _
  case h_2 => exact setObject_cells _ _ _
  case h_3 => exact bulkRequest_cells _ _
  case h_4 =>
    unfold snapshotRequest
    dsimp only
    repeat' split
    all_goals rfl
  case h_5 => rfl
  case h_6 => unfold cfgBegin; split <;> rfl
  case h_7 =>
    unfold cfgChunk
    dsimp only
    repeat' split
    all_goals rfl
  case h_8 =>
    unfold cfgCommit
    dsimp only
    repeat' split
    all_goals rfl
  case h_10 => exact timeSet_cells _ _
  case h_11 => exact readRequest_cells _ _ _
  case h_12 => exact pinSegment_cells _ _
  case h_13 =>
    split
    · rfl
    · exact auditRequest_cells _ _ _
  case h_14 => exact zlinkSend_cells _ _
  case h_17 => exact auxSeqLoad_cells _ _
  case h_18 => exact auxUrgent_cells _ _ _
  case h_20 => exact logAppend_cells _ _
  case h_21 => exact selftestRequest_cells _ _
  case h_22 => exact abortRequest_cells _ _ _
  case h_23 => exact startRequest_cells _ _
  case h_24 => exact startRequest_cells _ _
  all_goals rfl

@[simp] theorem runRequest_cells (op : ℕ) (r : Req) (code : Option (BitVec 12)) (s : State) :
    (runRequest op r code s).store.cells = s.store.cells := by
  unfold runRequest
  dsimp only
  rw [answerRequest_cells]
  split
  · rfl
  · exact execute_cells _ _ _ _ _

@[simp] theorem newRequest_cells (op check : ℕ) (r : Req) (code : Option (BitVec 12)) (s : State) :
    (newRequest op check r code s).store.cells = s.store.cells := by
  simp [newRequest]

@[simp] theorem hostRequest_cells (op : ℕ) (r : Req) (code : Option (BitVec 12)) (s : State) :
    (hostRequest op r code s).store.cells = s.store.cells := by
  unfold hostRequest
  dsimp only
  repeat' split
  all_goals simp

@[simp] theorem arrive_cells (op : ℕ) (r : Req) (code : Option (BitVec 12)) (s : State) :
    (arrive op r code s).store.cells = s.store.cells := by
  simp [arrive]

@[simp] theorem endCommand_cells (r : Reply) (s : State) :
    (endCommand r s).store.cells = s.store.cells := by
  unfold endCommand
  split <;> rfl

@[simp] theorem noteAccepted_cells (r : Reply) (s : State) :
    (noteAccepted r s).store.cells = s.store.cells := rfl

@[simp] theorem sendBehind_cells (tag : ℕ) (s : State) :
    (sendBehind tag s).store.cells = s.store.cells := rfl

@[simp] theorem runHeld_cells (s : State) :
    (runHeld s).store.cells = s.store.cells := by
  unfold runHeld
  refine foldl_keeps (·.store.cells) (fun s c => ?_) _ _
  split
  · exact (releaseAborts_cells _ _).trans (runRequest_cells _ _ _ _)
  · rfl

@[simp] theorem deliver_cells (port : Port) (f : Bytes) (l : ℕ) (s : State) :
    (deliver port f l s).store.cells = s.store.cells := by
  simp [deliver]

@[simp] theorem uartDiscard_cells (s : State) :
    (uartDiscard s).store.cells = s.store.cells := rfl

@[simp] theorem huntByte_cells (s : State) :
    (huntByte s).store.cells = s.store.cells := rfl

@[simp] theorem uartTake_cells (f : Bytes) (b : Byte) (s : State) :
    (uartTake f b s).store.cells = s.store.cells := by
  simp only [uartTake]
  split <;> simp

@[simp] theorem uartByte_cells (b : Byte) (s : State) :
    (uartByte b s).store.cells = s.store.cells := by
  simp only [uartByte]
  split <;> simp

@[simp] theorem uartByteReceive_cells (b : Byte) (stopBit : Bool) (s : State) :
    (uartByteReceive b stopBit s).store.cells = s.store.cells := by
  simp [uartByteReceive]

@[simp] theorem uartBreak_cells (s : State) :
    (uartBreak s).store.cells = s.store.cells := by
  unfold uartBreak
  split <;> rfl

@[simp] theorem uartTimeout_cells (s : State) :
    (uartTimeout s).store.cells = s.store.cells := by
  unfold uartTimeout
  split <;> rfl

@[simp] theorem spiCsFall_cells (s : State) :
    (spiCsFall s).store.cells = s.store.cells := rfl

@[simp] theorem spiNext_cells (s : State) :
    (spiNext s).store.cells = s.store.cells := by
  unfold spiNext
  dsimp only
  repeat' split
  all_goals simp

@[simp] theorem spiTake_cells (b : Byte) (s : State) :
    (spiTake b s).store.cells = s.store.cells := by
  unfold spiTake
  dsimp only
  repeat' split
  all_goals simp

@[simp] theorem spiByteReceive_cells (b : Byte) (s : State) :
    (spiByteReceive b s).store.cells = s.store.cells := by
  simp [spiByteReceive]

@[simp] theorem spiCsRise_cells (s : State) :
    (spiCsRise s).store.cells = s.store.cells := by
  simp only [spiCsRise]
  split_ifs <;> rfl

@[simp] theorem setRow_cells (port : Port) (tag : BitVec 16) (i : ℕ) (b : Bytes) (s : State) :
    (setRow port tag i b s).store.cells = s.store.cells := by
  simp [setRow]

@[simp] theorem getRow_cells (port : Port) (tag : BitVec 16) (i : ℕ) (s : State) :
    (getRow port tag i s).store.cells = s.store.cells := by
  simp [getRow]

@[simp] theorem relayRow_cells (port : Port) (tag : BitVec 16) (output code : ℕ) (s : State) :
    (relayRow port tag output code s).store.cells = s.store.cells := by
  simp [relayRow]

@[simp] theorem auxRow_cells (port : Port) (tag : BitVec 16) (converter value : ℕ) (s : State) :
    (auxRow port tag converter value s).store.cells = s.store.cells := by
  simp [auxRow]

@[simp] theorem idle_cells (s : State) :
    (idle s).store.cells = s.store.cells := by
  obtain ⟨q, b, e⟩ := idle_frame s
  rw [e]

@[simp] theorem withFetchWord_cells (s : State) (nbits w : ℕ) :
    (State.withFetchWord s nbits w).store.cells = s.store.cells := rfl


end Sys2Proof.Laws
end

section
/-! The store's array stays canonical (R438–R440): the operations that end, tear or drain page writes, and every step. -/

namespace Sys2Proof.Laws
open Sys2Proof Sys2Proof.Machine

section Canonical
variable {s : State} (w : Memory.wf s.store.cells = true)
include w

theorem wf_of_cells {t : State} (e : t.store.cells = s.store.cells) : Memory.wf t.store.cells = true := e ▸ w

/-- What waits is drained or torn as a reset ends it. -/
theorem wf_atReset (e : StoreEnd) : Memory.wf (s.store.atReset e) = true := by
  cases e with
  | drained => exact wf_drain _ w
  | torn p => exact wf_tear p w

theorem wf_enterReset (next : Option (StartKind × Nat)) (e : StoreEnd) (power : Bool) :
    Memory.wf (enterReset next e power s).store.cells = true := wf_atReset w e

theorem wf_storeCommitDone : Memory.wf (storeCommitDone s).store.cells = true := wf_commitDone w

/-- A state register that loses its code: machine 1 tears the page in progress, no other touches the array (R518). -/
theorem wf_invalidState (machine inst : Nat) : Memory.wf (invalidState machine inst s).store.cells = true := by
  unfold invalidState
  split
  · exact wf_of_cells w (by simp)
  · exact wf_tear _ w
  · exact wf_of_cells w (declareFailed_cells _ _ _)
  · exact w
  · exact wf_of_cells w (commitInvalid_cells _)
  · exact w

theorem wf_stateInvalid (machine inst : Nat) (code : Byte) : Memory.wf (stateInvalid machine inst code s).store.cells = true := by
  unfold stateInvalid
  split
  · exact w
  · exact wf_invalidState (s := s.countIntegrity 10) w machine inst

theorem wf_resetNAssert (torn : Nat) : Memory.wf (resetNAssert torn s).store.cells = true := by
  unfold resetNAssert
  split
  · exact w
  · exact wf_enterReset w (if s.start.phase = .inReset then s.start.next else some (.warm, 1)) (.torn torn) false

theorem wf_startRetry (ok0 ok1 : Bool) : Memory.wf (startRetry ok0 ok1 s).store.cells = true := by
  unfold startRetry
  split
  · exact w
  · rw [beginStart_cells]
    exact wf_enterReset w _ _ _

theorem wf_safeRestart : Memory.wf (safeRestart s).store.cells = true := by
  unfold safeRestart
  extract_lets t
  have saved : t.store.cells = s.store.cells := by
    unfold t
    split
    · exact wardenStep_cells _
    · rfl
  exact wf_atReset (s := recordFailure 3 t) (wf_of_cells w ((recordFailure_cells 3 t).trans saved)) .drained

theorem wf_evidenceCommit : Memory.wf (evidenceCommit s).store.cells = true := by
  unfold evidenceCommit
  split
  · exact w
  · split
    · exact w
    · extract_lets _ t
      have committed : Memory.wf t.store.cells = true := wf_of_cells w (commitEntry_cells _ _)
      clear_value t
      split
      · exact committed
      · generalize hc : (t.evidence.safeCommitted && _) = done
        cases done
        · exact committed
        · exact wf_safeRestart committed

theorem wf_holdDie (code count : Nat) (e : StoreEnd) : Memory.wf (holdDie code count e s).store.cells = true :=
  wf_atReset w e

theorem wf_clockAlarm (code count : Nat) (wide : Bool) : Memory.wf (clockAlarm code count wide s).store.cells = true := by
  unfold clockAlarm
  split
  · exact wf_holdDie (s := s.nextFree) w _ _ _
  · refine wf_holdDie ?_ _ _ _
    split
    · exact w
    · exact wf_of_cells w (wardenStep_cells _)

theorem wf_bitternWindow (c : Nat) : Memory.wf (bitternWindow c s).store.cells = true := by
  have judged : Memory.wf (judgeWindow c s).store.cells = true := by
    unfold judgeWindow
    extract_lets i hi lo wide t
    have kept : Memory.wf t.store.cells = true := w
    clear_value t wide
    repeat' split
    · exact wf_clockAlarm kept _ _ _
    · exact wf_clockAlarm kept _ _ _
    · exact kept
  unfold bitternWindow
  split
  · exact wf_of_cells w (heldWindow_cells _ _ _)
  · split
    · exact judged
    · split
      · exact wf_of_cells w (releaseWindow_cells _)
      · exact w

theorem wf_clkGlitch : Memory.wf (clkGlitch s).store.cells = true := by
  unfold clkGlitch
  split
  · exact wf_holdDie (s := s.nextFree) w _ _ _
  · exact w

theorem wf_supplyRecovered : Memory.wf (supplyRecovered s).store.cells = true := by
  unfold supplyRecovered
  split
  · exact w
  · exact wf_enterReset w (some (.warm, 7)) .drained false

theorem wf_supplyCollapse (torn : Nat) : Memory.wf (supplyCollapse torn s).store.cells = true := by
  unfold supplyCollapse
  split
  · exact w
  · exact wf_enterReset w none (s.lostSupply torn) true

theorem wf_backupSwitchover : Memory.wf (backupSwitchover s).store.cells = true := by
  unfold backupSwitchover
  split
  · exact w
  · exact wf_enterReset (s := s.nextFree) w none (s.lostSupply (s.freeValue % 65)) true

theorem wf_backupPowerOn : Memory.wf (backupPowerOn s).store.cells = true := by
  unfold backupPowerOn
  extract_lets e u
  have lost : Memory.wf u.store.cells = true := by
    unfold u
    split
    · exact w
    · exact wf_enterReset (s := s.nextFree) w _ _ _
  exact lost

theorem wf_replySent (port : Port) : Memory.wf (replySent port s).store.cells = true := by
  cases taken : takeReply port s.link.replies with
  | none => simpa only [replySent, taken] using w
  | some x =>
    rw [replySent_takes taken]
    extract_lets u _ t
    obtain ⟨o, c, noted, -⟩ := replyNoted_touches x.1 (replyOut port x.1 x.2 s)
    have out : (replyOut port x.1 x.2 s).store.cells = s.store.cells := by cases port <;> rfl
    have kept : Memory.wf u.store.cells = true := by
      unfold u
      rw [noted]
      exact wf_of_cells w out
    clear_value u
    have rated : Memory.wf t.store.cells = true := by
      unfold t
      split <;> exact kept
    clear_value t
    split
    · exact wf_enterReset rated _ _ _
    · exact rated

/-- Every command and event keeps the array canonical. -/
theorem wf_exec (c : Instr) : ∃ u : State, exec c s = .next u.endEdge ∧ Memory.wf u.store.cells = true := by
  have raised : Memory.wf ({ s with evidence := { s.evidence with raised := [] } } : State).store.cells = true := w
  cases c
  case storeCommitDone => exact ⟨_, rfl, wf_storeCommitDone raised⟩
  case resetNAssert torn => exact ⟨_, rfl, wf_resetNAssert raised torn⟩
  case startRetry a b => exact ⟨_, rfl, wf_startRetry raised a b⟩
  case evidenceCommit => exact ⟨_, rfl, wf_evidenceCommit raised⟩
  case bitternWindow n => exact ⟨_, rfl, wf_bitternWindow raised _⟩
  case clkGlitch => exact ⟨_, rfl, wf_clkGlitch raised⟩
  case stateInvalid m i k => exact ⟨_, rfl, wf_stateInvalid raised m i k⟩
  case supplyRecovered => exact ⟨_, rfl, wf_supplyRecovered raised⟩
  case supplyCollapse torn => exact ⟨_, rfl, wf_supplyCollapse raised torn⟩
  case backupSwitchover => exact ⟨_, rfl, wf_backupSwitchover raised⟩
  case backupPowerOn => exact ⟨_, rfl, wf_backupPowerOn raised⟩
  case replySent port => exact ⟨_, rfl, wf_replySent raised port⟩
  all_goals exact ⟨_, rfl, wf_of_cells w (by simp)⟩

end Canonical

/-- Settles O59: a command ends with an edge, which leaves the array, and the idle tick does not touch it. -/
theorem theStoreStaysCanonical : Obligations.TheStoreStaysCanonical := by
  unfold Obligations.TheStoreStaysCanonical
  intro s t w run
  cases front : s.pending with
  | nil =>
    simp only [step, front, Host.Outcome.next.injEq] at run
    subst run
    exact wf_of_cells w (idle_cells s)
  | cons c rest =>
    obtain ⟨u, ran, kept⟩ := wf_exec (s := { s with pending := rest }) w c
    simp only [step, front, ran, Host.Outcome.next.injEq] at run
    subst run
    obtain ⟨-, -, -, -, -, -, -, -, -, -, cells, -⟩ := endEdge_frame u
    exact cells ▸ kept

end Sys2Proof.Laws
end

section
/-! The objects of timekeeping, and TIME_GET and TIME_SET (R77, R463–R495). -/

namespace Sys2Proof.Laws
open Sys2Proof Sys2Proof.Machine

/-! ### Writes to an object, by what its value comes to -/

section Row
variable {s : State} {port : Port} {tag : BitVec 16} {i : Nat} {b : Bytes} {st : Status} {ps : Bytes} {t : State}
  (h : Settled s) (q : Takes 0x02 (writeReq port tag i b) s) (hi : i < 65536) (n4 : i ≠ 4)
  (e : setObject i b (begun 0x02 (writeReq port tag i b) s) = (.done st ps, t))
include h q hi n4 e

/-- A write as its object takes it, up to the end of its edge. -/
theorem setRow_runs : edge (setRow port tag i b) s = .next (answered 0x02 (writeReq port tag i b) st ps t).endEdge :=
  runs_done h q ((execute_write i b hi n4 _ _ _).trans (congrArg Done.of e))

/-- One that raises nothing. -/
theorem setRow_runs_quiet (k : t.evidence = s.evidence) :
    edge (setRow port tag i b) s = .next (answered 0x02 (writeReq port tag i b) st ps t) :=
  runs_answers h q ((execute_write i b hi n4 _ _ _).trans (congrArg Done.of e)) k

end Row

section Members
variable {i : Nat} {b : Bytes} {s : State}

/-- A value of another length than the object's is refused. -/
theorem setObject_badLength (a : (s.spec i).access = 2 ∨ (s.spec i).access = 3) (l : s.relayLocked i = false)
    (p : s.blockProtected i = false) (h : heldIn s.start.heldMask.toNat i = false) (n : b.length ≠ (s.spec i).size) :
    setObject i b s = (refuse .badParam, s) := by
  rcases a with a | a <;> simp [setObject, a, l, p, h, n]

theorem setObject_protected (a : (s.spec i).access = 3) (l : s.relayLocked i = false)
    (p : s.blockProtected i = true) : setObject i b s = answerOf (refuseProtected s) := by
  simp [setObject, a, l, p]

/-- HALT is set only while the device does not run, or its oscillator stopped (R475). -/
theorem haltWrite_set (s : State) : haltWrite (2 ^ 31) s =
    if s.runState = 0 ∨ s.runState = 1 ∨ s.runState = 3 ∨ s.runState = 4 ∨ s.backup.oscStopped = true then
      (.ok, { s with backup := { s.backup with halt := true, tick := 0 } }) else (.wrongState, s) := by
  have set : bit 31 (2 ^ 31) = true := by decide
  simp only [haltWrite, set, Nat.mod_self, ne_eq, not_true_eq_false, if_false, if_true, Bool.or_eq_true,
    List.contains_iff_mem, List.mem_cons, List.not_mem_nil, or_false, or_assoc]

theorem haltWrite_clear (s : State) : haltWrite 0 s =
    if s.backup.halt then
      (.ok, if s.extrapolated / tps = s.sec then { s with backup := { s.backup with halt := false, tick := 0 } }
        else timeStep s.extrapolated { s with backup := { s.backup with halt := false, tick := 0 } })
    else (.ok, s) := by
  have clear : bit 31 0 = false := by decide
  simp only [haltWrite, clear, Nat.zero_mod, ne_eq, not_true_eq_false, if_false, Bool.false_eq_true]
  rfl

/-- A calendar value is eight bytes long. -/
theorem calendarOk_length {v : Bytes} (h : calendarOk v = true) : v.length = 8 := by
  unfold calendarOk at h
  simp only [Bool.and_eq_true, beq_iff_eq] at h
  exact h.1

theorem curveOk_length {v : Bytes} (h : curveOk v = true) : v.length = 68 := by
  unfold curveOk at h
  simp only [Bool.and_eq_true, beq_iff_eq] at h
  exact h.1.1

/-- The calendar write member. -/
theorem setObject_calendar (v : Bytes) (s : State) : setObject 0x7004 v s = if calendarOk v then
    (.done .ok [], { s with
      backup := { s.backup with calendarLoad := some (calendarOf v) }, time := { s.time with lastCalendarWrite := v } })
    else (.done .badParam [], s) := by
  by_cases n : v.length = 8
  · rw [setObject_writes (.inl rfl) rfl rfl rfl n]
    change answerOf (calendarWrite v s) = _
    unfold calendarWrite
    cases calendarOk v <;> rfl
  · rw [setObject_badLength (.inl rfl) rfl rfl rfl n, if_neg fun ok => n (calendarOk_length ok)]
    rfl

/-- The curve of a protected block, and of one that is not. -/
theorem setObject_curve (v : Bytes) (s : State) : setObject 0x7007 v s =
    if s.protects 0x61000 then (.done .isProtected [], s.countStore 6)
    else if curveOk v then
      (.done .ok [], { s with
        store := s.store.record Ring.curve v
        backup := if s.backup.measureDue then { s.backup with curveNext := some (curveOf v) }
          else { s.backup with curve := some (curveOf v), curveNext := none } })
    else (.done .badParam [], s) := by
  have block : s.blockProtected 0x7007 = s.protects 0x61000 := rfl
  cases p : s.protects 0x61000 with
  | true => exact setObject_protected rfl rfl (block.trans p)
  | false =>
    rw [if_neg (by decide)]
    by_cases n : v.length = 68
    · rw [setObject_writes (.inr rfl) rfl (block.trans p) rfl n]
      change answerOf (curveWrite v s) = _
      have base : s.protects Ring.curve.base = false := p
      unfold curveWrite
      rw [base]
      cases curveOk v with
      | false => rfl
      | true =>
        simp only [Bool.not_true, Bool.false_eq_true, if_false, if_true]
        cases s.backup.measureDue <;> rfl
    · rw [setObject_badLength (.inr rfl) rfl (block.trans p) rfl n, if_neg fun ok => n (curveOk_length ok)]
      rfl

/-- The backup RAM takes the bytes at an offset. -/
theorem setObject_ram (v : Bytes) (s : State) : setObject 0x700B v s =
    if v.length = 68 ∧ getU v 0 1 < 128 ∧ 1 ≤ getU v 1 1 ∧ getU v 1 1 ≤ 64 ∧ getU v 0 1 + getU v 1 1 ≤ 128 ∧ getU v 2 2 = 0 then
      (.done .ok [], { s with
        backup := { s.backup with ram := patch s.backup.ram (getU v 0 1) ((v.drop 4).take (getU v 1 1)) }
        time := { s.time with lastRamWrite := v } })
    else (.done .badParam [], s) := by
  by_cases n : v.length = 68
  · rw [setObject_writes (.inl rfl) rfl rfl rfl n]
    change answerOf (backupRamWrite v s) = _
    unfold backupRamWrite
    dsimp only
    split <;> rename_i bad <;> simp only [Bool.or_eq_true, bne_iff_ne, decide_eq_true_eq] at bad
    · rw [if_neg (by omega)]
      rfl
    · rw [if_pos (by omega)]
      rfl
  · rw [setObject_badLength (.inl rfl) rfl rfl rfl n, if_neg fun ok => n ok.1]
    rfl

/-- The time status reads, freezes the shadow and clears BKP_POR (R474, R495). -/
theorem timeStatus_read (s : State) : s.value 0x7000 = leBytes 4 s.timeStatus ∧ s.readStatus [0x7000] = .ok ∧
    readEffect 0x7000 s = clearPor (freezeShadow s) := by
  have plain : [0x7000].any xaObject = false := by decide
  refine ⟨fit_self (n := 4) (leBytes_length 4 _), ?_, rfl⟩
  rw [State.readStatus, plain, Bool.and_false]
  rfl

end Members

/-- Settles O17: each member's write as the rule above gives it, in the state in which the request is outstanding. -/
theorem timeObjects : Obligations.TimeObjects := by
  unfold Obligations.TimeObjects
  intro s port tag h
  dsimp only
  have same : ∀ r, (begun 0x02 r s).evidence = s.evidence := fun r => begun_evidence
  have backup : ∀ r, (begun 0x02 r s).backup = s.backup := fun r => by rw [begun_frame]
  refine ⟨fun q => ?set, fun q => ⟨fun off => ?stays, fun on => ?clear⟩, fun v q => ?calendar,
    fun v q => ⟨fun p => ?curve, fun p => ?locked⟩, fun q => ?status, fun v q => ?ram⟩
  case set =>
    have run := haltWrite_set (begun 0x02 (writeReq port tag 0x7002 (leBytes 4 (2 ^ 31))) s)
    have object : setObject 0x7002 (leBytes 4 (2 ^ 31)) (begun 0x02 (writeReq port tag 0x7002 (leBytes 4 (2 ^ 31))) s) = _ :=
      (setObject_writes (.inl rfl) rfl rfl rfl rfl).trans (congrArg answerOf run)
    split at object
    · next ok =>
      rw [if_pos ok]
      exact setRow_runs_quiet h q (by decide) (by decide) object (same _)
    · next no =>
      rw [if_neg no]
      exact setRow_runs_quiet h q (by decide) (by decide) object (same _)
  case stays =>
    have run := haltWrite_clear (begun 0x02 (writeReq port tag 0x7002 (leBytes 4 0)) s)
    rw [backup, off, if_neg (by decide)] at run
    exact setRow_runs_quiet h q (by decide) (by decide)
      ((setObject_writes (.inl rfl) rfl rfl rfl rfl).trans (congrArg answerOf run)) (same _)
  case clear =>
    have run := haltWrite_clear (begun 0x02 (writeReq port tag 0x7002 (leBytes 4 0)) s)
    rw [show (begun 0x02 (writeReq port tag 0x7002 (leBytes 4 0)) s).backup.halt = true by rw [backup, on], if_pos rfl] at run
    exact setRow_runs h q (by decide) (by decide)
      ((setObject_writes (.inl rfl) rfl rfl rfl rfl).trans (congrArg answerOf run))
  case calendar =>
    have run := setObject_calendar v (begun 0x02 (writeReq port tag 0x7004 v) s)
    split at run
    · next ok =>
      rw [if_pos ok]
      exact setRow_runs_quiet h q (by decide) (by decide) run (same _)
    · next no =>
      rw [if_neg no]
      exact setRow_runs_quiet h q (by decide) (by decide) run (same _)
  case curve =>
    have run := setObject_curve v (begun 0x02 (writeReq port tag 0x7007 v) s)
    rw [begun_protects, p, if_neg (by decide)] at run
    split at run
    · next ok =>
      rw [if_pos ok]
      exact setRow_runs_quiet h q (by decide) (by decide) run (same _)
    · next no =>
      rw [if_neg no]
      exact setRow_runs_quiet h q (by decide) (by decide) run (same _)
  case locked =>
    have run := setObject_curve v (begun 0x02 (writeReq port tag 0x7007 v) s)
    rw [begun_protects, p, if_pos rfl] at run
    exact setRow_runs_quiet h q (by decide) (by decide) run (same _)
  case status =>
    obtain ⟨value, status, effect⟩ := timeStatus_read (begun 0x01 (readReq port tag 0x7000) s)
    refine ⟨_, (getRow_reads h q (by decide) ?_).trans (by rw [value, status, effect]), rfl, rfl⟩
    rw [spec_timeStatus]
    decide
  case ram =>
    have run := setObject_ram v (begun 0x02 (writeReq port tag 0x700B v) s)
    split at run
    · next ok =>
      rw [if_pos ok]
      exact setRow_runs_quiet h q (by decide) (by decide) run (same _)
    · next no =>
      rw [if_neg no]
      exact setRow_runs_quiet h q (by decide) (by decide) run (same _)

/-! ### TIME_GET and TIME_SET (R77, R471, R472) -/

section TimeSet
variable {s : State} {p : Bytes}

theorem ticks_seconds (s : State) : s.ticks / tps = s.sec ∧ s.ticks % tps = s.backup.tick.toNat := by
  have := s.backup.tick.isLt
  simp only [State.ticks, State.sec, tps]
  omega

theorem timeSet_refused (far : lastDated < getU p 1 6 ∨ (1 ≤ getU p 0 1 ∧ lastCalendar < getU p 1 6)) (s : State) :
    timeSet p s = (.done .badParam [], s) := by
  unfold timeSet
  refine if_pos ?_
  rcases far with far | ⟨one, far⟩
  · simp [far]
  · simp [one, far]

variable (length : p.length = 7) (target : getU p 0 1 ≤ 2) (near : getU p 1 6 ≤ lastDated)
  (dated : 1 ≤ getU p 0 1 → getU p 1 6 ≤ lastCalendar)
include length target near dated

/-- A time in range passes the check. -/
theorem timeSet_inRange : (p.length != 7 || 2 < getU p 0 1 || lastDated < getU p 1 6 ||
    (1 ≤ getU p 0 1 && lastCalendar < getU p 1 6)) = false := by
  simp only [length, bne_self_eq_false, Bool.false_or, Bool.or_eq_false_iff, decide_eq_false_iff_not,
    Bool.and_eq_false_imp, decide_eq_true_eq]
  exact ⟨⟨by omega, by omega⟩, fun one => by have := dated one; omega⟩

theorem timeSet_calendar (one : getU p 0 1 = 1) (s : State) : timeSet p s = (.done .ok [],
    { s with backup := { s.backup with calendarLoad := some (dateOf (getU p 1 6)).calendar } }.raise 0x60
      (timeBytes ((s.sec + 1) * tps) ++ (leBytes 6 (getU p 1 6) ++ [BitVec.ofNat 8 (getU p 0 1)]))) := by
  simp only [timeSet, timeSet_inRange length target near dated, Bool.false_eq_true, if_false, if_pos one,
    List.append_assoc]
  rfl

/-- The count set alone, while it stands or within its second. -/
theorem timeSet_trims (zero : getU p 0 1 = 0) (still : s.backup.halt = true ∨ getU p 1 6 = s.sec) :
    timeSet p s = (.done .ok [], { s with backup := { s.backup with
        sec := BitVec.ofNat 48 (getU p 1 6), tick := 0, oscStopped := false
        measureDue := if getU p 1 6 = s.sec then s.backup.measureDue else getU p 1 6 % 32 == 0
        adjusted := getU p 1 6 * tps, adjustFrom := getU p 1 6 * tps + s.backup.adjustFrom - s.ticks } }.raise 0x60
      (timeBytes s.ticks ++ (leBytes 6 (getU p 1 6) ++ [BitVec.ofNat 8 (getU p 0 1)]))) := by
  have stands : (s.backup.halt || decide (getU p 1 6 = s.sec)) = true := by simpa using still
  simp only [timeSet, timeSet_inRange length target near dated, Bool.false_eq_true, if_false, if_neg (show ¬getU p 0 1 = 1 by omega),
    if_neg (show ¬getU p 0 1 = 2 by omega), stands, if_true, List.append_assoc]

/-- The count set with the calendar to another second, while it runs. -/
theorem timeSet_steps (two : getU p 0 1 = 2) (runs : s.backup.halt = false) (moved : getU p 1 6 ≠ s.sec) :
    timeSet p s = (.done .ok [], (timeStep s.ticks { s with backup := { s.backup with
        sec := BitVec.ofNat 48 (getU p 1 6), tick := 0, oscStopped := false, calendar := (dateOf (getU p 1 6)).calendar
        calendarLoad := none, measureDue := getU p 1 6 % 32 == 0, adjusted := getU p 1 6 * tps
        adjustFrom := getU p 1 6 * tps + s.backup.adjustFrom - s.ticks } }).raise 0x60
      (timeBytes s.ticks ++ (leBytes 6 (getU p 1 6) ++ [BitVec.ofNat 8 (getU p 0 1)]))) := by
  have goes : (s.backup.halt || decide (getU p 1 6 = s.sec)) = false := by simp [runs, moved]
  simp only [timeSet, timeSet_inRange length target near dated, Bool.false_eq_true, if_false, if_neg (show ¬getU p 0 1 = 1 by omega),
    if_pos two, if_neg moved, goes, List.append_assoc]

end TimeSet

/-- Settles O19: what TIME_GET and TIME_SET come to as they run. -/
theorem timeIsReadAndSet : Obligations.TimeIsReadAndSet := by
  unfold Obligations.TimeIsReadAndSet
  intro s r h
  have same : ∀ op, (begun op r s).evidence = s.evidence := fun op => begun_evidence
  have backup : ∀ op, (begun op r s).backup = s.backup := fun op => by rw [begun_frame]
  refine ⟨fun q => ?get, fun q => ?set⟩
  case get =>
    have ok := paramsOk_of_judge q.passes
    have empty : r.params.isEmpty = true := ok
    obtain ⟨seconds, ticks⟩ := ticks_seconds s
    refine ⟨freezeShadow (begun 0x18 r s), runs_answers h q ?_ (same 0x18), rfl⟩
    change Done.only ((begun 0x18 r s).timeGet r.params) (freezeShadow (begun 0x18 r s)) = _
    rw [State.timeGet, empty, if_neg (by decide), timeBytes, begun_ticks, seconds, ticks]
    rfl
  case set =>
    have ok := paramsOk_of_judge q.passes
    simp only [paramsOk, Bool.and_eq_true, beq_iff_eq, decide_eq_true_eq] at ok
    obtain ⟨length, target⟩ := ok
    dsimp only
    have last : lastCalendar ≤ lastDated := by decide
    refine ⟨fun far => ?_, fun one near => ?_, fun zero near still => ?_, fun two near runs moved => ?_⟩
    · exact runs_answered h q (congrArg Done.of (timeSet_refused far _))
    · have run := timeSet_calendar length target (near.trans last) (fun _ => near) one (begun 0x19 r s)
      rw [begun_sec] at run
      exact runs_done h q (congrArg Done.of run)
    · have run := timeSet_trims (s := begun 0x19 r s) length target near (fun n => by omega) zero
        (by rwa [backup, begun_sec])
      have ran := runs_done (code := none) h q (congrArg Done.of run)
      simp only [backup, begun_sec, begun_ticks] at ran ⊢
      exact ran
    · have run := timeSet_steps (s := begun 0x19 r s) length target (near.trans last) (fun _ => near) two
        (by rwa [backup]) (by rwa [begun_sec])
      have ran := runs_done (code := none) h q (congrArg Done.of run)
      simp only [backup, begun_ticks] at ran ⊢
      exact ran

end Sys2Proof.Laws
end

section
/-! Configuration sessions and commits (R76, R554–R556), self-tests (R525), and ABORT and the starts on command (R78, R79). -/

namespace Sys2Proof.Laws
open Sys2Proof Sys2Proof.Machine

@[simp] theorem complete_evidence (t : Nat) (st : Status) (ps : Bytes) (s : State) :
    (s.complete t st ps).evidence = s.evidence := by
  obtain ⟨l, e⟩ := complete_frame s t st ps
  rw [e]

/-! ### Sessions and commits -/

section Commits
variable {s : State} {tag : Nat}

theorem cfgChunk_open {p : Bytes} {x : Session} (e : s.link.session = some x) : cfgChunk p s =
    if getU p 0 4 = x.bytes.length ∧ (x.bytes ++ p.drop 4).length ≤ x.size then
      .of (.done .ok (leBytes 4 (x.bytes ++ p.drop 4).length), { s with link := { s.link with
        session := some { x with bytes := x.bytes ++ p.drop 4 } } })
    else .only (.done .badParam []) s := by
  simp only [cfgChunk, e, refuse, List.length_append, ne_eq]
  by_cases ok : getU p 0 4 = x.bytes.length ∧ x.bytes.length + (p.drop 4).length ≤ x.size
  · rw [if_pos ok, if_neg (by simp only [Bool.or_eq_true, decide_eq_true_eq]; omega)]
  · rw [if_neg ok, if_pos (by simp only [Bool.or_eq_true, decide_eq_true_eq]; omega)]

theorem cfgCommit_open {x : Session} (e : s.link.session = some x) : cfgCommit s =
    if x.bytes.length = x.size then
      .of (.long (.commit false), { s with
        link := { s.link with session := none }, start := { s.start with commit := .checking, committing := x.bytes } })
    else .of (.done .wrongState [], { s with link := { s.link with session := none } }) := by
  simp only [cfgCommit, e]
  by_cases whole : x.bytes.length = x.size
  · rw [if_pos whole, if_neg (not_not.2 whole)]
  · rw [if_neg whole, if_pos whole]
    rfl

theorem leNat_lt (b : Bytes) : leNat b < 256 ^ b.length := by
  induction b with
  | nil => decide
  | cons x b ih =>
    have := x.isLt
    simp only [leNat, List.length_cons, Nat.pow_succ']
    omega

theorem getU_lt (b : Bytes) (off n : Nat) : getU b off n < 256 ^ n :=
  (leNat_lt _).trans_le (Nat.pow_le_pow_right (by decide) (List.length_take_le _ _))

/-- The slot read back as written: its image is the pending configuration. -/
theorem endSlotWrite_ok : endSlotWrite tag true s =
    ({ s with start := { s.start with
      pending := s.start.pending ++ [({
        image := some {
          entries := (imageEntries s.part s.start.committing).getD []
          seq := BitVec.ofNat 32 (getU s.start.committing 12 4)
          source := if s.start.commitSlot = 0 then .slotA else .slotB
          load := (viewOf ((imageEntries s.part s.start.committing).getD []) 0).load }
        strobe := s.sense.modCount.toNat / 256 } : Pended)]
      commit := .pending, committing := [] } }.complete tag .ok
      (leBytes 1 s.start.commitSlot ++ leBytes 4 (getU s.start.committing 12 4))) := by
  have seq : (BitVec.ofNat 32 (getU s.start.committing 12 4)).toNat = getU s.start.committing 12 4 := by
    rw [BitVec.toNat_ofNat]
    exact Nat.mod_eq_of_lt (getU_lt _ _ 4)
  simp only [endSlotWrite, Bool.not_true, Bool.false_eq_true, if_false, seq]
  rfl

/-- The check of an image that is spoilt is another one than it had. -/
theorem spoilImage_spoils (b : Bytes) (x : Nat) : ∃ bad, bad ≠ leBytes 4 (getU b (b.length - 4) 4) ∧ bad.length = 4 ∧
    spoilImage b x = patch b (b.length - 4) bad := by
  refine ⟨_, fun same => ?_, leBytes_length 4 _, rfl⟩
  have lt := getU_lt b (b.length - 4) 4
  have small : (getU b (b.length - 4) 4 + 1 + x % (2 ^ 32 - 1)) % 2 ^ 32 < 256 ^ 4 := Nat.mod_lt _ (by decide)
  have eq := congrArg leNat same
  rw [leNat_leBytes_of_lt lt, leNat_leBytes_of_lt small] at eq
  omega

/-- Otherwise the slot is spoilt and the command fails. -/
theorem endSlotWrite_fault : endSlotWrite tag false s =
    ({ s with
      free := s.free + 1
      store := s.store.put (slotAddress s.start.commitSlot) (spoilImage s.start.committing s.freeValue)
      start := { s.start with commit := s.commitRest, committing := [] } }.complete tag .fault []) := by
  simp only [endSlotWrite, Bool.not_false, if_true, failCommit]
  rfl

theorem commitComplete_writing (e : s.commitTag = some tag) (w : s.start.commit = .writing) (rb : Bool) :
    commitComplete rb s = endSlotWrite tag rb s := by
  simp only [commitComplete, e, w, if_true]

theorem commitComplete_none (e : s.commitTag = none) (rb : Bool) : commitComplete rb s = s := by
  simp only [commitComplete, e]

/-- Settles O18: a session's commands as they run, and the two ends of a slot write. -/
theorem configurationSessionsAndCommits : Obligations.ConfigurationSessionsAndCommits := by
  unfold Obligations.ConfigurationSessionsAndCommits
  refine ⟨fun s r h => ?_, fun s h => ⟨fun none rb => ?_, fun tag e w => ⟨?_, ?_⟩, ?_⟩⟩
  · have same : ∀ op, (begun op r s).evidence = s.evidence := fun op => begun_evidence
    have session : ∀ op, (begun op r s).link.session = s.link.session := fun op => by
      simp only [begun, lockPort]
      split <;> rfl
    refine ⟨fun q => ?_, fun q => ⟨fun none => ?_, fun x some => ?_⟩, fun q => ⟨fun none => ?_, fun x some => ?_⟩⟩
    · dsimp only
      split
      · next busy => exact runs_answered h q (if_pos busy)
      · next free => exact runs_answers h q (if_neg free) (same 0x10)
    · exact runs_answered h q (by simp only [execute, cfgChunk, session, none]; rfl)
    · have run := cfgChunk_open (s := begun 0x11 r s) (p := r.params) ((session 0x11).trans some)
      dsimp only
      split at run
      · next ok =>
        rw [if_pos ok]
        exact runs_answers h q run (same 0x11)
      · next no =>
        rw [if_neg no]
        exact runs_answered h q run
    · exact runs_answered h q (by simp only [execute, cfgCommit, session, none]; rfl)
    · have run := cfgCommit_open (s := begun 0x12 r s) ((session 0x12).trans some)
      dsimp only
      split at run
      · next whole =>
        rw [if_pos whole]
        exact runs_accepts h q (by simp) run (same 0x12)
      · next part =>
        rw [if_neg part]
        exact runs_answers h q run (same 0x12)
  · exact edge_next h (commitComplete_none none rb) rfl
  · exact edge_next h ((commitComplete_writing e w true).trans endSlotWrite_ok) (complete_evidence _ _ _ _)
  · obtain ⟨bad, wrong, length, spoilt⟩ := spoilImage_spoils s.start.committing s.freeValue
    refine ⟨bad, wrong, length, edge_next h ((commitComplete_writing e w false).trans ?_) (complete_evidence _ _ _ _)⟩
    rw [endSlotWrite_fault, spoilt]
  · exact edge_next h (f := fun s => { s with link := { s.link with session := none } }) rfl rfl

end Commits

/-! ### SELFTEST -/

section Tests
variable {s : State}

theorem resultWord_eq (outcome test : Nat) (duration : BitVec 16) :
    resultWord outcome test duration.toNat = outcome * 2 ^ 28 + test * 2 ^ 24 + duration.toNat := by
  have := duration.isLt
  rw [resultWord, Nat.min_eq_left (by omega)]

/-- A test that is taken, by its unit. -/
theorem selftestRequest_unit {p : Bytes} {unit : Nat} (u : getU p 0 2 / 64 * 64 = unit) (a : (s.spec unit).access ≠ 0)
    (t : s.testing unit = false) (slice : idxClass unit ≠ 1) (engine : idxClass unit ≠ 10) : selftestRequest p s =
    if unit = 0x4040 then
      if !s.recording.coderOk then .only (.long (.selftest unit false)) s
      else if s.recording.coderTesting then .only (refuse .busy) s
      else .of (.long (.selftest unit true), { s with recording := { s.recording with coderTesting := true } })
    else if unit = 0x9040 then .of (.long (.selftest unit true), s)
    else .only (refuse .badParam) s := by
  simp only [selftestRequest, u, if_neg a, t, Bool.false_eq_true, if_false, if_neg slice, if_neg engine]

theorem selftestComplete_unable {tag outcome duration unit : Nat} {c : Command} (e : s.command tag = some c)
    (w : c.work = .selftest unit false) : selftestComplete tag outcome duration s = s.complete tag .fault [] := by
  simp only [selftestComplete, e, w]
  rfl

/-- The end of the bittern's test. -/
theorem selftestComplete_bittern {tag outcome : Nat} {duration : BitVec 16} {c : Command} (e : s.command tag = some c)
    (w : c.work = .selftest 0x9040 true) : selftestComplete tag outcome duration.toNat s =
    if outcome = 0 then
      (noteTest (4 * 2 ^ 24 + duration.toNat) 0x9040 { s with integrity := { s.integrity with bitternFault := false } }).complete
        tag .ok (leBytes 4 (4 * 2 ^ 24 + duration.toNat))
    else
      (noteTest (2 * 2 ^ 28 + (4 * 2 ^ 24 + duration.toNat)) 0x9040
        ({ s with integrity := { s.integrity with bitternFault := true } }.raise 0x1C
          (leBytes 4 (2 * 2 ^ 28 + (4 * 2 ^ 24 + duration.toNat))))).complete
        tag .ok (leBytes 4 (2 * 2 ^ 28 + (4 * 2 ^ 24 + duration.toNat))) := by
  have class9 : idxClass 0x9040 = 9 := by decide
  simp only [selftestComplete, e, w, endTest, class9, Bool.not_true, Bool.false_eq_true, if_false, resultWord_eq]
  by_cases ok : outcome = 0
  · subst ok
    simp
  · have failed : (outcome != 0) = true := by simpa using ok
    simp only [failed, if_neg ok, if_true, Nat.add_assoc]
    rfl

theorem spec_units (s : State) : (s.spec 0x9040).access = 1 ∧ (s.spec 0x4040).access = 1 := ⟨rfl, rfl⟩

/-- Settles O20: the request by its unit, and the completion by the work of its command. -/
theorem selftests : Obligations.Selftests := by
  unfold Obligations.Selftests
  intro s h
  refine ⟨fun r q => ?_, fun tag outcome duration c e => ⟨fun unit w => ?_, fun w => ⟨fun ok => ?_, fun bad => ?_⟩⟩,
    fun tag outcome duration none => ?_⟩
  · have same : (begun 0x40 r s).evidence = s.evidence := begun_evidence
    have recording : (begun 0x40 r s).recording = s.recording := by rw [begun_frame]
    dsimp only
    refine ⟨fun absent => ?_, fun a busy => ?_, fun u free => ?_, fun u free => ⟨fun bad => ?_, fun ok idle => ?_⟩⟩
    · exact runs_answered h q (if_pos absent)
    · exact runs_answered h q ((if_neg a).trans (if_pos busy))
    · have run := selftestRequest_unit u (by rw [(spec_units _).1]; decide) (u ▸ free) (by decide) (by decide)
      exact runs_accepts h q (by simp) run same
    · have run := selftestRequest_unit u (by rw [(spec_units _).2]; decide) (u ▸ free) (by decide) (by decide)
      rw [if_pos rfl, recording, bad] at run
      exact runs_accepts h q (by simp) run same
    · have run := selftestRequest_unit u (by rw [(spec_units _).2]; decide) (u ▸ free) (by decide) (by decide)
      rw [if_pos rfl, recording, ok, idle] at run
      refine (runs_accepts h q (by simp) run same).trans ?_
      rw [recording]
  · exact edge_next h (selftestComplete_unable e w) (complete_evidence _ _ _ _)
  · subst ok
    have run := selftestComplete_bittern (outcome := 0) (duration := duration) e w
    rw [if_pos rfl] at run
    exact edge_ends h run
  · have run := selftestComplete_bittern (outcome := outcome.toNat) (duration := duration) e w
    have n : outcome.toNat ≠ 0 := fun z => bad (BitVec.eq_of_toNat_eq z)
    rw [if_neg n] at run
    exact edge_ends h run
  · exact edge_next h (by simp only [selftestComplete, none]) rfl

end Tests

/-! ### ABORT -/

section Abort
variable {s : State} {own : Nat} {p : Bytes}

/-- An ABORT of its own tag, or of none outstanding. -/
theorem abortRequest_absent (n : getU p 0 2 = own ∨ s.command (getU p 0 2) = none) : abortRequest own p s =
    .only (.done (if s.link.cache.any (fun e => e.tag == getU p 0 2) then .alreadyDone else .notFound) []) s := by
  unfold abortRequest
  dsimp only
  rcases n with n | n
  · exact if_pos n
  · rw [n]
    exact ite_self _

variable {c : Command} (n : getU p 0 2 ≠ own) (e : s.command (getU p 0 2) = some c)
include n e

theorem abortRequest_replied (w : c.work = .replied) : abortRequest own p s = .only (.done .alreadyDone []) s := by
  simp only [abortRequest, if_neg n, e, w]
  rfl

/-- Work that has not passed its point of no return is undone, and its completion precedes the answer. -/
theorem abortRequest_ends {t : State} (plain : ∀ k, c.work ≠ .commit k) (replied : c.work ≠ .replied)
    (held : ∀ k, c.work ≠ .abortHeld k) (undone : abortWork c s = some t) :
    abortRequest own p s = .of (.done .ok [], t.complete (getU p 0 2) .aborted []) := by
  simp only [abortRequest, if_neg n, e]
  cases w : c.work with
  | replied => exact absurd w replied
  | commit k => exact absurd w (plain k)
  | abortHeld k => exact absurd w (held k)
  | _ => simp only [undone]

/-- Work that has passed it is awaited. -/
theorem abortRequest_waits (plain : ∀ k, c.work ≠ .commit k) (replied : c.work ≠ .replied)
    (held : ∀ k, c.work ≠ .abortHeld k) (past : abortWork c s = none) :
    abortRequest own p s = .only (.long (.abortHeld (getU p 0 2))) s := by
  simp only [abortRequest, if_neg n, e]
  cases w : c.work with
  | replied => exact absurd w replied
  | commit k => exact absurd w (plain k)
  | abortHeld k => exact absurd w (held k)
  | _ => simp only [past]

end Abort

/-! ### START_WARM and START_COLD -/

/-- A reply in the order of arrival is the last of its queue. -/
theorem send_last (x : Reply) (s : State) :
    (s.send x).link.replies.getLast? = some x ∨ (s.send x).link.behind.getLast? = some x := by
  rw [send_link]
  split
  · exact .inr (by simp)
  · exact .inl (by simp)

theorem send_start (x : Reply) (s : State) : (s.send x).start = s.start := by
  obtain ⟨l, e⟩ := send_frame s x
  rw [e]

/-- A start on command with no commit under way: the failures are cleared, and the reply announces the start. -/
theorem startRequest_starts {kind : StartKind} {s : State} (n : s.commitTag = none) (w : s.start.commit ≠ .writing) :
    ∃ t, startRequest kind s = { Done.of (.done .ok [], clearFailures t) with restart := some kind } := by
  have reached : reachSlotWrite s = s := by simp only [reachSlotWrite, n]
  unfold startRequest
  rw [reached, if_neg w]
  exact ⟨_, rfl⟩

/-- Settles O21: ABORT by the work of the command it names, and the two starts by one rule. -/
theorem abortsAndStarts : Obligations.AbortsAndStarts := by
  unfold Obligations.AbortsAndStarts
  intro s r h
  refine ⟨fun q => ⟨fun absent => ?_, fun n c e => ⟨fun w => ?_, fun w => ?_, fun w => ?_, fun w => ?_, fun w => ?_⟩⟩,
    fun op i k command q none writing => ?_⟩
  · exact runs_answered h q (abortRequest_absent absent)
  · exact runs_answered h q (abortRequest_replied n e w)
  · obtain ⟨l, w⟩ := w
    have run := abortRequest_ends n e (by simp [w]) (by simp [w]) (by simp [w]) (by rw [abortWork, w])
    exact runs_answers h q run ((complete_evidence _ _ _ _).trans begun_evidence)
  · have undone : abortWork c (begun 0x41 r s) = some (dropReads c.tag (begun 0x41 r s)) := by
      rcases w with ⟨i, m, n, p, w⟩ | ⟨v, a, d, w⟩ <;> rw [abortWork, w]
    have work : (∀ k, c.work ≠ .commit k) ∧ c.work ≠ .replied ∧ ∀ k, c.work ≠ .abortHeld k := by
      rcases w with ⟨i, m, n, p, w⟩ | ⟨v, a, d, w⟩ <;> simp [w]
    obtain ⟨plain, replied, held⟩ := work
    have run := abortRequest_ends n e plain replied held undone
    exact runs_answers h q run ((complete_evidence _ _ _ _).trans (begun_evidence (op := 0x41)))
  · obtain ⟨l, w⟩ := w
    have run := abortRequest_ends n e (by simp [w]) (by simp [w]) (by simp [w]) (by rw [abortWork, w]; rfl)
    exact runs_answers h q run ((complete_evidence _ _ _ _).trans begun_evidence)
  · have past : abortWork c (begun 0x41 r s) = Option.none := by
      rcases w with ⟨k, b, w⟩ | ⟨m, p, w⟩ <;> rw [abortWork, w] <;> rfl
    have work : (∀ k, c.work ≠ .commit k) ∧ c.work ≠ .replied ∧ ∀ k, c.work ≠ .abortHeld k := by
      rcases w with ⟨k, b, w⟩ | ⟨m, p, w⟩ <;> simp [w]
    obtain ⟨plain, replied, held⟩ := work
    have run := abortRequest_waits n e plain replied held past
    refine (runs_executed h q).trans ?_
    change Host.Outcome.next (answerRequest _ _ _ (abortRequest _ _ _)).endEdge = _
    rw [run]
    exact congrArg _ (endEdge_settled (begun_settled (op := 0x41) (r := r) h))
  · have run : exec i s = edge (arrive op r Option.none) s ∧
        execute op r.tag.toNat r.params Option.none (begun op r s) = startRequest k (begun op r s) := by
      rcases command with ⟨rfl, rfl, rfl⟩ | ⟨rfl, rfl, rfl⟩ <;> exact ⟨rfl, rfl⟩
    have commit : (begun op r s).start.commit ≠ .writing := by rw [begun_frame]; exact writing
    obtain ⟨t, starts⟩ := startRequest_starts (kind := k) none commit
    rw [run.1, runs_executed h q, run.2, starts]
    obtain ⟨-, link, -, -, -, -, -, -, -, -, -, -, -, -, -, -, start, -⟩ := endEdge_frame (answerRequest r.port r.tag.toNat op
      { Done.of (.done .ok [], clearFailures t) with restart := some k })
    have kept := start.trans (send_start _ (clearFailures t))
    refine ⟨_, ?x, rfl, congrArg Start.failures kept, congrArg Start.limp kept, congrArg Start.limpLevel kept, ?last, ?tag,
      ?status, ?restart, ?ends⟩
    case last =>
      rw [link]
      exact send_last _ (clearFailures t)
    all_goals rfl

end Sys2Proof.Laws
end

section
/-! Load control and the evidence log: what a command to a relay touches (R178–R181), how an entry is committed (R496–R509),
how an edge ends (R498, R499), and pins, limp releases and patches (R500, R547, R560, R567, R568). -/

namespace Sys2Proof.Laws
open Sys2Proof Sys2Proof.Machine

/-! ### Commands to relays -/

/-- From `s` to `t` the pairs, the converters' triggers and the waiting writes of the store alone have changed. -/
def MovesRelays (s t : State) : Prop :=
  ∃ p x st, t = { s with sluice := { s.sluice with pairs := p }, aux := x, store := st }

namespace MovesRelays
variable {s t u : State}

theorem refl (s : State) : MovesRelays s s := ⟨_, _, _, rfl⟩

theorem trans (h : MovesRelays s t) (k : MovesRelays t u) : MovesRelays s u := by
  obtain ⟨p, x, st, rfl⟩ := h
  obtain ⟨p', x', st', rfl⟩ := k
  exact ⟨p', x', st', rfl⟩

theorem foldl {α : Type} {f : State → α → State} (h : ∀ s x, MovesRelays s (f s x)) (l : List α) (s : State) :
    MovesRelays s (l.foldl f s) :=
  List.foldlRecOn (motive := MovesRelays s) l f (refl s) fun t k x _ => k.trans (h t x)

theorem modPair (p : Nat) (f : RelayPair → RelayPair) (s : State) : MovesRelays s (s.modPair p f) := ⟨_, _, _, rfl⟩

theorem savePair (p : Nat) (s : State) : MovesRelays s (s.savePair p) := by
  unfold State.savePair
  split
  · exact modPair _ _ _
  · exact ⟨_, _, _, rfl⟩

theorem auxEvent (src : Nat) (s : State) : MovesRelays s (s.auxEvent src) := by
  unfold State.auxEvent State.auxEventAt
  split
  · exact refl s
  · exact ⟨_, _, _, rfl⟩

theorem driveCoil (p : Nat) (c : RelayCmd) (src : RelaySource) (s : State) : MovesRelays s (driveCoil p c src s) :=
  (modPair _ _ s).trans ((savePair _ _).trans (auxEvent _ _))

theorem setLevel (out : Nat) (on : Bool) (src : RelaySource) (s : State) : MovesRelays s (setLevel out on src s) := by
  unfold Machine.setLevel
  extract_lets p x was t
  split
  · exact refl s
  · exact (modPair _ _ s).trans ((savePair _ _).trans (auxEvent _ _))

theorem setPending (p : Nat) (c : RelayCmd) (src : RelaySource) (s : State) : MovesRelays s (setPending p c src s) := by
  unfold Machine.setPending
  dsimp only
  split
  · exact (modPair _ _ s).trans ((modPair _ _ _).trans (savePair _ _))
  · exact modPair _ _ s

theorem operateRelay (out : Nat) (c : RelayCmd) (src : RelaySource) (s : State) : MovesRelays s (operateRelay out c src s) := by
  unfold Machine.operateRelay
  dsimp only
  split
  · split
    · exact setLevel _ _ _ s
    · exact setLevel _ _ _ s
    · exact refl s
  · split
    · exact refl s
    · split
      · exact setPending _ _ _ s
      · exact driveCoil _ _ _ s

theorem commandRelay (out : Nat) (c : RelayCmd) (src : RelaySource) (s : State) : MovesRelays s (commandRelay out c src s) := by
  unfold Machine.commandRelay
  split
  · exact refl s
  · split
    · exact operateRelay _ _ _ s
    · exact modPair _ _ s

theorem runPending (p : Nat) (s : State) : MovesRelays s (runPending p s) := by
  unfold Machine.runPending
  dsimp only
  split
  · split
    · exact refl s
    · exact (modPair _ _ s).trans (driveCoil _ _ _ _)
  · exact refl s

theorem runWaiting (s : State) : MovesRelays s (runWaiting s) := by
  refine foldl (fun s p => ?_) _ s
  dsimp only
  have saved : MovesRelays s (if (s.sluice.pairs.getD p {}).unsaved then s.savePair p else s) := by
    split
    · exact savePair _ _
    · exact refl s
  exact saved.trans ((modPair _ _ _).trans ((foldl (fun s x => operateRelay _ _ _ s) _ _).trans (runPending _ _)))

end MovesRelays

/-! ### An entry is committed -/

/-- What the response to an entry that has been written leaves as it was. -/
structure Responds (s t : State) : Prop where
  start : t.start = s.start
  billing : t.billing = s.billing
  power : t.power = s.power
  newest : t.evidence.newest = s.evidence.newest
  head : t.evidence.head = s.evidence.head
  raised : t.evidence.raised = s.evidence.raised
  safe : t.evidence.safeCommitted = s.evidence.safeCommitted
  irq : ∀ k, s.link.irqPending.getLsbD k = true → t.link.irqPending.getLsbD k = true
  latched : ∀ k, s.evidence.latched.getLsbD k = true → t.evidence.latched.getLsbD k = true

namespace Responds
variable {s t u : State}

theorem refl (s : State) : Responds s s := ⟨rfl, rfl, rfl, rfl, rfl, rfl, rfl, fun _ h => h, fun _ h => h⟩

theorem trans (h : Responds s t) (k : Responds t u) : Responds s u :=
  ⟨k.start.trans h.start, k.billing.trans h.billing, k.power.trans h.power, k.newest.trans h.newest, k.head.trans h.head,
    k.raised.trans h.raised, k.safe.trans h.safe, fun _ q => k.irq _ (h.irq _ q), fun _ q => k.latched _ (h.latched _ q)⟩

theorem of_moves (h : MovesRelays s t) : Responds s t := by
  obtain ⟨p, x, st, rfl⟩ := h
  exact ⟨rfl, rfl, rfl, rfl, rfl, rfl, rfl, fun _ h => h, fun _ h => h⟩

end Responds

theorem setIrq_keeps (b : Irq) (s : State) (k : Nat) (h : s.link.irqPending.getLsbD k = true) :
    (s.setIrq b).link.irqPending.getLsbD k = true := by
  simp [h]

theorem setIrq_sets (b : Irq) (s : State) (h : b.bit < 12) : (s.setIrq b).link.irqPending.getLsbD b.bit = true := by
  simp [h]

/-- A latched code stands among the latched ones. -/
theorem latchCode_latches {code : Nat} (lt : code < 256) (cls : Nat) (s : State) :
    (latchCode code cls s).evidence.latched.getLsbD code = true := by
  have set : (s.evidence.latched ||| (1#256 <<< code)).getLsbD code = true := by simp [lt]
  unfold latchCode
  dsimp only
  split
  · exact set
  · exact set

theorem latchCode_responds (code cls : Nat) (s : State) : Responds s (latchCode code cls s) := by
  have kept : ∀ k, s.evidence.latched.getLsbD k = true → (s.evidence.latched ||| (1#256 <<< code)).getLsbD k = true :=
    fun k h => by simp [h]
  unfold latchCode
  dsimp only
  split
  · exact ⟨rfl, rfl, rfl, rfl, rfl, rfl, rfl, fun _ h => h, kept⟩
  · exact ⟨rfl, rfl, rfl, rfl, rfl, rfl, rfl, fun _ h => h, kept⟩

/-- The response to an alarm: what it latches, and that it commits a restart or none. -/
theorem respond_responds (r : Raised) (n : Nat) (s : State) : ∃ u, Responds s u ∧
    respond r n s = (if r.restarts then { u with evidence := { u.evidence with
      safeCommitted := true
      safeSave := u.evidence.safeSave && !(r.code == 0x14 && (r.payload.headD 0).toNat == 0) } } else u) ∧
    (r.backup = false → 1 ≤ r.cls → r.code < 256 →
      u.evidence.latched.getLsbD r.code = true ∧ u.link.irqPending.getLsbD 1 = true) := by
  unfold respond
  extract_lets cls act s₁ _ s₂ _ s₃ s₄ code
  have first : Responds s s₁ ∧ (1 ≤ cls → r.code < 256 →
      s₁.evidence.latched.getLsbD r.code = true ∧ s₁.link.irqPending.getLsbD 1 = true) := by
    unfold s₁
    by_cases some : 1 ≤ cls
    · rw [if_pos some]
      have irq : Responds s (s.setIrq .alarm) :=
        ⟨rfl, rfl, rfl, rfl, rfl, rfl, rfl, setIrq_keeps .alarm s, fun _ h => h⟩
      have latch := latchCode_responds r.code r.cls (s.setIrq .alarm)
      exact ⟨irq.trans latch, fun _ lt => ⟨latchCode_latches lt _ _, latch.irq 1 (setIrq_sets .alarm s (by decide))⟩⟩
    · rw [if_neg some]
      exact ⟨.refl s, fun one => absurd one some⟩
  obtain ⟨first, latches⟩ := first
  have second : Responds s₁ s₂ := by
    unfold s₂
    split
    · exact .refl _
    · exact ⟨rfl, rfl, rfl, rfl, rfl, rfl, rfl, fun _ h => h, fun _ h => h⟩
  have third : Responds s₂ s₃ := by
    unfold s₃
    split
    · exact ⟨rfl, rfl, rfl, rfl, rfl, rfl, rfl, fun _ h => h, fun _ h => h⟩
    · exact .refl _
  have fourth : Responds s₃ s₄ := .of_moves (MovesRelays.foldl (fun s k => MovesRelays.commandRelay _ _ _ s) _ _)
  have rest := second.trans (third.trans fourth)
  refine ⟨s₄, first.trans rest, rfl, fun main one lt => ?_⟩
  obtain ⟨latched, irq⟩ := latches (by simpa only [cls, main, Bool.false_eq_true, if_false] using one) lt
  exact ⟨rest.latched _ latched, rest.irq _ irq⟩

/-- An entry written: its number, its chain, and what else moves. -/
theorem writeEntry_writes (r : Raised) (s : State) : let n := s.evidence.newest + 1
    let e := chainEntry (logEntry s.store.seen s.evidence.newest) (r.head n)
    let u : State := { s with
      store := s.store.put (logAddress n) e
      evidence := { s.evidence with newest := n, head := sha256 e }
      link := { s.link with irqPending := s.link.irqPending ||| (1#12 <<< 2) } }
    Responds u (writeEntry r s) ∧ (n % 64 ≠ 0 → writeEntry r s = u) := by
  intro n e u
  have e' : writeEntry r s = if n % 64 = 0 then queueGroup n u else u := rfl
  rw [e']
  constructor
  · split
    · exact ⟨rfl, rfl, rfl, rfl, rfl, rfl, rfl, fun _ h => h, fun _ h => h⟩
    · exact .refl _
  · exact fun odd => if_neg odd

section Commit
variable {s : State} {r : Raised} {q : List Raised} (run : s.start.phase = .running) (opened : s.store.closed = false)
  (front : s.evidence.queue = r :: q) (none : s.evidence.lostNow = 0) (room : s.logHasRoom (s.evidence.newest + 1) = true)
include none room

/-- An entry with room in the log is written, and what it asks for behind that. -/
theorem commitEntry_writes (r : Raised) : ∃ u, Responds (writeEntry r s) u ∧
    commitEntry r s = (if r.alarm && !r.ext then respond r (s.evidence.newest + 1) u else u) ∧
    (r.recent = Option.none → r.backup = false → r.code ≠ 0x06 → u = writeEntry r s) := by
  have noLoss : (s.evidence.lostNow != 0 && s.logHasRoom (s.evidence.newest + 1)) = false := by simp [none]
  have fits : (s.logHasRoom (s.evidence.newest + 1) && decide (s.evidence.lostNow = 0)) = true := by simp [room, none]
  simp only [commitEntry, noLoss, Bool.false_eq_true, if_false, fits, if_true]
  generalize writeEntry r s = w
  have first : ∃ u, Responds w u ∧ (if r.backup then { w with backup := { w.backup with buffer := w.backup.buffer.drop 1 } } else w) = u ∧
      (r.backup = false → u = w) := by
    cases r.backup with
    | true =>
      exact ⟨{ w with backup := { w.backup with buffer := w.backup.buffer.drop 1 } },
        ⟨rfl, rfl, rfl, rfl, rfl, rfl, rfl, fun _ h => h, fun _ h => h⟩, rfl, fun h => by simp at h⟩
    | false => exact ⟨w, .refl w, rfl, fun _ => rfl⟩
  obtain ⟨u, kept, e, same⟩ := first
  rw [e]
  have second : ∃ v, Responds u v ∧ (if r.code = 0x06 then { u with backup := { u.backup with overflow := 0 } } else u) = v ∧
      (r.code ≠ 0x06 → v = u) := by
    by_cases six : r.code = 0x06
    · exact ⟨{ u with backup := { u.backup with overflow := 0 } },
        ⟨rfl, rfl, rfl, rfl, rfl, rfl, rfl, fun _ h => h, fun _ h => h⟩, if_pos six, fun h => absurd six h⟩
    · exact ⟨u, .refl u, if_neg six, fun _ => rfl⟩
  obtain ⟨v, kept', e', same'⟩ := second
  rw [e']
  cases recent : r.recent with
  | none => exact ⟨v, kept.trans kept', rfl, fun _ b c => (same' c).trans (same b)⟩
  | some event =>
    exact ⟨numberEvent event (s.evidence.newest + 1) v, (kept.trans kept').trans ⟨rfl, rfl, rfl, rfl, rfl, rfl, rfl, fun _ h => h, fun _ h => h⟩, rfl, fun h => by simp at h⟩

include run opened front

/-- A commit while the device runs and no restart is committed. -/
theorem evidenceCommit_commits (power : s.power.warning = false) (safe : s.evidence.safeCommitted = false) :
    ∃ u, Responds (writeEntry r { s with evidence := { s.evidence with queue := q } }) u ∧
    (r.recent = Option.none → r.backup = false → r.code ≠ 0x06 → r.alarm = false →
      u = writeEntry r { s with evidence := { s.evidence with queue := q } }) ∧
    (r.alarm = true → r.ext = false → r.backup = false → 1 ≤ r.cls → r.code < 256 →
      u.evidence.latched.getLsbD r.code = true ∧ u.link.irqPending.getLsbD 1 = true) ∧
    ((r.restarts = false → evidenceCommit s = u) ∧
     (r.restarts = true → r.ext = false → q = [] → ∃ v, evidenceCommit s = safeRestart v)) := by
  have awake : ((s.store.closed && s.power.warning) || !(s.awake || s.start.phase == .failed)) = false := by
    simp [opened, State.awake, run]
  obtain ⟨v, kept, committed, plain⟩ := commitEntry_writes (s := { s with evidence := { s.evidence with queue := q } })
    none room r
  obtain ⟨written, -⟩ := writeEntry_writes r { s with evidence := { s.evidence with queue := q } }
  obtain ⟨w, responds, responded, latches⟩ := respond_responds r (s.evidence.newest + 1) v
  have steady : ∀ u, Responds (writeEntry r { s with evidence := { s.evidence with queue := q } }) u →
      u.power.warning = false ∧ u.evidence.safeCommitted = false := fun u k =>
    ⟨by rw [k.power, written.power]; exact power, by rw [k.safe, written.safe]; exact safe⟩
  have commits : ∃ last, (q = [] → last = true) ∧ evidenceCommit s =
      (let t := commitEntry r { s with evidence := { s.evidence with queue := q } }
       if t.power.warning then { t with store := { t.store with closed := q.isEmpty } }
       else if t.evidence.safeCommitted && last then safeRestart t else t) := by
    refine ⟨match (generalizing := false) q with | [] => true | x :: _ => x.sub == 0, fun e => by rw [e], ?_⟩
    simp only [evidenceCommit, awake, front, Bool.false_eq_true, if_false] <;> cases q <;> rfl
  obtain ⟨last, ends, commits⟩ := commits
  by_cases alarm : (r.alarm && !r.ext) = true
  · rw [if_pos alarm, responded] at committed
    refine ⟨w, kept.trans responds, fun _ _ _ no => by simp [no] at alarm, fun _ _ => latches, fun no => ?_, fun yes _ empty => ?_⟩
    · obtain ⟨on, idle⟩ := steady w (kept.trans responds)
      rw [if_neg (by simp [no])] at committed
      rw [commits]
      simp only [committed, on, idle, Bool.false_and, Bool.false_eq_true, if_false]
    · obtain ⟨on, -⟩ := steady w (kept.trans responds)
      rw [if_pos yes] at committed
      simp only [committed, on, ends empty, Bool.false_eq_true, if_false, Bool.and_true, if_true] at commits
      exact ⟨_, commits⟩
  · rw [if_neg alarm] at committed
    refine ⟨v, kept, fun a b c _ => plain a b c, fun yes no => by simp [yes, no] at alarm, fun _ => ?_, fun yes no => ?_⟩
    · obtain ⟨on, idle⟩ := steady v kept
      rw [commits]
      simp only [committed, on, idle, Bool.false_and, Bool.false_eq_true, if_false]
    · have : r.alarm = true := by
        simp only [Raised.restarts, Bool.and_eq_true] at yes
        exact yes.1.1.1
      simp [this, no] at alarm

end Commit

/-! ### The end of an edge -/

/-- One entry raised that is no crystal's queues behind all others. -/
theorem joinEdge_single (q : List Raised) {e : Raised} (plain : e.crystal = false) : joinEdge q [e] = q ++ [{ e with sub := 0 }] := by
  simp [joinEdge, plain, sortRaised, insertRaised, numberRaised]

/-- Settles O22: the commit by what its entry asks for, and the end of an edge by whether its entry restarts. -/
theorem evidenceIsQueuedAndCommitted : Obligations.EvidenceIsQueuedAndCommitted := by
  unfold Obligations.EvidenceIsQueuedAndCommitted
  refine ⟨fun s r q h opened run front none room power safe => ?commit, fun s e raised plain => ?edge⟩
  case commit =>
    obtain ⟨u, kept, same, latches, stays, restarts⟩ :=
      evidenceCommit_commits run opened front none room power safe
    obtain ⟨written, exact'⟩ := writeEntry_writes r { s with evidence := { s.evidence with queue := q } }
    have all := written.trans kept
    refine ⟨fun no => ⟨u, ?_, all.newest, all.head, all.irq 2 (by simp), all.start, all.billing, fun a b c d odd => ?_,
      latches⟩, fun yes main last => ?_⟩
    · refine (edge_quiet h (f := evidenceCommit) ?_).trans (congrArg _ (stays no))
      rw [stays no]
      exact all.raised.trans h
    · rw [same b c d a, exact' odd]
      exact ⟨rfl, rfl, rfl, rfl, rfl, rfl, rfl⟩
    · obtain ⟨v, ran⟩ := restarts yes main last
      obtain ⟨-, link, -, billing, -, -, -, -, -, -, -, -, -, -, -, -, start, -⟩ := endEdge_frame (safeRestart v)
      refine ⟨_, edge_ends h (f := evidenceCommit) ran, ?_, ?_, ?_, ?_⟩
      · rw [start]; rfl
      · rw [start]; rfl
      · rw [link]; rfl
      · rw [billing]; rfl
  case edge =>
    have joined := joinEdge_single s.evidence.queue plain
    have any : [e].any Raised.restarts = e.restarts := by simp
    have ends : s.endEdge =
        let u := { s with evidence := { s.evidence with raised := [], queue := s.evidence.queue ++ [{ e with sub := 0 }] } }
        if e.restarts then u.safeStep else u := by
      simp only [State.endEdge, raised, joined, any]
    rw [ends]
    cases restarts : e.restarts with
    | true =>
      refine ⟨rfl, rfl, fun _ => ⟨rfl, rfl, rfl, rfl, rfl, ?_, rfl, rfl⟩, fun no => by simp at no, rfl⟩
      simp [State.safeStep, State.enterHold]
    | false => exact ⟨rfl, rfl, fun yes => by simp at yes, fun _ => ⟨rfl, rfl, rfl⟩, rfl⟩

/-! ### Pins, limp releases and patches -/

theorem alarmPinDue_asks {s : State} {p : AlarmPin} (awake : s.awake = true) (free : s.archiveGate ≠ some .busy)
    (due : s.evidence.pins.find? (fun p => p.asked.isNone && decide (p.time + 30 * tps ≤ s.ticks)) = some p) :
    alarmPinDue s = askAlarmPin p s := by
  simp only [alarmPinDue, awake, due, Bool.not_true, Bool.false_or, decide_eq_true_eq, if_neg free]

/-- Beyond sixteen pins in an hour an alarm gets none. -/
theorem askAlarmPin_refuses {s : State} (p : AlarmPin) (hour : s.evidence.pinHour = s.sec / 3600)
    (full : 16 ≤ s.evidence.pinsHour) : askAlarmPin p s =
      pinExtension p.code p.seq 3 0 { s with evidence := { s.evidence with pins := s.evidence.pins.erase p } } := by
  have count : ({ s with evidence := { s.evidence with pins := s.evidence.pins.erase p } } : State).alarmPinsThisHour =
      s.evidence.pinsHour := if_pos hour
  unfold askAlarmPin
  dsimp only
  rw [count, if_pos full]

theorem limpRelease_eq (v : BitVec 32) (s : State) : limpRelease v.toNat s =
    if v.toNat / 2 ^ 16 ≠ 0x4C52 ∨ field 15 5 v.toNat ≠ 0 then (.badParam, s)
    else if s.limpFlag = false then (.wrongState, s)
    else (.ok, { s with start := { s.start with
      pending := s.start.pending ++ [{ release := v.setWidth 5 &&& s.start.heldMask, strobe := s.sense.modCount.toNat / 256 }] } }) := by
  have key : field 31 16 v.toNat = v.toNat / 2 ^ 16 := by
    have := v.isLt
    simp only [field]
    omega
  simp only [limpRelease, key, Bool.or_eq_true, decide_eq_true_eq, BitVec.ofNat_toNat, Bool.not_eq_true']
  rfl

theorem patchWrite_eq (v : Bytes) (s : State) : patchWrite v s =
    if s.protects 0x70000 then (.isProtected, s.countStore 6)
    else if 1 ≤ getU v 4 2 ∧ getU v 4 2 ≤ 256 ∧ getU v 6 2 = 0 ∧ getU v 0 4 + getU v 4 2 ≤ 65536 then
      (.ok, { s with store := s.store.put (0x70000 + getU v 0 4) ((v.drop 8).take (getU v 4 2)) })
    else (.badParam, s) := by
  unfold patchWrite
  dsimp only
  change (if s.protects 0x70000 then _ else _) = _
  split
  · rfl
  · split <;> rename_i bad <;> simp only [Bool.or_eq_true, decide_eq_true_eq] at bad
    · rw [if_neg (by omega)]
    · rw [if_pos (by omega)]
      rfl

/-- Settles O24: the pin that falls due, and the two writes as they are answered. -/
theorem pinsReleasesAndPatches : Obligations.PinsReleasesAndPatches := by
  unfold Obligations.PinsReleasesAndPatches
  intro s h
  refine ⟨fun awake free p due => ⟨?_, askAlarmPin_refuses p⟩, fun port tag v q => ?release, fun port tag v q n => ?patch⟩
  · exact edge_ends h (f := fun s => giveWork (alarmPinDue s)) (congrArg giveWork (alarmPinDue_asks awake free due))
  case release =>
    have run := limpRelease_eq v (begun 0x02 (writeReq port tag 0xB004 (leBytes 4 v.toNat)) s)
    have limp : (begun 0x02 (writeReq port tag 0xB004 (leBytes 4 v.toNat)) s).limpFlag = s.limpFlag := by rw [begun_frame]; rfl
    have strobe : (begun 0x02 (writeReq port tag 0xB004 (leBytes 4 v.toNat)) s).sense = s.sense := by rw [begun_frame]
    have written : ∀ st t, limpRelease v.toNat (begun 0x02 (writeReq port tag 0xB004 (leBytes 4 v.toNat)) s) = (st, t) →
        setObject 0xB004 (leBytes 4 v.toNat) (begun 0x02 (writeReq port tag 0xB004 (leBytes 4 v.toNat)) s) =
          (.done st [], t) := by
      intro st t e
      rw [setObject_writes (.inl rfl) rfl rfl rfl rfl]
      change answerOf (limpRelease (leNat (leBytes 4 v.toNat)) _) = _
      rw [leNat_word, e]
      rfl
    dsimp only
    rw [← limp, ← strobe]
    split at run
    · next bad =>
      rw [if_pos bad]
      exact setRow_runs_quiet h q (by decide) (by decide) (written _ _ run) (begun_evidence (op := 0x02))
    · next good =>
      rw [if_neg good]
      split at run
      · next off =>
        rw [if_pos off]
        exact setRow_runs_quiet h q (by decide) (by decide) (written _ _ run) (begun_evidence (op := 0x02))
      · next on =>
        rw [if_neg on]
        exact setRow_runs_quiet h q (by decide) (by decide) (written _ _ run) (begun_evidence (op := 0x02))
  case patch =>
    have run := patchWrite_eq v (begun 0x02 (writeReq port tag 0xB006 v) s)
    have written : ∀ st t, patchWrite v (begun 0x02 (writeReq port tag 0xB006 v) s) = (st, t) →
        setObject 0xB006 v (begun 0x02 (writeReq port tag 0xB006 v) s) = (.done st [], t) := by
      intro st t e
      rw [setObject_writes (.inl rfl) rfl rfl rfl n]
      change answerOf (patchWrite v _) = _
      rw [e]
      rfl
    rw [begun_protects] at run
    split at run
    · next locked =>
      rw [if_pos locked]
      exact setRow_runs_quiet h q (by decide) (by decide) (written _ _ run) (begun_evidence (op := 0x02))
    · next free =>
      rw [if_neg free]
      split at run
      · next ok =>
        rw [if_pos ok]
        exact setRow_runs_quiet h q (by decide) (by decide) (written _ _ run) (begun_evidence (op := 0x02))
      · next bad =>
        rw [if_neg bad]
        exact setRow_runs_quiet h q (by decide) (by decide) (written _ _ run) (begun_evidence (op := 0x02))

end Sys2Proof.Laws
end

section
/-! The store's array, the calibration members and the network's commands (R59, R161, R399, R401, R402, R438–R440, R448,
R455). -/

namespace Sys2Proof.Laws
open Sys2Proof Sys2Proof.Machine

/-! ### Calibration members (R161, R459) -/

/-- The class, the number in it and the member that an index names. -/
theorem idx_fields {c n m : Nat} (hc : c < 16) (hn : n < 64) (hm : m < 64) :
    idxClass (idx c n m) = c ∧ idxInst (idx c n m) = n ∧ idxMem (idx c n m) = m := by
  simp only [idxClass, idxInst, idxMem, field, idx]
  omega

/-- A calibration member is one of the protected block. -/
theorem channelSpec_calibration {c m : Nat} (hc : c < 56) (m3 : 3 ≤ m) (m5 : m ≤ 5) : channelSpec c m = rwpMember 4 := by
  obtain rfl | rfl | rfl : m = 3 ∨ m = 4 ∨ m = 5 := by omega
  all_goals
    simp only [channelSpec]
    rw [if_neg (by omega), if_neg (by simp; omega)]
    rfl

section Calibration
variable {s : State} {c m : Nat}

theorem spec_calibration (hc : c < 56) (m3 : 3 ≤ m) (m5 : m ≤ 5) : s.spec (idx 1 c m) = rwpMember 4 := by
  obtain ⟨cls, inst, mem⟩ := idx_fields (c := 1) (n := c) (m := m) (by omega) (by omega) (by omega)
  rw [← channelSpec_calibration hc m3 m5]
  have fit : fitted s.part (idx 1 c m) = true := by simp [fitted, cls]
  have other : m ≠ 63 := by omega
  simp only [State.spec, ownSpec, cls, inst, mem, fit, other, Bool.not_true, Bool.false_eq_true, if_false]

/-- A calibration write meets no lock but the block's protection. -/
theorem calibration_unlocked (hc : c < 56) (m3 : 3 ≤ m) (m5 : m ≤ 5) :
    s.relayLocked (idx 1 c m) = false ∧ s.blockProtected (idx 1 c m) = s.protects 0x60000 ∧
      heldIn s.start.heldMask.toNat (idx 1 c m) = false := by
  obtain ⟨cls, -, -⟩ := idx_fields (c := 1) (n := c) (m := m) (by omega) (by omega) (by omega)
  have other : (idx 1 c m != 0x8002) = true := by simp only [bne_iff_ne, idx]; omega
  refine ⟨by simp [State.relayLocked, cls], ?_, by simp [heldIn, heldBit, cls]⟩
  simp [State.blockProtected, spec_calibration hc m3 m5, other, cls, rwpMember, calAddress]

/-- The 32-bit number in two's complement. -/
theorem toSigned_toNat (v : BitVec 32) : toSigned 32 v.toNat = v.toInt := by
  have lt : v.toNat < 2 ^ 32 := v.isLt
  rw [BitVec.toInt_eq_toNat_cond]
  simp only [toSigned, Nat.mod_eq_of_lt lt]
  norm_num
  split <;> split <;> omega

theorem calibrationOk_iff (v : BitVec 32) : calibrationOk m v.toNat = true ↔
    if m = 3 then 2 ^ 29 ≤ v.toNat ∧ v.toNat ≤ 2 ^ 31 else if m = 4 then -(2 ^ 25) ≤ v.toInt ∧ v.toInt ≤ 2 ^ 25
      else -(2 ^ 22) ≤ v.toInt ∧ v.toInt ≤ 2 ^ 22 := by
  simp only [calibrationOk, toSigned_toNat]
  split
  · simp
  · split <;> simp

/-- The record goes to the store, and nothing else moves. -/
theorem saveCalibration_frame (v : Nat) (s : State) :
    saveCalibration c m v s = { s with store := (saveCalibration c m v s).store } := by
  have touches : ∃ st, saveCalibration c m v s = { s with store := st } := by
    simp only [saveCalibration]
    exact ⟨_, rfl⟩
  obtain ⟨st, e⟩ := touches
  rw [e]

/-- A write of a calibration member, member by member. -/
theorem setObject_calibration (v : BitVec 32) (hc : c < 56) (m3 : 3 ≤ m) (m5 : m ≤ 5) (p : s.protects 0x60000 = false) :
    setObject (idx 1 c m) (leBytes 4 v.toNat) s = answerOf (writeCalibration c m v.toNat s) := by
  obtain ⟨cls, inst, mem⟩ := idx_fields (c := 1) (n := c) (m := m) (by omega) (by omega) (by omega)
  obtain ⟨lock, block, held⟩ := calibration_unlocked (s := s) hc m3 m5
  have spec := spec_calibration (s := s) hc m3 m5
  rw [setObject_writes (.inr (by rw [spec]; rfl)) lock (block.trans p) held (by rw [spec]; exact leBytes_length 4 _)]
  have number : leNat (leBytes 4 v.toNat) = v.toNat := leNat_leBytes_of_lt v.isLt
  simp only [writeMember, cls, inst, mem, number]

end Calibration

/-- Settles O36: the write is refused by the block's protection or its range, or goes to the record and waits. -/
theorem calibrationIsWritten : Obligations.CalibrationIsWritten := by
  unfold Obligations.CalibrationIsWritten
  intro s port tag c m v h hc m3 m5
  dsimp only
  intro q
  have hi : idx 1 c m < 65536 := by unfold idx; omega
  have n4 : idx 1 c m ≠ 4 := by unfold idx; omega
  refine ⟨fun p => ?_, fun p => ⟨fun bad => ?_, fun ok => ?_⟩⟩
  · obtain ⟨lock, block, -⟩ := calibration_unlocked
      (s := begun 0x02 (writeReq port tag (idx 1 c m) (leBytes 4 v.toNat)) s) hc m3 m5
    refine setRow_runs_quiet h q hi n4 (t := State.countStore 6 _) (st := .isProtected) (ps := []) ?_ (begun_evidence (op := 0x02))
    rw [setObject_protected (by rw [spec_calibration hc m3 m5]; rfl) lock (block.trans ((begun_protects (op := 0x02) _).trans p))]
    rfl
  · refine setRow_runs_quiet h q hi n4 (t := begun 0x02 _ s) (st := .badParam) (ps := []) ?_ (begun_evidence (op := 0x02))
    rw [setObject_calibration v hc m3 m5 ((begun_protects (op := 0x02) _).trans p), writeCalibration, if_pos]
    · rfl
    · rw [Bool.not_eq_true', ← Bool.not_eq_true, calibrationOk_iff]
      exact bad
  · refine ⟨State.modChannel c (fun x => { x with
      writes := x.writes ++ [{ member := m, value := if m = 3 then (v.toNat : Int) else v.toInt
                               strobe := s.sense.modCount.toNat / 256 }] })
      (saveCalibration c m v.toNat (begun 0x02 (writeReq port tag (idx 1 c m) (leBytes 4 v.toNat)) s)),
      setRow_runs_quiet h q hi n4 (st := .ok) (ps := []) ?_ ?_, ?_⟩
    · rw [setObject_calibration v hc m3 m5 ((begun_protects (op := 0x02) _).trans p), writeCalibration, if_neg]
      · rw [toSigned_toNat, saveCalibration_frame, begun_frame]
        rfl
      · rw [Bool.not_eq_true', ← Bool.not_eq_true, not_not, calibrationOk_iff]
        exact ok
    · rw [saveCalibration_frame]
      exact begun_evidence (op := 0x02)
    · rw [saveCalibration_frame]
      generalize (saveCalibration c m v.toNat _).store = st
      refine ⟨?_, rfl, rfl⟩
      rw [begun_frame]
      rfl

/-! ### The pages of the store (R438–R440, R448, R455) -/

/-- A record written into a ring of the store waits as page writes; nothing else of the store moves. -/
theorem record_frame (st : Store) (r : Ring) (b : Bytes) :
    st.record r b = { st with waiting := (st.record r b).waiting } := by
  have put (a : Nat) (bs : Bytes) : st.put a bs = { st with waiting := (st.put a bs).waiting } := by
    unfold Store.put
    split <;> rfl
  unfold Store.record
  split <;> exact put _ _

/-- The profile records of a save: they touch the recording, the archive's offers and the store, not its array. -/
theorem flushProfiles_keeps (point n : Nat) (s : State) : (flushProfiles point n s).sluice = s.sluice ∧
    (flushProfiles point n s).link = s.link ∧ (flushProfiles point n s).store.saveOf = s.store.saveOf ∧
    (flushProfiles point n s).evidence = s.evidence := by
  induction n generalizing s with
  | zero => exact ⟨rfl, rfl, rfl, rfl⟩
  | succ n ih =>
    unfold flushProfiles
    split
    · next c cs _ =>
      split
      · have step := ih (writeProfile c { s with billing.profileClosed := cs })
        refine ⟨step.1.trans rfl, step.2.1.trans rfl, step.2.2.1.trans ?_, step.2.2.2.trans rfl⟩
        simp only [writeProfile]
        rw [record_frame]
      · exact ⟨rfl, rfl, rfl, rfl⟩
    · exact ⟨rfl, rfl, rfl, rfl⟩

/-- What the readers of the array see (R438). -/
theorem read_shown {st : Store} (w : Memory.wf st.cells = true) (a : Nat) : Memory.read st.shown a =
    match st.waiting with
    | [] => Memory.read st.cells a
    | w :: _ => if w.page * 64 + w.offset ≤ a ∧ a < w.page * 64 + w.offset + min w.data.length (64 - w.offset)
      then w.data.getD (a - (w.page * 64 + w.offset)) 0 else Memory.read st.cells a := by
  unfold Store.shown
  cases st.waiting with
  | nil => rfl
  | cons p ps => exact read_commitPage p 64 a w

/-- The page under commit ends (R440). -/
theorem storeCommitDone_next {s : State} {w : PageWrite} {ws : List PageWrite} (e : s.store.waiting = w :: ws) :
    storeCommitDone s = { s with store := { s.store with
      cells := commitPage s.store.cells w pageSize, waiting := ws, firm := false
      counters := modAt s.store.counters 0 (· + 1), saveState := if ws = [] then 0 else s.store.saveState } } := by
  have empty : (ws.isEmpty = true) = (ws = []) := by simp
  simp only [storeCommitDone, Store.commitDone, e, empty]

/-- A save that waits is written (R448). -/
theorem periodicSave_none {s : State} (e : s.store.saveOf = none) : periodicSave s = s := by
  simp only [periodicSave, e]

theorem periodicSave_some {s : State} {c : Capture} {smax : List Nat} (e : s.store.saveOf = some (c, smax)) :
    periodicSave s = if s.sluice.hold = true ∨ s.store.closed = true then s
      else billingSave 1 s.engines.active c smax { s with store.saveOf := none } := by
  simp only [periodicSave, e, Bool.or_eq_true]

theorem billingSave_keeps (kind writer : Nat) (c : Capture) (smax : List Nat) (s : State) :
    (billingSave kind writer c smax s).sluice = s.sluice ∧ (billingSave kind writer c smax s).link = s.link ∧
      (billingSave kind writer c smax s).store.saveOf = s.store.saveOf ∧
      (billingSave kind writer c smax s).evidence = s.evidence := by
  obtain ⟨sluice, link, saveOf, evidence⟩ := flushProfiles_keeps c.boundary.b s.billing.profileClosed.length s
  refine ⟨sluice, link, ?_, evidence⟩
  simp only [billingSave]
  rw [record_frame]
  exact saveOf

/-- Settles O42: the array's rules, one for each of its operations. -/
theorem storePagesAreCommitted : Obligations.StorePagesAreCommitted := by
  unfold Obligations.StorePagesAreCommitted
  intro s h
  refine ⟨fun wf a => read_shown wf a, fun e => ?_, fun w ws e => ?_, fun off weak => ?_, fun ready opened weak => ?_,
    fun off => ?_, fun c smax e free opened => ⟨fun kept => ?_, ?_⟩⟩
  · refine edge_next h ?_ rfl
    simp only [storeCommitDone, Store.commitDone, e]
    rfl
  · refine ⟨_, edge_next h (storeCommitDone_next e) rfl, rfl, rfl, rfl, rfl, fun wf => ⟨wf_commitPage w 64 wf, fun a => ?_⟩, rfl⟩
    exact read_commitPage w 64 a wf
  · refine edge_next h ?_ rfl
    rw [scrubPage, if_pos]
    rcases off with off | off <;> simp [off]
  · have run : scrubPage weak s = { s with store := (scrubPage weak s).store } := by
      unfold scrubPage
      split <;> rfl
    have put (a : Nat) (bs : Bytes) : (s.store.put a bs).scrubPage = s.store.scrubPage ∧
        (s.store.put a bs).passes = s.store.passes := by
      unfold Store.put
      split <;> exact ⟨rfl, rfl⟩
    refine ⟨_, edge_next h run rfl, ?_, ?_, scrubPage_cells _ _, fun none => ?_, rfl⟩
    · simp [scrubPage, ready, opened]
    · by_cases none : weak = 0 <;> simp [scrubPage, ready, opened, none, put]
    · simp [scrubPage, ready, opened, none]
  · refine edge_next h ?_ rfl
    cases e : s.store.saveOf with
    | none => exact periodicSave_none e
    | some p => 
      rw [periodicSave_some e, if_pos]
      simpa [e] using off
  · have run : periodicSave s = billingSave 1 s.engines.active c smax { s with store.saveOf := none } := by
      rw [periodicSave_some e, if_neg]
      simp [free, opened]
    refine ⟨?last, edge_next h (run.trans ?save) rfl⟩
    case save =>
      simp only [billingSave, kept, List.length_nil, flushProfiles]
      rfl
  · obtain ⟨sluice, link, saveOf, evidence⟩ :=
      billingSave_keeps 1 s.engines.active c smax { s with store.saveOf := none }
    have run : periodicSave s = billingSave 1 s.engines.active c smax { s with store.saveOf := none } := by
      rw [periodicSave_some e, if_neg]
      simp [free, opened]
    exact ⟨_, edge_next h run evidence, saveOf, sluice, link, billingSave_cells _ _ _ _ _⟩

/-! ### The network's commands (R59, R399, R401, R402) -/

section Request
variable {op : Nat} {r : Req} {s : State}

@[simp] theorem begun_view : (begun op r s).view = s.view := by rw [begun_frame]; rfl
@[simp] theorem begun_part : (begun op r s).part = s.part := by rw [begun_frame]
@[simp] theorem begun_node (n : Nat) : (begun op r s).node n = s.node n := by rw [begun_frame]; rfl
@[simp] theorem begun_net : (begun op r s).net = s.net := by rw [begun_frame]
@[simp] theorem begun_xa : (begun op r s).xa = s.xa := by rw [begun_frame]

end Request

/-- What passes the checks of R62 is of a unit that is fitted. -/
theorem opcodeFitted_of_judge {op : Nat} {p : Bytes} {s : State} (h : judge op p s = none) : opcodeFitted s.part op = true := by
  by_contra bad
  rw [Bool.not_eq_true] at bad
  revert h
  simp only [judge, bad]
  split_ifs <;> simp_all

/-- Settles O51: each of the three commands as its function answers it. -/
theorem networkCommands : Obligations.NetworkCommands := by
  unfold Obligations.NetworkCommands
  intro s r h
  refine ⟨fun q => ⟨fun off => ?_, fun on other free => ?_, fun on sends => ?_⟩, fun q => ?_,
    fun q => ⟨fun off => ?_, fun on => ⟨fun x runs b => ?_, fun x stands b => ?_, fun none => ?_⟩⟩⟩
  · refine runs_answered h q ?_
    simp [execute, zlinkSend, off, refuse, Done.only, Done.of]
  · refine runs_answered h q ?_
    simp [execute, zlinkSend, on, other, free, refuse, Done.only, Done.of]
  · refine runs_accepts h q (by intro k e; cases e) ?_ begun_evidence
    have skip : ¬ (getU r.params 0 1 ≠ 0 ∧ (s.node (getU r.params 0 1)).state = .free) := by tauto
    simp only [execute, zlinkSend, begun_view, on, begun_node]
    rw [if_neg (by decide), if_neg (by simpa using skip)]
  · refine runs_answered h q ?_
    have form := paramsOk_of_judge q.2
    simp only [paramsOk, Bool.and_eq_true, decide_eq_true_eq, beq_iff_eq] at form
    simp only [execute, zlinkNodes]
    rw [if_neg]
    simp only [Bool.or_eq_true, decide_eq_true_eq]
    omega
  all_goals
    have form := paramsOk_of_judge q.2
    have fit := opcodeFitted_of_judge q.2
    simp only [paramsOk, Bool.and_eq_true, decide_eq_true_eq, beq_iff_eq] at form
    simp only [opcodeFitted, begun_part, Bool.and_eq_true] at fit
    refine runs_answered h q ?_
    simp only [execute, balanceGet, begun_view, begun_part, begun_xa, begun_net]
    rw [if_neg (by omega)]
  · rw [if_pos (by simp [off])]
    rfl
  · rw [if_neg (by simp [on, fit.1])]
    simp [runs, b]
  · rw [if_neg (by simp [on, fit.1])]
    simp [stands, b]
  · rw [if_neg (by simp [on, fit.1])]
    simp only [none, List.getElem?_nil]
    rfl

end Sys2Proof.Laws
end

section
/-! Pulses, the relays' coils and levels, and demand (R172–R188, R196, R200–R204). -/

namespace Sys2Proof.Laws
open Sys2Proof Sys2Proof.Machine

/-! ### Entries of a list that change in place -/

/-- A change of one entry is the entry that it gives, put in its place. -/
theorem modAt_put {α : Type} (l : List α) (i : Nat) (f : α → α) (d : α) : modAt l i f = modAt l i (fun _ => f (l.getD i d)) := by
  induction l generalizing i with
  | nil => rfl
  | cons x xs ih =>
    cases i with
    | zero => rfl
    | succ i => exact congrArg (x :: ·) (ih i)

/-- Two changes of one entry are one. -/
theorem modAt_modAt {α : Type} (l : List α) (i : Nat) (f g : α → α) : modAt (modAt l i f) i g = modAt l i (fun x => g (f x)) := by
  induction l generalizing i with
  | nil => rfl
  | cons x xs ih =>
    cases i with
    | zero => rfl
    | succ i => exact congrArg (x :: ·) (ih i)

/-! ### Pulses (R172–R175) -/

/-- A state whose clock moved on to an instant. -/
theorem reachMicros_frame (t : Nat) (s : State) : ∃ q : Sense, s.reachMicros t = { s with sense := q } ∧
    { q with modCount := s.sense.modCount, slices := s.sense.slices } = s.sense := by
  refine ⟨s.sense.reach ((t * 512 + 124) / 125), rfl, ?_⟩
  unfold Sense.reach
  split <;> rfl

@[simp] theorem auxEventAt_evidence (t src : Nat) (s : State) : (s.auxEventAt t src).evidence = s.evidence := by
  unfold State.auxEventAt
  split <;> rfl

/-- A pulse begins, on the entries that the output and its engine have. -/
theorem beginPulse_eq (o d t : Nat) (s : State) : beginPulse o d t s = ({ s with
    billing := { s.billing with pulses := modAt s.billing.pulses o (fun y =>
      { y with lateness := min (t - d) (2 ^ 32 - 1), lagSeen := y.lagSeen || decide (d < t) }) }
    sluice := { s.sluice with pulses := modAt s.sluice.pulses o (fun x =>
      { x with pulse := true, ends := t + 1000 * s.view.poWidth o, notBefore := t + 2000 * s.view.poWidth o
               polarity := bit 16 (s.view.po o) }) } } : State).auxEventAt t (3 + o) := rfl

theorem beginPulse_evidence (o d t : Nat) (s : State) : (beginPulse o d t s).evidence = s.evidence := by
  rw [beginPulse_eq, auxEventAt_evidence]

section Starts
variable {s : State} {o t : Nat}

/-- No pulse begins while the sluice is shut, during a pulse or before one width after the last. -/
theorem pulseStart_waits (w : s.sluiceOpen = false ∨ (s.sluice.pulses.getD o {}).pulse = true ∨
    t < (s.sluice.pulses.getD o {}).notBefore) : pulseStart o t s = s := by
  unfold pulseStart
  rw [if_pos]
  simp only [Bool.or_eq_true, Bool.not_eq_true', decide_eq_true_eq, or_assoc]
  exact w

variable (opened : s.sluiceOpen = true) (idle : (s.sluice.pulses.getD o {}).pulse = false)
  (rested : (s.sluice.pulses.getD o {}).notBefore ≤ t)
include opened idle rested

/-- Tail pulses come first. -/
theorem pulseStart_tail {d : Nat} {ds : List Nat} (e : (s.sluice.pulses.getD o {}).tail = d :: ds) :
    pulseStart o t s = beginPulse o d t (s.modPulse o (fun x => { x with tail := ds })) := by
  simp only [pulseStart, opened, idle, Nat.not_lt.mpr rested, decide_false, Bool.not_true, Bool.or_self, Bool.false_eq_true, if_false, e]

theorem pulseStart_none (e : (s.sluice.pulses.getD o {}).tail = []) (k : (s.billing.pulses.getD o {}).due = []) :
    pulseStart o t s = s := by
  simp only [pulseStart, opened, idle, Nat.not_lt.mpr rested, decide_false, Bool.not_true, Bool.or_self, Bool.false_eq_true, if_false, e, k]

theorem pulseStart_due {d : Nat} {ds : List Nat} (e : (s.sluice.pulses.getD o {}).tail = [])
    (k : (s.billing.pulses.getD o {}).due = d :: ds) : pulseStart o t s =
      if t < d ∨ s.view.poQty o = 0 then s
      else if (s.billing.pulses.getD o {}).converted - BitVec.ofNat 64 ds.length ≤ (s.sluice.pulses.getD o {}).lastBegun
        then s.modEnginePulse o (fun x => { x with due := ds })
      else beginPulse o d t ((s.modEnginePulse o (fun x => { x with due := ds })).modPulse o (fun x => { x with
        lastBegun := (s.billing.pulses.getD o {}).converted - BitVec.ofNat 64 ds.length, emitted := x.emitted + 1 })) := by
  simp only [pulseStart, opened, idle, Nat.not_lt.mpr rested, decide_false, Bool.not_true, Bool.or_self, Bool.false_eq_true, if_false, e, k,
    Bool.or_eq_true, decide_eq_true_eq]

end Starts

/-- Settles O33: the rule of each case of a pulse's start, and of its end, at the instant that the clock has reached. -/
theorem pulsesBeginAndEnd : Obligations.PulsesBeginAndEnd := by
  unfold Obligations.PulsesBeginAndEnd
  intro s o t h
  obtain ⟨q, r, same⟩ := reachMicros_frame t s
  have start {u : State} (e : pulseStart o t { s with sense := q } = u) (k : u.evidence = s.evidence) :
      exec (.pulseStart o t) s = .next u :=
    edge_next h (f := fun s => pulseStart o t (s.reachMicros t)) (by rw [r]; exact e) k
  dsimp only
  rw [r]
  refine ⟨by rw [same], fun w => start (pulseStart_waits w) rfl, fun opened idle rested => ⟨fun d ds e => ?_,
    fun e k => start (pulseStart_none opened idle rested e k) rfl, fun d ds e k => ⟨fun w => ?_, fun le on old => ?_,
      fun le on new => ?_⟩⟩, ?_⟩
  · refine start ((pulseStart_tail (s := { s with sense := q }) opened idle rested e).trans ?_) (auxEventAt_evidence _ _ _)
    rw [beginPulse_eq]
    simp only [State.modPulse, modAt_modAt]
    rw [modAt_put _ _ _ {}, modAt_put s.sluice.pulses _ _ {}]
    rfl
  · refine start ((pulseStart_due (s := { s with sense := q }) opened idle rested e k).trans (if_pos w)) rfl
  · refine start ((pulseStart_due (s := { s with sense := q }) opened idle rested e k).trans ?_) rfl
    rw [if_neg (by simp only [not_or]; exact ⟨by omega, on⟩), if_pos old, State.modEnginePulse, modAt_put _ _ _ {}]
  · refine start ((pulseStart_due (s := { s with sense := q }) opened idle rested e k).trans ?_) (auxEventAt_evidence _ _ _)
    rw [if_neg (by simp only [not_or]; exact ⟨by omega, on⟩), if_neg (BitVec.not_le.mpr new), beginPulse_eq]
    simp only [State.modPulse, State.modEnginePulse, modAt_modAt]
    rw [modAt_put _ _ _ {}, modAt_put s.sluice.pulses _ _ {}]
    rfl
  · refine edge_next h (f := fun s => pulseEnd o t (s.reachMicros t)) ?_ ?_
    · rw [r]
      simp only [pulseEnd, Bool.and_eq_true, decide_eq_true_eq]
      split
      · rw [State.modPulse, modAt_put _ _ _ {}]
      · rfl
    · split
      · rw [auxEventAt_evidence]
      · rfl

/-! ### Load control (R178–R183, R200, R201) -/

@[simp] theorem auxEvent_sluice (src : Nat) (s : State) : (s.auxEvent src).sluice = s.sluice := by
  unfold State.auxEvent State.auxEventAt
  split <;> rfl

theorem MovesRelays.evidence {s t : State} (h : MovesRelays s t) : t.evidence = s.evidence := by
  obtain ⟨_, _, _, rfl⟩ := h
  rfl

section Pairs
variable {p : Nat} {s : State}

/-- Outside HOLD a pair's record is written at once. -/
theorem savePair_pairs (open_ : s.sluice.hold = false) :
    (s.savePair p).sluice.pairs = modAt s.sluice.pairs p (fun x => { x with unsaved := false }) := by
  simp only [State.savePair, open_, Bool.false_eq_true, if_false]
  rfl

theorem hold_of_open (h : s.sluiceOpen = true) : s.sluice.hold = false := by
  simp only [State.sluiceOpen, Bool.and_eq_true, Bool.not_eq_true'] at h
  exact h.1.2

variable (lt : p < s.sluice.pairs.length) (h : s.sluice.hold = false)
include lt h

theorem driveCoil_pair (c : RelayCmd) (src : RelaySource) : (driveCoil p c src s).sluice.pairs.getD p {} =
    { s.sluice.pairs.getD p {} with
      coil := some c, until_ := s.micros + 1000 * s.view.lcCoil p, source := src
      operations := (s.sluice.pairs.getD p {}).operations + 1, unsaved := false
      state := if c = .toClose then .closing else .opening } := by
  simp only [driveCoil, auxEvent_sluice]
  rw [savePair_pairs (s := s.modPair p _) h]
  simp only [State.modPair, modAt_modAt]
  rw [modAt_getD_same _ _ _ _ lt]

theorem setPending_pair (c : RelayCmd) (src : RelaySource) : (setPending p c src s).sluice.pairs.getD p {} =
    if (s.sluice.pairs.getD p {}).pendingCmd.isSome then
      { s.sluice.pairs.getD p {} with
        pendingCmd := some (c, src), superseded := (s.sluice.pairs.getD p {}).superseded + 1, unsaved := false }
    else { s.sluice.pairs.getD p {} with pendingCmd := some (c, src) } := by
  simp only [setPending]
  split
  · rw [savePair_pairs (s := (s.modPair p _).modPair p _) h]
    simp only [State.modPair, modAt_modAt]
    rw [modAt_getD_same _ _ _ _ lt]
  · simp only [State.modPair]
    rw [modAt_getD_same _ _ _ _ lt]

theorem setLevel_pair (out : Nat) (pair : out / 2 = p) (on : Bool) (src : RelaySource) :
    (setLevel out on src s).sluice.pairs.getD p {} =
      if (if out % 2 = 0 then (s.sluice.pairs.getD p {}).lowerOn else (s.sluice.pairs.getD p {}).upperOn) = on
      then s.sluice.pairs.getD p {}
      else { s.sluice.pairs.getD p {} with
        lowerOn := if out % 2 = 0 then on else (s.sluice.pairs.getD p {}).lowerOn
        upperOn := if out % 2 = 1 then on else (s.sluice.pairs.getD p {}).upperOn
        operations := (s.sluice.pairs.getD p {}).operations + 1, source := src, unsaved := false } := by
  simp only [setLevel, pair]
  by_cases same : (if out % 2 = 0 then (s.sluice.pairs.getD p {}).lowerOn else (s.sluice.pairs.getD p {}).upperOn) = on
  · rw [if_pos same, if_pos same]
  · rw [if_neg same, if_neg same, auxEvent_sluice, savePair_pairs (s := s.modPair p _) h]
    simp only [State.modPair, modAt_modAt]
    rw [modAt_getD_same _ _ _ _ lt]

end Pairs

/-- A command that the sluice takes operates its pair at once. -/
theorem commandRelay_open {s : State} (in_ : s.held 0 = false) (h : s.sluiceOpen = true) (out : Nat) (c : RelayCmd)
    (src : RelaySource) : commandRelay out c src s = operateRelay out c src s := by
  rw [commandRelay, in_, h]
  rfl

/-- In coil mode a command drives the coil, or waits behind one (R178–R180). -/
theorem operateRelay_coil {p : Nat} {c : RelayCmd} {src : RelaySource} {s : State} (coil : c = .toClose ∨ c = .toOpen)
    (level : (s.sluice.pairs.getD p {}).level = false) : operateRelay (2 * p) c src s =
      if ((s.sluice.pairs.getD p {}).coil.isSome || (s.sluice.pairs.getD p {}).guarding ||
        (s.sluice.pairs.getD p {}).pendingCmd.isSome) = true
      then setPending p c src s else driveCoil p c src s := by
  unfold operateRelay
  rw [show 2 * p / 2 = p by omega, if_neg (by rw [level]; decide)]
  rcases coil with rfl | rfl <;> rfl

/-- Coil pulses and guard times begin and end by the command member of their outputs. -/
theorem relay_spec {out : Nat} (lt : out < 4) (s : State) : s.spec (idx 3 (8 + out) 2) = rwMember 4 ∧
    s.relayLocked (idx 3 (8 + out) 2) = (decide (out % 2 = 1) && !(s.sluice.pairs.getD (out / 2) {}).level) := by
  obtain rfl | rfl | rfl | rfl : out = 0 ∨ out = 1 ∨ out = 2 ∨ out = 3 := by omega
  all_goals exact ⟨rfl, rfl⟩

/-- The command word of a code. -/
theorem relayWord_code {k : Nat} (lt : k < 5) :
    field 31 24 (k * 2 ^ 24) = k ∧ k * 2 ^ 24 % 2 ^ 24 = 0 ∧ k * 2 ^ 24 < 256 ^ 4 := by
  simp only [field]
  omega

section Member
variable {out v k : Nat} {c : RelayCmd} {s : State}

/-- A command word that meets no lock is written. -/
theorem setObject_relay_free (lt : out < 4) (free : s.relayLocked (idx 3 (8 + out) 2) = false) (held : s.start.heldMask = 0) :
    setObject (idx 3 (8 + out) 2) (leBytes 4 v) s = writeMember (idx 3 (8 + out) 2) (leBytes 4 v) s := by
  obtain ⟨spec, -⟩ := relay_spec lt s
  obtain ⟨cls, inst, -⟩ := idx_fields (c := 3) (n := 8 + out) (m := 2) (by omega) (by omega) (by omega)
  exact setObject_writes (.inl (by rw [spec]; rfl)) free (by simp [State.blockProtected, spec, rwMember])
    (by simp [held, heldIn, heldBit, cls, inst, bit, show 8 + out < 12 by omega]) (by rw [spec]; exact leBytes_length 4 _)

/-- A command word of a known code. -/
theorem writeMember_relay (lt : out < 4) (code : RelayCmd.ofCode k = some c) (high : field 31 24 v = k)
    (low : v % 2 ^ 24 = 0) (small : v < 256 ^ 4) : writeMember (idx 3 (8 + out) 2) (leBytes 4 v) s =
      if relayCodeOk (s.sluice.pairs.getD (out / 2) {}).level k = true then
        (.done .ok [], commandRelay out c .host (s.modPair (out / 2) (fun x =>
          if out % 2 = 0 then { x with lastLower := BitVec.ofNat 8 k } else { x with lastUpper := BitVec.ofNat 8 k })))
      else (.done .badParam [], s) := by
  obtain ⟨cls, inst, -⟩ := idx_fields (c := 3) (n := 8 + out) (m := 2) (by omega) (by omega) (by omega)
  have number : leNat (leBytes 4 v) = v := leNat_leBytes_of_lt small
  simp only [writeMember, cls, inst, number, Nat.add_sub_cancel_left, writeRelay, high, code, low, ne_eq,
    not_true_eq_false, decide_false, Bool.false_or, Bool.not_eq_true']
  cases relayCodeOk (s.sluice.pairs.getD (out / 2) {}).level k <;> rfl

/-- In coil mode the upper output takes no command. -/
theorem setObject_relay_shut (lt : out < 4) (odd : out % 2 = 1) (level : (s.sluice.pairs.getD (out / 2) {}).level = false) :
    setObject (idx 3 (8 + out) 2) (leBytes 4 v) s = (.done .isProtected [], s) := by
  obtain ⟨spec, locked⟩ := relay_spec lt s
  have shut : s.relayLocked (idx 3 (8 + out) 2) = true := by rw [locked, odd, level]; rfl
  unfold setObject
  dsimp only
  rw [spec, shut]
  rfl

theorem relayCode_small (code : RelayCmd.ofCode k = some c) : k < 5 := by
  unfold RelayCmd.ofCode at code
  split at code <;> first | omega | cases code

end Member

@[simp] theorem begun_start (op : Nat) (r : Req) (s : State) : (begun op r s).start = s.start := by rw [begun_frame]
@[simp] theorem begun_sluice (op : Nat) (r : Req) (s : State) : (begun op r s).sluice = s.sluice := by rw [begun_frame]

theorem relay_index {out : Nat} (lt : out < 4) : idx 3 (8 + out) 2 < 65536 ∧ idx 3 (8 + out) 2 ≠ 4 := by
  unfold idx
  omega

section Command
variable {out k : Nat} {c : RelayCmd} {s : State} {port : Port} {tag : BitVec 16} (h : Settled s) (held : s.start.heldMask = 0)
  (lt : out < 4) (code : RelayCmd.ofCode k = some c)
  (q : Takes 0x02 (writeReq port tag (idx 3 (8 + out) 2) (leBytes 4 (k * 2 ^ 24))) s)
include h held lt code q

/-- A command in its pair's mode (R179, R183, R200). -/
theorem relayRow_does (free : out % 2 = 0 ∨ (s.sluice.pairs.getD (out / 2) {}).level = true)
    (mode : relayCodeOk (s.sluice.pairs.getD (out / 2) {}).level k = true) :
    edge (relayRow port tag out k) s = .next (answered 0x02 (writeReq port tag (idx 3 (8 + out) 2) (leBytes 4 (k * 2 ^ 24)))
      .ok [] (commandRelay out c .host ((begun 0x02 (writeReq port tag (idx 3 (8 + out) 2) (leBytes 4 (k * 2 ^ 24))) s).modPair
        (out / 2) (fun x =>
          if out % 2 = 0 then { x with lastLower := BitVec.ofNat 8 k } else { x with lastUpper := BitVec.ofNat 8 k })))).endEdge := by
  obtain ⟨high, low, small⟩ := relayWord_code (relayCode_small code)
  have mask := (congrArg Start.heldMask (begun_start 0x02 (writeReq port tag (idx 3 (8 + out) 2) (leBytes 4 (k * 2 ^ 24))) s)).trans held
  refine setRow_runs h q (relay_index lt).1 (relay_index lt).2 ?_
  have written := writeMember_relay (v := k * 2 ^ 24)
    (s := begun 0x02 (writeReq port tag (idx 3 (8 + out) 2) (leBytes 4 (k * 2 ^ 24))) s) lt code high low small
  rw [setObject_relay_free lt _ mask, written, if_pos]
  · rw [begun_sluice]; exact mode
  · rw [(relay_spec lt _).2, begun_sluice]
    rcases free with free | free <;> rw [free]
    · rfl
    · exact Bool.and_false _

/-- One of the other mode. -/
theorem relayRow_refuses (free : out % 2 = 0 ∨ (s.sluice.pairs.getD (out / 2) {}).level = true)
    (mode : relayCodeOk (s.sluice.pairs.getD (out / 2) {}).level k = false) :
    edge (relayRow port tag out k) s = .next (answered 0x02 (writeReq port tag (idx 3 (8 + out) 2) (leBytes 4 (k * 2 ^ 24)))
      .badParam [] (begun 0x02 (writeReq port tag (idx 3 (8 + out) 2) (leBytes 4 (k * 2 ^ 24))) s)) := by
  obtain ⟨high, low, small⟩ := relayWord_code (relayCode_small code)
  have mask := (congrArg Start.heldMask (begun_start 0x02 (writeReq port tag (idx 3 (8 + out) 2) (leBytes 4 (k * 2 ^ 24))) s)).trans held
  refine setRow_runs_quiet h q (relay_index lt).1 (relay_index lt).2 ?_ (begun_evidence (op := 0x02))
  have written := writeMember_relay (v := k * 2 ^ 24)
    (s := begun 0x02 (writeReq port tag (idx 3 (8 + out) 2) (leBytes 4 (k * 2 ^ 24))) s) lt code high low small
  rw [setObject_relay_free lt _ mask, written, if_neg]
  · rw [begun_sluice, Bool.not_eq_true]; exact mode
  · rw [(relay_spec lt _).2, begun_sluice]
    rcases free with free | free <;> rw [free]
    · rfl
    · exact Bool.and_false _

omit held code in
theorem relayRow_locked (odd : out % 2 = 1) (level : (s.sluice.pairs.getD (out / 2) {}).level = false) :
    edge (relayRow port tag out k) s = .next (answered 0x02 (writeReq port tag (idx 3 (8 + out) 2) (leBytes 4 (k * 2 ^ 24)))
      .isProtected [] (begun 0x02 (writeReq port tag (idx 3 (8 + out) 2) (leBytes 4 (k * 2 ^ 24))) s)) := by
  refine setRow_runs_quiet h q (relay_index lt).1 (relay_index lt).2 (setObject_relay_shut lt odd ?_)
    (begun_evidence (op := 0x02))
  rw [begun_sluice]
  exact level

end Command

/-- A guard time that has run ends, and what waits behind it goes on. -/
theorem guardTimeEnd_runs {p : Nat} {s : State} (guarding : (s.sluice.pairs.getD p {}).guarding = true)
    (due : (s.sluice.pairs.getD p {}).until_ ≤ s.micros) :
    guardTimeEnd p s = runPending p (s.modPair p (fun x => { x with guarding := false })) := by
  rw [guardTimeEnd, if_pos (by simp only [guarding, due, decide_true, Bool.and_self])]

/-- Settles O34: commands by the pair's mode, and the ends of the two times. -/
theorem relaysOperate : Obligations.RelaysOperate := by
  unfold Obligations.RelaysOperate
  intro s h
  refine ⟨fun port tag p lt held => ?_, fun p c src lt in_ opened => ⟨fun coil level => ⟨fun idle rest none => ?_, fun busy => ?_⟩,
    fun level => ⟨?_, ?_⟩⟩, fun p c coil same => ?_, fun p none => ?_, fun p w => ?_, fun p guarding due lt => ⟨fun w => ?_,
      fun c src pending idle opened => ?_⟩⟩
  · have low : 2 * p / 2 = p := by omega
    have high : (2 * p + 1) / 2 = p := by omega
    refine ⟨fun level => ⟨fun q => ?_, fun q => ?_, fun q => ?_, fun q => ?_, fun q => ?_⟩,
      fun level out pair => ⟨fun q => ?_, fun q => ?_, fun q => ?_, fun q => ?_⟩⟩
    · have e := relayRow_does (c := .toClose) h held (by omega) rfl q (.inl (by omega)) (by rw [low, level]; rfl)
      rwa [low] at e
    · have e := relayRow_does (c := .toOpen) h held (by omega) rfl q (.inl (by omega)) (by rw [low, level]; rfl)
      rwa [low] at e
    · exact relayRow_refuses (c := .on) h held (by omega) rfl q (.inl (by omega)) (by rw [low, level]; rfl)
    · exact relayRow_refuses (c := .off) h held (by omega) rfl q (.inl (by omega)) (by rw [low, level]; rfl)
    · exact relayRow_locked (k := 1) h (by omega) q (by omega) (by rw [high]; exact level)
    all_goals
      subst pair
      have small : out < 4 := by omega
    · exact relayRow_does (c := .on) h held small rfl q (.inr level) (by rw [level]; rfl)
    · exact relayRow_does (c := .off) h held small rfl q (.inr level) (by rw [level]; rfl)
    · exact relayRow_refuses (c := .toClose) h held small rfl q (.inr level) (by rw [level]; rfl)
    · exact relayRow_refuses (c := .toOpen) h held small rfl q (.inr level) (by rw [level]; rfl)
  · rw [commandRelay_open in_ opened, operateRelay_coil coil level, if_neg (by rw [idle, rest, none]; decide)]
    exact driveCoil_pair lt (hold_of_open opened) c src
  · rw [commandRelay_open in_ opened, operateRelay_coil coil level, if_pos]
    · exact setPending_pair lt (hold_of_open opened) c src
    · rcases busy with busy | busy
      · rw [Option.isSome_iff_ne_none.mpr busy]; rfl
      · simp only [busy, Bool.or_true, Bool.true_or]
  · rw [commandRelay_open in_ opened, operateRelay, show 2 * p / 2 = p by omega, if_pos level]
    refine (setLevel_pair lt (hold_of_open opened) (2 * p) (by omega) true src).trans ?_
    simp only [show 2 * p % 2 = 0 by omega, if_true, Nat.zero_ne_one, if_false]
  · rw [commandRelay_open in_ opened, operateRelay, show (2 * p + 1) / 2 = p by omega, if_pos level]
    refine (setLevel_pair lt (hold_of_open opened) (2 * p + 1) (by omega) false src).trans ?_
    simp only [show (2 * p + 1) % 2 = 1 by omega, if_true, Nat.one_ne_zero, if_false]
    cases (s.sluice.pairs.getD p {}).upperOn <;> rfl
  · refine edge_next h (f := coilPulseEnd p) ?_ ?_
    · simp only [coilPulseEnd, coil, same]
      rfl
    · split
      · rfl
      · exact auxEventAt_evidence _ _ _
  · refine edge_next h (f := coilPulseEnd p) ?_ rfl
    simp only [coilPulseEnd, none]
  · refine edge_next h (f := guardTimeEnd p) ?_ rfl
    rw [guardTimeEnd, if_neg]
    simp only [Bool.and_eq_true, decide_eq_true_eq]
    rintro ⟨guarding, due⟩
    rcases w with w | w
    · rw [w] at guarding; cases guarding
    · omega
  · refine edge_next h (f := guardTimeEnd p) ?_ rfl
    rw [guardTimeEnd_runs guarding due]
    have same : (s.modPair p (fun x => { x with guarding := false })).sluice.pairs.getD p {} =
        { s.sluice.pairs.getD p {} with guarding := false } := modAt_getD_same _ _ _ _ lt
    simp only [runPending, same]
    cases pending : (s.sluice.pairs.getD p {}).pendingCmd with
    | none => rfl
    | some x =>
      refine if_pos ?_
      rcases w with w | w | w
      · rw [pending] at w; cases w
      · rw [Option.isSome_iff_ne_none.mpr w]; rfl
      · have shut : (s.modPair p (fun x => { x with guarding := false })).sluiceOpen = false := w
        rw [shut]; simp only [Bool.not_false, Bool.or_true]
  · have same : (s.modPair p (fun x => { x with guarding := false })).sluice.pairs.getD p {} =
        { s.sluice.pairs.getD p {} with guarding := false } := modAt_getD_same _ _ _ _ lt
    have opens : (s.modPair p (fun x => { x with guarding := false })).sluiceOpen = true := opened
    have run : guardTimeEnd p s = driveCoil p c src ((s.modPair p (fun x => { x with guarding := false })).modPair p
        (fun x => { x with pendingCmd := none })) := by
      rw [guardTimeEnd_runs guarding due]
      simp only [runPending, same, pending, idle, opens]
      rfl
    have free : ((s.modPair p (fun x => { x with guarding := false })).modPair p
        (fun x => { x with pendingCmd := none })).sluice.hold = false := hold_of_open (s := s) opened
    have short : p < ((s.modPair p (fun x => { x with guarding := false })).modPair p
        (fun x => { x with pendingCmd := none })).sluice.pairs.length := by
      simpa only [State.modPair, modAt_length] using lt
    have drives := driveCoil_pair short free c src
    refine ⟨_, edge_next h run (MovesRelays.driveCoil _ _ _ _).evidence, drives.trans ?_⟩
    simp only [State.modPair, modAt_modAt]
    rw [modAt_getD_same _ _ _ _ lt]
    rfl

/-! ### Demand (R182–R187, R194) -/

/-- A step over a list that changes something at one of its members only. -/
theorem foldl_single {α : Type} {f : State → α → State} {s : State} {x : α} (after : ∀ k, k ≠ x → f (f s x) k = f s x) :
    ∀ {l : List α}, x ∈ l → l.Nodup → (∀ k ∈ l, k ≠ x → f s k = s) → l.foldl f s = f s x := by
  intro l
  induction l with
  | nil => intro h; cases h
  | cons y ys ih =>
    intro mem nodup before
    rw [List.nodup_cons] at nodup
    obtain ⟨fresh, rest⟩ := nodup
    by_cases e : y = x
    · subst e
      have stays : ∀ l : List α, y ∉ l → l.foldl f (f s y) = f s y := by
        intro l
        induction l with
        | nil => intro _; rfl
        | cons k ks ihk =>
          intro h
          simp only [List.mem_cons, not_or] at h
          rw [List.foldl_cons, after k (Ne.symm h.1), ihk h.2]
      exact stays ys fresh
    · rw [List.foldl_cons, before y List.mem_cons_self e]
      have later : x ∈ ys := (List.mem_cons.mp mem).resolve_left fun k => e k.symm
      exact ih later rest fun k hk => before k (List.mem_cons_of_mem _ hk)

theorem tab_getD {α : Type} {n k : Nat} (f : Nat → α) (d : α) (lt : k < n) : (tab n f).getD k d = f k := by
  simp [tab, lt]

section Windows
variable {s : State} {n a : Nat} {w : DemandValue} {ws : List (Nat × DemandValue)}

theorem publishDemand_none (e : (s.billing.services.getD n {}).demand.formed = []) : publishDemand n s = s := by
  simp only [publishDemand, e]

theorem publishDemand_waits (e : (s.billing.services.getD n {}).demand.formed = (a, w) :: ws)
    (k : ∃ c ∈ s.billing.latch.captured, c.boundary.b ≤ a) : publishDemand n s = s := by
  have held : s.billing.latch.captured.any (fun c => decide (c.boundary.b ≤ a)) = true := by simpa using k
  simp only [publishDemand, e, held, if_true]

/-- The demand state of a service once its oldest formed window has been published (R186, R194). -/
def demandPublished (s : State) (n : Nat) (w : DemandValue) (ws : List (Nat × DemandValue)) (d : Demand) : Demand :=
  { d with
    formed := ws, last := { w with tripped := s.overLimit n w && !(s.billing.services.getD n {}).demand.inRun }
    inRun := s.overLimit n w
    maxima := tab 4 (fun k => (((s.billing.services.getD n {}).demand.maxima.getD k {}).next
      (w.values.getD k 0) w.endSec w.partialFlag)) }

theorem publishDemand_takes (e : (s.billing.services.getD n {}).demand.formed = (a, w) :: ws)
    (k : ∀ c ∈ s.billing.latch.captured, a < c.boundary.b) : ∃ b : Billing, b = { s.billing with
        services := modAt s.billing.services n (fun x => { x with demand := demandPublished s n w ws x.demand }) } ∧
      publishDemand n s = if (s.overLimit n w && !(s.billing.services.getD n {}).demand.inRun) = true
        then commandRelay (2 * s.view.limitRelay n) .toOpen .limit { s with billing := b } else { s with billing := b } := by
  have free : s.billing.latch.captured.any (fun c => decide (c.boundary.b ≤ a)) = false := by simpa using k
  refine ⟨_, rfl, ?_⟩
  simp only [publishDemand, e, free, Bool.false_eq_true, if_false]
  rfl

end Windows

/-- What a saved pair leaves of the sluice. -/
theorem savePair_sluice (p : Nat) (s : State) : (s.savePair p).sluice =
    { s.sluice with pairs := modAt s.sluice.pairs p (fun x => { x with unsaved := s.sluice.hold }) } := by
  unfold State.savePair
  cases s.sluice.hold <;> rfl

/-- Of the state a command to a relay reads the sluice, the start, the clock and the supply. -/
theorem commandRelay_sluice_congr (out : Nat) (c : RelayCmd) (src : RelaySource) (s : State) (b : Billing) :
    (commandRelay out c src { s with billing := b }).sluice = (commandRelay out c src s).sluice := by
  have level (on : Bool) : (setLevel out on src { s with billing := b }).sluice = (setLevel out on src s).sluice := by
    simp only [setLevel, apply_ite State.sluice, auxEvent_sluice, savePair_sluice]
    rfl
  have pend : (setPending (out / 2) c src { s with billing := b }).sluice = (setPending (out / 2) c src s).sluice := by
    simp only [setPending, apply_ite State.sluice, savePair_sluice]
    rfl
  have drive : (driveCoil (out / 2) c src { s with billing := b }).sluice = (driveCoil (out / 2) c src s).sluice := by
    simp only [driveCoil, auxEvent_sluice, savePair_sluice]
    rfl
  have operate : (operateRelay out c src { s with billing := b }).sluice = (operateRelay out c src s).sluice := by
    unfold operateRelay
    dsimp only
    split
    · cases c
      · rfl
      · rfl
      · exact level true
      · exact level false
    · split
      · rfl
      · split
        · exact pend
        · exact drive
  have held : ({ s with billing := b } : State).held 0 = s.held 0 := rfl
  have opened : ({ s with billing := b } : State).sluiceOpen = s.sluiceOpen := rfl
  simp only [commandRelay, held, opened]
  split
  · rfl
  · split
    · exact operate
    · rfl

/-- Four entries of one event keep their order, the first before its extensions (R498, R503). -/
theorem joinEdge_extended (q : List Raised) {t code : Nat} {p p₁ p₂ p₃ : Bytes} {cls : Nat} {alarm : Bool} (plain : 4 < code) :
    joinEdge q [{ time := t, code := code, payload := p, cls := cls, alarm := alarm },
        { time := t, code := code, payload := p₁, ext := true }, { time := t, code := code, payload := p₂, ext := true },
        { time := t, code := code, payload := p₃, ext := true }] =
      q ++ [{ time := t, code := code, payload := p, cls := cls, alarm := alarm },
        { time := t, code := code, payload := p₁, ext := true, sub := 1 },
        { time := t, code := code, payload := p₂, ext := true, sub := 2 },
        { time := t, code := code, payload := p₃, ext := true, sub := 3 }] := by
  have no : ¬ code ≤ 4 := by omega
  simp [joinEdge, Raised.crystal, no, sortRaised, insertRaised, Raised.before, numberRaised]

/-- The entry of a demand reset and its three extensions (R503, R508). -/
def demandResetEntries (n : Nat) (ms : List MaxDemand) (s : State) : List Raised :=
  let old := fun (k : Nat) => leBytes 8 (ms.getD k {}).value
  let cls := s.alarmClass 0x44 (BitVec.ofNat 8 n).toNat
  { time := s.ticks, code := 0x44, payload := BitVec.ofNat 8 n :: zeros 7 ++ old 0, cls := cls.getD 0, alarm := cls.isSome } ::
    [2, 1, 3].map fun k => { time := s.ticks, code := 0x44, payload := leBytes 4 s.nextEntry ++ old k, ext := true }

theorem noteDemandReset_eq (n : Nat) (ms : List MaxDemand) (s : State) : noteDemandReset n ms s =
    { s with evidence := { s.evidence with raised := s.evidence.raised ++ demandResetEntries n ms s } } := by
  simp only [noteDemandReset, State.raise, State.raiseAt, State.raiseExt, State.raiseEntry, List.foldl_cons, List.foldl_nil,
    List.append_assoc, List.cons_append, List.nil_append]
  rfl

/-- The four keep their order. -/
theorem joinEdge_demandReset (q : List Raised) (n : Nat) (ms : List MaxDemand) (s : State) : ∃ es,
    joinEdge q (demandResetEntries n ms s) = q ++ es ∧
      es.map (fun e => (e.code, e.ext)) = [(0x44, false), (0x44, true), (0x44, true), (0x44, true)] :=
  ⟨_, joinEdge_extended q (by decide), rfl⟩

/-- The member with its key. -/
theorem writeDemandReset_key (n : Nat) (s : State) : ∃ l, writeDemandReset n 0x4D52 s = (.ok, { s with
    evidence := { s.evidence with
      raised := s.evidence.raised ++ demandResetEntries n (s.billing.services.getD n {}).demand.maxima s }
    billing := { s.billing with
      services := modAt s.billing.services n (fun x => { x with demand := { x.demand with maxima := List.replicate 4 {} } })
      latch := l } }) := by
  rw [writeDemandReset, if_neg (by decide)]
  simp only [noteDemandReset_eq]
  exact ⟨_, rfl⟩

/-- A reply touches the link only. -/
theorem answered_billing (op : Nat) (r : Req) (st : Status) (ps : Bytes) (s : State) :
    (answered op r st ps s).billing = s.billing := by
  have sends (x : Reply) : (s.send x).billing = s.billing := by
    obtain ⟨l, e⟩ := send_frame (s := s) x
    rw [e]
  exact sends _

section Reset
variable {n : Nat} {s : State}

/-- The demand reset member of a service (R187). -/
theorem setObject_demandReset (lt : n < 16) (v : BitVec 16) : setObject (idx 2 n 15) (leBytes 2 v.toNat) s =
    answerOf (writeDemandReset n v.toNat s) := by
  obtain ⟨cls, inst, mem⟩ := idx_fields (c := 2) (n := n) (m := 15) (by omega) (by omega) (by omega)
  have fit : fitted s.part (idx 2 n 15) = true := by simp [fitted, cls]
  have own (b : Bool) : serviceSpec b n 15 = rwMember 2 := by
    rw [serviceSpec, if_neg (by simp; omega)]
    rfl
  have spec : s.spec (idx 2 n 15) = rwMember 2 := by
    simp only [State.spec, ownSpec, cls, inst, mem, fit, own]
    rfl
  rw [setObject_writes (.inl (by rw [spec]; rfl)) (by simp [State.relayLocked, cls])
    (by simp [State.blockProtected, spec, rwMember]) (by simp [heldIn, heldBit, cls]) (by rw [spec]; exact leBytes_length 2 _)]
  have number : leNat (leBytes 2 v.toNat) = v.toNat := leNat_leBytes_of_lt v.isLt
  simp only [writeMember, cls, inst, number]

end Reset

/-- Settles O35: the sub-interval's end, the window's publication and the demand reset, each by its function. -/
theorem demandIsFormed : Obligations.DemandIsFormed := by
  unfold Obligations.DemandIsFormed
  intro s h
  refine ⟨?_, fun none => ?_, fun n a w ws lt services e others => ⟨fun waits => ?_, fun free => ?_⟩,
    fun port tag n v lt => ?_⟩
  · refine edge_next h (f := demandBoundary) ?_ ?_
    · have same : (s.sampling && decide (s.sec % s.view.demandSub = 0) &&
          !s.billing.subEnds.any (fun e => e.strobe.isNone && e.tick == s.sec * tps)) = true ↔
          s.sense.connected = true ∧ s.firstRaw * 256 < s.sense.modCount.toNat ∧ s.sec % s.view.demandSub = 0 ∧
            ¬ s.billing.subEnds.any (fun e => e.strobe.isNone && e.tick == s.sec * tps) = true := by
        simp only [State.sampling, Bool.and_eq_true, decide_eq_true_eq, Bool.not_eq_true', Bool.not_eq_true, and_assoc]
      simp only [demandBoundary, same]
    · split <;> rfl
  · refine edge_next h (f := fun s => (List.range 16).foldl (fun s n => publishDemand n s) s) ?_ rfl
    refine List.foldlRecOn (motive := fun t => t = s) _ _ rfl ?_
    rintro _ rfl k hk
    exact publishDemand_none (none k (List.mem_range.mp hk))
  · refine edge_next h (f := fun s => (List.range 16).foldl (fun s n => publishDemand n s) s) ?_ rfl
    refine List.foldlRecOn (motive := fun t => t = s) _ _ rfl ?_
    rintro _ rfl k hk
    by_cases same : k = n
    · subst same; exact publishDemand_waits e waits
    · exact publishDemand_none (others k (List.mem_range.mp hk) same)
  · obtain ⟨b, eb, run⟩ := publishDemand_takes e free
    have moves : MovesRelays { s with billing := b } (publishDemand n s) := by
      rw [run]
      split
      · exact .commandRelay _ _ _ _
      · exact .refl _
    have billing : (publishDemand n s).billing = b := by
      obtain ⟨_, _, _, e⟩ := moves
      rw [e]
    have own : b.services.getD n {} = { s.billing.services.getD n {} with
        demand := demandPublished s n w ws (s.billing.services.getD n {}).demand } := by
      rw [eb]
      exact modAt_getD_same _ _ _ _ (by omega)
    have other {k : Nat} (ne : k ≠ n) : b.services.getD k {} = s.billing.services.getD k {} := by
      rw [eb]
      exact modAt_getD_other _ _ _ _ ne
    have whole : (List.range 16).foldl (fun s n => publishDemand n s) s = publishDemand n s := by
      refine foldl_single (f := fun s n => publishDemand n s) (x := n) (fun k ne => ?_) (List.mem_range.mpr lt)
        List.nodup_range fun k hk ne => publishDemand_none (others k (List.mem_range.mp hk) ne)
      by_cases small : k < 16
      · exact publishDemand_none (by rw [billing, other ne]; exact others k small ne)
      · refine publishDemand_none ?_
        rw [billing, other ne, List.getD_eq_default _ _ (by omega)]
    refine ⟨_, edge_next h (f := fun s => (List.range 16).foldl (fun s n => publishDemand n s) s) whole moves.evidence, ?_⟩
    rw [billing, own]
    refine ⟨rfl, rfl, fun k four => ?_, fun trip => ?_, fun trip => ?_, ?_⟩
    · simp only [demandPublished]
      rw [tab_getD _ _ four, MaxDemand.next]
      split <;> simp only [max_def] <;> split <;> first | rfl | omega
    · rw [run, if_pos trip]
      exact commandRelay_sluice_congr _ _ _ _ _
    · rw [run, if_neg (by rw [trip]; decide)]
      exact ⟨rfl, rfl⟩
    · obtain ⟨_, _, _, e⟩ := moves
      rw [e]
      exact ⟨rfl, rfl⟩
  · dsimp only
    intro q
    have index : idx 2 n 15 < 65536 ∧ idx 2 n 15 ≠ 4 := by unfold idx; omega
    refine ⟨fun other => ?_, fun key services => ?_⟩
    · refine setRow_runs_quiet h q index.1 index.2 ?_ (begun_evidence (op := 0x02))
      rw [setObject_demandReset lt, writeDemandReset, if_pos]
      · rfl
      · exact fun e => other (BitVec.eq_of_toNat_eq e)
    · subst key
      obtain ⟨l, e⟩ := writeDemandReset_key n (begun 0x02 (writeReq port tag (idx 2 n 15) (leBytes 2 (0x4D52 : BitVec 16).toNat)) s)
      have none : (begun 0x02 (writeReq port tag (idx 2 n 15) (leBytes 2 (0x4D52 : BitVec 16).toNat)) s).evidence.raised = [] :=
        begun_settled h
      have billing : (begun 0x02 (writeReq port tag (idx 2 n 15) (leBytes 2 (0x4D52 : BitVec 16).toNat)) s).billing = s.billing := by
        rw [begun_frame]
      have queue : (begun 0x02 (writeReq port tag (idx 2 n 15) (leBytes 2 (0x4D52 : BitVec 16).toNat)) s).evidence.queue =
          s.evidence.queue := by rw [begun_evidence]
      rw [none, List.nil_append, billing] at e
      refine ⟨_, setRow_runs h q index.1 index.2 (st := .ok) (ps := [])
        ((setObject_demandReset lt _).trans (congrArg answerOf e)), ?_⟩
      rw [(endEdge_frame _).2.2.2.1, endEdge_queue, endEdge_link, answered_evidence, answered_billing]
      dsimp only
      obtain ⟨es, join, codes⟩ := joinEdge_demandReset s.evidence.queue n (s.billing.services.getD n {}).demand.maxima
        (begun 0x02 (writeReq port tag (idx 2 n 15) (leBytes 2 (0x4D52 : BitVec 16).toNat)) s)
      refine ⟨?_, fun k other => ?_, ?_, answered_link_congr rfl rfl⟩
      · rw [modAt_getD_same _ _ _ _ (by omega)]
      · rw [modAt_getD_other _ _ _ _ other]
      · rw [queue, join, List.drop_left, codes]

end Sys2Proof.Laws
end

section
/-! The engines and the sluice: heartbeats (R308–R310, R330, R341), verdicts (R309, R311, R316, R326), claims (R313–R316),
commands under the held claim and RELEASE (R176, R317, R323, R441). -/

namespace Sys2Proof.Laws
open Sys2Proof Sys2Proof.Machine

/-! ### Commands under the held claim (R313, R317, R441) -/

/-- A change of an entry that leaves it as it is. -/
theorem modAt_self {α : Type} {l : List α} {i : Nat} {f : α → α} {d : α} (h : f (l.getD i d) = l.getD i d) : modAt l i f = l := by
  induction l generalizing i with
  | nil => rfl
  | cons x xs ih =>
    cases i with
    | zero => exact congrArg (· :: xs) h
    | succ i => exact congrArg (x :: ·) (ih h)

/-- A command under the held claim is obeyed. -/
theorem sluiceCommand_held (c : SluiceCmd) (s : State) : sluiceCommand s.sluice.heldClaim c s = obeySluice c s :=
  if_neg (not_not.mpr rfl)

/-- In HOLD no pulse is begun (R316). -/
theorem pulseCommand_shut (o n : Nat) {s : State} (h : s.sluice.hold = true) : pulseCommand o n s = s := by
  have shut : s.sluiceOpen = false := by simp [State.sluiceOpen, h]
  simp only [pulseCommand, shut, Bool.not_false, Bool.true_or, if_true]

/-! ### RELEASE (R316, R323) -/

/-- An engine that stands down leaves the other engines, the billing engine's number and the takeover as they are. -/
theorem standDown_frame (e : Nat) (s : State) : ∃ x, standDown e s = { s with engines := x } ∧
    x.active = s.engines.active ∧ x.takeover = s.engines.takeover ∧
    ∀ i, i ≠ e → x.engines.getD i {} = s.engines.engines.getD i {} := by
  have tested : ∃ x, underTest e s = { s with engines := x } ∧
      x.active = s.engines.active ∧ x.takeover = s.engines.takeover ∧
      ∀ i, i ≠ e → x.engines.getD i {} = s.engines.engines.getD i {} := by
    unfold underTest
    dsimp only
    split
    · exact ⟨_, rfl, rfl, rfl, fun i ne => modAt_getD_other _ _ _ _ ne⟩
    · exact ⟨_, rfl, rfl, rfl, fun i ne => modAt_getD_other _ _ _ _ ne⟩
  unfold standDown
  split <;> first | exact tested | exact ⟨_, rfl, rfl, rfl, fun _ _ => rfl⟩

/-- The billing engine once a takeover has ended (R332, R342). -/
def tookOver (s : State) (k : Takeover) (micros deepest : Nat) (x : Engine) : Engine :=
  if k.survivor = s.engines.active then { x with role := .active, read := none }
  else { ({ x with role := .active, read := none } : Engine).count 0 with
    lastTakeover := takeoverRecord k s.sluice.heldClaim micros deepest }

theorem passBilling_frame (k : Takeover) (micros deepest : Nat) {s : State} (lt : k.survivor < 2)
    (two : s.engines.engines.length = 2) : ∃ x, passBilling k micros deepest s =
      { s with engines := x, sluice := { s.sluice with hold := false } } ∧ x.active = k.survivor ∧ x.takeover = none ∧
      x.engines.getD k.survivor {} = tookOver s k micros deepest (s.engine k.survivor) := by
  have own : (modAt s.engines.engines k.survivor (tookOver s k micros deepest)).getD k.survivor {} =
      tookOver s k micros deepest (s.engine k.survivor) := modAt_getD_same _ _ _ _ (by omega)
  have other : k.survivor ≠ otherEngine k.survivor := by unfold otherEngine; omega
  unfold passBilling
  extract_lets record renewed _ _ t u o
  have tu : u = { s with
      engines := { s.engines with
        engines := modAt s.engines.engines k.survivor (tookOver s k micros deepest), active := k.survivor, takeover := none
        digests := none, mirror := none, arbitration := none, agreed := [none, none] }
      sluice := { s.sluice with hold := false } } := rfl
  clear_value u
  subst tu
  split
  · exact ⟨_, rfl, rfl, rfl, own⟩
  · obtain ⟨x, e, active, takeover, same⟩ := standDown_frame o { s with
      engines := { s.engines with
        engines := modAt s.engines.engines k.survivor (tookOver s k micros deepest), active := k.survivor, takeover := none
        digests := none, mirror := none, arbitration := none, agreed := [none, none] }
      sluice := { s.sluice with hold := false } }
    exact ⟨x, e, active, takeover, (same _ other).trans own⟩

/-- No sample of the ring is left to reckon for a survivor that has reckoned as far as the live state. -/
theorem catchUp_none {a b : Nat} : ∀ {l : List RingFrame} {s : State}, (∀ f ∈ l, f.strobe < a + 1223) → catchUp a b l s = s
  | [], _, _ => rfl
  | f :: l, s, h => by
    have no : ¬ a + 1223 ≤ f.strobe := Nat.not_le.mpr (h f List.mem_cons_self)
    simp only [catchUp, catchUp_none (fun x m => h x (List.mem_cons_of_mem _ m)), no, decide_false, Bool.false_and,
      Bool.false_eq_true, if_false]

/-- The pairs of a sluice whose commands none wait for the end of HOLD. -/
theorem runWaiting_none {s : State} (h : ∀ p, p < 2 → (s.sluice.pairs.getD p {}).waiting = [] ∧
    (s.sluice.pairs.getD p {}).unsaved = false ∧ (s.sluice.pairs.getD p {}).pendingCmd = none) : runWaiting s = s := by
  refine List.foldlRecOn (motive := fun t => t = s) (List.range 2) _ rfl ?_
  intro t e p hp
  rw [e]
  obtain ⟨waiting, unsaved, pending⟩ := h p (List.mem_range.mp hp)
  have same : State.modPair p (fun x => { x with waiting := [] }) s = s := by
    have none (x : RelayPair) (e : x.waiting = []) : { x with waiting := [] } = x := by rw [← e]
    rw [State.modPair, modAt_self (none _ waiting)]
  simp only [unsaved, waiting, Bool.false_eq_true, if_false, same, List.foldl_nil, runPending, pending]

/-- Behind a takeover the held reads run; of what no held read is, no more than its replies are sent. -/
theorem runHeld_none {s : State} (h : ∀ c ∈ s.link.outstanding, ∀ r op code, c.work ≠ .heldRead r op code) :
    ∃ l, runHeld s = { s with link := l } ∧ l.irqPending = s.link.irqPending := by
  refine List.foldlRecOn (motive := fun t => ∃ l, t = { s with link := l } ∧ l.irqPending = s.link.irqPending)
    s.link.outstanding _ ⟨_, rfl, rfl⟩ ?_
  rintro _ ⟨l, rfl, irq⟩ c hc
  have plain := h c hc
  split
  · next r op code e => exact absurd e (plain r op code)
  · exact ⟨_, rfl, irq⟩

/-- A flicker meter's restart touches the analysis only. -/
theorem settleMeters_frame (s : State) : ∃ x, settleMeters s = { s with xa := x } := by
  unfold settleMeters
  split
  · exact ⟨_, rfl⟩
  · exact ⟨_, rfl⟩

/-- The billing state with which a survivor of mirror mode goes on (R323). -/
theorem takeUpBilling_mirror {k : Takeover} {s : State} (source : k.source = 0) (record : k.record = none)
    (done : ∀ f ∈ s.engines.ring, f.strobe < s.billing.stamp + 1224) : takeUpBilling k s = { s with
      billing := if k.survivor = s.engines.active then s.billing else s.following (s.ownBilling k.survivor) } := by
  unfold takeUpBilling
  rw [if_neg (by omega), record]
  exact catchUp_none fun f hf => by have := done f hf; omega

/-- Outside HOLD the waiting commands run and the waiting writes are made, once the device runs (R317). -/
theorem endOfHold (u : State) (pairs : ∀ p, p < 2 → (u.sluice.pairs.getD p {}).waiting = [] ∧
    (u.sluice.pairs.getD p {}).unsaved = false ∧ (u.sluice.pairs.getD p {}).pendingCmd = none) (left : u.sluice.hold = false) :
    (if u.sluiceOpen = true then runWrites (runWaiting u) else u) =
      if u.ready = true ∧ u.power.warning = false then runWrites u else u := by
  rw [runWaiting_none pairs]
  simp only [State.sluiceOpen, left, Bool.not_false, Bool.and_true, Bool.and_eq_true, Bool.not_eq_true']

/-- A mirror-mode RELEASE, up to the waiting writes. -/
theorem release_mirror {k : Takeover} {s : State} (d : Nat) (e : s.engines.takeover = some k) (stage : k.stage ≠ .verdict)
    (warden : s.sluice.wardenHolds = false) (mirror : s.engines.split = false) (source : k.source = 0)
    (record : k.record = none) (lt : k.survivor < 2) (two : s.engines.engines.length = 2)
    (pairs : ∀ p, p < 2 → (s.sluice.pairs.getD p {}).waiting = [] ∧ (s.sluice.pairs.getD p {}).unsaved = false ∧
      (s.sluice.pairs.getD p {}).pendingCmd = none)
    (done : ∀ f ∈ s.engines.ring, f.strobe < s.billing.stamp + 1224) : ∃ x y, x.active = k.survivor ∧ x.takeover = none ∧
      x.engines.getD k.survivor {} = tookOver s k (s.micros - k.at_) d (s.engine k.survivor) ∧
      let u := { s with
        billing := if k.survivor = s.engines.active then s.billing else s.following (s.ownBilling k.survivor)
        xa := y, engines := x, sluice := { s.sluice with hold := false }
        link := { s.link with irqPending := s.link.irqPending ||| 16#12 } }
      release s.sluice.heldClaim d s = if s.ready = true ∧ s.power.warning = false then runWrites u else u := by
  have judged : (k.stage == .verdict || s.sluice.wardenHolds) = false := by simp [stage, warden]
  unfold release
  rw [if_neg (not_not.mpr rfl), e]
  simp only [judged, Bool.false_eq_true, if_false, takeUpBilling_mirror source record done, mirror]
  obtain ⟨y, ey⟩ := settleMeters_frame { s with
    billing := if k.survivor = s.engines.active then s.billing else s.following (s.ownBilling k.survivor) }
  rw [ey]
  obtain ⟨x, ex, active, takeover, own⟩ := passBilling_frame k (s.micros - k.at_) d (s := { s with
    billing := if k.survivor = s.engines.active then s.billing else s.following (s.ownBilling k.survivor), xa := y }) lt two
  refine ⟨x, y, active, takeover, own, ?_⟩
  have micros : ({ s with
    billing := if k.survivor = s.engines.active then s.billing else s.following (s.ownBilling k.survivor)
    xa := y } : State).micros = s.micros := rfl
  rw [micros, ex]
  exact endOfHold _ pairs rfl

/-- A RELEASE, and the held reads that run once it has ended the takeover. -/
theorem release_next {claim : BitVec 16} {d : Nat} {s t u : State} (h : Settled s) (e : release claim d s = u)
    (f : (if (s.engines.takeover.isSome && u.engines.takeover.isNone) = true then runHeld u else u) = t)
    (k : t.evidence = s.evidence) : exec (.release claim d) s = .next t := by
  refine edge_next h (f := fun s => let s' := release claim d s
    if s.engines.takeover.isSome && s'.engines.takeover.isNone then runHeld s' else s') ?_ k
  dsimp only
  rw [e]
  exact f

/-- Settles O46: the commands one by one, and the RELEASE of mirror mode. -/
theorem commandsUnderTheHeldClaim : Obligations.CommandsUnderTheHeldClaim := by
  unfold Obligations.CommandsUnderTheHeldClaim
  intro s h
  have obeys {c : SluiceCmd} {t : State} (e : obeySluice c s = t) (k : t.evidence = s.evidence) :
      exec (.sluiceCommand s.sluice.heldClaim c) s = .next t := edge_next h ((sluiceCommand_held c s).trans e) k
  refine ⟨fun a b hold own => ?_, fun a b free own => ?_, fun a b foreign => ?_, obeys rfl rfl, fun o n hold => ?_,
    fun d k e waits => ?_, fun none d => ?_, fun d k e stage warden mirror source record lt two plain pairs done => ?_⟩
  · exact obeys (by simp only [obeySluice, billingWrite, own, hold]; rfl) rfl
  · exact obeys (by simp only [obeySluice, billingWrite, own, free]; rfl) rfl
  · refine edge_ends h (f := sluiceCommand s.sluice.heldClaim (.write a b)) ?_
    rw [sluiceCommand_held]
    simp only [obeySluice, billingWrite, foreign]
    rfl
  · refine obeys ?_ rfl
    rw [obeySluice]
    split
    · exact pulseCommand_shut _ _ hold
    · rfl
  · have stays : release s.sluice.heldClaim d s = s := by
      have judged : (k.stage == .verdict || s.sluice.wardenHolds) = true := by
        rcases waits with w | w <;> simp [w]
      unfold release
      rw [if_neg (not_not.mpr rfl), e]
      exact if_pos judged
    exact release_next h stays (by rw [e]; rfl) rfl
  · have stays : release s.sluice.heldClaim d s = s := by
      unfold release
      rw [if_neg (not_not.mpr rfl), none]
    exact release_next h stays (by rw [none]; rfl) rfl
  · obtain ⟨x, y, active, takeover, own, run⟩ :=
      release_mirror d e stage warden mirror source record lt two pairs done
    let u : State := { s with
      billing := if k.survivor = s.engines.active then s.billing else s.following (s.ownBilling k.survivor)
      xa := y, engines := x, sluice := { s.sluice with hold := false }
      link := { s.link with irqPending := s.link.irqPending ||| 16#12 } }
    have written : ∃ l st w, l.irqPending = s.link.irqPending ||| 16#12 ∧
        st = (if s.ready = true ∧ s.power.warning = false
          then s.sluice.writes.foldl (fun st w => st.put w.1 w.2) s.store else s.store) ∧
        (if (s.engines.takeover.isSome && (release s.sluice.heldClaim d s).engines.takeover.isNone) = true
          then runHeld (release s.sluice.heldClaim d s) else release s.sluice.heldClaim d s) =
          { u with link := l, store := st, sluice := { u.sluice with writes := w } } := by
      rw [run, e]
      split
      · have none : (runWrites u).engines.takeover = none := takeover
        obtain ⟨l, e, irq⟩ := runHeld_none (s := runWrites u) plain
        exact ⟨l, _, _, irq, rfl, (if_pos (by rw [none]; rfl)).trans e⟩
      · have none : u.engines.takeover = none := takeover
        obtain ⟨l, e, irq⟩ := runHeld_none (s := u) plain
        exact ⟨l, _, _, irq, rfl, (if_pos (by rw [none]; rfl)).trans e⟩
    obtain ⟨l, st, w, irq, store, ends⟩ := written
    refine ⟨_, release_next h rfl ends rfl, active, takeover, ?_, rfl, rfl, irq, rfl, store, ?_, ?_, rfl, rfl, rfl⟩
    all_goals
      refine (congrArg _ own).trans ?_
      unfold tookOver
      split <;> rfl

/-! ### Heartbeats (R308–R310, R330, R341) -/

theorem modEngine_put (e : Nat) (f : Engine → Engine) (s : State) : s.modEngine e f = s.modEngine e (fun _ => f (s.engine e)) := by
  rw [State.modEngine, modAt_put _ _ _ {}]
  rfl

theorem modEngine_modEngine (e : Nat) (f g : Engine → Engine) (s : State) :
    (s.modEngine e f).modEngine e g = s.modEngine e (fun x => g (f x)) := by
  simp only [State.modEngine, modAt_modAt]

theorem engine_modEngine {e : Nat} (f : Engine → Engine) {s : State} (lt : e < s.engines.engines.length) :
    (s.modEngine e f).engine e = f (s.engine e) := modAt_getD_same _ _ _ _ lt

theorem engine_modEngine_other {e i : Nat} (f : Engine → Engine) (s : State) (ne : i ≠ e) :
    (s.modEngine e f).engine i = s.engine i := modAt_getD_other _ _ _ _ ne

/-- An engine that beats is one of the two, and present. -/
theorem present_of_beats {s : State} {e : Nat} (h : s.beats e = true) : e < 2 ∧ e < s.engines.engines.length := by
  have lt : e < 2 := by
    simp only [State.beats, Bool.and_eq_true, decide_eq_true_eq] at h
    exact h.1.1
  refine ⟨lt, ?_⟩
  by_contra no
  have absent : s.engine e = {} := List.getD_eq_default _ _ (by omega)
  simp only [State.beats, absent, Bool.and_false, Bool.false_eq_true] at h

theorem beats_of_watched {s : State} {e : Nat} (h : s.isWatched e = true) : s.beats e = true := by
  simp only [State.isWatched, Bool.and_eq_true] at h
  exact h.1

section Beats
variable (s : State) (e : Nat)

/-- An engine whose present silences count among its longest (R341). -/
def notedEngine : Engine :=
  let x := s.engine e
  { x with
    longestF := if x.fFault then x.longestF else max x.longestF (s.silence x.beatF)
    longestW := if x.wFault then x.longestW else max x.longestW (s.silence x.beatW) }

/-- An engine that has been heard on the first path (R308, R310). -/
def heardF (intake : BitVec 32) : Engine :=
  let x := s.engine e
  { notedEngine s e with
    intake := some intake, beatF := some s.micros, beatW := some (x.beatW.getD s.micros)
    sinceF := if x.beatF.isSome = true ∧ s.silence x.beatF ≤ 2000 then x.sinceF else s.micros }

/-- An engine that has been heard on the second path. -/
def heardW : Engine :=
  let x := s.engine e
  { notedEngine s e with
    beatW := some s.micros, beatF := some (x.beatF.getD s.micros)
    sinceW := if x.beatW.isSome = true ∧ s.silence x.beatW ≤ 1000 then x.sinceW else s.micros }

variable {s e}

theorem noteSilence_eq : s.noteSilence e = s.modEngine e (fun _ => notedEngine s e) := modEngine_put _ _ _

theorem orElse_some {α : Type} (o : Option α) (d : α) : o.orElse (fun _ => some d) = some (o.getD d) := by cases o <;> rfl

theorem heartbeatF_hears {intake : BitVec 32} (beats : s.beats e = true) (new : intakeNewer (s.engine e).intake intake = true) :
    heartbeatF e intake s = withdrawVerdict e (s.modEngine e (fun _ => heardF s e intake)) := by
  rw [heartbeatF, beats, new, Bool.and_self, if_pos rfl, hearBeat, State.noteSilence, modEngine_modEngine, modEngine_modEngine,
    modEngine_put]
  simp only [if_true, orElse_some, beatGap, Bool.and_eq_true, decide_eq_true_eq]
  rfl

theorem heartbeatW_hears (beats : s.beats e = true) :
    heartbeatW e s = withdrawVerdict e (s.modEngine e (fun _ => heardW s e)) := by
  rw [heartbeatW, beats, if_pos rfl, hearBeat, State.noteSilence, modEngine_modEngine, modEngine_put]
  simp only [Nat.one_ne_zero, if_false, orElse_some, beatGap, Bool.and_eq_true, decide_eq_true_eq]
  rfl

/-- The winner of a race of claims against which a verdict stands too (R330). -/
def winsRace (s : State) (e : Nat) (k : Takeover) : Prop :=
  (s.engine e).verdict = true ∧ (s.engine (1 - e)).verdict = true ∧ k.survivor = e ∧
    (s.engine e).claim = s.sluice.heldClaim ∧ k.stage ≠ .verdict ∧ s.micros ≤ k.accepted + 3000

section Withdraw
variable {y : Engine} (beats : s.beats e = true) (verdict : y.verdict = (s.engine e).verdict) (claim : y.claim = (s.engine e).claim)
include beats verdict claim

theorem withdrawVerdict_other (h : ∀ k, s.engines.takeover = some k → ¬ winsRace s e k) :
    withdrawVerdict e (s.modEngine e (fun _ => y)) = s.modEngine e (fun _ => y) := by
  obtain ⟨two, lt⟩ := present_of_beats beats
  have takeover : (s.modEngine e (fun _ => y)).engines.takeover = s.engines.takeover := rfl
  have other : (s.modEngine e (fun _ => y)).engine (otherEngine e) = s.engine (1 - e) :=
    engine_modEngine_other _ _ (by unfold otherEngine; omega)
  unfold withdrawVerdict
  rw [takeover]
  cases e' : s.engines.takeover with
  | none => rfl
  | some k =>
    refine if_neg fun won => h k e' ?_
    simp only [engine_modEngine _ lt, other, verdict, claim, Bool.and_eq_true, decide_eq_true_eq, bne_iff_ne] at won
    obtain ⟨⟨⟨⟨⟨a, b⟩, c⟩, d⟩, f⟩, g⟩ := won
    exact ⟨a, b, c, d, f, g⟩

theorem withdrawVerdict_winner {k : Takeover} (t : s.engines.takeover = some k) (h : winsRace s e k) :
    withdrawVerdict e (s.modEngine e (fun _ => y)) =
      (s.modEngine e (fun _ => { y with verdict := false })).raise 0x38 (leBytes 2 s.sluice.heldClaim.toNat) := by
  obtain ⟨two, lt⟩ := present_of_beats beats
  have takeover : (s.modEngine e (fun _ => y)).engines.takeover = some k := t
  have other : (s.modEngine e (fun _ => y)).engine (otherEngine e) = s.engine (1 - e) :=
    engine_modEngine_other _ _ (by unfold otherEngine; omega)
  obtain ⟨a, b, c, d, f, g⟩ := h
  unfold withdrawVerdict
  rw [takeover]
  dsimp only
  rw [if_pos]
  · rw [modEngine_modEngine]
    rfl
  · simp only [engine_modEngine _ lt, other, verdict, claim, Bool.and_eq_true, decide_eq_true_eq, bne_iff_ne]
    exact ⟨⟨⟨⟨⟨a, b⟩, c⟩, d⟩, f⟩, g⟩

end Withdraw

/-! Faulty paths (R309) -/

theorem faultPath_faulty (path : Nat) (h : if path = 0 then (s.engine e).fFault = true else (s.engine e).wFault = true) :
    faultPath e path s = s := by
  unfold faultPath
  by_cases z : path = 0
  · rw [if_pos z] at h
    simp only [z, h, if_true]
  · rw [if_neg z] at h
    simp only [z, h, if_true, if_false]

theorem faultPath_first (h : (s.engine e).fFault = false) : faultPath e 0 s =
    (s.modEngine e (fun _ => { (notedEngine s e).count 2 with fFault := true })).raise 0x33 [BitVec.ofNat 8 e, 0] := by
  simp only [faultPath, h, if_true, Bool.false_eq_true, if_false]
  rw [State.noteSilence, modEngine_modEngine, modEngine_put]
  rfl

theorem faultPath_second (h : (s.engine e).wFault = false) : faultPath e 1 s =
    (s.modEngine e (fun _ => { (notedEngine s e).count 3 with wFault := true })).raise 0x33 [BitVec.ofNat 8 e, 1] := by
  simp only [faultPath, h, Nat.one_ne_zero, Bool.false_eq_true, if_false]
  rw [State.noteSilence, modEngine_modEngine, modEngine_put]
  rfl

/-- What the fault of the first path leaves alone, and what it sets. -/
theorem faultPath_first_keeps (lt : e < s.engines.engines.length) :
    (faultPath e 0 s).link = s.link ∧ (faultPath e 0 s).billing = s.billing ∧
      (faultPath e 0 s).engines.engines.length = s.engines.engines.length ∧ ((faultPath e 0 s).engine e).fFault = true := by
  cases h : (s.engine e).fFault with
  | true => rw [faultPath_faulty 0 (by simpa using h)]; exact ⟨rfl, rfl, rfl, h⟩
  | false =>
    rw [faultPath_first h]
    exact ⟨rfl, rfl, modAt_length _ _ _, congrArg Engine.fFault (engine_modEngine _ lt)⟩

theorem faultPath_second_keeps (lt : e < s.engines.engines.length) :
    (faultPath e 1 s).link = s.link ∧ (faultPath e 1 s).billing = s.billing ∧
      ((faultPath e 1 s).engine e).fFault = (s.engine e).fFault ∧ ((faultPath e 1 s).engine e).wFault = true := by
  cases h : (s.engine e).wFault with
  | true => rw [faultPath_faulty 1 (by simpa using h)]; exact ⟨rfl, rfl, rfl, h⟩
  | false =>
    rw [faultPath_second h]
    refine ⟨rfl, rfl, ?_, congrArg Engine.wFault (engine_modEngine _ lt)⟩
    change ((s.modEngine e _).engine e).fFault = _
    rw [engine_modEngine _ lt]
    rfl

/-- A path is faulty only while the other beats and both are sound. -/
theorem pathFault_none {path : Nat} (one : path < 2) (h : (s.engine e).fFault = true ∨ (s.engine e).wFault = true ∨
    s.silence (if path = 0 then (s.engine e).beatF else (s.engine e).beatW) < 10000 ∨
    3000 ≤ s.silence (if path = 0 then (s.engine e).beatW else (s.engine e).beatF)) : pathFault e path s = s := by
  unfold pathFault
  dsimp only
  split
  · rfl
  · rw [if_neg (by omega), if_neg]
    simp only [Bool.and_eq_true, Bool.or_eq_true, Bool.not_eq_true', decide_eq_true_eq]
    rintro ⟨⟨f, w⟩, due⟩
    rcases h with h | h | h
    · rw [f] at h; cases h
    · rw [w] at h; cases h
    · rcases due with ⟨⟨rfl, long⟩, short⟩ | ⟨⟨rfl, long⟩, short⟩ <;> simp at h <;> omega

theorem pathFault_declares {path : Nat} (watched : s.isWatched e = true) (f : (s.engine e).fFault = false)
    (w : (s.engine e).wFault = false)
    (h : path = 0 ∧ 10000 ≤ s.silence (s.engine e).beatF ∧ s.silence (s.engine e).beatW < 3000 ∨
      path = 1 ∧ 10000 ≤ s.silence (s.engine e).beatW ∧ s.silence (s.engine e).beatF < 3000) :
    pathFault e path s = (faultPath e path s).setIrq .takeover := by
  simp only [pathFault, watched, f, w, Bool.not_true, Bool.not_false, Bool.false_eq_true, if_false, Bool.true_and]
  rw [if_neg (by omega), if_pos]
  simp only [Bool.and_eq_true, Bool.or_eq_true, decide_eq_true_eq, and_assoc]
  exact h

theorem pathFault_both (watched : s.isWatched e = true) : pathFault e 2 s =
    if 3000 ≤ s.silence (s.engine e).beatF ∧ 3000 ≤ s.silence (s.engine e).beatW
    then ((faultPath e 1 (faultPath e 0 s)).raise 0x35 [BitVec.ofNat 8 e]).setIrq .takeover else s := by
  simp only [pathFault, watched, Bool.not_true, Bool.false_eq_true, if_false, if_true, Bool.and_eq_true, decide_eq_true_eq]

/-! Paths that return (R309) -/

/-- A path of an engine is sound again. -/
theorem restorePath_sound {path : Nat} (h : s.pathSound e path = true) : restorePath e path s =
    (s.modEngine e (fun _ => if path = 0 then { s.engine e with fFault := false } else { s.engine e with wFault := false })).raise
      0x34 [BitVec.ofNat 8 e, BitVec.ofNat 8 path] := by
  rw [restorePath, if_pos h, modEngine_put]

theorem restorePath_unsound {path : Nat} (h : s.pathSound e path = false) : restorePath e path s = s := by
  rw [restorePath, h]
  rfl

theorem pathSound_iff {path : Nat} : s.pathSound e path = true ↔
    (if path = 0 then (s.engine e).fFault else (s.engine e).wFault) = true ∧ s.isWatched e = true ∧
      s.silence (if path = 0 then (s.engine e).beatF else (s.engine e).beatW) ≤ beatGap path ∧
      (if path = 0 then (s.engine e).sinceF else (s.engine e).sinceW) + 100000 ≤ s.micros := by
  simp only [State.pathSound, Bool.and_eq_true, decide_eq_true_eq, and_assoc]

theorem pathRestored_one {path : Nat} (one : path < 2) (lt : e < 2) : pathRestored e path s = restorePath e path s := by
  rw [pathRestored, if_pos lt, if_neg (by omega), if_pos one]

theorem pathFault_unwatched (h : s.isWatched e = false) (path : Nat) : pathFault e path s = s := by
  simp only [pathFault, h, Bool.not_false, if_true]

end Beats

/-- Settles O43: beats, faulty paths and paths that return, each by what its function comes to. -/
theorem heartbeatsAreWatched : Obligations.HeartbeatsAreWatched := by
  unfold Obligations.HeartbeatsAreWatched
  intro s e h
  dsimp only
  refine ⟨fun no intake => ⟨edge_next h (f := heartbeatF e intake) (by simp [heartbeatF, no]) rfl,
    edge_next h (f := heartbeatW e) (by simp [heartbeatW, no]) rfl⟩,
    fun intake old => edge_next h (f := heartbeatF e intake) (by simp [heartbeatF, old]) rfl,
    fun beats plain => ⟨fun intake new => ?_, ?_⟩, fun k beats takeover won => ⟨?_, fun intake new => ?_⟩,
    fun no p => edge_next h (f := pathFault e p) (pathFault_unwatched no p) rfl,
    fun watched f w => ⟨fun long short => ?_, fun long short => ?_⟩,
    fun no => edge_next h (f := pathFault e 0) (pathFault_none (by decide) (by simpa using no)) rfl,
    fun no => edge_next h (f := pathFault e 1) (pathFault_none (by decide) (by simpa using no)) rfl,
    fun watched f w lf lw => ?_, fun watched lt lf lw => ?_, fun no => ?_, ?_⟩
  · exact edge_next h (f := heartbeatF e intake) ((heartbeatF_hears beats new).trans (withdrawVerdict_other beats rfl rfl plain)) rfl
  · exact edge_next h (f := heartbeatW e) ((heartbeatW_hears beats).trans (withdrawVerdict_other beats rfl rfl plain)) rfl
  · exact edge_ends h (f := heartbeatW e) ((heartbeatW_hears beats).trans (withdrawVerdict_winner beats rfl rfl takeover won))
  · exact edge_ends h (f := heartbeatF e intake) ((heartbeatF_hears beats new).trans (withdrawVerdict_winner beats rfl rfl takeover won))
  · refine edge_ends h (f := pathFault e 0) ((pathFault_declares watched f w (.inl ⟨rfl, long, short⟩)).trans ?_)
    rw [faultPath_first f]
    rfl
  · refine edge_ends h (f := pathFault e 1) ((pathFault_declares watched f w (.inr ⟨rfl, long, short⟩)).trans ?_)
    rw [faultPath_second w]
    rfl
  · refine edge_ends h (f := pathFault e 2) ((pathFault_both watched).trans ?_)
    rw [if_pos ⟨lf, lw⟩, faultPath_faulty 0 (by simpa using f), faultPath_faulty 1 (by simpa using w)]
  · obtain ⟨link, billing, length, f⟩ := faultPath_first_keeps lt
    obtain ⟨link', billing', f', w⟩ := faultPath_second_keeps (s := faultPath e 0 s) (e := e) (by omega)
    refine ⟨_, edge_ends h (f := pathFault e 2) ((pathFault_both watched).trans (if_pos ⟨lf, lw⟩)), ?_⟩
    obtain ⟨-, elink, -, ebilling, -, -, -, eengines, -⟩ :=
      endEdge_frame (((faultPath e 1 (faultPath e 0 s)).raise 0x35 [BitVec.ofNat 8 e]).setIrq .takeover)
    refine ⟨?_, ?_, ?_, ?_⟩
    · rw [State.engine, eengines]; exact f'.trans f
    · rw [State.engine, eengines]; exact w
    · rw [elink]
      have same : (faultPath e 1 (faultPath e 0 s)).link = s.link := link'.trans link
      simp only [State.setIrq, State.raise, State.raiseAt, State.raiseEntry, same]
    · rw [ebilling]; exact billing'.trans billing
  · refine edge_next h (f := pathFault e 2) ?_ rfl
    cases watched : s.isWatched e with
    | false => exact pathFault_unwatched watched 2
    | true => rw [pathFault_both watched, if_neg (by omega)]
  · have first (sound : (s.engine e).fFault = true ∧ s.isWatched e = true ∧ s.silence (s.engine e).beatF ≤ 2000 ∧
        (s.engine e).sinceF + 100000 ≤ s.micros) : s.pathSound e 0 = true := pathSound_iff.mpr sound
    have second (sound : (s.engine e).wFault = true ∧ s.isWatched e = true ∧ s.silence (s.engine e).beatW ≤ 1000 ∧
        (s.engine e).sinceW + 100000 ≤ s.micros) : s.pathSound e 1 = true := pathSound_iff.mpr sound
    have noFirst (no : ¬ ((s.engine e).fFault = true ∧ s.isWatched e = true ∧ s.silence (s.engine e).beatF ≤ 2000 ∧
        (s.engine e).sinceF + 100000 ≤ s.micros)) : restorePath e 0 s = s :=
      restorePath_unsound (Bool.eq_false_iff.mpr fun k => no (pathSound_iff.mp k))
    have noSecond (no : ¬ ((s.engine e).wFault = true ∧ s.isWatched e = true ∧ s.silence (s.engine e).beatW ≤ 1000 ∧
        (s.engine e).sinceW + 100000 ≤ s.micros)) : restorePath e 1 s = s :=
      restorePath_unsound (Bool.eq_false_iff.mpr fun k => no (pathSound_iff.mp k))
    have stays {path : Nat} (one : path < 2) (none : restorePath e path s = s) : pathRestored e path s = s := by
      by_cases lt : e < 2
      · rw [pathRestored_one one lt, none]
      · rw [pathRestored, if_neg lt]
    refine ⟨fun sound => ?_, fun sound => ?_,
      fun no => edge_next h (f := pathRestored e 0) (stays (by decide) (noFirst no)) rfl,
      fun no => edge_next h (f := pathRestored e 1) (stays (by decide) (noSecond no)) rfl, fun noF noW => ?_⟩
    · have lt := (present_of_beats (beats_of_watched sound.2.1)).1
      exact edge_ends h (f := pathRestored e 0) ((pathRestored_one (by decide) lt).trans (restorePath_sound (first sound)))
    · have lt := (present_of_beats (beats_of_watched sound.2.1)).1
      exact edge_ends h (f := pathRestored e 1) ((pathRestored_one (by decide) lt).trans (restorePath_sound (second sound)))
    · refine edge_next h (f := pathRestored e 2) ?_ rfl
      unfold pathRestored
      rw [noFirst noF]
      split
      · exact noSecond noW
      · rfl

/-! ### Verdicts (R309, R311, R314, R316, R326, R330) -/

/-- What the end of an edge may do to the sluice: HOLD stays, and the claims. -/
theorem endEdge_sluice (s : State) : (s.sluice.hold = true → s.endEdge.sluice.hold = true) ∧
    s.endEdge.sluice.heldClaim = s.sluice.heldClaim ∧ s.endEdge.sluice.wardenHolds = s.sluice.wardenHolds := by
  simp only [State.endEdge]
  split
  · exact ⟨fun _ => rfl, rfl, rfl⟩
  · exact ⟨id, rfl, rfl⟩

theorem endEdge_free (s : State) : s.endEdge.free = s.free := by
  simp only [State.endEdge]
  split <;> rfl

/-- Where no SAFE alarm is raised, the end of an edge leaves the sluice and the store. -/
theorem endEdge_unsafe {s : State} (h : s.endEdge.evidence.safePending = false) :
    s.endEdge.sluice = s.sluice ∧ s.endEdge.store = s.store := by
  revert h
  simp only [State.endEdge]
  split
  · intro h; cases h
  · exact fun _ => ⟨rfl, rfl⟩

section Verdict
variable {s : State} {e : Nat}

theorem verdict_none (h : s.isWatched e = false ∨ (s.engine e).verdict = true ∨ s.drawsVerdict e = false) :
    verdict e s = s := by
  unfold verdict
  split
  · next draws =>
    unfold declareFailed
    rw [if_pos]
    rcases h with h | h | h
    · simp [h]
    · simp [h]
    · rw [h] at draws; cases draws
  · rfl

/-- The state of the engines once one of them has been named as failed (R309, R314). -/
def named (s : State) (e cause : Nat) : State :=
  let u := (s.raise 0x30 ([BitVec.ofNat 8 e, BitVec.ofNat 8 cause] ++ leBytes 2 (s.claimToCome (1 - e)))).modEngine e
    (fun x => { x.count 1 with verdict := true, verdictAt := s.micros })
  if s.inService (1 - e) = true then u.modEngine (1 - e) (fun x => { x with read := some s.sluice.heldClaim }) else u

theorem named_frame (cause : Nat) : ∃ ev x, named s e cause = { s with evidence := ev, engines := { s.engines with engines := x } } := by
  unfold named
  dsimp only
  split <;> exact ⟨_, _, rfl⟩

theorem declareFailed_named (both : Bool) (watched : s.isWatched e = true) (first : (s.engine e).verdict = false)
    (mirror : s.engines.split = false) : declareFailed e both s =
      match s.engines.takeover with
      | some k => if (s.engine (1 - e)).verdict = true then
          { named s e 4 with engines := { (named s e 4).engines with takeover := some { k with cause := 4 } } }
        else named s e (if both then 1 else 2)
      | none => if e = s.engines.active
        then beginTakeover (1 - e) (if (s.engine (1 - e)).verdict then 4 else if both then 1 else 2) 0 none
          (named s e (if (s.engine (1 - e)).verdict then 4 else if both then 1 else 2))
        else named s e (if (s.engine (1 - e)).verdict then 4 else if both then 1 else 2) := by
  have unread : (!s.isWatched e || (s.engine e).verdict) = false := by rw [watched, first]; rfl
  unfold declareFailed
  rw [unread]
  rw [if_neg (by decide)]
  extract_lets o meets cause s₁ may held s₂ s₃ s₄
  have third : s₃ = named s e cause := rfl
  have fourth : s₄ = named s e cause := by
    refine (if_neg ?_).trans third
    obtain ⟨ev, x, k⟩ := named_frame (s := s) (e := e) cause
    rw [third, k]
    simp [mirror]
  obtain ⟨ev, x, k⟩ := named_frame (s := s) (e := e) cause
  have takeover : s₄.engines.takeover = s.engines.takeover := by rw [fourth, k]
  have active : s₄.engines.active = s.engines.active := by rw [fourth, k]
  have source : s₄.takeoverSource = (0, none) := by rw [fourth, k]; simp [State.takeoverSource, mirror]
  have told : cause = if (s.engine (1 - e)).verdict = true then 4 else if both then 1 else 2 := rfl
  have race : meets = (s.engine (1 - e)).verdict := rfl
  clear_value s₄ cause meets
  subst fourth
  rw [takeover, source]
  cases s.engines.takeover with
  | none =>
    dsimp only
    rw [active, told]
    rfl
  | some t =>
    dsimp only
    by_cases m : (s.engine (1 - e)).verdict = true
    · rw [if_pos m] at told
      subst told
      rw [if_pos m, if_pos (race.trans m)]
    · rw [if_neg m] at told
      subst told
      rw [if_neg m, if_neg (race ▸ m)]

theorem named_engine (cause : Nat) (watched : s.isWatched e = true) (two : s.engines.engines.length = 2) :
    (named s e cause).engine e = { (s.engine e).count 1 with verdict := true, verdictAt := s.micros } ∧
      (s.inService (1 - e) = true → ((named s e cause).engine (1 - e)).read = some s.sluice.heldClaim) := by
  obtain ⟨lt, -⟩ := present_of_beats (beats_of_watched watched)
  have own : (modAt s.engines.engines e (fun x => { x.count 1 with verdict := true, verdictAt := s.micros })).getD e {} =
      { (s.engine e).count 1 with verdict := true, verdictAt := s.micros } := modAt_getD_same _ _ _ _ (by omega)
  unfold named
  dsimp only
  split
  · next serves =>
    exact ⟨(modAt_getD_other _ _ _ _ (by omega)).trans own, fun _ =>
      congrArg Engine.read (modAt_getD_same _ _ _ _ (by simp only [State.modEngine, modAt_length]; exact Nat.lt_of_lt_of_le (by omega) two.ge))⟩
  · next serves => exact ⟨own, fun k => absurd k serves⟩

end Verdict

/-- Settles O44: the silences that draw a verdict, and the verdict against either engine. -/
theorem verdictsBeginTakeovers : Obligations.VerdictsBeginTakeovers := by
  unfold Obligations.VerdictsBeginTakeovers
  intro s e h
  dsimp only
  refine ⟨fun f w => by simp [State.drawsVerdict, f, w], fun f w => ?_, fun f w long => ?_,
    fun no => edge_next h (f := verdict e) (verdict_none no) rfl, fun watched first draws mirror other idle two => ?_,
    fun k watched first draws mirror other takeover => ?_⟩
  · simp [State.drawsVerdict, show ¬ 3000 ≤ s.silence (s.engine e).beatF by omega,
      show ¬ 3000 ≤ s.silence (s.engine e).beatW by omega, show ¬ 10000 ≤ s.silence (s.engine e).beatF by omega,
      show ¬ 10000 ≤ s.silence (s.engine e).beatW by omega]
  · simp only [State.drawsVerdict, f, w, Bool.not_false, Bool.true_and, Bool.or_eq_true, Bool.and_eq_true, decide_eq_true_eq]
    exact .inr long
  · let c := if 3000 ≤ s.silence (s.engine e).beatF ∧ 3000 ≤ s.silence (s.engine e).beatW then 1 else 2
    have run : verdict e s = if e = s.engines.active then beginTakeover (1 - e) c 0 none (named s e c) else named s e c := by
      rw [verdict, if_pos draws, declareFailed_named _ watched first mirror, idle]
      simp only [other, Bool.false_eq_true, if_false, Bool.and_eq_true, decide_eq_true_eq, c]
    obtain ⟨ev, x, k⟩ := named_frame (s := s) (e := e) c
    obtain ⟨own, read⟩ := named_engine c watched two
    have evidence : (named s e c).endEdge.evidence.safePending = false →
        (named s e c).endEdge.sluice = s.sluice ∧ (named s e c).endEdge.store = s.store := fun safe => by
      obtain ⟨a, b⟩ := endEdge_unsafe safe
      rw [a, b, k]
      exact ⟨rfl, rfl⟩
    generalize named s e c = u at run k own read evidence
    subst k
    by_cases bills : e = s.engines.active
    · rw [if_pos bills] at run
      refine ⟨_, edge_ends h (f := verdict e) run, ?_⟩
      obtain ⟨-, link, sense, billing, xa, -, -, engines, -, -, cells, -, backup, time, -, -, start, -⟩ := endEdge_frame
        (beginTakeover (1 - e) c 0 none { s with evidence := ev, engines := { s.engines with engines := x } })
      obtain ⟨hold, claim, -⟩ := endEdge_sluice
        (beginTakeover (1 - e) c 0 none { s with evidence := ev, engines := { s.engines with engines := x } })
      have same (i : Nat) : (beginTakeover (1 - e) c 0 none
          { s with evidence := ev, engines := { s.engines with engines := x } }).endEdge.engine i =
          ({ s with evidence := ev, engines := { s.engines with engines := x } } : State).engine i := by
        simp only [State.engine, engines]
        rfl
      have split : ({ s with evidence := ev, engines := { s.engines with engines := x } } : State).engines.split = false := mirror
      rw [same, same, own, link, engines]
      refine ⟨billing, xa, cells, time, backup, sense, start, rfl, rfl, rfl, rfl, rfl, read,
        fun _ => ⟨hold rfl, claim, rfl, ?_⟩, fun no => absurd bills no⟩
      change some ({ survivor := 1 - e, cause := c, sec := s.sec, tick := s.backup.tick.toNat, at_ := s.micros
                     split := s.engines.split } : Takeover) = _
      rw [mirror]
    · rw [if_neg bills] at run
      refine ⟨_, edge_ends h (f := verdict e) run, ?_⟩
      obtain ⟨-, link, sense, billing, xa, -, -, engines, -, -, cells, -, backup, time, -, -, start, -⟩ := endEdge_frame
        { s with evidence := ev, engines := { s.engines with engines := x } }
      have same (i : Nat) : ({ s with evidence := ev, engines := { s.engines with engines := x } } : State).endEdge.engine i =
          ({ s with evidence := ev, engines := { s.engines with engines := x } } : State).engine i := by
        simp only [State.engine, engines]
      rw [same, same, own, link, engines]
      exact ⟨billing, xa, cells, time, backup, sense, start, rfl, rfl, rfl, rfl, rfl, read, fun yes => absurd yes bills,
        fun _ => ⟨evidence, rfl, idle⟩⟩
  · have run : verdict e s = { named s e 4 with engines := { (named s e 4).engines with takeover := some { k with cause := 4 } } } := by
      rw [verdict, if_pos draws, declareFailed_named _ watched first mirror, takeover]
      simp only [other, if_true]
    obtain ⟨ev, x, e'⟩ := named_frame (s := s) (e := e) 4
    refine ⟨_, edge_ends h (f := verdict e) run, ?_⟩
    rw [(endEdge_frame _).2.2.2.2.2.2.2.1, (endEdge_frame _).2.2.2.1, endEdge_link, e']
    exact ⟨rfl, rfl, rfl⟩

end Sys2Proof.Laws
end

section
/-! Claims (R313–R316, R330–R333), and the ends of the engines' self-tests and resynchronisation (R334–R336, R341). -/

namespace Sys2Proof.Laws
open Sys2Proof Sys2Proof.Machine

section Claims
variable {s : State} {e : Nat}

/-- An engine put under self-test (R311). -/
theorem underTest_frame (lt : e < s.engines.engines.length) : ∃ x, underTest e s = { s with engines := x } ∧
    x.engines.getD e {} = { s.engine e with role := .selftest, read := none } ∧
    (e ≠ s.engines.active → x.partnerOk = false) ∧ x.takeover = s.engines.takeover := by
  unfold underTest
  dsimp only
  split
  · next bills => exact ⟨_, rfl, modAt_getD_same _ _ _ _ lt, fun no => absurd bills no, rfl⟩
  · exact ⟨_, rfl, modAt_getD_same _ _ _ _ lt, fun _ => rfl, rfl⟩

theorem standDown_runs (a : (s.engine e).role ≠ .selftest) (b : (s.engine e).role ≠ .retired)
    (c : (s.engine e).role ≠ .notStarted) : standDown e s = underTest e s := by
  unfold standDown
  split
  · next r => exact absurd r a
  · next r => exact absurd r b
  · next r => exact absurd r c
  all_goals rfl

/-- What an engine that stands down keeps of its own: its claim, and what it has not read. -/
theorem standDown_own (lt : e < s.engines.engines.length) : ((standDown e s).engine e).claim = (s.engine e).claim ∧
    ((s.engine e).read = none → ((standDown e s).engine e).read = none) := by
  obtain ⟨x, run, own, -⟩ := underTest_frame lt
  have tested : ((underTest e s).engine e).claim = (s.engine e).claim ∧ ((underTest e s).engine e).read = none := by
    have same : (underTest e s).engine e = { s.engine e with role := .selftest, read := none } := by rw [run]; exact own
    rw [same]
    exact ⟨rfl, rfl⟩
  unfold standDown
  split <;> first | exact ⟨tested.1, fun _ => tested.2⟩ | exact ⟨rfl, id⟩

/-- An engine that runs and stands down is put under self-test. -/
theorem standDown_tests (lt : e < s.engines.engines.length) (runs : (s.engine e).role ≠ .selftest ∧
    (s.engine e).role ≠ .retired ∧ (s.engine e).role ≠ .notStarted) : ∃ x, standDown e s = { s with engines := x } ∧
      (({ s with engines := x } : State).engine e).role = .selftest ∧ (e ≠ s.engines.active → x.partnerOk = false) ∧
      x.takeover = s.engines.takeover := by
  obtain ⟨x, run, own, partner⟩ := underTest_frame lt
  exact ⟨x, (standDown_runs runs.1 runs.2.1 runs.2.2).trans run, congrArg Engine.role own, partner⟩

/-- A claim above the held one is accepted (R313). -/
theorem engineClaims_accepted {c : BitVec 16} (above : s.sluice.heldClaim < c) : engineClaims e c s =
    { s with
      engines := { s.engines with engines := modAt s.engines.engines e (fun x => { x with claim := c, read := none }) }
      sluice := { s.sluice with
        heldClaim := c, acceptedSec := s.sec, acceptedTick := s.backup.tick.toNat, writes := [] } } :=
  if_pos above

theorem engineClaims_refused {c : BitVec 16} (le : c ≤ s.sluice.heldClaim) : engineClaims e c s =
    s.modEngine e (fun x => { x with claim := c, read := none }) :=
  if_neg (BitVec.not_lt.mpr le)

theorem nextClaim_some {held : BitVec 16} (id : Nat) (room : held.toNat / 2 < 32767) :
    nextClaim held id = some (BitVec.ofNat 16 ((held.toNat / 2 + 1) * 2 + id)) := by
  rw [nextClaim, if_pos (by omega)]

/-- An engine whose claim has lost stands down (R315). -/
theorem claimed_standsDown (c : BitVec 16) (lt : e < s.engines.engines.length) : ∃ x,
    standDown e (s.modEngine e (fun x => { x with claim := c, read := none })) = { s with engines := x } ∧
      (({ s with engines := x } : State).engine e).claim = c ∧ (({ s with engines := x } : State).engine e).read = none ∧
      ((s.engine e).role ≠ .selftest ∧ (s.engine e).role ≠ .retired ∧ (s.engine e).role ≠ .notStarted →
        (({ s with engines := x } : State).engine e).role = .selftest) := by
  have own : (s.modEngine e (fun x => { x with claim := c, read := none })).engine e =
      { s.engine e with claim := c, read := none } := engine_modEngine _ lt
  have there : e < (s.modEngine e (fun x => { x with claim := c, read := none })).engines.engines.length := by
    simpa only [State.modEngine, modAt_length] using lt
  obtain ⟨claim, read⟩ := standDown_own there
  obtain ⟨x, run, -⟩ := standDown_frame e (s.modEngine e (fun x => { x with claim := c, read := none }))
  have whole : standDown e (s.modEngine e (fun x => { x with claim := c, read := none })) = { s with engines := x } := run
  refine ⟨x, whole, ?_, ?_, fun runs => ?_⟩
  · rw [← whole, claim, own]
  · rw [← whole, read (by rw [own])]
  · obtain ⟨y, run, tested, -⟩ := standDown_tests there (by rw [own]; exact runs)
    rw [← whole, run]
    exact tested

section Present
variable (awake : s.awake = true) (two : e < 2)
include awake two

theorem claimPresent_first (held : s.sluice.heldClaim = 0) (active : (s.engine e).role = .active) :
    claimPresent e s = engineClaims e (BitVec.ofNat 16 (2 + e)) s := by
  have goes : (decide (2 ≤ e) || !s.awake) = false := by simp [awake]; omega
  simp only [claimPresent, goes, held, active, Bool.false_eq_true, if_false, if_true, beq_self_eq_true]

section Next
variable {h c : BitVec 16} (held : s.sluice.heldClaim ≠ 0) (warden : s.sluice.wardenHolds = false)
  (read : (s.engine e).read = some h) (room : h.toNat / 2 < 32767) (ec : c = BitVec.ofNat 16 ((h.toNat / 2 + 1) * 2 + e))
include held warden read room ec

/-- The claim that follows the one read, where it is no longer the greatest. -/
theorem claimPresent_loses (le : c ≤ s.sluice.heldClaim) :
    claimPresent e s = standDown e (s.modEngine e (fun x => { x with claim := c, read := none })) := by
  have goes : (decide (2 ≤ e) || !s.awake) = false := by simp [awake]; omega
  simp only [claimPresent, goes, held, warden, read, nextClaim_some e room, ← ec, Bool.false_eq_true, if_false, le, if_true,
    engineClaims_refused le]

/-- And where it is. -/
theorem claimPresent_wins (above : s.sluice.heldClaim < c) : claimPresent e s = { s with
    engines := { s.engines with
      engines := modAt s.engines.engines e (fun x => if e = s.engines.active
        then ({ x with claim := c, read := none } : Engine).count 7 else { x with claim := c, read := none })
      takeover := s.engines.takeover.map (fun k => { k with survivor := e, stage := .settling, accepted := s.micros }) }
    sluice := { s.sluice with
      heldClaim := c, acceptedSec := s.sec, acceptedTick := s.backup.tick.toNat, writes := [] } } := by
  have goes : (decide (2 ≤ e) || !s.awake) = false := by simp [awake]; omega
  simp only [claimPresent, goes, held, warden, read, nextClaim_some e room, ← ec, Bool.false_eq_true, if_false,
    BitVec.not_le.mpr above, engineClaims_accepted above]
  by_cases bills : e = s.engines.active
  · simp only [← bills, if_true, State.modEngine, modAt_modAt]
    cases s.engines.takeover <;> rfl
  · simp only [bills, if_false]
    cases s.engines.takeover <;> rfl

end Next

end Present

/-- The state in which the Warden has presented its claim (R333). -/
def wardenClaims (s : State) : State :=
  { s with
    evidence := (s.raise 0x32 (leBytes 2 s.sluice.heldClaim.toNat)).evidence
    engines := { s.engines with engines := s.engines.engines.map (fun x => { x with read := none }) }
    sluice := { s.sluice with
      heldClaim := BitVec.ofNat 16 ((s.sluice.heldClaim.toNat / 2 + 1) * 2), acceptedSec := s.sec
      acceptedTick := s.backup.tick.toNat, writes := [] } }

/-- The Warden's claim takes its place, in HOLD (R330, R331, R333). -/
theorem wardenTakesCharge_takes (due : s.wardenDue = true) (free : s.sluice.wardenHolds = false)
    (room : s.sluice.heldClaim.toNat / 2 < 32767) :
    wardenTakesCharge s = { (wardenClaims s).enterHold with sluice.wardenHolds := true } := by
  have above : s.sluice.heldClaim < BitVec.ofNat 16 ((s.sluice.heldClaim.toNat / 2 + 1) * 2) := by
    rw [BitVec.lt_def, BitVec.toNat_ofNat]
    omega
  have goes : (!s.wardenDue || s.sluice.wardenHolds) = false := by rw [due, free]; rfl
  have next : nextClaim s.sluice.heldClaim 0 = some (BitVec.ofNat 16 ((s.sluice.heldClaim.toNat / 2 + 1) * 2)) :=
    nextClaim_some 0 room
  have presents : presentClaim (BitVec.ofNat 16 ((s.sluice.heldClaim.toNat / 2 + 1) * 2)) { s with
      evidence := (s.raise 0x32 (leBytes 2 s.sluice.heldClaim.toNat)).evidence
      engines := { s.engines with engines := s.engines.engines.map (fun x => { x with read := none }) } } = wardenClaims s :=
    if_pos above
  unfold wardenTakesCharge
  rw [goes, if_neg (by decide), ← presents]
  dsimp only [State.raise, State.raiseAt, State.raiseEntry]
  rw [next]

theorem wardenClaims_read (i : Nat) : ((wardenClaims s).engine i).read = none := by
  rw [State.engine, wardenClaims, List.getD_eq_getElem?_getD, List.getElem?_map]
  cases s.engines.engines[i]? <;> rfl

end Claims

/-- Settles O45: claims presented, settled, the Warden's, and claims refused. -/
theorem claimsAreHeld : Obligations.ClaimsAreHeld := by
  unfold Obligations.ClaimsAreHeld
  intro s e h lt two
  dsimp only
  have present : e < s.engines.engines.length := by omega
  refine ⟨fun awake zero active => ?_, fun c₀ awake held warden read room => ⟨fun above => ?_, fun le => ?_⟩,
    fun held none => ?_, fun k takeover survivor stage own held => ?_, fun k takeover some less runs => ?_, fun none no => ?_,
    fun none bills own held verdict serves => ?_, ?_, ?_,
    fun due free room => ?_, fun claim c d other => ⟨fun no => ?_, fun some less bills own runs => ?_⟩⟩
  · have above : s.sluice.heldClaim < BitVec.ofNat 16 (2 + e) := by
      rw [zero]
      obtain rfl | rfl : e = 0 ∨ e = 1 := by omega
      all_goals decide
    refine ⟨_, edge_next h (f := claimPresent e)
      ((claimPresent_first awake lt zero active).trans (engineClaims_accepted above)) rfl, rfl, ?_, ?_, rfl⟩
    · exact congrArg Engine.claim (modAt_getD_same _ _ _ _ present)
    · exact congrArg Engine.read (modAt_getD_same _ _ _ _ present)
  · refine ⟨_, edge_next h (f := claimPresent e) (claimPresent_wins awake lt held warden read room rfl above) rfl, ⟨rfl, ?_, ?_, rfl⟩, ?_, rfl⟩
    all_goals
      refine (congrArg _ (modAt_getD_same _ _ _ _ present)).trans ?_
      split <;> rfl
  · have loses := claimPresent_loses awake lt held warden read room rfl le
    obtain ⟨x, run, claim, read, tested⟩ := claimed_standsDown (BitVec.ofNat 16 ((c₀.toNat / 2 + 1) * 2 + e)) present
    exact ⟨_, edge_next h (f := claimPresent e) (loses.trans run) rfl, rfl, claim, read, tested, rfl⟩
  · refine edge_next h (f := claimPresent e) ?_ rfl
    simp only [claimPresent, held, none, if_false]
    split
    · rfl
    · split <;> rfl
  · refine edge_next h (f := claimSettleEnd e) ?_ rfl
    rw [claimSettleEnd, if_neg (by omega), own, if_neg held, if_neg (BitVec.lt_irrefl _), takeover]
    simp only [survivor, stage, decide_true, beq_self_eq_true, Bool.and_self, if_true]
  · obtain ⟨x, run, tested, -⟩ := standDown_tests present runs
    refine ⟨_, edge_next h (f := claimSettleEnd e) (Eq.trans ?_ run) rfl, tested, rfl⟩
    rw [claimSettleEnd, if_neg (by omega), if_neg some, if_pos less, takeover]
  · refine edge_next h (f := claimSettleEnd e) ?_ rfl
    have stays : (decide (e = s.engines.active) && (s.engine (otherEngine e)).verdict) = false := by
      rcases no with no | no <;> simp [otherEngine, no]
    simp only [claimSettleEnd, none, stays]
    split
    · rfl
    · split
      · rfl
      · split <;> rfl
  · have other : 1 - e ≠ s.engines.active := by omega
    have runs : (s.engine (1 - e)).role ≠ .selftest ∧ (s.engine (1 - e)).role ≠ .retired ∧
        (s.engine (1 - e)).role ≠ .notStarted := by
      rcases serves with r | r <;> rw [r] <;> decide
    obtain ⟨x, run, tested, partner, -⟩ := standDown_tests (by omega) runs
    refine ⟨_, edge_next h (f := claimSettleEnd e) (Eq.trans ?_ run) rfl, tested, partner other, rfl⟩
    have tests : (decide (e = s.engines.active) && (s.engine (otherEngine e)).verdict) = true := by
      simp only [otherEngine, verdict, Bool.and_true, decide_eq_true_eq]
      exact bills
    rw [claimSettleEnd, if_neg (by omega), own, if_neg held, if_neg (BitVec.lt_irrefl _), none]
    exact if_pos tests
  · intro k takeover stage late
    simp [State.wardenDue, takeover, stage, late]
  · intro no
    refine edge_next h (f := wardenTakesCharge) ?_ rfl
    rw [wardenTakesCharge, if_pos]
    rcases no with no | no <;> simp [no]
  · refine ⟨_, edge_ends h (f := wardenTakesCharge) (wardenTakesCharge_takes due free room), ?_⟩
    obtain ⟨-, -, -, billing, -, -, -, engines, -, -, cells, -, -, time, -⟩ :=
      endEdge_frame { (wardenClaims s).enterHold with sluice.wardenHolds := true }
    obtain ⟨hold, claim, warden⟩ := endEdge_sluice { (wardenClaims s).enterHold with sluice.wardenHolds := true }
    refine ⟨hold rfl, warden, claim, fun i => ?_, (congrArg (fun x : Engines => x.active) engines :), billing, cells, time⟩
    rw [State.engine, engines]
    exact wardenClaims_read i
  · have stays : refuseCommand claim s = { s with sluice := { s.sluice with refused := s.sluice.refused + 1 } } := by
      refine if_neg ?_
      simp only [Bool.and_eq_true, decide_eq_true_eq]
      rintro ⟨⟨nonzero, less⟩, own⟩
      rcases no with no | no | no
      · exact nonzero no
      · exact BitVec.lt_asymm no less
      · exact no own
    exact ⟨edge_next h (f := sluiceCommand claim c) ((if_pos other).trans stays) rfl,
      release_next h ((if_pos other).trans stays) (by cases s.engines.takeover <;> rfl) rfl⟩
  · have runs' := standDown_tests (s := { s with sluice := { s.sluice with refused := s.sluice.refused + 1 } }) present runs
    obtain ⟨x, run, tested, -, takeover⟩ := runs'
    have refuses : refuseCommand claim s = _ := (if_pos (by
      simp only [Bool.and_eq_true, decide_eq_true_eq]
      exact ⟨⟨some, less⟩, bills ▸ own⟩)).trans (bills ▸ run)
    refine ⟨_, edge_next h (f := sluiceCommand claim c) ((if_pos other).trans refuses) rfl,
      release_next h ((if_pos other).trans refuses) ?_ rfl, tested, rfl⟩
    refine if_neg ?_
    change ¬ (s.engines.takeover.isSome && x.takeover.isNone) = true
    rw [takeover]
    cases s.engines.takeover <;> exact Bool.false_ne_true

/-! ### Self-tests and resynchronisation (R334–R336, R341) -/

section Rejoin
variable {s : State} {e : Nat}

/-- An engine that passed its self-test, as it resynchronises (R310, R336, R341). -/
def resynced (s : State) (e : Nat) : Engine :=
  let x := s.engine e
  { x.count 6 with
    role := .resync, verdict := false, intake := none, beatF := none, beatW := none
    longestF := if x.fFault then x.longestF else max x.longestF (s.silence x.beatF)
    longestW := if x.wFault then x.longestW else max x.longestW (s.silence x.beatW) }

theorem engineTested_passes (role : (s.engine e).role = .selftest) (own : (s.engine e).hostTest = false) {d : Nat}
    (soon : d ≤ 400) : engineTested e true d s =
      ((({ s with engines := { s.engines with partnerOk := false, resync := none, joining := false, mirror := none } } : State).modEngine e
        (fun _ => resynced s e)).raise 0x3A (BitVec.ofNat 8 e :: leBytes 4 (0x02000000 + d))) := by
  simp only [engineTested, role, own, soon, bne_self_eq_false, decide_true, Bool.and_self, Bool.false_eq_true, if_false, if_true]
  have word : resultWord 0 2 d = 0x02000000 + d := by
    rw [resultWord, Nat.min_eq_left (by omega)]
    omega
  rw [resyncEngine, word, rejoin, startResync, State.noteSilence]
  simp only [modEngine_modEngine]
  rw [modEngine_put]
  rfl

theorem engineTested_fails (role : (s.engine e).role = .selftest) (own : (s.engine e).hostTest = false) {ok : Bool} {d : Nat}
    (fails : ok = false ∨ 400 < d) : engineTested e ok d s = retireEngine e s := by
  have bad : (ok && decide (d ≤ 400)) = false := by
    rcases fails with f | f
    · rw [f]; rfl
    · rw [decide_eq_false (by omega), Bool.and_false]
  simp only [engineTested, role, own, bad, bne_self_eq_false, Bool.false_eq_true, if_false]

/-- A retired engine is remembered in the device state record (R335). -/
theorem retireEngine_frame (lt : e < s.engines.engines.length) : ∃ ev x st, retireEngine e s =
    { s with evidence := ev, engines := x, store := st } ∧
      (x.engines.getD e {}).role = .retired ∧ (x.engines.getD e {}).retired = true ∧ x.active = s.engines.active ∧
      (e ≠ s.engines.active → x.partnerOk = false) := by
  have own : (modAt s.engines.engines e (fun x => { x with role := .retired, retired := true, hostTest := false, read := none })).getD e {} =
      { s.engine e with role := .retired, retired := true, hostTest := false, read := none } := modAt_getD_same _ _ _ _ lt
  unfold retireEngine saveDevice
  dsimp only
  split
  · next bills => exact ⟨_, _, _, rfl, congrArg Engine.role own, congrArg Engine.retired own, rfl, fun no => absurd bills no⟩
  · exact ⟨_, _, _, rfl, congrArg Engine.role own, congrArg Engine.retired own, rfl, fun _ => rfl⟩

/-- A partner that holds what it resynchronised from (R336). -/
theorem resyncEnd_none (no : (s.engine s.partner).role ≠ .resync ∨ s.engines.resync = none ∨ s.engines.takeover.isSome = true) :
    resyncEnd s = s := by
  unfold resyncEnd
  dsimp only
  split
  · rfl
  · next go =>
    simp only [Bool.or_eq_true, bne_iff_ne, not_or, not_not] at go
    rcases no with no | no | no
    · exact absurd go.1 no
    · rw [no]
    · exact absurd no go.2

theorem resyncEnd_some {r : StateRecord} (role : (s.engine s.partner).role = .resync) (from_ : s.engines.resync = some r)
    (idle : s.engines.takeover = none) : resyncEnd s = if s.engines.split then
        { s with engines := { s.engines with
          engines := modAt s.engines.engines s.partner (fun x => ({ x with role := .standby } : Engine))
          partnerOk := true, badRun := 0, buffers := [none, none], resync := none } }
      else { s with engines := { s.engines with mirror := some (s.replayed r), joining := true } } := by
  have goes : ((s.engine s.partner).role != .resync || s.engines.takeover.isSome) = false := by rw [role, idle]; rfl
  unfold resyncEnd
  dsimp only
  rw [goes, if_neg (by decide)]
  split
  · next none => rw [from_] at none; cases none
  · next q e =>
    obtain rfl : r = q := Option.some.inj (from_.symm.trans e)
    rfl

/-- At the end of a block a partner that has caught up joins lockstep (R336). -/
theorem joinLockstep_joins (joining : s.engines.joining = true) (mirror : s.engines.split = false)
    (idle : s.engines.takeover = none) (role : (s.engine s.partner).role = .resync) : joinLockstep s =
      { s with engines := { s.engines with
        engines := modAt s.engines.engines s.partner (fun x => ({ x with role := .lockstep } : Engine))
        partnerOk := true, joining := false, resync := none } } := by
  refine if_pos ?_
  rw [joining, mirror, idle, role]
  rfl

/-- What a sample at the end of a block leaves of the engines. -/
theorem noteBlock_frame {a : Nat} (last : a % 64 = 63) : ∃ bs, noteBlock a s =
    { joinLockstep s with engines := { (joinLockstep s).engines with blocks := bs } } := by
  unfold noteBlock
  rw [if_neg (by omega)]
  dsimp only
  split
  · exact ⟨_, rfl⟩
  · exact ⟨_, rfl⟩

end Rejoin

/-- Settles O48: the end of a self-test, the end of a resynchronisation, and the block boundary. -/
theorem enginesRejoin : Obligations.EnginesRejoin := by
  unfold Obligations.EnginesRejoin
  intro s e h lt two
  dsimp only
  refine ⟨fun other ok d => ?_, fun role own d => ⟨fun soon => ?_, fun ok fails => ?_⟩, fun no => ?_,
    fun r role from_ idle => ⟨fun split => ?_, fun mirror => ?_⟩, fun a joining mirror idle active role last => ?_⟩
  · refine edge_next h (f := engineTested e ok d.toNat) ?_ rfl
    simp only [engineTested]
    rw [if_pos (by simpa using other)]
  · exact edge_ends h (f := engineTested e true d.toNat) (engineTested_passes role own soon)
  · obtain ⟨ev, x, st, run, gone, retired, -⟩ := retireEngine_frame (s := s) (e := e) (by omega)
    refine ⟨_, edge_ends h (f := engineTested e ok d.toNat) ((engineTested_fails role own fails).trans run), ?_⟩
    obtain ⟨-, -, -, billing, -, -, -, engines, -⟩ := endEdge_frame { s with evidence := ev, engines := x, store := st }
    refine ⟨?_, ?_, fun safe => (endEdge_unsafe safe).1, billing⟩
    · rw [State.engine, engines]; exact gone
    · rw [State.engine, engines]; exact retired
  · exact edge_next h (f := resyncEnd) (resyncEnd_none no) rfl
  · exact edge_next h (f := resyncEnd) ((resyncEnd_some role from_ idle).trans (if_pos split)) rfl
  · exact edge_next h (f := resyncEnd) ((resyncEnd_some role from_ idle).trans (if_neg (by rw [mirror]; decide))) rfl
  · obtain ⟨bs, run⟩ := noteBlock_frame (s := s) last
    rw [run, joinLockstep_joins joining mirror idle role]
    refine ⟨?_, rfl, rfl, rfl, rfl⟩
    exact congrArg Engine.role (modAt_getD_same _ _ _ _ (by rw [two, State.partner, otherEngine]; omega))

end Sys2Proof.Laws
end

section
/-! What the engines exchange: block digests and arbitrations (R319–R322), and checkpoints (R324–R326). -/

namespace Sys2Proof.Laws
open Sys2Proof Sys2Proof.Machine

/-! ### Block digests (R319–R321) -/

section Digests
variable {s : State} {e block : Nat} {flips : BitVec 64} {x : BlockEnd}

theorem blockDigest_unknown (h : s.engines.blocks.find? (fun x => x.block == block) = none) :
    blockDigestArrives e block flips s = s := by
  rw [blockDigestArrives, h]

theorem blockDigest_apart (h : s.inLockstep = false) : blockDigestArrives e block flips s = s := by
  unfold blockDigestArrives
  split
  · rfl
  · rw [if_pos (by simp [h])]

/-- The digest that an engine gives of a block (R319). -/
def digestOf (x : BlockEnd) (e : Nat) (flips : BitVec 64) : BitVec 64 := (if e = 0 then x.digest0 else x.digest1) ^^^ flips

/-- The engines once one of them has erred, or not. -/
def errs (e : Nat) (flips : BitVec 64) (s : State) : State := if flips = 0 then s else errEngine e s

theorem errs_frame (e : Nat) (flips : BitVec 64) (s : State) : ∃ b m f, errs e flips s =
    { s with billing := b, engines := { s.engines with mirror := m }, free := f } ∧ (flips ≠ 0 → f = s.free + 512) ∧
      (s.engines.active < 2 → e < 2 → flips = 0 ∨ e ≠ s.engines.active → b = s.billing) := by
  unfold errs
  split
  · next h => exact ⟨_, _, _, rfl, fun no => absurd h no, fun _ _ _ => rfl⟩
  · next h =>
    refine ⟨_, _, _, rfl, fun _ => rfl, fun two lt other => ?_⟩
    have ne : e ≠ s.engines.active := other.resolve_left h
    rw [if_neg ne, State.ownBilling, if_pos (by unfold otherEngine; omega)]

section Lockstep
variable (lockstep : s.inLockstep = true) (two : e < 2) (known : s.engines.blocks.find? (fun x => x.block == block) = some x)
include lockstep two known

/-- The first digest of a block waits. -/
theorem blockDigest_first (none_ : s.engines.digests = none) : blockDigestArrives e block flips s =
    { errs e flips s with engines := { (errs e flips s).engines with
      digests := some (block, if e = 0 then some (digestOf x e flips) else none, if e = 0 then none else some (digestOf x e flips)) } } := by
  have goes : (decide (2 ≤ e) || !s.inLockstep) = false := by simp [lockstep]; omega
  obtain ⟨b, m, f, run, -⟩ := errs_frame e flips s
  unfold errs at run
  unfold blockDigestArrives
  rw [known]
  dsimp only
  rw [goes, if_neg (by decide)]
  unfold errs
  rw [run]
  dsimp only
  rw [none_]
  obtain rfl | rfl : e = 0 ∨ e = 1 := by omega
  all_goals rfl

/-- The second one of a block is compared with the first (R321). -/
theorem blockDigest_second {o : BitVec 64} (first : s.engines.digests =
    some (block, if e = 0 then none else some o, if e = 0 then some o else none)) : blockDigestArrives e block flips s =
      compareDigests x (if e = 0 then digestOf x e flips else o) (if e = 0 then o else digestOf x e flips) (errs e flips s) := by
  have goes : (decide (2 ≤ e) || !s.inLockstep) = false := by simp [lockstep]; omega
  obtain ⟨b, m, f, run, -⟩ := errs_frame e flips s
  unfold errs at run
  unfold blockDigestArrives
  rw [known]
  dsimp only
  rw [goes, if_neg (by decide)]
  unfold errs
  rw [run]
  dsimp only
  rw [first]
  obtain rfl | rfl : e = 0 ∨ e = 1 := by omega
  · simp
    rfl
  · simp
    rfl

end Lockstep

/-- Two equal digests: each engine keeps an agreed record of the block (R320). -/
theorem compareDigests_equal (d : BitVec 64) (two : s.engines.agreed.length = 2) : ∃ x' r0 r1,
    compareDigests x d d s = { s with engines := x' } ∧ x'.digests = none ∧ x'.agreed = [some r0, some r1] ∧
      r0.kind = 2 ∧ r1.kind = 2 ∧ r0.writer = 0 ∧ r1.writer = 1 ∧ r0.resume = 64 * x.block + 64 ∧
      r1.resume = 64 * x.block + 64 ∧ r0.body = x.body0 ∧ r1.body = x.body1 := by
  obtain ⟨a, b, pair⟩ := List.length_eq_two.mp two
  have both (r0 r1 : StateRecord) : modAt (modAt s.engines.agreed 0 (fun _ => some r0)) 1 (fun _ => some r1) =
      [some r0, some r1] := by rw [pair]; rfl
  let u : State := { s with engines := { s.engines with digests := none } }
  exact ⟨_, (u.writeRecord 2 0 (64 * x.block + 64) true x.body0 u.sluice.pairs).1,
    ((agreeRecord 0 x u).writeRecord 2 1 (64 * x.block + 64) true x.body1 (agreeRecord 0 x u).sluice.pairs).1,
    if_pos rfl, rfl, both _ _, rfl, rfl, rfl, rfl, rfl, rfl, rfl, rfl⟩

/-- The arbitration that a mismatch of two digests begins (R321). -/
def mismatch (s : State) (x : BlockEnd) (a c : BitVec 64) : Arbitration where
  block := x.block
  entry := s.nextEntry
  own := if s.partner = 0 then x.digest0 else x.digest1
  digest0 := a
  digest1 := c

/-- Two that differ begin an arbitration of the partner (R321). -/
theorem compareDigests_differ {a c : BitVec 64} (ne : a ≠ c) (active : s.engines.active < 2)
    (two : s.engines.engines.length = 2) : ∃ ev x', compareDigests x a c s = { s with evidence := ev, engines := x' } ∧
      x'.digests = none ∧ x'.partnerOk = false ∧ x'.arbitration = some (mismatch s x a c) ∧
      (x'.engines.getD s.partner {}).role = .arbitration := by
  have role (es : List Engine) (len : es.length = 2) :
      ((modAt es s.partner (fun x => { x with role := .arbitration })).getD s.partner {}).role = .arbitration := by
    refine congrArg Engine.role (modAt_getD_same _ _ _ _ ?_)
    unfold State.partner otherEngine
    omega
  have counted : (modAt (modAt s.engines.engines 0 (fun x => x.count 4)) 1 (fun x => x.count 4)).length = 2 := by
    rw [modAt_length, modAt_length, two]
  unfold compareDigests
  dsimp only
  rw [if_neg ne]
  simp only [State.modEngine, State.raise, State.raiseAt, State.raiseEntry]
  exact ⟨_, _, rfl, rfl, rfl, rfl, role _ counted⟩

/-- A second digest that never comes is logged and counted (R321). -/
theorem digestLate_second {k : Nat} {d : BitVec 64} (late : s.engines.digests = some (k, some d, none)) : digestLate s =
    (({ s with engines := { s.engines with digests := none } } : State).modEngine 1 (fun x => x.count 5)).raise 0x37 [1] := by
  simp only [digestLate, late]
  rfl

end Digests

/-! ### Arbitrations (R321, R322) -/

section Arbitrations
variable {s : State}

/-- A billing engine and its partner are the two engines. -/
theorem partner_other (active : s.engines.active < 2) : s.partner ≠ s.engines.active ∧ s.partner < 2 := by
  unfold State.partner otherEngine
  omega

/-- One that resynchronises. -/
theorem resyncEngine_frame {e : Nat} (d : Nat) (lt : e < s.engines.engines.length) : ∃ ev x,
    resyncEngine e d s = { s with evidence := ev, engines := x } ∧
      (x.engines.getD e {}).role = .resync ∧ x.active = s.engines.active := by
  unfold resyncEngine rejoin startResync State.noteSilence
  simp only [State.modEngine, modAt_modAt, State.raise, State.raiseAt, State.raiseEntry]
  exact ⟨_, _, rfl, congrArg Engine.role (modAt_getD_same _ _ _ _ lt), rfl⟩

/-- The end of an arbitration, by what its third digest comes to (R321). -/
theorem arbitrationEnd_judges {a : Arbitration} (h : s.engines.arbitration = some a) (passed : Bool) (flips : BitVec 64) :
    let u : State := { s with engines := { s.engines with arbitration := none } }
    arbitrationEnd passed flips s =
      if passed = false then retireEngine s.partner u
      else if (s.rebuilt a).1 ^^^ flips = (if s.partner = 0 then a.digest1 else a.digest0) then
        resyncEngine s.partner (min 100 u.freeValue) u.nextFree
      else if (s.rebuilt a).1 ^^^ flips = (if s.partner = 0 then a.digest0 else a.digest1) then
        beginTakeover s.partner 3 0 none { u.modEngine s.partner (fun x => { x with read := some s.sluice.heldClaim }) with
          engines := { (u.modEngine s.partner (fun x => { x with read := some s.sluice.heldClaim })).engines with
            mirror := some (s.rebuilt a).2, floor := some s.billing.latch.published } }
      else (underTest s.partner u).raiseExt 0x36 a.entry (leBytes 8 ((s.rebuilt a).1 ^^^ flips).toNat) := by
  simp only [arbitrationEnd, h, Bool.not_eq_true']

end Arbitrations

/-! ### Checkpoints (R324–R326) -/

section Checkpoints
variable {s : State}

theorem writeBilling_writes (split : s.engines.split = true) (ok : s.engines.partnerOk = true) (idle : s.engines.takeover = none)
    (role : (s.engine s.partner).role = .standby) (verdict : (s.engine s.partner).verdict = false) {c : Nat} {body : Billing}
    {pairs : List RelayPair} (cut : s.engines.cut = some (c, body, pairs)) : writeBilling s =
      let r := (s.writeRecord 1 s.engines.active c false body pairs).1
      let n := s.engines.sequences.getD (4 * s.engines.active + 1) 0
      { s with engines := { s.engines with
        sequences := modAt s.engines.sequences (4 * s.engines.active + 1) (fun _ => n + 1)
        engines := modAt s.engines.engines s.engines.active (fun x => x.count 8)
        buffers := modAt s.engines.buffers (n.toNat % 2) (fun _ => some r), cut := none } } := by
  have goes : (!s.engines.split || !s.engines.partnerOk || s.engines.takeover.isSome ||
      (s.engine s.partner).role != .standby || (s.engine s.partner).verdict) = false := by
    rw [split, ok, idle, role, verdict]; rfl
  unfold writeBilling
  dsimp only
  rw [goes, if_neg (by decide), cut]
  rfl

/-- Whether the latest checkpoint has arrived whole is noted with it (R325). -/
theorem checkpointArrival_notes (split : s.engines.split = true) (ok : s.engines.partnerOk = true)
    (some_ : s.engines.sequences.getD (4 * s.engines.active + 1) 0 ≠ 0) {r : StateRecord}
    (kept : s.engines.buffers.getD (((s.engines.sequences.getD (4 * s.engines.active + 1) 0).toNat - 1) % 2) none = some r)
    (intact : Bool) : checkpointArrival intact s =
      let u : State := { s with engines := { s.engines with
        buffers := modAt s.engines.buffers (((s.engines.sequences.getD (4 * s.engines.active + 1) 0).toNat - 1) % 2) (fun _ =>
          some ({ r with crcOk := intact } : StateRecord)) } }
      if intact then { u with engines := { u.engines with badRun := 0 } }
      else if s.engines.badRun + 1 = 3 then
        ({ u.modEngine s.partner (fun x => x.count 9) with
            engines := { (u.modEngine s.partner (fun x => x.count 9)).engines with badRun := 0 } } : State).raise 0x39
          (leBytes 4 r.seq.toNat)
      else { u.modEngine s.partner (fun x => x.count 9) with
        engines := { (u.modEngine s.partner (fun x => x.count 9)).engines with badRun := s.engines.badRun + 1 } } := by
  have first : (s.engines.sequences.getD (4 * s.engines.active + 1) 0).toNat ≠ 0 := fun e => some_ (BitVec.eq_of_toNat_eq e)
  have goes : (decide ((s.engines.sequences.getD (4 * s.engines.active + 1) 0).toNat = 0) || !s.engines.split ||
      !s.engines.partnerOk) = false := by rw [split, ok, decide_eq_false first]; rfl
  unfold checkpointArrival
  dsimp only
  rw [goes, if_neg (by decide), kept]
  rfl

end Checkpoints

/-- Settles O47: digests by their order and their value, arbitrations by the third digest, and checkpoints. -/
theorem digestsAndCheckpoints : Obligations.DigestsAndCheckpoints := by
  unfold Obligations.DigestsAndCheckpoints
  intro s h two active
  dsimp only
  refine ⟨fun e block flips none => edge_next h (f := blockDigestArrives e block flips) (blockDigest_unknown none) rfl,
    fun apart e block flips => edge_next h (f := blockDigestArrives e block flips) (blockDigest_apart apart) rfl,
    fun lockstep e block flips x lt known => ⟨fun none_ => ⟨fun zero => ?_, fun bad => ?_⟩, fun first zero agreed => ?_,
      fun o other first => ?_⟩, fun none => ?_, fun k d late => ?_, fun passed flips none => ?_, fun a arb differ => ?_, ?_⟩
  · obtain rfl := zero
    exact edge_next h (f := blockDigestArrives e block 0) (blockDigest_first lockstep lt known none_) rfl
  · obtain ⟨b, m, f, run, free, same⟩ := errs_frame e flips s
    have step := edge_next h (f := blockDigestArrives e block flips) (blockDigest_first lockstep lt known none_) (by rw [run])
    rw [run] at step
    exact ⟨_, step, free bad, rfl, fun other => same active lt (.inr other), rfl⟩
  · obtain rfl := zero
    obtain rfl : x.block = block := by simpa using List.find?_some known
    obtain ⟨x', r0, r1, run, facts⟩ := compareDigests_equal (s := s) (x := x) (digestOf x e 0) agreed
    have step : blockDigestArrives e x.block 0 s = { s with engines := x' } := by
      rw [blockDigest_second lockstep lt known first, errs, if_pos rfl]
      change compareDigests x (if e = 0 then digestOf x e 0 else digestOf x e 0) (if e = 0 then digestOf x e 0 else digestOf x e 0) s = _
      rw [ite_self, run]
    obtain ⟨digests, agrees, kinds⟩ := facts
    exact ⟨_, r0, r1, edge_next h (f := blockDigestArrives e x.block 0) step rfl, digests, agrees, kinds.1, kinds.2.1,
      kinds.2.2.1, kinds.2.2.2.1, kinds.2.2.2.2.1, kinds.2.2.2.2.2.1, kinds.2.2.2.2.2.2.1, kinds.2.2.2.2.2.2.2, rfl⟩
  · obtain rfl : x.block = block := by simpa using List.find?_some known
    obtain ⟨b, m, f, err, -, same⟩ := errs_frame e flips s
    have ne : (if e = 0 then digestOf x e flips else o) ≠ (if e = 0 then o else digestOf x e flips) := by
      split
      · exact Ne.symm other
      · exact other
    obtain ⟨ev, x', run, digests, partner, arb, role⟩ := compareDigests_differ (x := x) ne (s := errs e flips s)
      (by rw [err]; exact active) (by rw [err]; exact two)
    have step := (blockDigest_second lockstep lt known first).trans run
    rw [err] at step arb role
    refine ⟨_, edge_ends h (f := blockDigestArrives e x.block flips) step, ?_⟩
    obtain ⟨-, -, -, billing, -, -, -, engines, -⟩ := endEdge_frame
      { s with billing := b, engines := x', free := f, evidence := ev }
    rw [State.engine, engines, billing]
    exact ⟨digests, arb, role, partner, fun no => same active lt no⟩
  · refine edge_next h (f := digestLate) ?_ rfl
    simp only [digestLate, none]
  · exact edge_ends h (f := digestLate) (digestLate_second late)
  · refine edge_next h (f := arbitrationEnd passed flips) ?_ rfl
    simp only [arbitrationEnd, none]
  · obtain ⟨ne, lt⟩ := partner_other active
    have there : s.partner < s.engines.engines.length := by omega
    have judged := arbitrationEnd_judges arb
    dsimp only at judged
    have third (d : BitVec 64) : (s.rebuilt a).1 ^^^ ((s.rebuilt a).1 ^^^ d) = d := by
      rw [← BitVec.xor_assoc, BitVec.xor_self, BitVec.zero_xor]
    have unequal : (if s.partner = 0 then a.digest0 else a.digest1) ≠ (if s.partner = 0 then a.digest1 else a.digest0) := by
      split
      · exact differ
      · exact Ne.symm differ
    refine ⟨fun flips => ?_, ?_, ?_, fun d notMine notTheirs => ?_⟩
    · obtain ⟨ev, x, st, run, role, -, same, partner⟩ :=
        retireEngine_frame (s := { s with engines := { s.engines with arbitration := none } }) (e := s.partner) there
      refine ⟨_, edge_ends h (f := arbitrationEnd false flips) (((judged false flips).trans (if_pos rfl)).trans run), ?_⟩
      obtain ⟨-, -, -, billing, -, -, -, engines, -⟩ := endEdge_frame { s with evidence := ev, engines := x, store := st }
      rw [State.engine, engines]
      exact ⟨role, partner ne, same, billing, fun safe => (endEdge_unsafe safe).1⟩
    · obtain ⟨ev, x, run, role, same⟩ := resyncEngine_frame
        (s := State.nextFree { s with engines := { s.engines with arbitration := none } }) (e := s.partner) (min 100
          (State.freeValue { s with engines := { s.engines with arbitration := none } })) there
      refine ⟨_, edge_ends h (f := arbitrationEnd true _)
        (((judged true _).trans ((if_neg (by decide)).trans (if_pos (third _)))).trans run), ?_⟩
      obtain ⟨-, -, -, billing, -, -, -, engines, -⟩ :=
        endEdge_frame { State.nextFree { s with engines := { s.engines with arbitration := none } } with evidence := ev, engines := x }
      rw [State.engine, engines]
      exact ⟨role, endEdge_free _, same, billing, fun safe => (endEdge_unsafe safe).1⟩
    · refine ⟨_, edge_next h (f := arbitrationEnd true _)
        ((judged true _).trans ((if_neg (by decide)).trans ((if_neg (by rw [third]; exact unequal)).trans (if_pos (third _))))) rfl,
        rfl, congrArg Engine.read (modAt_getD_same _ _ _ _ there), rfl, rfl, ⟨_, rfl, rfl, rfl⟩, rfl⟩
    · obtain ⟨x, run, role, partner, -⟩ :=
        underTest_frame (s := { s with engines := { s.engines with arbitration := none } }) (e := s.partner) there
      have active' : x.active = s.engines.active := by
        have := congrArg (fun t : State => t.engines.active) run
        refine this.symm.trans ?_
        unfold underTest
        dsimp only
        split <;> rfl
      refine ⟨_, edge_ends h (f := arbitrationEnd true _) (((judged true _).trans ((if_neg (by decide)).trans
        ((if_neg (by rw [third]; exact notTheirs)).trans (if_neg (by rw [third]; exact notMine))))).trans
        (congrArg (State.raiseExt 0x36 a.entry _) run)), ?_⟩
      obtain ⟨-, -, -, billing, -, -, -, engines, -⟩ := endEdge_frame (State.raiseExt 0x36 a.entry
        (leBytes 8 ((s.rebuilt a).1 ^^^ ((s.rebuilt a).1 ^^^ d)).toNat) { s with engines := x })
      rw [State.engine, engines]
      exact ⟨congrArg Engine.role role, partner ne, active', billing, fun safe => (endEdge_unsafe safe).1⟩
  · refine ⟨fun ready split ok idle role verdict c body pairs cut buffers sequences => ?_, fun no => ?_,
      fun split ok some_ r kept => ⟨?_, fun few => ?_, fun two => ?_⟩⟩
    · refine ⟨_, (s.writeRecord 1 s.engines.active c false body pairs).1,
        edge_next h (f := fun s => if s.ready then writeBilling s else s)
          ((if_pos ready).trans (writeBilling_writes split ok idle role verdict cut)) rfl, ?_, ?_, rfl, rfl, rfl, rfl, rfl, rfl,
        rfl, rfl, rfl, rfl⟩
      · exact modAt_getD_same _ _ _ _ (by omega)
      · change (modAt s.engines.buffers _ _)[_]? = _
        rw [modAt_getElem?, if_pos rfl, List.getElem?_eq_getElem (by omega)]
        rfl
    · refine edge_next h (f := fun s => if s.ready then writeBilling s else s) ?_ rfl
      split
      · next ready =>
        unfold writeBilling
        dsimp only
        rcases no with no | no | no
        · rw [no] at ready; cases ready
        · rw [if_pos (by simp [no])]
        · rw [no]; split <;> rfl
      · rfl
    · exact edge_next h (f := checkpointArrival true) ((checkpointArrival_notes split ok some_ kept true).trans (if_pos rfl)) rfl
    · exact edge_next h (f := checkpointArrival false) ((checkpointArrival_notes split ok some_ kept false).trans
        ((if_neg (by decide)).trans (if_neg (by omega)))) rfl
    · exact edge_ends h (f := checkpointArrival false) ((checkpointArrival_notes split ok some_ kept false).trans
        ((if_neg (by decide)).trans (if_pos (by omega))))

end Sys2Proof.Laws
end

section
/-! The power-line network: superframes and slots (R371–R373, R378, R389–R391, R393), forming and balances (R385, R395,
R400), and the frames heard (R374, R383, R387, R390, R392). -/

namespace Sys2Proof.Laws
open Sys2Proof Sys2Proof.Machine

/-! ### Superframes (R371, R378, R393) -/

/-- From `s` to `t` the network alone has changed, and not the count of its superframes and slots. -/
def KeepsBeat (s t : State) : Prop :=
  ∃ n : Net, t = { s with net := n } ∧ n.superframe = s.net.superframe ∧ n.started = s.net.started ∧
    n.slot = s.net.slot ∧ n.anchor = s.net.anchor ∧ n.counters = s.net.counters ∧ n.beaconing = s.net.beaconing

theorem KeepsBeat.trans {s t u : State} (h : KeepsBeat s t) (k : KeepsBeat t u) : KeepsBeat s u := by
  obtain ⟨n, rfl, a, b, c, d, e, f⟩ := h
  obtain ⟨m, rfl, a', b', c', d', e', f'⟩ := k
  exact ⟨m, rfl, a'.trans a, b'.trans b, c'.trans c, d'.trans d, e'.trans e, f'.trans f⟩

theorem KeepsBeat.refl (s : State) : KeepsBeat s s := ⟨_, rfl, rfl, rfl, rfl, rfl, rfl, rfl⟩

theorem passLatch_keeps (number boundary anchor : Nat) (s : State) : KeepsBeat s (passLatch number boundary anchor s) :=
  ⟨_, rfl, rfl, rfl, rfl, rfl, rfl, rfl⟩

theorem fixLatch_keeps (anchor : Nat) (s : State) : KeepsBeat s (fixLatch anchor s) := by
  unfold fixLatch
  extract_lets len t bound freq period left d silent _ u v
  have cleared : KeepsBeat s u := by
    simp only [u]
    split
    · split
      · exact ⟨_, rfl, rfl, rfl, rfl, rfl, rfl, rfl⟩
      · exact .refl s
    · exact .refl s
  clear_value u
  split
  · exact cleared
  · split
    · exact cleared.trans ⟨_, rfl, rfl, rfl, rfl, rfl, rfl, rfl⟩
    · exact cleared.trans ⟨_, rfl, rfl, rfl, rfl, rfl, rfl, rfl⟩

theorem endRejoin_keeps (s : State) : KeepsBeat s (endRejoin s) := by
  unfold endRejoin
  split
  · exact ⟨_, rfl, rfl, rfl, rfl, rfl, rfl, rfl⟩
  · exact .refl s

/-- The state in which a superframe has begun (R378). -/
def superframeBegun (s : State) : State :=
  { s with net := { s.net with
    superframe := if s.net.started then s.net.superframe + 1 else 0, started := true, slot := 0, anchor := s.beaconAnchor } }

theorem superframeStart_idle {s : State} (h : s.awake = false ∨ s.net.state = .off ∨
    (s.net.started = false ∧ s.instantNow < networkStart)) : superframeStart s = s := by
  unfold superframeStart
  rw [if_pos]
  rcases h with h | h | ⟨h, k⟩
  · simp [h]
  · simp [h]
  · simp [h, k]

/-- A superframe begins: its count, its latch, and its beacon. -/
theorem superframeStart_begins {s : State} (awake : s.awake = true) (on : s.net.state ≠ .off)
    (due : s.net.started = true ∨ networkStart ≤ s.instantNow) : ∃ u, KeepsBeat (superframeBegun s) u ∧
      superframeStart s = endRejoin (beacon u) := by
  have goes : (!s.awake || s.net.state == .off || (!s.net.started && decide (s.instantNow < networkStart))) = false := by
    have : s.net.started = true ∨ ¬ s.instantNow < networkStart := due.imp_right Nat.not_lt.mpr
    rcases this with k | k <;> simp [awake, on, k]
  unfold superframeStart
  rw [goes, if_neg (by decide)]
  extract_lets n anchor _ t u
  refine ⟨fixLatch anchor u, .trans ?_ (fixLatch_keeps anchor u), rfl⟩
  simp only [u]
  split
  · split
    · exact passLatch_keeps _ _ _ _
    · exact .refl _
  · exact .refl _

section Beacon
variable {s : State}

/-- No frame is begun: the line stays as it is. -/
theorem transmit_none (frame : Bytes) (anchor : Nat) (h : s.line.usable = false ∨ s.startPasses = false ∨
    s.power.warning = true ∨ s.line.state = .transmitting ∨ (s.sense.lanes.getD 5 {}).faulty = true) :
    transmit frame anchor s = s := by
  refine if_pos ?_
  rcases h with h | h | h | h | h <;> simp [h, -List.getD_eq_getElem?_getD]

/-- A frame is begun on a line that listens. -/
theorem transmit_listening (frame : Bytes) (anchor : Nat) (passes : s.startPasses = true) (line : s.line.state = .listening)
    (supply : s.power.warning = false) (lane : (s.sense.lanes.getD 5 {}).faulty = false) : ∃ x : LineSend,
      transmit frame anchor s = { s with line := { s.line with state := .transmitting, txLimit := false, sending := some x } } ∧
      x.start = anchor := by
  have usable : s.line.usable = true := by rw [Line.usable, line]; rfl
  unfold transmit
  rw [if_neg (by simp [usable, passes, line, supply, lane, -List.getD_eq_getElem?_getD]), if_neg (by rw [line]; decide)]
  exact ⟨_, rfl, rfl⟩

/-- The beacon is not sent while a condition of R378 fails. -/
theorem beacon_silent (h : s.netOpen = false ∨ s.startPasses = false ∨ s.power.warning = true ∨
    s.line.state = .transmitting ∨ (s.sense.lanes.getD 5 {}).faulty = true) : beacon s =
      { s with net := { s.net with beaconing := false, counters := modAt s.net.counters 1 (· + 1) } } := by
  refine if_neg ?_
  rcases h with h | h
  · rw [h]; simp
  · rw [transmit_none _ _ (.inr h)]
    by_cases tx : s.line.state = .transmitting <;> simp [tx]

/-- And is where none does. -/
theorem beacon_sends (opened : s.netOpen = true) (passes : s.startPasses = true) (line : s.line.state = .listening)
    (supply : s.power.warning = false) (lane : (s.sense.lanes.getD 5 {}).faulty = false) : ∃ (n : Net) (l : Line) (p : Start),
      beacon s = { s with net := n, line := l, start := p } ∧ n.beaconing = true ∧
      n.counters = modAt s.net.counters 0 (· + 1) ∧ n.superframe = s.net.superframe ∧ n.started = s.net.started ∧
      n.slot = s.net.slot ∧ n.anchor = s.net.anchor ∧ l.state = .transmitting ∧
      l.sending.map (fun x => x.start) = some s.net.anchor := by
  unfold beacon
  dsimp only
  obtain ⟨x, run, start⟩ := transmit_listening
    ({ type := 1, hops := 0, netId := s.view.netId, seq := 0, body := s.beaconBody } : NetFrame).bytes s.net.anchor
    passes line supply lane
  rw [run, if_pos (by simp [opened, line])]
  -- the first beacon of the start is noted
  split <;> split <;> exact ⟨_, _, _, rfl, rfl, rfl, rfl, rfl, rfl, rfl, rfl, congrArg some start⟩

theorem transmit_frame (frame : Bytes) (anchor : Nat) (s : State) : ∃ l : Line, transmit frame anchor s = { s with line := l } := by
  unfold transmit
  dsimp only
  split
  · exact ⟨_, rfl⟩
  · split <;> exact ⟨_, rfl⟩

/-- Whatever a beacon does, it touches the line, the network and the start. -/
theorem beacon_frame (s : State) : ∃ (n : Net) (l : Line) (p : Start), beacon s = { s with net := n, line := l, start := p } ∧
    n.superframe = s.net.superframe ∧ n.started = s.net.started ∧ n.slot = s.net.slot ∧ n.anchor = s.net.anchor := by
  unfold beacon
  dsimp only
  obtain ⟨l, run⟩ := transmit_frame
    ({ type := 1, hops := 0, netId := s.view.netId, seq := 0, body := s.beaconBody } : NetFrame).bytes s.net.anchor s
  rw [run]
  split
  · split <;> split <;> exact ⟨_, _, _, rfl, rfl, rfl, rfl, rfl⟩
  · exact ⟨_, _, _, rfl, rfl, rfl, rfl, rfl⟩

end Beacon

/-! ### Slots (R371–R373, R389–R391) -/

section Slots
variable {s : State}

theorem slotStart_idle (h : s.lineOn = false ∨ s.net.started = false ∨ 4 ≤ s.net.slot) : slotStart s = s := by
  refine if_pos ?_
  rcases h with h | h | h <;> simp [h]

/-- The network in its next slot. -/
def nextSlot (s : State) : Net := { s.net with slot := s.net.slot + 1 }

/-- One in whose data slot the transaction in flight has aged. -/
def agedSlot (s : State) : Net :=
  { nextSlot s with trans := s.net.trans.map (fun (k : Transaction) => ({ k with age := k.age + 1 } : Transaction)) }

theorem slotStart_counts (on : s.lineOn = true) (started : s.net.started = true) (few : s.net.slot < 4) : slotStart s =
    if dataSlot s.net.state s.net.superframe.toNat (s.net.slot + 1) = false then { s with net := nextSlot s }
    else if s.netOpen = false then { s with net := agedSlot s }
    else match s.net.broadcastLeft with
      | some n =>
        if n ≤ 1 then
          match ({ s with net := { agedSlot s with broadcastLeft := none } } : State).sendCommand with
          | some (tag, 0, _) => ({ s with net := { agedSlot s with broadcastLeft := none } } : State).complete tag .ok []
          | _ => { s with net := { agedSlot s with broadcastLeft := none } }
        else { s with net := { agedSlot s with broadcastLeft := some (n - 1) } }
      | none =>
        match (agedSlot s).trans with
        | some t => continueTransaction t { s with net := agedSlot s }
        | none => startTransaction { s with net := agedSlot s } := by
  have goes : (!s.lineOn || !s.net.started || decide (4 ≤ s.net.slot)) = false := by
    rw [on, started, decide_eq_false (by omega)]; rfl
  unfold slotStart
  rw [goes, if_neg (by decide)]
  dsimp only
  simp only [Bool.not_eq_true']
  rfl

/-- A data slot for the transaction in flight, or for the next. -/
theorem slotStart_transacts (on : s.lineOn = true) (started : s.net.started = true) (few : s.net.slot < 4)
    (data : dataSlot s.net.state s.net.superframe.toNat (s.net.slot + 1) = true) (opened : s.netOpen = true)
    (quiet : s.net.broadcastLeft = none) : slotStart s =
      match (agedSlot s).trans with
      | some t => continueTransaction t { s with net := agedSlot s }
      | none => startTransaction { s with net := agedSlot s } := by
  rw [slotStart_counts on started few, if_neg (by rw [data]; decide), if_neg (by rw [opened]; decide), quiet]

/-- A frame that has been sent is waited for, where the next is heard or not yet due (R390). -/
theorem continueTransaction_waits {t : Transaction} (sent : t.sent = true) (waits : t.heard = true ∨ t.wait + 1 < t.due) :
    continueTransaction t s = { s with net := { s.net with trans := some { t with wait := t.wait + 1 } } } := by
  unfold continueTransaction
  rw [sent, if_neg (by decide)]
  refine if_pos ?_
  rcases waits with w | w <;> simp [w]

/-- Where nobody waits, nothing is begun (R391). -/
theorem startTransaction_none (candidates : s.net.candidates = []) (next : s.nextTransaction = none) :
    startTransaction s = s := by
  have eta (x : Net) (e : x.candidates = []) : { x with candidates := [] } = x := by rw [← e]
  have kept : refuseCandidate s = s := by
    simp only [refuseCandidate, candidates, List.filter_nil]
    rw [eta _ candidates]
  unfold startTransaction
  dsimp only
  rw [kept, next]

/-- Forming ends (R385). -/
theorem formingEnd_eq (s : State) : formingEnd s =
    if s.net.state = .forming ∧ ((s.view.nodesExpected ≠ 0 ∧ s.view.nodesExpected ≤ s.joined.length) ∨
        s.net.firstBeaconSec.any (fun t => decide (max t s.net.lastJoinSec + 600 ≤ s.upSec)) = true ∨
        s.net.firstBeaconSec.any (fun t => decide (t + 3600 ≤ s.upSec)) = true)
      then { s with net := { s.net with state := .steady } } else s := by
  unfold formingEnd
  cases s.net.firstBeaconSec <;> simp

end Slots

section Balances
variable {s : State} {b : OpenBalance} {bs : List OpenBalance}

theorem balanceDeadline_waits (e : s.net.openBalances = b :: bs) (w : b.handed = false ∨ s.instantNow < b.deadline) :
    balanceDeadline s = s := by
  unfold balanceDeadline
  rw [e]
  refine if_neg ?_
  rcases w with w | w
  · simp [w]
  · simp [Nat.not_le.mpr w]

/-- A balance is published (R395, R400). -/
theorem publishBalance_frame (deadline : Bool) (e : s.net.openBalances = b :: bs) : ∃ n : Net,
    publishBalance deadline s = { s with net := n } ∧ n.openBalances = bs ∧
      (s.balanceOn = true → s.xa.suspended = false →
        n.balances = (s.balanceBytes b deadline :: s.net.balances).take 16) := by
  have marks (l : List (Nat × Nat × Bool)) (u : State) (k : ∃ n : Net, u = { s with net := n } ∧ n.balances = s.net.balances) :
      ∃ n : Net, l.foldl (fun s x => s.modNode x.1 (fun n => { n with reset := n.share b == .reset })) u = { s with net := n } ∧
        n.balances = s.net.balances := by
    refine List.foldlRecOn (motive := fun t => ∃ n : Net, t = { s with net := n } ∧ n.balances = s.net.balances) l _ k ?_
    rintro _ ⟨n, rfl, same⟩ x -
    exact ⟨_, rfl, same⟩
  unfold publishBalance
  rw [e]
  dsimp only
  obtain ⟨n, run, same⟩ := marks b.nodes s ⟨_, rfl, rfl⟩
  rw [run]
  refine ⟨_, rfl, rfl, fun on going => ?_⟩
  have on' : ({ s with net := n } : State).balanceOn = true := on
  dsimp only
  rw [on', going, same]
  rfl

end Balances

/-- The network that forms has discarded its table (R385). -/
theorem formNetwork_frame (s : State) : ∃ (st : Store) (n : Net), formNetwork s = { s with store := st, net := n } ∧
    n.state = .forming ∧ n.form = s.net.form + 1 ∧ n.nodes = List.replicate 256 {} ∧ n.neighbours = [] ∧ n.trans = none := by
  unfold formNetwork
  extract_lets used _ a
  have saved : ∃ st : Store, used.foldl (fun s a => saveNode a s) a = { a with store := st } := by
    refine List.foldlRecOn (motive := fun t => ∃ st : Store, t = { a with store := st }) used _ ⟨a.store, rfl⟩ ?_
    rintro _ ⟨st, rfl⟩ k -
    exact ⟨_, rfl⟩
  obtain ⟨st, e⟩ := saved
  rw [e]
  exact ⟨_, _, rfl, rfl, rfl, rfl, rfl, rfl⟩

/-- The forming command member (R408). -/
theorem setObject_formNetwork {s : State} (fit : s.part.fitZlk = true) (free : heldIn s.start.heldMask.toNat 0x5044 = false) :
    setObject 0x5044 (leBytes 2 0x464E) s =
      if s.view.zlOn = true then (.done .ok [], formNetwork s) else (.done .wrongState [], s) := by
  have fits : fitted s.part 0x5044 = true := by
    change (s.part.fitZlk && _) = true
    rw [fit]; rfl
  have spec : s.spec 0x5044 = rwMember 2 := by
    unfold State.spec
    rw [fits]
    rfl
  rw [setObject_writes (.inl (by rw [spec]; rfl)) rfl (by simp [State.blockProtected, spec, rwMember]) free
    (by rw [spec]; exact leBytes_length 2 _)]
  change answerOf (networkCommand (leNat (leBytes 2 0x464E)) s) = _
  rw [leNat_leBytes_of_lt (by decide), networkCommand, if_neg (by decide)]
  cases s.view.zlOn <;> rfl

/-- Settles O49: superframes, slots, the end of forming, balances, and the forming command. -/
theorem superframesAndSlots : Obligations.SuperframesAndSlots := by
  unfold Obligations.SuperframesAndSlots
  intro s h
  dsimp only
  refine ⟨fun idle => edge_next h (f := superframeStart) (superframeStart_idle idle) rfl, fun awake on due => ?_,
    fun idle => edge_next h (f := slotStart) (slotStart_idle idle) rfl, fun on started few => ⟨fun other => ?_, fun data =>
      ⟨fun shut => ?_, fun n opened left two => ?_, fun k opened none_ trans sent waits => ?_, fun opened none_ idle candidates next => ?_⟩⟩,
    ?_, fun none_ => ?_, fun b bs e => ⟨fun waits => ?_, fun handed due => ?_⟩, fun port tag fit free => ?_⟩
  · obtain ⟨u, ⟨n, eu, superframe, started, slot, anchor, counters, beaconing⟩, run⟩ := superframeStart_begins awake on due
    have parts : u.netOpen = s.netOpen ∧ u.startPasses = s.startPasses := by rw [eu]; exact ⟨rfl, rfl⟩
    obtain ⟨nb, l, p, eb, b₁, b₂, b₃, b₄⟩ := beacon_frame u
    obtain ⟨m, em, m₁, m₂, m₃, m₄, m₅, m₆⟩ := endRejoin_keeps (beacon u)
    have whole : superframeStart s = { s with net := m, line := l, start := p } := by
      rw [run, em, eb, eu]
      rfl
    have nets : (beacon u).net = nb := by rw [eb]
    rw [nets] at m₁ m₂ m₃ m₄ m₅ m₆
    have own : u.net = n := by rw [eu]
    rw [own] at b₁ b₂ b₃ b₄
    refine ⟨_, edge_next h (f := superframeStart) whole rfl, m₁.trans (b₁.trans superframe), m₂.trans (b₂.trans started),
      m₃.trans (b₃.trans slot), m₄.trans (b₄.trans anchor), fun silent => ?_, fun opened passes line supply lane => ?_, rfl⟩
    · have quiet : beacon u = _ := beacon_silent (s := u) (by rw [parts.1, parts.2, eu]; exact silent)
      rw [eb] at quiet
      have enet := congrArg State.net quiet
      have eline := congrArg State.line quiet
      dsimp only at enet eline
      refine ⟨?_, ?_, ?_⟩
      · rw [m₆, enet]
      · rw [eline, eu]; rfl
      · rw [m₅, enet, own, counters]; rfl
    · obtain ⟨nb', l', p', eb', c₁, c₂, -, -, -, -, c₃, c₄⟩ := beacon_sends (s := u) (by rw [parts.1]; exact opened)
        (by rw [parts.2]; exact passes) (by rw [eu]; exact line) (by rw [eu]; exact supply) (by rw [eu]; exact lane)
      rw [eb] at eb'
      have enet : nb = nb' := congrArg State.net eb'
      have eline : l = l' := congrArg State.line eb'
      subst enet eline
      refine ⟨m₆.trans c₁, m₅.trans (c₂.trans ?_), c₃, c₄.trans ?_⟩
      · rw [own, counters]; rfl
      · rw [own, anchor]; rfl
  · exact edge_next h (f := slotStart) ((slotStart_counts on started few).trans (if_pos other)) rfl
  · refine edge_next h (f := slotStart) ((slotStart_counts on started few).trans ?_) rfl
    rw [if_neg (by rw [data]; decide), if_pos shut]
    rfl
  · refine edge_next h (f := slotStart) ((slotStart_counts on started few).trans ?_) rfl
    rw [if_neg (by rw [data]; decide), if_neg (by rw [opened]; decide), left]
    exact if_neg (by omega)
  · refine edge_next h (f := slotStart) ((slotStart_transacts on started few data opened none_).trans ?_) rfl
    have aged : (agedSlot s).trans = some { k with age := k.age + 1 } := by rw [agedSlot, trans]; rfl
    rw [aged]
    exact continueTransaction_waits (s := { s with net := agedSlot s }) (t := { k with age := k.age + 1 }) sent waits
  · refine edge_next h (f := slotStart) ((slotStart_transacts on started few data opened none_).trans ?_) rfl
    have eta (x : Net) (e : x.trans = none) : { x with trans := none } = x := by rw [← e]
    have aged : agedSlot s = nextSlot s := by rw [agedSlot, idle]; exact eta _ idle
    have trans : (nextSlot s).trans = none := idle
    rw [aged, trans]
    exact startTransaction_none (s := { s with net := nextSlot s }) candidates next
  · refine edge_next h (f := formingEnd) (formingEnd_eq s) ?_
    split <;> rfl
  · refine edge_next h (f := balanceDeadline) ?_ rfl
    simp only [balanceDeadline, none_]
  · exact edge_next h (f := balanceDeadline) (balanceDeadline_waits e waits) rfl
  · obtain ⟨n, run, rest, published⟩ := publishBalance_frame true e
    refine ⟨_, edge_next h (f := balanceDeadline) (Eq.trans ?_ run) rfl, rest, published, rfl⟩
    unfold balanceDeadline
    rw [e]
    exact if_pos (by rw [handed, decide_eq_true due]; rfl)
  · intro q
    have fits : (begun 0x02 (writeReq port tag 0x5044 (leBytes 2 0x464E)) s).part.fitZlk = true := by rw [begun_part]; exact fit
    have open_ : heldIn (begun 0x02 (writeReq port tag 0x5044 (leBytes 2 0x464E)) s).start.heldMask.toNat 0x5044 = false := by
      rw [begun_start]; exact free
    refine ⟨fun off => ?_, fun on => ?_⟩
    · refine setRow_runs_quiet h q (by decide) (by decide) ((setObject_formNetwork fits open_).trans (if_neg ?_))
        (begun_evidence (op := 0x02))
      rw [begun_view, off]; decide
    · obtain ⟨st, n, run, state, form, nodes, neighbours, trans⟩ :=
        formNetwork_frame (begun 0x02 (writeReq port tag 0x5044 (leBytes 2 0x464E)) s)
      refine ⟨_, setRow_runs_quiet h q (by decide) (by decide) ((setObject_formNetwork fits open_).trans
        ((if_pos (by rw [begun_view]; exact on)).trans (congrArg _ run))) (begun_evidence (op := 0x02)), state, ?_, nodes, neighbours,
        trans, ?_⟩
      · rw [form, begun_net]
      · generalize writeReq port tag 0x5044 (leBytes 2 0x464E) = r
        rw [begun_frame]

end Sys2Proof.Laws
end

section
/-! The frames heard on the power-line network (R374, R383, R387, R390–R392). -/

namespace Sys2Proof.Laws
open Sys2Proof Sys2Proof.Machine

/-! ### What the network's own bookkeeping leaves as it is -/

/-- From `s` to `t` no node has come, gone or been heard, and nothing outside the network and the line is billed or
logged. -/
structure Calm (s t : State) : Prop where
  billing : t.billing = s.billing
  sluice : t.sluice = s.sluice
  evidence : t.evidence = s.evidence
  backup : t.backup = s.backup
  trans : t.net.trans = s.net.trans
  length : t.net.nodes.length = s.net.nodes.length
  state : ∀ a, (t.node a).state = (s.node a).state
  failures : ∀ a, (t.node a).failures = (s.node a).failures
  heardSec : ∀ a, (t.node a).heardSec = (s.node a).heardSec

namespace Calm

theorem refl (s : State) : Calm s s := ⟨rfl, rfl, rfl, rfl, rfl, rfl, fun _ => rfl, fun _ => rfl, fun _ => rfl⟩

theorem trans' {s t u : State} (h : Calm s t) (k : Calm t u) : Calm s u :=
  ⟨k.billing.trans h.billing, k.sluice.trans h.sluice, k.evidence.trans h.evidence, k.backup.trans h.backup,
    k.trans.trans h.trans, k.length.trans h.length, fun a => (k.state a).trans (h.state a),
    fun a => (k.failures a).trans (h.failures a), fun a => (k.heardSec a).trans (h.heardSec a)⟩

theorem foldl {α : Type} {f : State → α → State} (h : ∀ s x, Calm s (f s x)) (l : List α) (s : State) :
    Calm s (l.foldl f s) := by
  induction l generalizing s with
  | nil => exact .refl s
  | cons x xs ih => exact (h s x).trans' (ih _)

theorem ite {s t u : State} {c : Prop} [Decidable c] (h : Calm s t) (k : Calm s u) : Calm s (if c then t else u) := by
  split
  · exact h
  · exact k

/-- What leaves the nodes alone. -/
theorem other {s t : State} (billing : t.billing = s.billing) (sluice : t.sluice = s.sluice)
    (evidence : t.evidence = s.evidence) (backup : t.backup = s.backup) (trans : t.net.trans = s.net.trans)
    (nodes : t.net.nodes = s.net.nodes) : Calm s t := by
  have same (a : Nat) : t.node a = s.node a := by rw [State.node, nodes, State.node]
  exact ⟨billing, sluice, evidence, backup, trans, congrArg _ nodes, fun a => by rw [same], fun a => by rw [same],
    fun a => by rw [same]⟩

end Calm

theorem node_modNode (a b : Nat) (f : Node → Node) (s : State) (h : b = a → f (s.node a) = s.node a ∨ a < s.net.nodes.length) :
    (s.modNode a f).node b = if b = a then f (s.node a) else s.node b := by
  change (modAt s.net.nodes a f).getD b {} = _
  split
  case isTrue e =>
    subst e
    rcases h rfl with same | lt
    · rw [modAt_self (d := {}) same]
      exact same.symm
    · exact modAt_getD_same _ _ _ _ lt
  case isFalse e => exact modAt_getD_other _ _ _ _ e

/-- A node changed in what is neither its state, its failures nor when it was heard. -/
theorem modNode_calm (a : Nat) {f : Node → Node} (s : State)
    (h : ∀ n, (f n).state = n.state ∧ (f n).failures = n.failures ∧ (f n).heardSec = n.heardSec := by exact fun _ => ⟨rfl, rfl, rfl⟩) :
    Calm s (s.modNode a f) := by
  have each (b : Nat) : ((s.modNode a f).node b).state = (s.node b).state ∧
      ((s.modNode a f).node b).failures = (s.node b).failures ∧ ((s.modNode a f).node b).heardSec = (s.node b).heardSec := by
    by_cases lt : a < s.net.nodes.length
    · rw [node_modNode a b f s (fun _ => .inr lt)]
      split
      case isTrue e => rw [e]; exact h _
      case isFalse => exact ⟨rfl, rfl, rfl⟩
    · have same : s.modNode a f = s := by
        have out : modAt s.net.nodes a f = s.net.nodes := by
          refine List.ext_getElem? fun j => ?_
          rw [modAt_getElem?]
          split
          case isTrue e => rw [e, List.getElem?_eq_none (Nat.not_lt.mp lt)]; rfl
          case isFalse => rfl
        rw [State.modNode, out]
      rw [same]
      exact ⟨rfl, rfl, rfl⟩
  exact ⟨rfl, rfl, rfl, rfl, rfl, modAt_length _ _ _, fun b => (each b).1, fun b => (each b).2.1, fun b => (each b).2.2⟩

theorem countNet_calm (k : Nat) (s : State) : Calm s (countNet k s) := .other rfl rfl rfl rfl rfl rfl

theorem saveNode_calm (a : Nat) (s : State) : Calm s (saveNode a s) := .other rfl rfl rfl rfl rfl rfl

theorem setIrq_calm (b : Irq) (s : State) : Calm s (s.setIrq b) := .other rfl rfl rfl rfl rfl rfl

theorem gradeRoute_calm (ok : Bool) (route : List Nat) (a : Nat) (s : State) : Calm s (gradeRoute ok route a s) :=
  .other rfl rfl rfl rfl rfl rfl

theorem Calm.saved {s t : State} (h : Calm s t) (a : Nat) : Calm s (saveNode a t) := h.trans' (saveNode_calm a t)

theorem Calm.irq {s t : State} (h : Calm s t) (b : Irq) : Calm s (t.setIrq b) := h.trans' (setIrq_calm b t)

theorem Calm.counted {s t : State} (h : Calm s t) (k : Nat) : Calm s (countNet k t) := h.trans' (countNet_calm k t)

theorem complete_calm (tag : Nat) (st : Status) (p : Bytes) (s : State) : Calm s (s.complete tag st p) := by
  obtain ⟨l, e⟩ := complete_frame s tag st p
  rw [e]
  exact .other rfl rfl rfl rfl rfl rfl

theorem hearLink_calm (x y m : Nat) (s : State) : Calm s (hearLink x y m s) := by
  unfold hearLink
  dsimp only
  refine .ite (.refl s) (.ite (.other rfl rfl rfl rfl rfl rfl) (.ite (.other rfl rfl rfl rfl rfl rfl) ?_))
  split
  · exact .other rfl rfl rfl rfl rfl rfl
  · exact countNet_calm 9 s

theorem setRole_calm (a : Nat) (on : Bool) (s : State) : Calm s (setRole a on s) := by
  unfold setRole
  exact .ite (.refl s) (.saved (modNode_calm a s) a)

theorem setRoles_calm (s : State) : Calm s (setRoles s) := by
  unfold setRoles
  extract_lets named t reps
  refine .trans' (Calm.foldl (fun s a => setRole_calm a _ s) s.joined s) (.foldl (fun u x => ?_) _ t)
  exact .ite (.refl u) (.saved (modNode_calm x.1 u) x.1)

theorem reroute_calm (s : State) : Calm s (reroute s) := by
  unfold reroute
  extract_lets ways
  refine .trans' (.foldl (fun u a => ?_) _ s) (setRoles_calm _)
  split
  · exact .refl u
  · exact .ite (.refl u) (.saved (.counted (modNode_calm a u) 8) a)

theorem noteCheck_calm (a c : Nat) (s : State) : Calm s (noteCheck a c s) :=
  .ite (.refl s) (modNode_calm a s)

theorem reportBin_calm (a theta : Nat) (s : State) : Calm s (reportBin a theta s) := by
  unfold reportBin
  extract_lets t
  have noted : Calm s t := modNode_calm a s
  clear_value t
  split
  · exact noted
  · refine noted.trans' (.ite (modNode_calm a t) (.ite ?_ (modNode_calm a t)))
    exact .trans' (.trans' (modNode_calm a t) (saveNode_calm a _)) (setIrq_calm .zlink _)

theorem addCandidate_calm (uid proxy margin : Nat) (s : State) : Calm s (addCandidate uid proxy margin s) :=
  .ite (.refl s) (.other rfl rfl rfl rfl rfl rfl)

theorem endRejoin_calm (s : State) : Calm s (endRejoin s) := .ite (.other rfl rfl rfl rfl rfl rfl) (.refl s)

theorem takeStatus_calm (a : Nat) (route : List Nat) (b : Bytes) (s : State) : Calm s (takeStatus a route b s) := by
  unfold takeStatus
  exact .trans' (.trans' (.trans' (reportBin_calm _ _ s) (hearLink_calm _ _ _ _)) (.foldl (fun u _ => hearLink_calm _ _ _ u) _ _))
    (.foldl (fun u _ => addCandidate_calm _ _ _ u) _ _)

theorem takeReport_calm (a : Nat) (b : Bytes) (s : State) : Calm s (takeReport a b s) := by
  have kept (r : NodeRecord) (n : Node) : (keepRecord r n).state = n.state ∧ (keepRecord r n).failures = n.failures ∧
      (keepRecord r n).heardSec = n.heardSec := by
    unfold keepRecord
    split <;> exact ⟨rfl, rfl, rfl⟩
  unfold takeReport
  extract_lets t
  have binned : Calm s t := reportBin_calm _ _ s
  clear_value t
  split
  · exact binned
  · exact binned.trans' (.foldl (fun u r => modNode_calm a u (kept r)) _ t)

theorem noteSwept_calm (a last : Nat) (s : State) : Calm s (noteSwept a last s) := modNode_calm a s

theorem publishBalance_calm (deadline : Bool) (s : State) : Calm s (publishBalance deadline s) := by
  unfold publishBalance
  split
  · exact .refl s
  · refine .trans' (.foldl (fun u x => ?_) _ s) (.other rfl rfl rfl rfl rfl rfl)
    exact modNode_calm x.1 u

theorem publishReady_calm (fuel : Nat) (s : State) : Calm s (publishReady fuel s) := by
  induction fuel generalizing s with
  | zero => exact .refl s
  | succ n ih => exact .ite (.trans' (publishBalance_calm false s) (ih _)) (.refl s)

theorem tryPublish_calm (s : State) : Calm s (tryPublish s) := publishReady_calm _ s

/-! ### The reception of a frame (R357, R374, R387) -/

/-- The end of a reception touches the line. -/
theorem endReception_frame (f : LineFrame) (s : State) : ∃ l : Line, endReception f s = { s with line := l } := by
  unfold endReception countLine
  dsimp only
  repeat' split
  all_goals exact ⟨_, rfl⟩

theorem endReception_evidence (f : LineFrame) (s : State) : (endReception f s).evidence = s.evidence := by
  obtain ⟨l, e⟩ := endReception_frame f s
  rw [e]

theorem endReception_calm (f : LineFrame) (s : State) : Calm s (endReception f s) := by
  obtain ⟨l, e⟩ := endReception_frame f s
  rw [e]
  exact .other rfl rfl rfl rfl rfl rfl

section Hearing
variable {s : State} {f : LineFrame} {types : List Nat} {k : HeardFrame → NetFrame → State → State}

theorem hear_deaf (h : s.hearsFrame f = false ∨ s.lineOn = false) : hear types f k s = s := by
  refine if_pos ?_
  rcases h with h | h <;> simp [h]

variable (hears : s.hearsFrame f = true) (on : s.lineOn = true)
include hears on

theorem hear_unread (bad : (s.judgeFrame f).1 = none) : hear types f k s = endReception f s := by
  unfold hear
  rw [hears, on, if_neg (by decide), bad]

theorem hear_foreign {h : HeardFrame} (good : (s.judgeFrame f).1 = some h)
    (foreign : ∀ n, readFrame h.payload = some n → n.netId ≠ s.view.netId ∨ n.type ∉ types) :
    hear types f k s = endReception f s := by
  have view : (endReception f s).view = s.view := by
    obtain ⟨l, e⟩ := endReception_frame f s
    rw [e]; rfl
  unfold hear
  rw [hears, on, if_neg (by decide), good]
  dsimp only
  cases read : readFrame h.payload with
  | none => rfl
  | some n =>
    refine if_pos ?_
    rw [view]
    rcases foreign n read with other | other <;> simp [other]

/-- What the reception of a network's frame does before its own taking: the sender and its link are noted. -/
def noted (h : HeardFrame) (n : NetFrame) (s : State) : State :=
  let s1 := noteCheck n.owner (s.offsetAt h.anchor) s
  if n.sender = 0 || (s.node n.sender).state == .free then s1
  else nodeHeard n.sender (hearLink 0 n.sender (s.marginOf h.level) s1)

theorem hear_taken {h : HeardFrame} {n : NetFrame} (good : (s.judgeFrame f).1 = some h) (read : readFrame h.payload = some n)
    (net : n.netId = s.view.netId) (type : n.type ∈ types) : hear types f k s =
      if (k h n (noted h n (endReception f s))).net.neighbours = (endReception f s).net.neighbours
      then k h n (noted h n (endReception f s)) else reroute (k h n (noted h n (endReception f s))) := by
  have view : (endReception f s).view = s.view := by
    obtain ⟨l, e⟩ := endReception_frame f s
    rw [e]; rfl
  unfold hear
  rw [hears, on, if_neg (by decide), good]
  dsimp only
  rw [read]
  refine if_neg ?_
  rw [view]
  simp [net, type]

end Hearing

/-! ### A node is heard (R387, R392) -/

/-- From `s` to `t` node `a` has been heard, and nothing outside the network, the line and the link has changed. -/
structure Heard (a : Nat) (s t : State) : Prop where
  billing : t.billing = s.billing
  sluice : t.sluice = s.sluice
  evidence : t.evidence = s.evidence
  backup : t.backup = s.backup
  trans : t.net.trans = s.net.trans
  length : t.net.nodes.length = s.net.nodes.length
  state : (t.node a).state = .present
  failures : (t.node a).failures = 0
  heardSec : (t.node a).heardSec = s.sec

/-- From `s` to `t` frames may have been heard, but no node in use has become free. -/
structure Hears (s t : State) : Prop where
  billing : t.billing = s.billing
  sluice : t.sluice = s.sluice
  evidence : t.evidence = s.evidence
  backup : t.backup = s.backup
  trans : t.net.trans = s.net.trans
  length : t.net.nodes.length = s.net.nodes.length
  used : ∀ a, (s.node a).state ≠ .free → (t.node a).state ≠ .free

theorem Calm.hears {s t : State} (h : Calm s t) : Hears s t :=
  ⟨h.billing, h.sluice, h.evidence, h.backup, h.trans, h.length, fun a k => by rw [h.state a]; exact k⟩

theorem Hears.trans' {s t u : State} (h : Hears s t) (k : Hears t u) : Hears s u :=
  ⟨k.billing.trans h.billing, k.sluice.trans h.sluice, k.evidence.trans h.evidence, k.backup.trans h.backup,
    k.trans.trans h.trans, k.length.trans h.length, fun a q => k.used a (h.used a q)⟩

theorem Heard.calm {a : Nat} {s t u : State} (h : Heard a s t) (k : Calm t u) : Heard a s u :=
  ⟨k.billing.trans h.billing, k.sluice.trans h.sluice, k.evidence.trans h.evidence, k.backup.trans h.backup,
    k.trans.trans h.trans, k.length.trans h.length, (k.state a).trans h.state, (k.failures a).trans h.failures,
    (k.heardSec a).trans h.heardSec⟩

theorem Hears.heard {a : Nat} {s t u : State} (h : Hears s t) (k : Heard a t u) : Heard a s u :=
  ⟨k.billing.trans h.billing, k.sluice.trans h.sluice, k.evidence.trans h.evidence, k.backup.trans h.backup,
    k.trans.trans h.trans, k.length.trans h.length, k.state, k.failures, k.heardSec.trans (by rw [State.sec, h.backup, State.sec])⟩

theorem nodeHeard_heard {a : Nat} {s : State} (own : a ≠ 0) (known : a < s.net.nodes.length) (used : (s.node a).state ≠ .free) :
    Heard a s (nodeHeard a s) := by
  have entered : Heard a s (s.modNode a fun n => { n with state := .present, failures := 0, heardSec := s.sec }) := by
    have e := node_modNode a a (fun n => { n with state := .present, failures := 0, heardSec := s.sec }) s (fun _ => .inr known)
    rw [if_pos rfl] at e
    exact ⟨rfl, rfl, rfl, rfl, rfl, modAt_length _ _ _, by rw [e], by rw [e], by rw [e]⟩
  unfold nodeHeard
  dsimp only
  rw [if_neg (by simp [own, used])]
  split
  · exact entered.calm (reroute_calm _)
  · exact entered

theorem nodeHeard_hears (a : Nat) (s : State) : Hears s (nodeHeard a s) := by
  unfold nodeHeard
  dsimp only
  split
  · exact (Calm.refl s).hears
  · have entered : Hears s (s.modNode a fun n => { n with state := .present, failures := 0, heardSec := s.sec }) := by
      refine ⟨rfl, rfl, rfl, rfl, rfl, modAt_length _ _ _, fun b used => ?_⟩
      change ((modAt s.net.nodes a _).getD b {}).state ≠ .free
      by_cases e : b = a
      · subst e
        by_cases lt : b < s.net.nodes.length
        · rw [modAt_getD_same _ _ _ _ lt]; exact (by decide : NodeState.present ≠ .free)
        · refine absurd ?_ used
          rw [State.node, List.getD_eq_default _ _ (Nat.not_lt.mp lt)]
      · rw [modAt_getD_other _ _ _ _ e]; exact used
    split
    · exact entered.trans' (reroute_calm _).hears
    · exact entered

theorem noted_hears (h : HeardFrame) (n : NetFrame) (s : State) : Hears s (noted h n s) := by
  unfold noted
  dsimp only
  split
  · exact (noteCheck_calm _ _ s).hears
  · exact ((noteCheck_calm _ _ s).trans' (hearLink_calm _ _ _ _)).hears.trans' (nodeHeard_hears _ _)

/-- A frame is taken in a state in which its reception has ended and its sender is noted; the routes follow. -/
theorem hear_takes {s : State} {f : LineFrame} {types : List Nat} {k : HeardFrame → NetFrame → State → State}
    (hears : s.hearsFrame f = true) (on : s.lineOn = true) {h : HeardFrame} {n : NetFrame} (good : (s.judgeFrame f).1 = some h)
    (read : readFrame h.payload = some n) (net : n.netId = s.view.netId) (type : n.type ∈ types) :
    ∃ u, Hears s u ∧ Calm (k h n u) (hear types f k s) := by
  refine ⟨_, (endReception_calm f s).hears.trans' (noted_hears h n _), ?_⟩
  rw [hear_taken hears on good read net type]
  exact .ite (.refl _) (reroute_calm _)

/-- The transaction in flight has ended, and its node has been heard. -/
theorem endTransaction_heard {t : Transaction} {s : State} (own : t.node ≠ 0) (known : t.node < s.net.nodes.length)
    (used : (s.node t.node).state ≠ .free) :
    Heard t.node { s with net := { s.net with trans := none } } (endTransaction t s) := by
  have graded : Calm { s with net := { s.net with trans := none } }
      (gradeRoute true t.route t.node (countNet 2 { s with net := { s.net with trans := none } })) :=
    (countNet_calm 2 _).trans' (gradeRoute_calm _ _ _ _)
  refine graded.hears.heard (nodeHeard_heard own ?_ ?_)
  · rw [graded.length]; exact known
  · rw [graded.state]; exact used

/-! ### A transaction is not answered (R390, R392) -/

/-- From `s` to `t` the billing, the transaction in flight and the nodes' failures stand. -/
structure Fails (s t : State) : Prop where
  billing : t.billing = s.billing
  trans : t.net.trans = s.net.trans
  failures : ∀ a, (t.node a).failures = (s.node a).failures

theorem Calm.fails {s t : State} (h : Calm s t) : Fails s t := ⟨h.billing, h.trans, h.failures⟩

theorem Fails.trans' {s t u : State} (h : Fails s t) (k : Fails t u) : Fails s u :=
  ⟨k.billing.trans h.billing, k.trans.trans h.trans, fun a => (k.failures a).trans (h.failures a)⟩

theorem loseNode_fails (a : Nat) (s : State) : Fails s (loseNode a s) := by
  unfold loseNode
  split
  · exact (Calm.refl s).fails
  · refine ⟨rfl, rfl, fun b => ?_⟩
    change ((modAt s.net.nodes a _).getD b {}).failures = (s.node b).failures
    by_cases e : b = a
    · subst e
      by_cases lt : b < s.net.nodes.length
      · rw [modAt_getD_same _ _ _ _ lt]; rfl
      · rw [List.getD_eq_default _ _ (by rw [modAt_length]; exact Nat.not_lt.mp lt), State.node,
          List.getD_eq_default _ _ (Nat.not_lt.mp lt)]
    · rw [modAt_getD_other _ _ _ _ e]; rfl

theorem nodeAbsent_fails (a : Nat) (s : State) : Fails s (nodeAbsent a s) := by
  have each (l : List Nat) (s : State) :
      Fails s (l.foldl (fun s b => if (s.node b).live && !s.reachable b then loseNode b s else s) s) := by
    induction l generalizing s with
    | nil => exact (Calm.refl s).fails
    | cons b bs ih =>
      refine Fails.trans' ?_ (ih _)
      dsimp only
      split
      · exact loseNode_fails b s
      · exact (Calm.refl s).fails
  have lost : Fails s (reroute (loseNode a s)) := (loseNode_fails a s).trans' (reroute_calm _).fails
  unfold nodeAbsent
  dsimp only
  split
  · exact lost.trans' ((each _ _).trans' (reroute_calm _).fails)
  · exact lost

/-- A joined node's transaction that fails is a failure of its node. -/
theorem failTransaction_fails {t : Transaction} {s : State} (joined : t.kind.unjoined = false)
    (known : t.node < s.net.nodes.length) : (failTransaction t s).net.trans = none ∧
      ((failTransaction t s).node t.node).failures = (s.node t.node).failures + 1 ∧
      (failTransaction t s).billing = s.billing := by
  unfold failTransaction
  extract_lets _ u v w x
  have graded : Calm { s with net := { s.net with trans := none } } u := (countNet_calm 3 _).trans' (gradeRoute_calm _ _ _ _)
  have ended : Calm { s with net := { s.net with trans := none } } v := by
    simp only [v]
    split
    · exact graded.trans' (complete_calm _ _ _ _)
    · exact graded
  have marked : w.net.trans = none ∧ (w.node t.node).failures = (s.node t.node).failures + 1 ∧ w.billing = s.billing := by
    refine ⟨ended.trans, ?_, ended.billing⟩
    rw [node_modNode _ _ _ _ (fun _ => .inr (by rw [ended.length]; exact known)), if_pos rfl]
    exact congrArg (· + 1) (ended.failures t.node)
  have after : Fails w x := by
    simp only [x]
    split
    · exact nodeAbsent_fails _ _
    · exact (reroute_calm _).fails
  have whole : Fails w (tryPublish (endRejoin x)) :=
    after.trans' ((endRejoin_calm x).trans' (tryPublish_calm _)).fails
  rw [joined, if_neg (by decide)]
  exact ⟨whole.trans.trans marked.1, (whole.failures _).trans marked.2.1, whole.billing.trans marked.2.2⟩

/-! ### The frames, each in its turn -/

section Frames
variable {s : State} {f : LineFrame} {h : HeardFrame} {n : NetFrame}

/-- A direct request to join names no node: only its candidate is noted. -/
theorem joinReq_taken (hears : s.hearsFrame f = true) (on : s.lineOn = true) (good : (s.judgeFrame f).1 = some h)
    (read : readFrame h.payload = some n) (net : n.netId = s.view.netId) (type : n.type = 0x10) (src : n.src = 0) :
    joinReq f s = addCandidate (getU n.body 0 8) 0 ((endReception f s).marginOf h.level) (endReception f s) := by
  have sender : n.sender = 0 := by simp [NetFrame.sender, type, src]
  have owner : n.owner = 0 := by simp [NetFrame.owner, type]
  have alone : noted h n (endReception f s) = endReception f s := by simp [noted, noteCheck, sender, owner]
  unfold joinReq
  rw [hear_taken hears on good read net (by rw [type]; decide), alone]
  refine if_pos ?_
  unfold addCandidate
  split <;> rfl

theorem addCandidate_received (f : LineFrame) (uid : Nat) (level : Int) :
    addCandidate uid 0 ((endReception f s).marginOf level) (endReception f s) =
      if s.joinOpen = true ∧ s.net.candidates.any (fun c => c.uid == uid) = false then
        { endReception f s with net := { (endReception f s).net with candidates := (endReception f s).net.candidates ++
          [{ uid := uid, proxy := 0, margin := s.marginOf level }] } }
      else endReception f s := by
  obtain ⟨l, e⟩ := endReception_frame f s
  rw [e]
  change (if (!s.joinOpen || s.net.candidates.any (fun c => c.uid == uid)) then _ else _) = _
  cases s.joinOpen <;> cases s.net.candidates.any (fun c => c.uid == uid) <;> rfl

variable {k : Transaction}

/-- The frame answers the transaction in flight (R390). -/
structure Answering (s : State) (n : NetFrame) (k : Transaction) : Prop where
  trans : s.net.trans = some k
  sent : k.sent = true
  up : n.up = true
  seq : n.seq = k.seq.toNat
  src : n.src = k.node
  own : k.node ≠ 0
  known : k.node < s.net.nodes.length
  used : (s.node k.node).state ≠ .free

theorem Answering.hears {t : State} (a : Answering s n k) (e : Hears s t) : Answering t n k :=
  ⟨e.trans.trans a.trans, a.sent, a.up, a.seq, a.src, a.own, by rw [e.length]; exact a.known, e.used _ a.used⟩

theorem Answering.answers (a : Answering s n k) : s.answers n = some k := by
  unfold State.answers
  rw [a.trans]
  exact if_pos (by simp [a.sent, a.up, a.seq, a.src])

theorem Answering.ends (a : Answering s n k) :
    Heard k.node { s with net := { s.net with trans := none } } (endTransaction k s) :=
  endTransaction_heard a.own a.known a.used

/-- What answers the transaction in flight ends it (R387, R390, R392). -/
theorem answer_ends {f : LineFrame} {i : Instr} (hears : s.hearsFrame f = true) (on : s.lineOn = true)
    (good : (s.judgeFrame f).1 = some h) (read : readFrame h.payload = some n) (net : n.netId = s.view.netId)
    (a : Answering s n k)
    (which : (i = .status f ∧ n.type = 0x23 ∧ k.kind = .statusReq) ∨ (i = .dataAck f ∧ n.type = 0x31 ∧ ∃ t p, k.kind = .data t p) ∨
      (i = .report f ∧ n.type = 0x21 ∧ ∃ a c, k.kind = .reportReq a c) ∨
      (i = .roleAck f ∧ n.type = 0x41 ∧ ∃ c, k.kind = .roleSet c)) :
    ∃ (g : State → State) (u : State), exec i s = edge g s ∧ Hears s u ∧
      Heard k.node { u with net := { u.net with trans := none } } (g s) := by
  rcases which with ⟨rfl, type, kind⟩ | ⟨rfl, type, _, _, kind⟩ | ⟨rfl, type, _, _, kind⟩ | ⟨rfl, type, _, kind⟩
  case inl =>
    obtain ⟨u, e, taken⟩ := hear_takes hears on good read net (types := [0x23]) (by rw [type]; decide)
    refine ⟨status f, u, rfl, e, Heard.calm ?_ taken⟩
    rw [(a.hears e).answers]
    dsimp only
    rw [kind]
    refine Heard.calm (Heard.calm (Heard.calm ?_ (takeStatus_calm _ _ _ _)) (reroute_calm _)) (endRejoin_calm _)
    exact (a.hears e).ends.calm (modNode_calm _ _)
  case inr.inl =>
    obtain ⟨u, e, taken⟩ := hear_takes hears on good read net (types := [0x31]) (by rw [type]; decide)
    refine ⟨dataAck f, u, rfl, e, ((a.hears e).ends.calm ?_).calm taken⟩
    rw [(a.hears e).answers]
    dsimp only
    rw [kind]
    exact complete_calm _ _ _ _
  case inr.inr.inl =>
    obtain ⟨u, e, taken⟩ := hear_takes hears on good read net (types := [0x21]) (by rw [type]; decide)
    refine ⟨report f, u, rfl, e, ((a.hears e).ends.calm ?_).calm taken⟩
    rw [(a.hears e).answers]
    dsimp only
    rw [kind]
    exact (takeReport_calm _ _ _).trans' ((noteSwept_calm _ _ _).trans' (tryPublish_calm _))
  case inr.inr.inr =>
    obtain ⟨u, e, taken⟩ := hear_takes hears on good read net (types := [0x41]) (by rw [type]; decide)
    refine ⟨roleAck f, u, rfl, e, ((a.hears e).ends.calm ?_).calm taken⟩
    rw [(a.hears e).answers]
    dsimp only
    rw [kind]
    exact modNode_calm _ _

end Frames

/-- Settles O50: the frames of the network, each in its turn. -/
theorem networkFrames : Obligations.NetworkFrames := by
  unfold Obligations.NetworkFrames
  intro s h
  refine ⟨fun f i types which => ?_, fun f heard n hears on good read net => ⟨fun type src => ?_,
    fun k i trans sent up seq src own known used which => ?_, fun k trans sent down seq hop type => ?_,
    fun type own known used => ?_⟩, fun idle => ?_, fun k trans => ⟨fun waits => ?_, fun sent due => ⟨fun few => ?_,
    fun many joined known => ?_⟩⟩⟩
  · have taken : ∃ k, ∀ u, exec i u = edge (hear types f k) u := by
      rcases which with ⟨rfl, rfl⟩ | ⟨rfl, rfl⟩ | ⟨rfl, rfl⟩ | ⟨rfl, rfl⟩ | ⟨rfl, rfl⟩ | ⟨rfl, rfl⟩ | ⟨rfl, rfl⟩ <;>
        exact ⟨_, fun _ => rfl⟩
    obtain ⟨k, run⟩ := taken
    rw [run]
    exact ⟨fun deaf => edge_next h (hear_deaf deaf) rfl,
      fun hears on bad => edge_next h (hear_unread hears on bad) (endReception_evidence f s),
      fun x hears on good foreign => edge_next h (hear_foreign hears on good foreign) (endReception_evidence f s)⟩
  · refine edge_next h (f := joinReq f) ((joinReq_taken hears on good read net type src).trans ?_) ?_
    · exact addCandidate_received _ _ _
    · dsimp only
      split <;> exact endReception_evidence f s
  · obtain ⟨g, u, run, e, ended⟩ := answer_ends hears on good read net ⟨trans, sent, up, seq, src, own, known, used⟩ which
    rw [run]
    exact ⟨_, edge_next h rfl (ended.evidence.trans e.evidence), ended.trans, ended.state, ended.failures,
      ended.heardSec.trans (by rw [State.sec, State.sec, e.backup]), ended.billing.trans e.billing, ended.sluice.trans e.sluice⟩
  · obtain ⟨u, e, taken⟩ := hear_takes hears on good read net (types := [0x40, 0x22, 0x30, 0x11, 0x20]) type
      (k := fun _ n s => match s.net.trans with
        | some t => if t.sent && !n.up && n.seq = t.seq.toNat && 0 < n.hop then { s with net.trans := some { t with heard := true } } else s
        | none => s)
    dsimp only at taken
    rw [e.trans, trans] at taken
    dsimp only at taken
    rw [if_pos (by simp [sent, down, seq, hop])] at taken
    exact ⟨_, edge_next h (f := frameOverheard f) rfl (taken.evidence.trans e.evidence), taken.trans, taken.billing.trans e.billing⟩
  · obtain ⟨u, e, taken⟩ := hear_takes hears on good read net (types := [0x02]) (by rw [type]; decide)
      (k := fun _ n s => nodeHeard n.src s)
    have ended := (e.heard (nodeHeard_heard own (by rw [e.length]; exact known) (e.used _ used))).calm taken
    exact ⟨_, edge_next h (f := relayBeacon f) rfl ended.evidence, ended.state, ended.failures, ended.trans, ended.billing⟩
  · refine edge_next h (f := transactionTimeout) ?_ rfl
    simp only [transactionTimeout, idle]
  · refine edge_next h (f := transactionTimeout) ?_ rfl
    unfold transactionTimeout
    rw [trans]
    refine if_pos ?_
    rcases waits with w | w <;> simp [w]
  · refine edge_next h (f := transactionTimeout) ?_ rfl
    unfold transactionTimeout
    rw [trans]
    dsimp only
    rw [if_neg (by simp [sent, due]), if_neg (by omega)]
    rfl
  · have failed : transactionTimeout s = failTransaction k s := by
      unfold transactionTimeout
      rw [trans]
      dsimp only
      rw [if_neg (by simp [sent, due]), if_pos many]
    obtain ⟨ended, failures, billing⟩ := failTransaction_fails joined known
    obtain ⟨-, -, -, ebilling, -, -, -, -, enet, -⟩ := endEdge_frame (failTransaction k s)
    refine ⟨_, edge_ends h (f := transactionTimeout) failed, ?_, ?_, ?_⟩
    · rw [enet, ended]
    · rw [State.node, enet]; exact failures
    · rw [ebilling, billing]

end Sys2Proof.Laws
end

section
/-! The auxiliary converters: triggers, results, delays and alignment (R410, R414–R425), and the host's commands to them
(R421, R424, R427, R432–R437). -/

namespace Sys2Proof.Laws
open Sys2Proof Sys2Proof.Machine

/-! ### The unit's own state -/

section Unit
variable {s : State} {k : Nat}

/-- The aux time to which an event at `t` brings the unit (R411). -/
def auxTimeAt (t : Nat) (s : State) : BitVec 48 := if s.auxNow < t then BitVec.ofNat 48 t else s.aux.auxTime

theorem auxAt_eq (t : Nat) (s : State) : auxAt t s = { s with aux := { s.aux with auxTime := auxTimeAt t s } } := by
  unfold auxAt auxTimeAt
  split <;> rfl

theorem auxAt_evidence (t : Nat) (s : State) : (auxAt t s).evidence = s.evidence := by rw [auxAt_eq]

theorem auxAt_aux (t : Nat) (a : Aux) (h : a.auxTime = s.aux.auxTime) :
    auxAt t { s with aux := a } = { s with aux := { a with auxTime := auxTimeAt t s } } := by
  rw [auxAt_eq]
  have now : ({ s with aux := a } : State).auxNow = s.auxNow := by simp only [State.auxNow, h]; rfl
  simp only [auxTimeAt, now, h]

theorem auxAt_converters (t : Nat) (cs : List Converter) : auxAt t { s with aux := { s.aux with converters := cs } } =
    { s with aux := { s.aux with auxTime := auxTimeAt t s, converters := cs } } :=
  auxAt_aux t _ rfl

theorem conv_modConv (f : Converter → Converter) (h : k < s.aux.converters.length) :
    (s.modConv k f).conv k = f (s.conv k) := modAt_getD_same _ _ _ _ h

theorem conv_modConv_or (k : Nat) (f : Converter → Converter) (s : State) :
    (s.modConv k f).conv k = f (s.conv k) ∨ (s.modConv k f).conv k = s.conv k := by
  by_cases h : k < s.aux.converters.length
  · exact .inl (conv_modConv f h)
  · refine .inr ?_
    rw [State.conv, State.conv, List.getD_eq_default _ _ (Nat.not_lt.mp h), List.getD_eq_default]
    exact (modAt_length _ _ _).trans_le (Nat.not_lt.mp h)

theorem auxLead_single (single : s.view.auxPaired = false) : s.auxLead k = k := by simp [State.auxLead, single]

theorem pairUp_single (single : s.view.auxPaired = false) : pairUp s = s := by simp [pairUp, single]

theorem markLoss_none {a : Aux} (h : a.lost = 0) : markLoss a = a := if_pos (by simp [h])

theorem pushWord_room {a : Aux} (w : Nat) (lost : a.lost = 0) (room : a.queue.length < 256) :
    pushWord w a = { a with queue := a.queue ++ [w] } := by
  unfold pushWord
  rw [markLoss_none lost]
  exact if_pos room

theorem pushWord_keeps (w : Nat) (a : Aux) : (pushWord w a).converters = a.converters ∧ a.queue <+: (pushWord w a).queue := by
  have marked : (markLoss a).converters = a.converters ∧ a.queue <+: (markLoss a).queue := by
    unfold markLoss
    split
    · exact ⟨rfl, List.prefix_rfl⟩
    · exact ⟨rfl, List.prefix_append _ _⟩
  unfold pushWord
  dsimp only
  split
  · exact ⟨marked.1, marked.2.trans (List.prefix_append _ _)⟩
  · exact marked

end Unit

/-! ### A table that runs (R416, R417, R420) -/

/-- From `s` to `t` the table of converter `k` has gone on: what it has queued stands behind what was queued, and without a
pending trigger it has taken none. -/
structure Runs (k : Nat) (s t : State) : Prop where
  only : t = { s with aux := t.aux }
  due : (t.conv k).due = (s.conv k).due
  badPass : (t.conv k).badPass = (s.conv k).badPass
  trigger : (s.conv k).pendingTrig = false → (t.conv k).pendingTrig = false ∧ (t.conv k).taken = (s.conv k).taken
  queue : s.aux.queue <+: t.aux.queue
  length : t.aux.converters.length = s.aux.converters.length

namespace Runs
variable {k : Nat} {s t u : State}

theorem refl : Runs k s s := ⟨rfl, rfl, rfl, fun h => ⟨h, rfl⟩, List.prefix_rfl, rfl⟩

theorem trans (h : Runs k s t) (q : Runs k t u) : Runs k s u := by
  refine ⟨?_, q.due.trans h.due, q.badPass.trans h.badPass, fun none_ => ?_, h.queue.trans q.queue, q.length.trans h.length⟩
  · calc u = { t with aux := u.aux } := q.only
      _ = { ({ s with aux := t.aux } : State) with aux := u.aux } := congrArg (fun x : State => { x with aux := u.aux }) h.only
  · obtain ⟨a, b⟩ := h.trigger none_
    obtain ⟨c, d⟩ := q.trigger a
    exact ⟨c, d.trans b⟩

/-- The converter changed in what neither triggers nor a pass's alignment say. -/
theorem modConv (h : Runs k s t) {f : Converter → Converter} (due : ∀ c, (f c).due = c.due := by exact fun _ => rfl)
    (badPass : ∀ c, (f c).badPass = c.badPass := by exact fun _ => rfl)
    (trigger : (t.conv k).pendingTrig = false → (f (t.conv k)).pendingTrig = false ∧
      (f (t.conv k)).taken = (t.conv k).taken := by exact fun h => ⟨h, rfl⟩) : Runs k s (t.modConv k f) := by
  refine h.trans ⟨rfl, ?_, ?_, fun none_ => ?_, List.prefix_rfl, modAt_length _ _ _⟩
  all_goals rcases conv_modConv_or k f t with e | e <;> rw [e]
  · exact due _
  · exact badPass _
  · exact trigger none_
  · exact ⟨none_, rfl⟩

theorem push (h : Runs k s t) (w : Nat) : Runs k s { t with aux := pushWord w t.aux } := by
  obtain ⟨conv, queue⟩ := pushWord_keeps w t.aux
  have same : ({ t with aux := pushWord w t.aux } : State).conv k = t.conv k := by rw [State.conv, conv, State.conv]
  exact h.trans ⟨rfl, by rw [same], by rw [same], fun none_ => by rw [same]; exact ⟨none_, rfl⟩, queue, by rw [conv]⟩

end Runs

section Run
variable {s : State} {k : Nat}

theorem beginEntry_runs (k t fuel e : Nat) (s : State) : Runs k s (beginEntry k t fuel e s) := by
  induction fuel generalizing e s with
  | zero => exact Runs.refl.modConv
  | succ fuel ih =>
    unfold beginEntry
    extract_lets c w u v x
    have looped : Runs k s u := by
      simp only [u]
      split
      · exact .refl
      · exact Runs.refl.push _
    have marked : Runs k s v := by
      simp only [v]
      split
      · exact Runs.refl.modConv
      · exact .refl
    have pend : (v.conv k).pendingTrig = c.pendingTrig := by
      simp only [v]
      split
      · rcases conv_modConv_or k (fun c => { c with begun := true }) s with e | e <;> rw [e]
      · rfl
    split
    · split
      · exact Runs.refl.modConv
      · exact looped.trans (ih 0 u)
    · split
      · split
        case isTrue taken =>
          refine .trans (Runs.push (marked.modConv (trigger := fun none_ => ?_)) _) (ih (e + 1) _)
          rw [pend, taken] at none_
          cases none_
        case isFalse => exact marked.modConv
      · exact marked.modConv

theorem goEntry_runs (k t e : Nat) (single : s.view.auxPaired = false) : Runs k s (goEntry k t e s) := by
  have ran := beginEntry_runs k (max t (s.conv k).busy) 130 e s
  have view : (beginEntry k (max t (s.conv k).busy) 130 e s).view.auxPaired = false := by rw [ran.only]; exact single
  rw [goEntry, pairUp_single view]
  exact ran

theorem startTable_runs (k t : Nat) (single : s.view.auxPaired = false) : Runs k s (startTable k t s) := by
  have marked : Runs k s (if (s.conv k).waits || !(s.conv k).table.any (fun w => entryCh w < 30) then s
      else { s with aux := pushWord (timeMark k false true (microsOf (max t (s.conv k).busy))) s.aux }) := by
    split
    · exact .refl
    · exact Runs.refl.push _
  unfold startTable
  dsimp only
  refine marked.trans (goEntry_runs k t 0 ?_)
  rw [marked.only]
  exact single

/-- An entry behind the first that converts begins (R416). -/
theorem goEntry_converts {t e : Nat} (single : s.view.auxPaired = false) (pos : e ≠ 0) (few : e < 64)
    (ch : entryCh (s.auxEntry k e) < 30) : goEntry k t e s = s.modConv k (fun c => { c with
      entry := e, done := 0, state := .converting, clock := max t (s.conv k).busy, extra := 0, gap := 0 }) := by
  unfold goEntry beginEntry
  dsimp only
  rw [if_neg (by simp; omega), if_neg (by omega), if_neg pos]
  exact pairUp_single single

end Run

/-! ### Triggers (R418–R420) -/

section Trigger
variable {s : State} {k d : Nat} {ds : List Nat}

/-- The converter with the instant of its first trigger taken off. -/
def dueTaken (s : State) (k : Nat) : State := s.modConv k (fun c => { c with due := c.due.drop 1 })

theorem auxTriggerAct_idle (h : (s.conv k).due = []) : auxTriggerAct k s = s := by
  unfold auxTriggerAct
  exact if_pos (by simp [h])

/-- The converter with its trigger counted as taken. -/
def triggerTaken (s : State) (k d : Nat) (ds : List Nat) : State := { s with aux := { s.aux with
  auxTime := auxTimeAt d s
  converters := modAt s.aux.converters k (fun _ => { (s.conv k) with due := ds, taken := (s.conv k).taken + 1 }) } }

theorem dueTaken_eq (due : (s.conv k).due = d :: ds) : dueTaken s k = { s with aux := { s.aux with
    converters := modAt s.aux.converters k (fun _ => { (s.conv k) with due := ds }) } } := by
  have first : (s.conv k).due.drop 1 = ds := by rw [due]; rfl
  unfold dueTaken State.modConv
  rw [modAt_put _ k _ {}, ← first]
  rfl

/-- The two changes of a converter that does not wait, at one instant. -/
theorem auxAt_dueTaken (due : (s.conv k).due = d :: ds) (f : Converter → Converter) :
    (auxAt d (dueTaken s k)).modConv k f = auxAt d { s with aux := { s.aux with
      converters := modAt s.aux.converters k (fun _ => f { (s.conv k) with due := ds }) } } := by
  rw [dueTaken_eq due, auxAt_converters, auxAt_converters]
  simp only [State.modConv, modAt_modAt]

variable (two : k < 2) (single : s.view.auxPaired = false) (due : (s.conv k).due = d :: ds)
include two single due

theorem auxTriggerAct_eq : auxTriggerAct k s =
    if (s.conv k).state = .stopped ∨ (s.conv k).state = .heldOff ∨ (s.conv k).waits = false then auxAt d (dueTaken s k)
    else if (s.conv k).state = .waiting then
      goEntry k (clockOf d) ((s.conv k).entry + 1)
        { (auxAt d (dueTaken s k)).modConv k (fun c => { c with taken := c.taken + 1 }) with
          aux := pushWord (timeMark k false false (microsOf (max (clockOf d) (s.conv k).busy)))
            ((auxAt d (dueTaken s k)).modConv k (fun c => { c with taken := c.taken + 1 })).aux }
    else if (s.conv k).pendingTrig = true then
      (auxAt d (dueTaken s k)).modConv k (fun c => { c with overrun := true, overruns := c.overruns + 1 })
    else (auxAt d (dueTaken s k)).modConv k (fun c => { c with pendingTrig := true }) := by
  have lead : (auxAt d (dueTaken s k)).auxLead k = k := by
    rw [auxAt_eq]; exact auxLead_single single
  have first : (s.conv k).due.headD 0 = d := by rw [due]; rfl
  unfold auxTriggerAct
  dsimp only
  rw [if_neg (by simp [due]; omega), first]
  change (if (decide ((s.conv k).state = .stopped) || decide ((s.conv k).state = .heldOff) || !(s.conv k).waits ||
    (auxAt d (dueTaken s k)).auxLead k != k) = true then auxAt d (dueTaken s k) else _) = _
  rw [lead]
  simp only [bne_self_eq_false, Bool.or_false, Bool.or_eq_true, decide_eq_true_eq, Bool.not_eq_true', or_assoc]
  rfl

theorem auxTriggerAct_takes (known : k < s.aux.converters.length) (state : (s.conv k).state = .waiting)
    (waits : (s.conv k).waits = true) (none_ : (s.conv k).pendingTrig = false) :
    ((auxTriggerAct k s).conv k).taken = (s.conv k).taken + 1 ∧ ((auxTriggerAct k s).conv k).due = ds ∧
      (s.aux.lost = 0 → s.aux.queue.length < 256 → (auxTriggerAct k s).aux.queue[s.aux.queue.length]? =
        some (timeMark k false false (microsOf (max (clockOf d) (s.conv k).busy)))) ∧
      auxTriggerAct k s = { s with aux := (auxTriggerAct k s).aux } := by
  have counted : (auxAt d (dueTaken s k)).modConv k (fun c => { c with taken := c.taken + 1 }) = triggerTaken s k d ds := by
    rw [auxAt_dueTaken due, auxAt_converters]
    rfl
  rw [auxTriggerAct_eq two single due, if_neg (by simp [state, waits]), if_pos state, counted]
  generalize timeMark k false false (microsOf (max (clockOf d) (s.conv k).busy)) = w
  generalize eu : triggerTaken s k d ds = u
  have conv : u.conv k = { (s.conv k) with due := ds, taken := (s.conv k).taken + 1 } := by
    rw [← eu]
    exact modAt_getD_same _ _ _ _ known
  have view : u.view.auxPaired = false := by rw [← eu]; exact single
  have ran := (Runs.refl (k := k) (s := u)).push w |>.trans (goEntry_runs k (clockOf d) ((s.conv k).entry + 1) view)
  have taken := (ran.trigger (by rw [conv]; exact none_)).2
  have due' := ran.due
  rw [conv] at taken due'
  refine ⟨taken, due', fun lost room => ?_, ?_⟩
  · have queued : (pushWord w u.aux).queue = s.aux.queue ++ [w] := by
      rw [← eu]
      exact congrArg Aux.queue (pushWord_room (a := (triggerTaken s k d ds).aux) w lost room)
    have ahead := (goEntry_runs (s := { u with aux := pushWord w u.aux }) k (clockOf d) ((s.conv k).entry + 1) view).queue
    rw [show ({ u with aux := pushWord w u.aux } : State).aux.queue = s.aux.queue ++ [w] from queued] at ahead
    obtain ⟨more, e⟩ := ahead
    rw [← e]
    simp
  · calc _ = _ := ran.only
      _ = _ := by rw [← eu]; rfl

end Trigger
/-! ### Results (R414, R416, R417, R422–R425) -/

section Result
variable {s : State} {k : Nat} {codes : List (Option (BitVec 12))}

/-- A result counts its cycles, whatever its comparator says. -/
theorem oneResult_converters (k ch win entry : Nat) (codes : List (Option (BitVec 12))) (lost : Bool) (t : Nat) (s : State) :
    (oneResult k ch win entry codes lost t s).aux.converters =
      modAt s.aux.converters k (fun c => { c with cycles := c.cycles + BitVec.ofNat 32 codes.length }) := by
  have checked (v : Nat) : (checkWindow win v s).1.aux.converters = s.aux.converters := by
    unfold checkWindow
    dsimp only
    repeat' split
    all_goals rfl
  have pushed (u : State) (w : Nat) (e : u.aux.converters = s.aux.converters) :
      modAt (pushWord w (setLast ch w t u.aux)).converters k (fun c => { c with cycles := c.cycles + BitVec.ofNat 32 codes.length }) =
        modAt s.aux.converters k (fun c => { c with cycles := c.cycles + BitVec.ofNat 32 codes.length }) := by
    rw [(pushWord_keeps _ _).1]
    exact congrArg (fun l => modAt l k _) e
  unfold oneResult
  extract_lets bad v
  cases bad with
  | false => simp only [Bool.false_eq_true, if_false]; split <;> exact pushed _ _ (checked v)
  | true => simp only [if_true]; split <;> exact pushed _ _ rfl

/-- The word of an unchecked result. -/
def plainWord (s : State) (k ch entry : Nat) (codes : List (Option (BitVec 12))) : Nat :=
  k * 2 ^ 29 + ch * 2 ^ 24 + entry * 2 ^ 18 +
    (if s.serviceLost = true ∨ codes.any Option.isNone = true then 2 ^ 17 else auxValue (codes.map (fun y => y.getD 0)))

/-- A result that no comparator checks is tagged, kept and queued. -/
theorem oneResult_unchecked {ch win entry t : Nat} (off : (s.aux.comparators.getD win {}).enable = false)
    (lost : s.aux.lost = 0) (room : s.aux.queue.length < 256) : oneResult k ch win entry codes s.serviceLost t s =
      { s with aux := { s.aux with
        queue := s.aux.queue ++ [plainWord s k ch entry codes]
        last := modAt s.aux.last ch (fun _ => (plainWord s k ch entry codes, t))
        converters := modAt s.aux.converters k (fun c => { c with cycles := c.cycles + BitVec.ofNat 32 codes.length }) } } := by
  have unchecked (v : Nat) : checkWindow win v s = (s, false, false) := if_pos (by rw [off]; rfl)
  have pushes (w : Nat) : pushWord w (setLast ch w t s.aux) = { s.aux with
      queue := s.aux.queue ++ [w], last := modAt s.aux.last ch (fun _ => (w, t)) } := pushWord_room _ lost room
  unfold oneResult plainWord
  simp only [unchecked]
  cases s.serviceLost <;> cases codes.any Option.isNone <;> simp [pushes, State.modConv, flag]

/-- The result in progress, where nothing of it is checked or lost. -/
theorem putResult_unchecked {r : LastResult} (alone : r.pairWord = none) (good : r.bad = false) (whole : codes.length = r.codes)
    (off : (s.aux.comparators.getD (entryWin r.word) {}).enable = false) (lost : s.aux.lost = 0)
    (room : s.aux.queue.length < 256) : putResult k r codes s =
      { s with aux := { s.aux with
        auxTime := auxTimeAt (microsOf (r.last - 16)) s
        queue := s.aux.queue ++ [plainWord s k (entryCh r.word) r.entry codes]
        last := modAt s.aux.last (entryCh r.word) (fun _ => (plainWord s k (entryCh r.word) r.entry codes, microsOf (r.last - 16)))
        converters := modAt s.aux.converters k (fun c => { c with cycles := c.cycles + BitVec.ofNat 32 codes.length }) } } := by
  unfold putResult
  dsimp only
  rw [alone, good, List.take_of_length_le whole.le, auxAt_eq]
  exact oneResult_unchecked (s := { s with aux := { s.aux with auxTime := auxTimeAt (microsOf (r.last - 16)) s } }) off lost room

theorem auxResult_none (state : (s.conv k).state ≠ .converting) (closed : (s.conv k).closing = none) :
    auxResult k codes s = s := by
  unfold auxResult
  dsimp only
  rw [closed]
  split
  · rfl
  · exact if_pos (by simp [state])

theorem thisResult_single (single : s.view.auxPaired = false) : (s.thisResult k).pairWord = none := by
  simp [State.thisResult, single]

theorem thisResult_last (whole : codes.length = s.view.auxOsr k) :
    (s.thisResult k).last = (s.conv k).clock + 24 * codes.length + (s.conv k).extra := by
  rw [whole]
  rfl

/-- The result in progress completes, and its entry goes on. -/
theorem auxResult_completes (single : s.view.auxPaired = false) (state : (s.conv k).state = .converting)
    (closed : (s.conv k).closing = none) (whole : codes.length = s.view.auxOsr k)
    (ch : entryCh (s.auxEntry k (s.conv k).entry) < 29) :
    auxResult k codes s = afterResult k (s.thisResult k) (putResult k (s.thisResult k) codes s) := by
  unfold auxResult
  dsimp only
  rw [closed, auxLead_single single, if_neg (by simp)]
  dsimp only
  refine if_neg ?_
  have total : (s.thisResult k).total = codes.length := by
    simp [LastResult.total, whole, State.thisResult, single]
  have word : entryCh (s.thisResult k).word < 29 := ch
  simp [state, total, word]

/-- The result that a stop left completes, and nothing goes on. -/
theorem auxResult_closes {r : LastResult} (known : k < s.aux.converters.length) (closing : (s.conv k).closing = some r)
    (alone : r.pairWord = none) (whole : codes.length = r.codes) : (auxResult k codes s).conv k =
      { (s.conv k) with closing := none, cycles := (s.conv k).cycles + BitVec.ofNat 32 codes.length } := by
  have run : auxResult k codes s = putResult k r codes (s.modConv k (fun c => { c with closing := none })) := by
    unfold auxResult
    dsimp only
    rw [closing, if_neg (by simp)]
    exact if_neg (by simp [LastResult.total, alone, whole])
  rw [run]
  unfold putResult
  dsimp only
  rw [alone, List.take_of_length_le whole.le]
  dsimp only
  rw [State.conv, oneResult_converters, auxAt_eq]
  change (modAt (modAt s.aux.converters k _) k _).getD k {} = _
  rw [modAt_modAt, modAt_getD_same _ _ _ _ known]
  rfl

/-- An entry with a repeat left begins its next result. -/
theorem afterResult_repeats {r : LastResult} (single : s.view.auxPaired = false)
    (more : (s.conv k).done < entryRepeat r.word) : afterResult k r s = s.modConv k (fun c => { c with
      done := c.done + 1, clock := r.last + (s.conv k).gap, extra := 0, gap := 0
      busy := max c.busy (r.last + (s.conv k).gap), begun := false }) := by
  unfold afterResult
  extract_lets next entry u
  have same : (u.conv k).done = (s.conv k).done := by
    rcases conv_modConv_or k (fun c => { c with
      clock := next, extra := 0, gap := 0, busy := max c.busy next, begun := false }) s with e | e <;>
      exact (congrArg Converter.done e).trans rfl
  have view : (u.modConv k (fun c => { c with done := c.done + 1 })).view.auxPaired = false := single
  rw [if_pos (by rw [same]; exact more), pairUp_single view]
  simp only [u, State.modConv, modAt_modAt]
  rfl

/-- One without begins its delay. -/
theorem afterResult_delays {r : LastResult} (single : s.view.auxPaired = false)
    (last : entryRepeat r.word ≤ (s.conv k).done) (delay : entryDelay r.word ≠ 0) : afterResult k r s =
      s.modConv k (fun c => { c with
        state := .delay, clock := max (r.last + (s.conv k).gap) (r.last + clockOf (entryDelay r.word)), extra := 0, gap := 0
        busy := max c.busy (r.last + (s.conv k).gap), begun := false }) := by
  unfold afterResult
  extract_lets next entry u
  have same : (u.conv k).done = (s.conv k).done := by
    rcases conv_modConv_or k (fun c => { c with
      clock := next, extra := 0, gap := 0, busy := max c.busy next, begun := false }) s with e | e <;>
      exact (congrArg Converter.done e).trans rfl
  have view : (u.modConv k (fun c => { c with
    state := .delay, clock := max next (r.last + clockOf (entryDelay r.word)) })).view.auxPaired = false := single
  rw [if_neg (by rw [same]; omega), if_pos (by simpa using delay), pairUp_single view]
  simp only [u, State.modConv, modAt_modAt]
  rfl

/-- The unit behind a result that no comparator checks. -/
def resultKept (s : State) (k : Nat) (codes : List (Option (BitVec 12))) : Aux :=
  let w := s.auxEntry k (s.conv k).entry
  let x := plainWord s k (entryCh w) (s.conv k).entry codes
  let last := (s.conv k).clock + 24 * codes.length + (s.conv k).extra
  { s.aux with queue := s.aux.queue ++ [x], last := modAt s.aux.last (entryCh w) (fun _ => (x, microsOf (last - 16))) }

variable (known : k < s.aux.converters.length) (single : s.view.auxPaired = false) (state : (s.conv k).state = .converting)
  (good : (s.conv k).badPass = false) (closed : (s.conv k).closing = none) (whole : codes.length = s.view.auxOsr k)
  (lost : s.aux.lost = 0) (room : s.aux.queue.length < 256) (ch : entryCh (s.auxEntry k (s.conv k).entry) < 29)
  (off : (s.aux.comparators.getD (entryWin (s.auxEntry k (s.conv k).entry)) {}).enable = false)
include known single state good closed whole lost room ch off

/-- A result that no comparator checks: `g` is what its entry goes on with. -/
theorem auxResult_unchecked {g : Converter → Converter}
    (after : ∀ u : State, u.view.auxPaired = false → (u.conv k).gap = (s.conv k).gap → (u.conv k).done = (s.conv k).done →
      afterResult k (s.thisResult k) u = u.modConv k g) : auxResult k codes s =
    auxAt (microsOf ((s.conv k).clock + 24 * codes.length + (s.conv k).extra - 16)) { s with aux := { resultKept s k codes with
      converters := modAt s.aux.converters k (fun _ =>
        g { (s.conv k) with cycles := (s.conv k).cycles + BitVec.ofNat 32 codes.length }) } } := by
  have ends := thisResult_last whole
  rw [auxResult_completes single state closed whole ch,
    putResult_unchecked (thisResult_single single) good whole off lost room, ends, auxAt_aux _ _ (by rfl)]
  generalize eu : ({ s with aux := _ } : State) = u
  have conv : u.conv k = { (s.conv k) with cycles := (s.conv k).cycles + BitVec.ofNat 32 codes.length } := by
    rw [← eu]
    exact modAt_getD_same _ _ _ _ known
  rw [after u (by rw [← eu]; exact single) (by rw [conv]) (by rw [conv]), ← eu]
  simp only [State.modConv, modAt_modAt]
  rw [modAt_put _ k _ {}]
  rfl

end Result

/-! ### Delays and alignment (R416, R425) -/

section Pass
variable {s : State} {k : Nat}

theorem auxDelayEnd_idle (h : (s.conv k).state ≠ .delay) : auxDelayEnd k s = s := if_pos (by simp [h])

theorem auxDelayEnd_begins (single : s.view.auxPaired = false) (state : (s.conv k).state = .delay)
    (few : (s.conv k).entry < 63) (ch : entryCh (s.auxEntry k ((s.conv k).entry + 1)) < 30) : auxDelayEnd k s =
      auxAt (microsOf (s.conv k).clock) { s with aux := { s.aux with converters := modAt s.aux.converters k (fun _ =>
        { (s.conv k) with
          entry := (s.conv k).entry + 1, done := 0, state := .converting, clock := max (s.conv k).clock (s.conv k).busy
          extra := 0, gap := 0 }) } } := by
  unfold auxDelayEnd
  dsimp only
  rw [auxLead_single single, if_neg (by simp [state]), auxAt_converters, auxAt_eq]
  refine (goEntry_converts (s := { s with aux := { s.aux with auxTime := auxTimeAt (microsOf (s.conv k).clock) s } })
    single (by omega) (by omega) ch).trans ?_
  unfold State.modConv
  rw [modAt_put _ k _ {}]
  rfl

theorem alignmentMessage_idle (h : (s.conv k).state = .stopped ∨ (s.conv k).state = .heldOff ∨ 2 ≤ k) :
    alignmentMessage k s = s := by
  refine if_pos ?_
  rcases h with h | h | h <;> simp [h]

variable (two : k < 2) (single : s.view.auxPaired = false) (runs : (s.conv k).state ≠ .stopped)
  (released : (s.conv k).state ≠ .heldOff)
include two single runs released

theorem alignmentMessage_agrees (first : (s.conv k).done = 0) (entry : (s.conv k).entry = 0 ∨ (s.conv k).begun = true) :
    alignmentMessage k s = s.modConv k (fun c => { c with badPass := false, begun := false }) := by
  have agrees : (decide ((s.conv k).done = 0) && (decide ((s.conv k).entry = 0) || (s.conv k).begun)) = true := by
    rcases entry with e | e <;> simp [first, e]
  unfold alignmentMessage
  dsimp only
  rw [if_neg (by rw [auxLead_single single]; simp [runs, released]; omega), agrees, if_pos rfl]
  exact pairUp_single single

theorem alignmentMessage_differs (known : k < s.aux.converters.length)
    (apart : (s.conv k).done ≠ 0 ∨ ((s.conv k).entry ≠ 0 ∧ (s.conv k).begun = false)) :
    ((alignmentMessage k s).conv k).badPass = true ∧ ((alignmentMessage k s).conv k).begun = false ∧
      alignmentMessage k s = { s with aux := (alignmentMessage k s).aux } := by
  have differs : (decide ((s.conv k).done = 0) && (decide ((s.conv k).entry = 0) || (s.conv k).begun)) = false := by
    rcases apart with e | ⟨e, e'⟩
    · simp [e]
    · simp [e, e']
  have run : alignmentMessage k s = (startTable k (clockOf (s.modConv k (fun c => { c with badPass := true, begun := false })).auxNow)
      (s.modConv k (fun c => { c with badPass := true, begun := false }))).modConv k (fun c => { c with begun := false }) := by
    unfold alignmentMessage
    dsimp only
    rw [if_neg (by rw [auxLead_single single]; simp [runs, released]; omega), differs, if_neg (by decide)]
    rfl
  rw [run]
  generalize eu : s.modConv k (fun c => { c with badPass := true, begun := false }) = u
  have bad : (u.conv k).badPass = true := by rw [← eu, conv_modConv _ known]
  have length : k < u.aux.converters.length := by rw [← eu]; exact known.trans_eq (modAt_length _ _ _).symm
  have ran : Runs k u (startTable k (clockOf u.auxNow) u) := startTable_runs k _ (by rw [← eu]; exact single)
  have last := conv_modConv (s := startTable k (clockOf u.auxNow) u) (k := k) (fun c => { c with begun := false })
    (by rw [ran.length]; exact length)
  refine ⟨by rw [last]; exact ran.badPass.trans bad, by rw [last], ?_⟩
  have only : startTable k (clockOf u.auxNow) u = { s with aux := (startTable k (clockOf u.auxNow) u).aux } := by
    calc _ = _ := ran.only
      _ = _ := by rw [← eu]; rfl
  exact congrArg (fun x : State => { x with
    aux := ((startTable k (clockOf u.auxNow) u).modConv k (fun c => { c with begun := false })).aux }) only

end Pass
/-- Settles O52: the converters run. -/
theorem convertersRun : Obligations.ConvertersRun := by
  unfold Obligations.ConvertersRun
  intro s k h
  dsimp only
  refine ⟨fun loaded two period => ?_, fun off => ?_, fun none_ => edge_next h (f := auxTriggerAct k) (auxTriggerAct_idle none_) rfl,
    fun d ds two known single due => ⟨fun ignores => ?_, fun busy waits => ?_, fun state waits none_ => ?_⟩,
    fun codes state closed => edge_next h (f := auxResult k codes) (auxResult_none state closed) rfl,
    fun codes known single state good closed whole lost room ch off => ⟨fun more => ?_, fun last delay => ?_⟩,
    fun codes r known closing alone whole => ?_,
    fun state => edge_next h (f := auxDelayEnd k) (auxDelayEnd_idle state) rfl,
    fun known single state few ch => edge_next h (f := auxDelayEnd k) (auxDelayEnd_begins single state few ch) ?_,
    fun idle => edge_next h (f := alignmentMessage k) (alignmentMessage_idle idle) rfl,
    fun two known single runs released => ⟨fun first entry => ?_, fun apart => ?_⟩⟩
  · refine edge_next h (f := auxTimerFire k) (if_pos (by simp [loaded, period, two, -List.getD_eq_getElem?_getD])) ?_
    dsimp only
    rw [auxEventAt_evidence, auxAt_evidence]
  · refine edge_next h (f := auxTimerFire k) (if_neg ?_) rfl
    rcases off with off | off | off
    · simp [off]
    · simp [off, -List.getD_eq_getElem?_getD]
    · simp [Nat.not_lt.mpr off]
  · refine edge_next h (f := auxTriggerAct k) ?_ (auxAt_evidence _ _)
    rw [auxTriggerAct_eq two single due, if_pos ignores, dueTaken_eq due]
  · refine edge_next h (f := auxTriggerAct k) ?_ (auxAt_evidence _ _)
    rw [auxTriggerAct_eq two single due, if_neg (by rcases busy with e | e <;> simp [e, waits]),
      if_neg (by rcases busy with e | e <;> simp [e]), auxAt_dueTaken due, auxAt_dueTaken due]
    split <;> rfl
  · obtain ⟨taken, rest, mark, only⟩ := auxTriggerAct_takes two single due known state waits none_
    refine ⟨_, edge_next h (f := auxTriggerAct k) rfl (by rw [only]), taken, rest, mark, ?_⟩
    rw [only]
  · refine edge_next h (f := auxResult k codes) ?_ (auxAt_evidence _ _)
    refine auxResult_unchecked known single state good closed whole lost room ch off (g := fun c => { c with
      done := c.done + 1, clock := (s.conv k).clock + 24 * codes.length + (s.conv k).extra + (s.conv k).gap, extra := 0, gap := 0
      busy := max c.busy ((s.conv k).clock + 24 * codes.length + (s.conv k).extra + (s.conv k).gap), begun := false })
      fun u view gap done => ?_
    rw [afterResult_repeats view (by rw [done]; exact more), gap, thisResult_last whole]
  · refine edge_next h (f := auxResult k codes) ?_ (auxAt_evidence _ _)
    refine auxResult_unchecked known single state good closed whole lost room ch off (g := fun c => { c with
      state := .delay
      clock := max ((s.conv k).clock + 24 * codes.length + (s.conv k).extra + (s.conv k).gap)
        ((s.conv k).clock + 24 * codes.length + (s.conv k).extra + clockOf (entryDelay (s.auxEntry k (s.conv k).entry)))
      extra := 0, gap := 0
      busy := max c.busy ((s.conv k).clock + 24 * codes.length + (s.conv k).extra + (s.conv k).gap), begun := false })
      fun u view gap done => ?_
    rw [afterResult_delays view (by rw [done]; exact last) delay, gap, thisResult_last whole]
    rfl
  · obtain ⟨-, -, -, -, -, -, -, -, -, eaux, -⟩ := endEdge_frame (auxResult k codes s)
    refine ⟨_, edge_ends h (f := auxResult k codes) rfl, ?_⟩
    rw [State.conv, eaux]
    exact auxResult_closes known closing alone whole
  · exact auxAt_evidence _ _
  · exact edge_next h (f := alignmentMessage k) (alignmentMessage_agrees two single runs released first entry) rfl
  · obtain ⟨bad, begun, only⟩ := alignmentMessage_differs two single runs released known apart
    refine ⟨_, edge_next h (f := alignmentMessage k) rfl (by rw [only]), bad, begun, ?_⟩
    rw [only]

end Sys2Proof.Laws
end

section
/-! The host's commands to the auxiliary unit (R421, R424, R427, R432–R437). -/

namespace Sys2Proof.Laws
open Sys2Proof Sys2Proof.Machine

section Begun
variable {op : Nat} {r : Req} {s : State}

@[simp] theorem begun_aux : (begun op r s).aux = s.aux := by rw [begun_frame]
@[simp] theorem begun_conv (k : Nat) : (begun op r s).conv k = s.conv k := by rw [begun_frame]; rfl
@[simp] theorem begun_auxNow : (begun op r s).auxNow = s.auxNow := by rw [begun_frame]; rfl
@[simp] theorem begun_auxEntry (k e : Nat) : (begun op r s).auxEntry k e = s.auxEntry k e := by rw [begun_frame]; rfl
@[simp] theorem begun_thisResult (k : Nat) : (begun op r s).thisResult k = s.thisResult k := by rw [begun_frame]; rfl
@[simp] theorem begun_serviceLost : (begun op r s).serviceLost = s.serviceLost := by rw [begun_frame]; rfl
@[simp] theorem begun_auxLead (k : Nat) : (begun op r s).auxLead k = s.auxLead k := by rw [begun_frame]; rfl

@[simp] theorem begun_placeUrgent (k : Nat) : (placeUrgent k (begun op r s)).1 = (placeUrgent k s).1 := by
  unfold placeUrgent
  simp only [begun_auxLead, begun_conv, begun_auxNow, begun_view]
  split
  · split <;> rfl
  all_goals rfl

end Begun

/-- A request that has touched the unit alone. -/
theorem aux_restored {s t : State} {op : Nat} {r : Req} (only : t = { begun op r s with aux := t.aux }) :
    { t with aux := s.aux } = begun op r s := by
  rw [only]
  exact congrArg (fun a => ({ begun op r s with aux := a } : State)) (begun_aux (op := op) (r := r)).symm

theorem only_evidence {s t : State} {op : Nat} {r : Req} (only : t = { begun op r s with aux := t.aux }) :
    t.evidence = s.evidence := by
  rw [only]
  exact begun_evidence (op := op)

/-! ### Sequence tables (R427) -/

section Load
variable {s : State} {k : Nat} {p : Bytes}

/-- What stopping does to a converter alone (R416, R437). -/
theorem stopConv_single (single : s.view.auxPaired = false) : stopConv [k] s = s.modConv k (fun c => { c with
    state := .stopped, entry := 0, done := 0, begun := false, busy := c.cycleEnd (clockOf s.auxNow)
    closing := if c.state = .converting ∧ s.view.auxOsr k ≤ c.cyclesRun (clockOf s.auxNow) then some (s.thisResult k) else c.closing
    cycles := c.cycles + BitVec.ofNat 32
      (if s.view.auxOsr k ≤ c.cyclesRun (clockOf s.auxNow) then 0 else c.cyclesRun (clockOf s.auxNow)) }) := by
  have lead : s.auxLead k = k := auxLead_single single
  change s.stopAt k (clockOf s.auxNow) = _
  unfold State.stopAt
  dsimp only
  rw [lead]
  simp only [State.lastResult, lead, decide_true, Bool.true_and, Bool.and_eq_true, decide_eq_true_eq]
  unfold State.modConv
  rw [modAt_put _ k _ {}]
  conv_rhs => rw [modAt_put _ k _ {}]
  rfl

/-- A converter that stands still stays as it is, but for where its table begins. -/
theorem stopConv_stopped (single : s.view.auxPaired = false) (stopped : (s.conv k).state = .stopped) :
    stopConv [k] s = s.modConv k (fun _ => { s.conv k with entry := 0, done := 0, begun := false }) := by
  have none_ : (s.conv k).cyclesRun (clockOf s.auxNow) = 0 := by simp [Converter.cyclesRun, stopped]
  have ends : (s.conv k).cycleEnd (clockOf s.auxNow) = (s.conv k).busy := by simp [Converter.cycleEnd, stopped]
  rw [stopConv_single single, State.modConv, modAt_put _ k _ {}]
  change s.modConv k (fun _ => { s.conv k with
    state := .stopped, entry := 0, done := 0, begun := false, busy := (s.conv k).cycleEnd (clockOf s.auxNow)
    closing := if (s.conv k).state = .converting ∧ s.view.auxOsr k ≤ (s.conv k).cyclesRun (clockOf s.auxNow)
      then some (s.thisResult k) else (s.conv k).closing
    cycles := (s.conv k).cycles + BitVec.ofNat 32 (if s.view.auxOsr k ≤ (s.conv k).cyclesRun (clockOf s.auxNow) then 0
      else (s.conv k).cyclesRun (clockOf s.auxNow)) }) = _
  rw [ends, none_, if_neg (by simp [stopped]), ite_self, ← stopped]
  simp only [BitVec.add_zero]

theorem auxSeqLoad_refused (bad : (tab (getU p 2 1) (fun i => getU p (3 + 4 * i) 4)).all entryOk = false) :
    auxSeqLoad p s = (refuse .badParam, s) := by
  refine if_pos ?_
  rw [bad]
  simp

/-- The table of a converter that stands still is loaded. -/
theorem auxSeqLoad_stopped (form : paramsOk 0x30 p = true)
    (ok : (tab (getU p 2 1) (fun i => getU p (3 + 4 * i) 4)).all entryOk = true) (single : s.view.auxPaired = false)
    (stopped : (s.conv (getU p 0 1)).state = .stopped) : auxSeqLoad p s = (.done .ok [], s.modConv (getU p 0 1) (fun c => { c with
      table := c.table.take (getU p 1 1) ++ tab (getU p 2 1) (fun i => getU p (3 + 4 * i) 4) ++
        c.table.drop (getU p 1 1 + getU p 2 1)
      entry := 0, done := 0, begun := false, pendingTrig := false, badPass := false })) := by
  simp only [paramsOk, Bool.and_eq_true, decide_eq_true_eq, beq_iff_eq] at form
  unfold auxSeqLoad
  extract_lets k first count words ks running u v t w
  have group : ks = [k] := by simp [ks, State.auxGroup, single]
  have none_ : running = [] := by simp [running, group, k, stopped]
  have ok' : words.all entryOk = true := ok
  obtain ⟨⟨⟨⟨⟨-, two⟩, begins⟩, some_⟩, ends⟩, whole⟩ := form
  rw [if_neg (by simp [ok', k, first, count, whole]; omega)]
  have loaded : v = s.modConv k (fun _ => { s.conv k with
      table := (s.conv k).table.take first ++ words ++ (s.conv k).table.drop (first + count)
      entry := 0, done := 0, begun := false, pendingTrig := false, badPass := false }) := by
    simp only [v, u, group, dropTrigger, stopConv_stopped (k := k) single stopped, List.foldl_nil, List.foldl_cons,
      State.modConv, modAt_modAt]
  simp only [w, none_, List.filter_nil, List.foldl_nil]
  rw [loaded]
  unfold State.modConv
  conv_rhs => rw [modAt_put s.aux.converters (getU p 0 1) _ {}]
  rfl

end Load

/-! ### Urgent conversions (R421, R425) -/

section Urgent
variable {s : State} {p : Bytes} {code : Option (BitVec 12)}

/-- The word of an urgent conversion. -/
def urgentWord (s : State) (p : Bytes) (code : Option (BitVec 12)) : Nat :=
  2 ^ 30 + getU p 0 1 * 2 ^ 29 + getU p 1 1 * 2 ^ 24 +
    (match code with | some x => if s.serviceLost then 2 ^ 17 else 16 * x.toNat | none => 2 ^ 17)

/-- An urgent conversion moves what follows it, and counts nothing. -/
theorem placeUrgent_converters (k : Nat) (s : State) : ∃ f : Converter → Converter,
    (placeUrgent k s).2 = s.modConv (s.auxLead k) f ∧ ∀ c, (f c).cycles = c.cycles := by
  unfold placeUrgent
  dsimp only
  split
  · split <;> exact ⟨_, rfl, fun _ => rfl⟩
  all_goals exact ⟨_, rfl, fun _ => rfl⟩

theorem auxUrgent_runs (form : paramsOk 0x31 p = true) : ∃ t : State,
    auxUrgent p code s = (.done .ok (leBytes 4 (urgentWord s p code)), t) ∧
    t.aux.last = modAt s.aux.last (getU p 1 1) (fun _ => (urgentWord s p code, microsOf ((placeUrgent (getU p 0 1) s).1 + 8))) ∧
    (getU p 0 1 < s.aux.converters.length → (t.conv (getU p 0 1)).cycles = (s.conv (getU p 0 1)).cycles + 1) ∧
    t.aux.queue = s.aux.queue ∧ t = { s with aux := t.aux } := by
  simp only [paramsOk, Bool.and_eq_true, decide_eq_true_eq, beq_iff_eq] at form
  obtain ⟨⟨whole, two⟩, ch⟩ := form
  obtain ⟨f, placed, same⟩ := placeUrgent_converters (getU p 0 1) s
  have lane : (placeUrgent (getU p 0 1) s).2.serviceLost = s.serviceLost := by rw [placed]; rfl
  unfold auxUrgent urgentWord
  dsimp only
  rw [if_neg (by simp [whole]; omega), lane, placed]
  refine ⟨_, rfl, rfl, fun known => ?_, rfl, rfl⟩
  rw [conv_modConv _ (by exact known.trans_eq (modAt_length _ _ _).symm)]
  refine congrArg (· + 1) ?_
  change ((s.modConv (s.auxLead (getU p 0 1)) f).conv (getU p 0 1)).cycles = _
  by_cases lead : getU p 0 1 = s.auxLead (getU p 0 1)
  · rw [← lead, conv_modConv f known, same]
  · exact congrArg Converter.cycles (modAt_getD_other _ _ _ _ lead)

end Urgent

/-! ### The command member (R437) -/

section Command
variable {port : Port} {tag : BitVec 16} {k v : Nat} {s t : State}

/-- A converter's command member is written. -/
theorem auxRow_runs (h : Settled s) (two : k < 2) (free : heldIn s.start.heldMask.toNat (0x6024 + 8 * k) = false)
    (few : v < 65536) (q : Takes 0x02 (writeReq port tag (0x6024 + 8 * k) (leBytes 2 v)) s)
    (e : auxCommand k v (begun 0x02 (writeReq port tag (0x6024 + 8 * k) (leBytes 2 v)) s) = (.ok, t))
    (quiet : t.evidence = s.evidence) : edge (auxRow port tag k v) s =
      .next (answered 0x02 (writeReq port tag (0x6024 + 8 * k) (leBytes 2 v)) .ok [] t) := by
  refine setRow_runs_quiet h q (by omega) (by omega) ?_ quiet
  have two' : k = 0 ∨ k = 1 := by omega
  have value : leNat (leBytes 2 v) = v := leNat_leBytes_of_lt (by simpa using few)
  rcases two' with rfl | rfl
  all_goals
    rw [setObject_writes (.inl rfl) rfl rfl (by rw [begun_start]; exact free) (leBytes_length 2 _)]
    change answerOf (auxCommand _ (leNat (leBytes 2 v)) _) = _
    rw [value]
    exact congrArg answerOf e

/-- A first entry that converts begins (R416). -/
theorem goEntry_first {t : Nat} (single : s.view.auxPaired = false) (known : k < s.aux.converters.length)
    (ch : entryCh (s.auxEntry k 0) < 30) : ((goEntry k t 0 s).conv k).state = .converting ∧
      ((goEntry k t 0 s).conv k).entry = 0 ∧ ((goEntry k t 0 s).conv k).done = 0 := by
  have run : goEntry k t 0 s = (s.modConv k (fun c => { c with begun := true })).modConv k (fun c => { c with
      entry := 0, done := 0, state := .converting, clock := max t (s.conv k).busy, extra := 0, gap := 0 }) := by
    unfold goEntry beginEntry
    dsimp only
    rw [if_neg (by simp; omega), if_pos rfl, if_neg (by omega)]
    exact pairUp_single single
  rw [run, conv_modConv _ (by exact known.trans_eq (modAt_length _ _ _).symm)]
  exact ⟨rfl, rfl, rfl⟩

/-- A table whose first entry converts begins with it. -/
theorem startTable_converts (t : Nat) (single : s.view.auxPaired = false) (known : k < s.aux.converters.length)
    (ch : entryCh (s.auxEntry k 0) < 30) : ((startTable k t s).conv k).state = .converting ∧
      ((startTable k t s).conv k).entry = 0 ∧ ((startTable k t s).conv k).done = 0 := by
  unfold startTable
  dsimp only
  split
  · exact goEntry_first single known ch
  · have keeps := (pushWord_keeps (timeMark k false true (microsOf (max t (s.conv k).busy))) s.aux).1
    refine goEntry_first single (by rw [keeps]; exact known) ?_
    have same : ({ s with aux := pushWord (timeMark k false true (microsOf (max t (s.conv k).busy))) s.aux } : State).auxEntry k 0 =
        s.auxEntry k 0 := congrArg (fun cs : List Converter => (cs.getD k {}).table.getD 0 0xF8000000) keeps
    rw [same]
    exact ch

/-- A converter stops on command. -/
theorem auxCommand_stops (single : s.view.auxPaired = false) : auxCommand k 0x5350 s = (.ok, stopConv [k] s) := by
  refine (if_neg (by decide)).trans ((if_pos rfl).trans ?_)
  rw [State.auxGroup, single, if_neg (by decide)]

theorem auxCommand_starts (single : s.view.auxPaired = false) (known : k < s.aux.converters.length)
    (ch : entryCh (s.auxEntry k 0) < 30) : ∃ t : State, auxCommand k 0x5354 s = (.ok, t) ∧
      (t.conv k).state = .converting ∧ (t.conv k).entry = 0 ∧ (t.conv k).done = 0 ∧ t = { s with aux := t.aux } := by
  have run : auxCommand k 0x5354 s = (.ok, startTable k (clockOf s.auxNow) (stopConv [k] s)) := by
    have group : s.auxGroup k = [k] := by simp [State.auxGroup, single]
    refine (if_pos rfl).trans ?_
    rw [auxLead_single single, group]
  rw [run, stopConv_single single]
  generalize eu : s.modConv k _ = u
  have table : u.auxEntry k 0 = s.auxEntry k 0 := by
    rw [State.auxEntry, ← eu, conv_modConv _ known]
    rfl
  have length : k < u.aux.converters.length := by rw [← eu]; exact known.trans_eq (modAt_length _ _ _).symm
  have single' : u.view.auxPaired = false := by rw [← eu]; exact single
  obtain ⟨state, entry, done⟩ := startTable_converts (clockOf s.auxNow) single' length (by rw [table]; exact ch)
  refine ⟨_, rfl, state, entry, done, ?_⟩
  calc _ = _ := (startTable_runs k _ single').only
    _ = _ := by rw [← eu]; rfl

end Command

/-! ### Comparators and live reads (R424, R432–R434) -/

section Members
variable {s : State} {value : Bytes}

theorem writeComparators_refused (bad : comparatorsOk value = false) : writeComparators value s = (.badParam, s) :=
  if_pos (by rw [bad]; rfl)

/-- Every comparator takes its settings, and one that becomes enabled is unknown. -/
theorem writeComparators_runs (ok : comparatorsOk value = true) : ∃ t : State, writeComparators value s = (.ok, t) ∧
    t = { s with aux := t.aux } ∧ ∀ k, k < 8 →
      (t.aux.comparators.getD k {}).low = getU value (8 * k) 2 ∧
      (t.aux.comparators.getD k {}).high = getU value (8 * k + 2) 2 ∧
      (t.aux.comparators.getD k {}).hyst = getU value (8 * k + 4) 2 ∧
      (t.aux.comparators.getD k {}).count = (s.aux.comparators.getD k {}).count ∧
      (t.aux.comparators.getD k {}).state =
        if (t.aux.comparators.getD k {}).enable = true ∧ (s.aux.comparators.getD k {}).enable = false then .unknown
        else (s.aux.comparators.getD k {}).state := by
  refine ⟨_, if_neg (by rw [ok]; decide), rfl, fun k lt => ?_⟩
  dsimp only
  rw [tab_getD _ _ lt]
  split
  case isTrue e =>
    obtain ⟨on, off⟩ : (comparatorOf value k (s.aux.comparators.getD k {})).enable = true ∧
      (s.aux.comparators.getD k {}).enable = false := by simpa using e
    exact ⟨rfl, rfl, rfl, rfl, (if_pos ⟨on, off⟩).symm⟩
  case isFalse e =>
    exact ⟨rfl, rfl, rfl, rfl, (if_neg (by simpa using e)).symm⟩

theorem takeWords_eq (n : Nat) (lost : s.aux.lost = 0) :
    ∃ a : Aux, takeWords n s = { s with aux := a } ∧ a.queue = s.aux.queue.drop n := by
  unfold takeWords
  dsimp only
  exact ⟨_, congrArg (fun a => ({ s with aux := a } : State)) (markLoss_none lost), rfl⟩

end Members
/-- Settles O53: the host's commands to the auxiliary unit. -/
theorem converterCommands : Obligations.ConverterCommands := by
  unfold Obligations.ConverterCommands
  intro s h
  refine ⟨fun r q => ⟨fun bad => runs_answered h q (congrArg Done.of (auxSeqLoad_refused bad)), fun ok single known stopped => ?_⟩,
    fun r code q => ?_, fun port tag k two known single free => ⟨fun q => ?_, fun q => ?_, fun q ch => ?_⟩,
    fun port tag value free q => ⟨fun bad => ?_, fun ok => ?_⟩,
    fun port tag => ⟨fun q lost => ?_, fun q lost => ?_, fun q => ?_⟩⟩
  · refine runs_answers h q (congrArg Done.of (auxSeqLoad_stopped (paramsOk_of_judge q.passes) ok ?_ ?_)) (begun_evidence (op := 0x30))
    · rw [begun_view]; exact single
    · rw [begun_conv]; exact stopped
  · obtain ⟨t, run, last, cycles, queue, only⟩ := auxUrgent_runs (s := begun 0x31 r s) (code := code) (paramsOk_of_judge q.passes)
    rw [begun_aux] at last queue cycles
    rw [begun_placeUrgent] at last
    rw [begun_conv] at cycles
    have word : urgentWord (begun 0x31 r s) r.params code = urgentWord s r.params code := by
      unfold urgentWord
      rw [begun_serviceLost]
    rw [word] at run last
    exact ⟨t, runs_answers h q (congrArg Done.of run) (only_evidence only), last, cycles, queue, aux_restored only⟩
  · refine auxRow_runs h two free (by decide) q ((auxCommand_stops (by rw [begun_view]; exact single)).trans ?_)
      (begun_evidence (op := 0x02))
    rw [stopConv_single (by rw [begun_view]; exact single), begun_auxNow, begun_view, begun_thisResult]
  · exact auxRow_runs h two free (by decide) q rfl (begun_evidence (op := 0x02))
  · obtain ⟨t, run, state, entry, done, only⟩ := auxCommand_starts
      (s := begun 0x02 (writeReq port tag (0x6024 + 8 * k) (leBytes 2 0x5354)) s) (k := k) (by rw [begun_view]; exact single)
      (by rw [begun_aux]; exact known) (by rw [begun_auxEntry]; exact ch)
    exact ⟨t, auxRow_runs h two free (by decide) q run (only_evidence only), state, entry, done, aux_restored only⟩
  · refine setRow_runs_quiet h q (by decide) (by decide) ?_ (begun_evidence (op := 0x02))
    by_cases whole : value.length = 64
    · rw [setObject_writes (.inl rfl) rfl rfl (by rw [begun_start]; exact free) whole]
      exact congrArg answerOf (writeComparators_refused bad)
    · exact setObject_badLength (.inl rfl) rfl rfl (by rw [begun_start]; exact free) whole
  · have whole : value.length = 64 := by
      rw [comparatorsOk, Bool.and_eq_true, beq_iff_eq] at ok
      exact ok.1
    obtain ⟨t, run, only, each⟩ := writeComparators_runs (s := begun 0x02 (writeReq port tag 0x6012 value) s) ok
    rw [begun_aux] at each
    refine ⟨t, setRow_runs_quiet h q (by decide) (by decide) ?_ (only_evidence only), aux_restored only, each⟩
    rw [setObject_writes (.inl rfl) rfl rfl (by rw [begun_start]; exact free) whole]
    exact congrArg answerOf run
  · obtain ⟨a, run, rest⟩ := takeWords_eq (s := begun 0x01 (readReq port tag 0x6014) s) 255 (by rw [begun_aux]; exact lost)
    rw [begun_aux] at rest
    refine ⟨_, (getRow_reads h q (by decide) (show 1 ≠ 0 by decide)).trans (congrArg (fun t => Host.Outcome.next (answered 0x01 _ _ _ t)) run), rest,
      aux_restored rfl⟩
  · obtain ⟨a, run, rest⟩ := takeWords_eq (s := begun 0x01 (readReq port tag 0x6015) s) 15 (by rw [begun_aux]; exact lost)
    rw [begun_aux] at rest
    refine ⟨_, (getRow_reads h q (by decide) (show 1 ≠ 0 by decide)).trans (congrArg (fun t => Host.Outcome.next (answered 0x01 _ _ _ t)) run), rest,
      aux_restored rfl⟩
  · refine ⟨clearFired (begun 0x01 (readReq port tag 0x6010) s), getRow_reads h q (by decide) (show 1 ≠ 0 by decide), ?_, aux_restored rfl⟩
    rw [clearFired, begun_aux]

end Sys2Proof.Laws
end

section
/-! The watches: the bittern's windows, the watch oscillator and the state registers (R514–R519), and the targeted tests
(R521–R524). -/

namespace Sys2Proof.Laws
open Sys2Proof Sys2Proof.Machine

/-! ### The bittern (R514–R516) -/

section Bittern
variable {s : State} {c : Nat}

/-- The die is held by a clock alarm (R515). -/
structure Held (code count : Nat) (t : State) : Prop where
  settled : Settled t
  holding : t.integrity.holding = some 0
  cause : t.integrity.cause = some (code, count, 0)
  still : t.dieRuns = false

theorem holdDie_held (code count : Nat) (e : StoreEnd) (s : State) : Held code count (holdDie code count e s) :=
  ⟨rfl, rfl, rfl, rfl⟩

theorem clockAlarm_held (code count : Nat) (wide : Bool) (s : State) : Held code count (clockAlarm code count wide s) := by
  unfold clockAlarm
  split <;> exact holdDie_held _ _ _ _

theorem bitternWindow_held {run : Nat} (h : s.integrity.holding = some run) : bitternWindow c s = heldWindow c run s := by
  unfold bitternWindow
  rw [h]

theorem bitternWindow_idle (free : s.integrity.holding = none) (still : s.dieRuns = false)
    (no : s.start.phase ≠ .inReset ∨ s.integrity.cause = none) : bitternWindow c s = s := by
  unfold bitternWindow
  rw [free]
  dsimp only
  rw [still, if_neg (by decide)]
  refine if_neg ?_
  rcases no with no | no <;> simp [no]

theorem dieRuns_phase (h : s.start.phase = .inReset) : s.dieRuns = false := by
  simp [State.dieRuns, State.awake, h]

theorem bitternWindow_released {x : Nat × Nat × Nat} (free : s.integrity.holding = none) (reset : s.start.phase = .inReset)
    (cause : s.integrity.cause = some x) : bitternWindow c s = releaseWindow s := by
  unfold bitternWindow
  rw [free]
  dsimp only
  rw [dieRuns_phase reset, if_neg (by decide)]
  exact if_pos (by simp [reset, cause])

variable (free : s.integrity.holding = none) (runs : s.dieRuns = true)
include free runs

theorem bitternWindow_judged : bitternWindow c s = judgeWindow c s := by
  unfold bitternWindow
  rw [free]
  exact if_pos runs

/-- A window near nominal is kept (R514). -/
theorem bitternWindow_near (lo : 6165 < c) (hi : c < 6418) : bitternWindow c s = { s with integrity := { s.integrity with
    lastCount := c, anyWindow := true, highRun := 0, lowRun := 0, runWide := false
    lowCount := if s.integrity.anyWindow then min c s.integrity.lowCount else c
    highCount := if s.integrity.anyWindow then max c s.integrity.highCount else c } } := by
  have notHigh : windowHigh c = false := decide_eq_false (by omega)
  have notLow : windowLow c = false := decide_eq_false (by omega)
  rw [bitternWindow_judged free runs]
  simp [judgeWindow, notHigh, notLow]

theorem bitternWindow_high (osc : s.integrity.watchOsc = false) (run : s.integrity.highRun = 2) (hi : 6418 ≤ c) :
    Held 0x10 c (bitternWindow c s) := by
  have high : windowHigh c = true := decide_eq_true hi
  rw [bitternWindow_judged free runs]
  unfold judgeWindow
  dsimp only
  rw [if_pos (by simp [high, osc, run])]
  exact clockAlarm_held _ _ _ _

theorem bitternWindow_low (osc : s.integrity.watchOsc = false) (run : s.integrity.lowRun = 2) (lo : c ≤ 6165) :
    Held 0x11 c (bitternWindow c s) := by
  have low : windowLow c = true := decide_eq_true lo
  have notHigh : windowHigh c = false := decide_eq_false (by omega)
  rw [bitternWindow_judged free runs]
  unfold judgeWindow
  dsimp only
  rw [if_neg (by simp [notHigh]), if_pos (by simp [low, osc, run])]
  exact clockAlarm_held _ _ _ _

end Bittern

/-! ### The state registers (R517–R519) -/

section Registers
variable {s : State} {m j : Nat} {x : Byte}

theorem stateInvalid_idle (h : s.dieRuns = false ∨ 5 ≤ m ∨ 2 ≤ j ∨ (m ≠ 2 ∧ j ≠ 0) ∨ x.toNat ∈ validCodes m) :
    stateInvalid m j x s = s := by
  refine if_pos ?_
  rcases h with h | h | h | ⟨h, h'⟩ | h
  · simp [h]
  · simp [h]
  · simp [h]
  · simp [h, h']
  · simp [h]

theorem stateInvalid_acts (runs : s.dieRuns = true) (few : m < 5) (bad : x.toNat ∉ validCodes m) : stateInvalid m 0 x s =
    (invalidState m 0 (s.countIntegrity 10)).raise 0x14 [BitVec.ofNat 8 m, BitVec.ofNat 8 0, x] := by
  refine if_neg ?_
  simp [runs, bad]
  omega

/-- A save that is over stays so to the end of the edge. -/
theorem endEdge_noSave (h : s.store.saveState = 0) : s.endEdge.store.saveState = 0 := by
  simp only [State.endEdge]
  split
  · change (if _ then (0 : BitVec 2) else s.store.saveState) = 0
    rw [h, ite_self]
  · exact h

/-- The commit machine is idle, and no image is pending (R518). -/
theorem commitInvalid_idle (s : State) : (commitInvalid s).start.commit = .idle ∧ (commitInvalid s).start.applying = [] ∧
    (commitInvalid s).start.pendingImage = none ∧ (commitInvalid s).integrity = s.integrity ∧
    (commitInvalid s).billing = s.billing := by
  have spoilt : ∃ (st : Store) (n : Nat), (if s.start.commit = .writing then spoilSlot s else s) =
      { s with store := st, free := n } := by
    split
    · unfold spoilSlot
      dsimp only
      split <;> exact ⟨_, _, rfl⟩
    · exact ⟨_, _, rfl⟩
  obtain ⟨st, n, e⟩ := spoilt
  unfold commitInvalid
  extract_lets writing u v
  have eu : u = { s with store := st, free := n } := e
  obtain ⟨l, ev⟩ : ∃ l : Link, v = { u with link := l } := completeAll_frame _ _ _
  have rest : v.integrity = s.integrity ∧ v.billing = s.billing := by rw [ev, eu]; exact ⟨rfl, rfl⟩
  refine ⟨rfl, rfl, ?_, rest.1, rest.2⟩
  change (((v.start.pending.map (fun (p : Pended) => ({ p with image := none } : Pended))).reverse.find? _).bind _) = none
  rw [List.find?_eq_none.mpr]
  · rfl
  · intro p mem
    obtain ⟨q, -, rfl⟩ := List.mem_map.mp (List.mem_reverse.mp mem)
    exact Bool.false_ne_true

end Registers
/-- Settles O54: the watch over clock and state. -/
theorem clockAndStateAreWatched : Obligations.ClockAndStateAreWatched := by
  unfold Obligations.ClockAndStateAreWatched
  intro s c h
  dsimp only
  have held {f : State → State} {code n : Nat} (a : Held code n (f s)) : ∃ t, edge f s = .next t ∧
      t.integrity.holding = some 0 ∧ t.integrity.cause = some (code, n, 0) ∧ t.dieRuns = false :=
    ⟨_, edge_quiet h a.settled, a.holding, a.cause, a.still⟩
  refine ⟨fun run holding => edge_next h ((bitternWindow_held holding).trans ?_) rfl,
    fun free still no => edge_next h (bitternWindow_idle free still no) rfl,
    fun x free reset cause => edge_next h ((bitternWindow_released free reset cause).trans ?_) rfl,
    fun free runs lo hi => edge_next h (bitternWindow_near free runs lo hi) rfl,
    fun free runs osc run hi => held (bitternWindow_high free runs osc run hi),
    fun free runs osc run lo => held (bitternWindow_low free runs osc run lo),
    fun still => ⟨edge_next h (f := clkGlitch) (if_neg (by rw [still]; decide)) rfl,
      edge_next h (f := watchOsc c) (if_pos (by rw [still]; rfl)) rfl⟩,
    fun runs => ?_, fun runs => ?_,
    fun m j x idle => edge_next h (f := stateInvalid m j x) (stateInvalid_idle idle) rfl,
    fun x runs bad => ?_, fun x runs bad => ?_, fun x runs bad => ?_, fun x runs bad => ?_⟩
  · simp only [heldWindow, windowGood, Bool.and_eq_true, decide_eq_true_eq]
  · rw [releaseWindow, cause]
    rfl
  · refine held (f := clkGlitch) ?_
    rw [clkGlitch, if_pos runs]
    exact holdDie_held _ _ _ _
  · have run : watchOsc c s = if (decide (8602 ≤ c) || decide (c ≤ 7782)) && !s.integrity.watchOsc then
        ({ s with integrity := { s.integrity with watchOsc := decide (8602 ≤ c) || decide (c ≤ 7782) } } : State).raise 0x13 (leBytes 2 c)
        else { s with integrity := { s.integrity with watchOsc := decide (8602 ≤ c) || decide (c ≤ 7782) } } :=
      if_neg (by rw [runs]; decide)
    split at run
    case isTrue new => rw [if_pos new]; exact edge_ends h (f := watchOsc c) run
    case isFalse old => rw [if_neg old]; exact edge_next h (f := watchOsc c) run rfl
  · obtain ⟨-, -, -, billing, -, -, -, -, -, -, cells, -, -, -, -, integrity, -⟩ := endEdge_frame
      ((invalidState 0 0 (s.countIntegrity 10)).raise 0x14 [BitVec.ofNat 8 0, BitVec.ofNat 8 0, x])
    refine ⟨_, edge_ends h (f := stateInvalid 0 0 x) (stateInvalid_acts runs (by decide) bad), ?_, ?_, ?_, ?_⟩
    · exact (endEdge_sluice _).1 rfl
    · rw [integrity]; rfl
    · rw [billing]; rfl
    · rw [cells]; rfl
  · obtain ⟨-, -, -, billing, -, -, -, -, -, -, -, closed, -, -, -, integrity, -⟩ := endEdge_frame
      ((invalidState 1 0 (s.countIntegrity 10)).raise 0x14 [BitVec.ofNat 8 1, BitVec.ofNat 8 0, x])
    refine ⟨_, edge_ends h (f := stateInvalid 1 0 x) (stateInvalid_acts runs (by decide) bad), ?_, ?_, ?_⟩
    · rw [closed]; rfl
    · rw [integrity]; rfl
    · rw [billing]; rfl
  · obtain ⟨-, -, -, billing, -, -, -, -, -, -, cells, -, -, -, -, integrity, -⟩ := endEdge_frame
      ((invalidState 3 0 (s.countIntegrity 10)).raise 0x14 [BitVec.ofNat 8 3, BitVec.ofNat 8 0, x])
    refine ⟨_, edge_ends h (f := stateInvalid 3 0 x) (stateInvalid_acts runs (by decide) bad), ?_, ?_, ?_, ?_⟩
    · exact endEdge_noSave rfl
    · rw [cells]; rfl
    · rw [integrity]; rfl
    · rw [billing]; rfl
  · obtain ⟨-, -, -, billing, -, -, -, -, -, -, -, -, -, -, -, integrity, start, -⟩ := endEdge_frame
      ((invalidState 4 0 (s.countIntegrity 10)).raise 0x14 [BitVec.ofNat 8 4, BitVec.ofNat 8 0, x])
    obtain ⟨commit, applying, image, integrity', billing'⟩ := commitInvalid_idle (s.countIntegrity 10)
    refine ⟨_, edge_ends h (f := stateInvalid 4 0 x) (stateInvalid_acts runs (by decide) bad), ?_, ?_, ?_, ?_, ?_⟩
    · rw [start]; exact commit
    · rw [start]; exact applying
    · rw [start]; exact image
    · rw [integrity]; exact congrArg Integrity.counters integrity'
    · rw [billing]; exact billing'

end Sys2Proof.Laws
end

section
/-! The targeted tests of the fabric, the memories and the Warden (R521–R524). -/

namespace Sys2Proof.Laws
open Sys2Proof Sys2Proof.Machine

/-! ### The fabric (R521, R523) -/

section Fabric
variable {s : State} {a : BitVec 32} {k : BitVec 2} {p : Byte} {first again : BusWord}

theorem goodWord_iff (w : BusWord) : goodWord w a k = true ↔ busCodeOf a k w.data = w.code.toNat := beq_iff_eq

theorem busCode_idle (h : s.dieRuns = false ∨ k = 3#2 ∨ busCodeOf a k first.data = first.code.toNat) :
    busCode a k p first again s = s := by
  refine if_pos ?_
  rw [← goodWord_iff] at h
  rcases h with h | h | h <;> simp [h]

theorem busCode_fails (runs : s.dieRuns = true) (kind : k ≠ 3#2) (bad : busCodeOf a k first.data ≠ first.code.toNat) :
    busCode a k p first again s = if busCodeOf a k again.data = again.code.toNat then s.countIntegrity 6
      else { (s.countIntegrity 6).countIntegrity 6 with
        integrity := { ((s.countIntegrity 6).countIntegrity 6).integrity with
          fabricTests := s.integrity.fabricTests ++ [(a.toNat, p.toNat)] } } := by
  rw [Ne, ← goodWord_iff] at bad
  exact (if_neg (by simp [runs, kind, bad])).trans (if_congr (goodWord_iff again) rfl rfl)

theorem fabricTestEnd_none (h : s.integrity.fabricTests = []) (ok : Bool) : fabricTestEnd ok s = s := by
  unfold fabricTestEnd
  rw [h]

end Fabric

/-! ### The memories (R523, R524) -/

section Memories
variable {s : State} {r : Nat} {a : BitVec 32}

theorem eccDouble_idle (h : s.dieRuns = false ∨ regionSize r ≤ a.toNat ∨ rowOf r a ∈ s.integrity.rowTests) :
    eccDouble r a s = s := by
  refine if_pos ?_
  rcases h with h | h | h <;> simp [h]

/-- The row of a word that fails is under test, and what the word held is lost. -/
theorem eccDouble_acts (runs : s.dieRuns = true) (inside : a.toNat < regionSize r) (free : rowOf r a ∉ s.integrity.rowTests) :
    eccDouble r a s = wordLost r a.toNat (({ s with integrity := { s.integrity with
      counters := modAt s.integrity.counters 8 (· + 1), rowTests := s.integrity.rowTests ++ [rowOf r a] } } : State).raise 0x17
        (BitVec.ofNat 8 r :: leBytes 4 a.toNat)) := by
  refine if_neg ?_
  simp [runs, free, inside]

/-- A word of the replay ring: two samples of a frame are lost. -/
theorem ringWordLost_frame {n : Nat} (ring : s.engines.ring ≠ []) (inside : n < 6241 * 168) :
    ∃ (x : Engines) (k : Nat), ringWordLost n s = { s with engines := x, free := k } ∧ x.ring.length = s.engines.ring.length := by
  have some_ : s.engines.ring.length ≠ 0 := by simpa using ring
  have within : ¬ regionSize 2 / ringFrameBytes * ringFrameBytes ≤ n := Nat.not_le.mpr inside
  unfold ringWordLost
  dsimp only
  rw [if_neg (by simp [some_, within])]
  exact ⟨_, _, rfl, modAt_length _ _ _⟩

theorem sramRowTestEnd_idle (h : rowOf r a ∉ s.integrity.rowTests) (ok : Bool) : sramRowTestEnd r a ok s = s :=
  if_pos (by simp [h])

theorem sramRowTestEnd_acts (h : rowOf r a ∈ s.integrity.rowTests) (ok : Bool) : sramRowTestEnd r a ok s =
    let u : State := { s with integrity := { s.integrity with rowTests := s.integrity.rowTests.erase (rowOf r a) } }
    let used := s.integrity.spares.getD r 0
    if ok = true then u.countIntegrity 11
    else if used < 8 then
      ({ u.countIntegrity 9 with integrity := { (u.countIntegrity 9).integrity with
        spares := modAt s.integrity.spares r (· + 1) } } : State).raise 0x18
        (BitVec.ofNat 8 r :: leBytes 4 (a.toNat / 256 * 256) ++ [BitVec.ofNat 8 (7 - used)])
    else if r < 2 then retireEngine r (u.raise 0x19 [BitVec.ofNat 8 r]) else u.raise 0x19 [BitVec.ofNat 8 r] :=
  if_neg (by simp [h])

end Memories

/-! ### The Warden (R523) -/

section Warden
variable {s : State}

theorem sendAfter_outstanding (n : Nat) (r : Reply) (s : State) : (s.sendAfter n r).link.outstanding = s.link.outstanding := by
  unfold State.sendAfter
  split <;> rfl

/-- Every long command that is outstanding in `t` was so in `s`. -/
def LongFrom (s t : State) : Prop := ∀ c ∈ t.link.outstanding, c.work.long = true → c ∈ s.link.outstanding

theorem setWork_longFrom (tag : Nat) (s : State) : ∀ c ∈ (s.setWork tag .replied).link.outstanding, c.work.long = true →
    c ∈ s.link.outstanding ∧ c.tag ≠ tag := by
  intro c mem long
  obtain ⟨d, there, rfl⟩ := List.mem_map.mp mem
  by_cases e : d.tag = tag
  · rw [if_pos e] at long
    cases long
  · rw [if_neg e]
    exact ⟨there, e⟩

theorem releaseAborts_longFrom (tag : Nat) (s : State) : LongFrom s (s.releaseAborts tag) := by
  unfold State.releaseAborts
  refine List.foldlRecOn (motive := LongFrom s) _ _ (fun _ mem _ => mem) ?_
  intro t from_ d _
  split
  · intro c mem long
    rw [sendAfter_outstanding] at mem
    exact from_ c (setWork_longFrom d.tag t c mem long).1 long
  · exact from_

/-- A completed command goes on no longer. -/
theorem complete_longFrom (tag : Nat) (st : Status) (p : Bytes) (s : State) :
    ∀ c ∈ (s.complete tag st p).link.outstanding, c.work.long = true → c ∈ s.link.outstanding ∧ c.tag ≠ tag := by
  unfold State.complete
  split
  case h_1 none_ =>
    intro c mem _
    refine ⟨mem, fun e => ?_⟩
    exact List.find?_eq_none.mp none_ c mem (beq_iff_eq.mpr e)
  case h_2 =>
    intro c mem long
    have before := releaseAborts_longFrom tag _ c mem long
    rw [sendAfter_outstanding] at before
    exact setWork_longFrom tag s c before long

/-- Once every long command has completed none is outstanding. -/
theorem completeAll_long (st : Status) (s : State) :
    ∀ c ∈ (s.completeAll Work.long st).link.outstanding, c.work.long = false := by
  have each (l : List Command) (t : State) (left : ∀ c ∈ t.link.outstanding, c.work.long = true → c ∈ l) :
      ∀ c ∈ (l.foldl (fun s c => if c.work.long then s.complete c.tag st [] else s) t).link.outstanding,
        c.work.long = false := by
    induction l generalizing t with
    | nil =>
      intro c mem
      exact Bool.eq_false_iff.mpr fun long => List.not_mem_nil (left c mem long)
    | cons d ds ih =>
      refine ih _ fun c mem long => ?_
      dsimp only at mem
      split at mem
      · obtain ⟨there, other⟩ := complete_longFrom d.tag st [] t c mem long
        rcases List.mem_cons.mp (left c there long) with rfl | rest
        · exact absurd rfl other
        · exact rest
      case isFalse short =>
        rcases List.mem_cons.mp (left c mem long) with rfl | rest
        · exact absurd long short
        · exact rest
  exact each _ s fun _ mem _ => mem

theorem wardenLockstep_idle (h : s.dieRuns = false ∨ s.integrity.wardenTesting = true) : wardenLockstep s = s := by
  refine if_pos ?_
  rcases h with h | h <;> simp [h]

/-- Both cores are reset for their test (R523). -/
theorem wardenLockstep_acts (runs : s.dieRuns = true) (idle : s.integrity.wardenTesting = false) : ∃ l : Link,
    wardenLockstep s = ({ s with integrity := { s.integrity with wardenTesting := true }, link := l } : State).raise 0x1A [] ∧
    l.uartRx = {} ∧ l.spiRx = none ∧ ∀ c ∈ l.outstanding, c.work.long = false := by
  have run : wardenLockstep s = ({ s.completeAll Work.long .fault with
      integrity := { (s.completeAll Work.long .fault).integrity with wardenTesting := true }
      link := { (s.completeAll Work.long .fault).link with uartRx := {}, spiRx := none } } : State).raise 0x1A [] :=
    if_neg (by simp [runs, idle])
  have short := completeAll_long .fault s
  obtain ⟨l, e⟩ := completeAll_frame s Work.long .fault
  rw [e] at run short
  exact ⟨_, run, rfl, rfl, short⟩

end Warden
/-- Settles O55: the targeted tests. -/
theorem targetedTests : Obligations.TargetedTests := by
  unfold Obligations.TargetedTests
  intro s h
  dsimp only
  refine ⟨fun a k p first again idle => edge_next h (f := busCode a k p first again) (busCode_idle idle) rfl,
    fun a k p first again runs kind bad => ⟨fun good => ?_, fun worse => ?_⟩,
    fun none_ ok => edge_next h (f := fabricTestEnd ok) (fabricTestEnd_none none_ ok) rfl,
    fun a p rest tests => ⟨edge_ends h (f := fabricTestEnd true) ?_, edge_ends h (f := fabricTestEnd false) ?_⟩,
    fun r a idle => edge_next h (f := eccDouble r a) (eccDouble_idle idle) rfl,
    fun r a runs mem inside free => edge_ends h (f := eccDouble r a) ?_, fun a runs ring inside free => ?_,
    fun r a ok free => edge_next h (f := sramRowTestEnd r a ok) (sramRowTestEnd_idle free ok) rfl,
    fun r a tested => ⟨edge_next h (f := sramRowTestEnd r a true) (sramRowTestEnd_acts tested true) rfl, fun spare => ?_,
      fun used far => ?_⟩,
    fun idle => edge_next h (f := wardenLockstep) (wardenLockstep_idle idle) rfl, fun runs idle => ?_,
    fun idle ok => edge_next h (f := wardenTestEnd ok) (if_pos (by rw [idle]; rfl)) rfl,
    fun tests => ⟨edge_next h (f := wardenTestEnd true) (if_neg (by rw [tests]; decide)) rfl,
      edge_ends h (f := wardenTestEnd false) (if_neg (by rw [tests]; decide))⟩⟩
  · exact edge_next h (f := busCode a k p first again) ((busCode_fails runs kind bad).trans (if_pos good)) rfl
  · exact edge_next h (f := busCode a k p first again) ((busCode_fails runs kind bad).trans (if_neg worse)) rfl
  · unfold fabricTestEnd
    rw [tests]
    rfl
  · unfold fabricTestEnd
    rw [tests]
    rfl
  · have size : regionSize r = 262144 := by rcases mem with rfl | rfl <;> rfl
    rw [eccDouble_acts runs (inside.trans_eq size.symm) free]
    rcases mem with rfl | rfl <;> rfl
  · have within : a.toNat < regionSize 2 := inside.trans (by decide)
    obtain ⟨x, k, e, length⟩ := ringWordLost_frame (s := ({ s with integrity := { s.integrity with
      counters := modAt s.integrity.counters 8 (· + 1), rowTests := s.integrity.rowTests ++ [rowOf 2 a] } } : State).raise 0x17
        (BitVec.ofNat 8 2 :: leBytes 4 a.toNat)) ring inside
    have run : eccDouble 2 a s = _ := (eccDouble_acts runs within free).trans e
    obtain ⟨-, link, -, billing, -, -, -, engines, -, -, -, -, -, -, -, integrity, -⟩ := endEdge_frame (eccDouble 2 a s)
    refine ⟨_, edge_ends h (f := eccDouble 2 a) rfl, ?_, ?_, ?_, ?_⟩
    · rw [integrity, run]; rfl
    · rw [engines, run]; exact length
    · rw [billing, run]; rfl
    · rw [link, run]; rfl
  · exact edge_ends h (f := sramRowTestEnd r a false)
      ((sramRowTestEnd_acts tested false).trans ((if_neg (by decide)).trans (if_pos spare)))
  · exact edge_ends h (f := sramRowTestEnd r a false) ((sramRowTestEnd_acts tested false).trans
      ((if_neg (by decide)).trans ((if_neg (by omega)).trans (if_neg (by omega)))))
  · obtain ⟨l, run, uart, spi, short⟩ := wardenLockstep_acts runs idle
    obtain ⟨-, link, -, billing, -, -, -, -, -, -, cells, -, -, -, -, integrity, -⟩ := endEdge_frame (wardenLockstep s)
    refine ⟨_, edge_ends h (f := wardenLockstep) rfl, ?_, ?_, ?_, fun c mem => .inl ?_, ?_, ?_⟩
    · rw [integrity, run]; rfl
    · rw [link, run]; exact uart
    · rw [link, run]; exact spi
    · rw [link, run] at mem; exact short c mem
    · rw [billing, run]; rfl
    · rw [cells, run]; rfl

end Sys2Proof.Laws
end

section
/-! Zero crossings and line-cycle boundaries (R143–R147), the latch (R161–R167), and the intake of samples (R33, R93). -/

namespace Sys2Proof.Laws
open Sys2Proof Sys2Proof.Machine

/-! ### Line-cycle boundaries (R145, R146) -/

section Boundary
variable {s : State} {b i : Nat} {synth : Bool}

theorem modBus_put (f : Bus → Bus) : s.modBus b f = { s with billing := { s.billing with
    buses := modAt s.billing.buses b (fun _ => f (s.billing.buses.getD b {})) } } := by
  rw [State.modBus, modAt_put _ b f {}]

theorem writePoolGap_billing (tick : Nat) (s : State) : (writePoolGap tick s).billing = s.billing := by
  unfold writePoolGap
  split <;> rfl

theorem xaBoundary_billing (b i : Nat) (synth : Bool) (s : State) : (xaBoundary b i synth s).billing = s.billing := by
  unfold xaBoundary
  extract_lets stopped owed x t
  have paced : t.billing = s.billing := by
    simp only [t]
    split
    · exact writePoolGap_billing _ _
    · rfl
  split
  · rfl
  · split
    · rfl
    · split <;> exact paced

theorem paceBoundary_buses (k : Nat) (synth : Bool) (s : State) : (paceBoundary k synth s).billing.buses = s.billing.buses := by
  unfold paceBoundary
  dsimp only
  split
  · split <;> rfl
  · rfl

theorem layBoundary_near {l : Nat} (last : (s.billing.buses.getD b {}).lastBoundary = some l)
    (near : i < l + (s.billing.buses.getD b {}).lastHalf) : layBoundary b i synth s = s := by
  unfold layBoundary
  dsimp only
  rw [last]
  exact if_pos (decide_eq_true near)

theorem layBoundary_buses (far : ∀ l, (s.billing.buses.getD b {}).lastBoundary = some l →
    l + (s.billing.buses.getD b {}).lastHalf ≤ i) : (layBoundary b i synth s).billing.buses =
      modAt s.billing.buses b (fun x => { x with
        lastBoundary := some i, lastHalf := periodOf x.freq / 2, waiting := x.waiting ++ [{ instant := i, synth := synth }] }) := by
  unfold layBoundary
  extract_lets bus near u v
  have laid : v.billing.buses = modAt s.billing.buses b (fun x => { x with
      lastBoundary := some i, lastHalf := periodOf x.freq / 2, waiting := x.waiting ++ [{ instant := i, synth := synth }] }) :=
    congrArg Billing.buses (xaBoundary_billing b i synth u)
  have apart : near = false := by
    simp only [near]
    split
    case h_1 l last => exact decide_eq_false (Nat.not_lt.mpr (far l last))
    case h_2 => rfl
  rw [apart, if_neg (by decide)]
  split
  · exact (paceBoundary_buses _ _ v).trans laid
  · exact laid

end Boundary

/-! ### Crossings (R143–R145) -/

section Crossing
variable {s : State} {b r i c : Nat} {rest : List (Nat × Nat)}

theorem lineCrossing_billing (b : Nat) (ch : Option Nat) (i : Nat) (s : State) :
    (lineCrossing b ch i s).billing = s.billing := by
  unfold lineCrossing
  split
  · rfl
  · dsimp only
    split <;> rfl

/-- The state with one bus changed. -/
def withBus (s : State) (b : Nat) (x : Bus) : State :=
  { s with billing := { s.billing with buses := modAt s.billing.buses b (fun _ => x) } }

theorem withBus_bus (known : b < s.billing.buses.length) (x : Bus) : (withBus s b x).billing.buses.getD b {} = x :=
  modAt_getD_same _ _ _ _ known

theorem zeroCrossing_none (h : (s.billing.buses.getD b {}).found = []) : zeroCrossing b s = s := by
  unfold zeroCrossing
  rw [h]

/-- The oldest crossing is followed; on a locked bus it is a boundary. -/
theorem zeroCrossing_follows (known : b < s.billing.buses.length) (found : (s.billing.buses.getD b {}).found = (r, i) :: rest)
    (own : (s.billing.buses.getD b {}).reference = some r) : zeroCrossing b s =
      let x := crossingNext { (s.billing.buses.getD b {}) with found := rest } i
      if x.state = .locked then layBoundary b i false (lineCrossing b (some r) i (withBus s b x))
      else lineCrossing b (some r) i (withBus s b x) := by
  have follows : Bus.follow r { (s.billing.buses.getD b {}) with found := rest } = { (s.billing.buses.getD b {}) with found := rest } :=
    if_pos own
  unfold zeroCrossing
  rw [found]
  dsimp only
  rw [modBus_put, follows, lineCrossing_billing]
  change (if ((withBus s b _).billing.buses.getD b {}).state == .locked then _ else _) = _
  rw [withBus_bus known]
  simp only [beq_iff_eq]
  rfl

variable {bus : Bus}

theorem crossingNext_invalid (last : bus.lastCross = some c) (bad : periodValid (i - c) = false) :
    crossingNext bus i = { bus with lastCross := some i, lastValid := false } := by
  unfold crossingNext
  rw [last]
  exact if_neg (by rw [bad]; decide)

theorem periodsLock_iff (late : c ≤ i) (q : Nat) :
    periodsLock (i - c) q = true ↔ 200 * ((i - c : Int) - q).natAbs ≤ q := by
  rw [periodsLock, decide_eq_true_eq, Nat.cast_sub late]

/-- A valid period counts. -/
theorem crossingNext_counts (last : bus.lastCross = some c) (good : periodValid (i - c) = true) (open_ : bus.state ≠ .locked)
    (apart : bus.lastValid = false ∨ periodsLock (i - c) (bus.periods.headD 0) = false) : crossingNext bus i = { bus with
      lastCross := some i, lastValid := true, validCross := some i, periods := ((i - c) :: bus.periods).take 4
      validCount := bus.validCount + 1 } := by
  have free : (bus.state == .locked || (bus.lastValid && periodsLock (i - c) (bus.periods.headD 0))) = false := by
    rcases apart with e | e <;> rw [e] <;> simp [open_]
  unfold crossingNext
  rw [last]
  dsimp only
  rw [if_pos good, free]
  rfl

/-- And locks the bus, or keeps it locked. -/
theorem crossingNext_locks (last : bus.lastCross = some c) (good : periodValid (i - c) = true)
    (locks : bus.state = .locked ∨ (bus.lastValid = true ∧ periodsLock (i - c) (bus.periods.headD 0) = true)) :
    crossingNext bus i = { bus with
      lastCross := some i, lastValid := true, validCross := some i, periods := ((i - c) :: bus.periods).take 4
      validCount := bus.validCount + 1, state := .locked, freq := freqOfPeriods (((i - c) :: bus.periods).take 4)
      nextSynth := none } := by
  have locked : (bus.state == .locked || (bus.lastValid && periodsLock (i - c) (bus.periods.headD 0))) = true := by
    rcases locks with e | ⟨e, e'⟩
    · rw [e]; rfl
    · rw [e, e']; simp
  unfold crossingNext
  rw [last]
  dsimp only
  rw [if_pos good, locked]
  rfl

end Crossing

/-! ### Hold and synthesised boundaries (R145, R162) -/

section Hold
variable {s : State} {b c : Nat}

theorem frequencyHold_idle (h : s.holdDue b = false ∨ (s.billing.buses.getD b {}).validCross = none) : frequencyHold b s = s := by
  unfold frequencyHold
  dsimp only
  split
  case h_1 c due valid =>
    rcases h with h | h
    · rw [h] at due; cases due
    · rw [h] at valid; cases valid
  case h_2 => rfl

/-- The bus in the hold state, `n` periods behind its last valid crossing. -/
def heldBus (s : State) (b c n : Nat) : State :=
  withBus s b { (s.billing.buses.getD b {}) with
    state := .hold, lastValid := false, nextSynth := some (c + n * periodOf (s.billing.buses.getD b {}).freq) }

/-- The boundary of the `k`-th period behind the last valid crossing. -/
def layHeld (s : State) (b c k : Nat) (t : State) : State :=
  layBoundary b (c + k * periodOf (s.billing.buses.getD b {}).freq) true
    (lineHeld b (c + k * periodOf (s.billing.buses.getD b {}).freq) t)

/-- The periods that have passed are the first of three. -/
theorem frequencyHold_holds (due : s.holdDue b = true) (valid : (s.billing.buses.getD b {}).validCross = some c)
    {past : List Nat} (e : [1, 2, 3].filter (fun k =>
      decide (c + k * periodOf (s.billing.buses.getD b {}).freq ≤ s.liveInstant)) = past) :
    frequencyHold b s = past.foldl (fun t k => layHeld s b c k t) (heldBus s b c (past.length + 1)) := by
  unfold frequencyHold
  dsimp only
  rw [due, valid]
  dsimp only
  rw [e, modBus_put]
  rfl

theorem passed_filter (p n : Nat) : [1, 2, 3].filter (fun k => decide (c + k * p ≤ n)) =
    if c + 3 * p ≤ n then [1, 2, 3] else if c + 2 * p ≤ n then [1, 2] else if c + 1 * p ≤ n then [1] else [] := by
  have one : c + 2 * p ≤ n → c + 1 * p ≤ n := by omega
  have two : c + 3 * p ≤ n → c + 2 * p ≤ n := by omega
  simp only [List.filter_cons, List.filter_nil, decide_eq_true_eq]
  split_ifs <;> first | rfl | omega

variable {n : Nat}

theorem synthesisedBoundary_idle (h : (s.billing.buses.getD b {}).state = .locked ∨ (s.billing.buses.getD b {}).nextSynth = none) :
    synthesisedBoundary b s = s := by
  unfold synthesisedBoundary
  dsimp only
  split
  · rfl
  case h_2 i next =>
    rcases h with h | h
    · rw [h]; rfl
    · rw [h] at next; cases next

theorem synthesisedBoundary_next (open_ : (s.billing.buses.getD b {}).state ≠ .locked)
    (next : (s.billing.buses.getD b {}).nextSynth = some n) : synthesisedBoundary b s =
      if s.liveInstant < n then s else layBoundary b n true (lineHeld b n (withBus s b { (s.billing.buses.getD b {}) with
        nextSynth := some (n + periodOf (s.billing.buses.getD b {}).freq) })) := by
  unfold synthesisedBoundary
  dsimp only
  rw [next]
  dsimp only
  rw [modBus_put]
  refine if_congr ?_ rfl rfl
  rw [Bool.or_eq_true, beq_iff_eq, decide_eq_true_eq]
  exact ⟨fun h => h.resolve_left open_, .inr⟩

end Hold

/-- Settles O31: zero crossings and line-cycle boundaries. -/
theorem lineCycleBoundaries : Obligations.LineCycleBoundaries := by
  unfold Obligations.LineCycleBoundaries
  intro s b h known
  dsimp only
  refine ⟨fun none_ => edge_next h (f := zeroCrossing b) (zeroCrossing_none none_) rfl,
    fun r i rest c found own last => ?_, fun idle => edge_next h (f := frequencyHold b) (frequencyHold_idle idle) rfl,
    fun c due valid => ?_, fun idle => edge_next h (f := synthesisedBoundary b) (synthesisedBoundary_idle idle) rfl,
    fun n open_ next => ⟨fun early => ?_, fun come => ?_⟩,
    fun i synth => ⟨fun l last near => layBoundary_near last near, layBoundary_buses⟩⟩
  · have run := zeroCrossing_follows known found own
    have last' : ({ (s.billing.buses.getD b {}) with found := rest } : Bus).lastCross = some c := last
    refine ⟨fun bad open_ => ?_, fun bad locked => ?_, fun good open_ apart => ?_, fun late good locks => ?_⟩
    · rw [crossingNext_invalid last' bad] at run
      exact edge_ends h (f := zeroCrossing b) (run.trans (if_neg open_))
    · rw [crossingNext_invalid last' bad] at run
      exact edge_ends h (f := zeroCrossing b) (run.trans (if_pos locked))
    · have late : c ≤ i := by
        by_contra early
        rw [Nat.sub_eq_zero_of_le (by omega)] at good
        exact absurd good (by decide)
      rw [crossingNext_counts last' good open_ (apart.imp_right fun far => ?_)] at run
      · exact edge_ends h (f := zeroCrossing b) (run.trans (if_neg open_))
      · rw [← Bool.not_eq_true, periodsLock_iff late]
        exact Nat.not_le.mpr far
    · rw [crossingNext_locks last' good (locks.imp_right fun ⟨valid, near⟩ => ⟨valid, (periodsLock_iff late _).mpr near⟩)] at run
      exact edge_ends h (f := zeroCrossing b) (run.trans (if_pos rfl))
  · have run {past : List Nat} (e : _ = past) := frequencyHold_holds (past := past) due valid e
    rw [passed_filter] at run
    refine ⟨fun three => ?_, fun two less => ?_, fun one less => ?_, fun none_ => ?_⟩
    · exact edge_ends h (f := frequencyHold b) (run (if_pos three))
    · exact edge_ends h (f := frequencyHold b) (run ((if_neg less).trans (if_pos two)))
    · exact edge_ends h (f := frequencyHold b) (run ((if_neg (by omega)).trans ((if_neg less).trans (if_pos one))))
    · exact edge_next h (f := frequencyHold b) (run ((if_neg (by omega)).trans ((if_neg (by omega)).trans (if_neg none_)))) rfl
  · exact edge_next h (f := synthesisedBoundary b) ((synthesisedBoundary_next open_ next).trans (if_pos early)) rfl
  · exact edge_ends h (f := synthesisedBoundary b) ((synthesisedBoundary_next open_ next).trans (if_neg (by omega)))

/-! ### Latch boundaries (R161, R166) -/

section First
variable {n k : Nat}

theorem firstLatch_none {l : List PaceMark} (few : l = [] ∨ k + l.length < n) (free : ∀ y ∈ l, y.forced = false) :
    firstLatch n k l = none := by
  induction l generalizing k with
  | nil => rfl
  | cons y ys ih =>
    have few' : k + ys.length + 1 < n := by
      rcases few with e | e
      · cases e
      · simpa [Nat.add_assoc] using e
    have skip : (decide (n ≤ k + 1) || y.forced) = false := by
      rw [free y (List.mem_cons_self ..), Bool.or_false]
      exact decide_eq_false (by omega)
    rw [firstLatch, skip, if_neg (by decide)]
    exact ih (.inr (by omega)) fun z mem => free z (List.mem_cons_of_mem _ mem)

theorem firstLatch_some {before rest : List PaceMark} {x : PaceMark} (free : ∀ y ∈ before, y.forced = false)
    (few : before = [] ∨ k + before.length < n) (here : n ≤ k + before.length + 1 ∨ x.forced = true) :
    firstLatch n k (before ++ x :: rest) = some (k + before.length + 1, x, rest) := by
  induction before generalizing k with
  | nil =>
    refine if_pos ?_
    rcases here with e | e
    · rw [Bool.or_eq_true]; exact .inl (decide_eq_true e)
    · rw [e, Bool.or_true]
  | cons y ys ih =>
    have few' : k + ys.length + 1 < n := by
      rcases few with e | e
      · cases e
      · simpa [Nat.add_assoc] using e
    have skip : (decide (n ≤ k + 1) || y.forced) = false := by
      rw [free y (List.mem_cons_self ..), Bool.or_false]
      exact decide_eq_false (by omega)
    have length : k + (y :: ys).length = k + 1 + ys.length := by rw [List.length_cons]; omega
    rw [length] at here ⊢
    rw [List.cons_append, firstLatch, skip, if_neg (by decide)]
    exact ih (fun z mem => free z (List.mem_cons_of_mem _ mem)) (.inr (by omega)) here

end First

/-! ### What takes effect at a boundary (R96, R167) -/

section Calibration
variable {b : Nat}

/-- The writes taken, oldest first, leave the last of each member. -/
theorem apply_foldl (l : List CalWrite) (y : Channel) :
    (l.foldl Channel.apply y).gain = (match (l.filter (fun w => w.member == 3)).getLast? with
      | some w => w.value.toNat | none => y.gain) ∧
    (l.foldl Channel.apply y).offset = (match (l.filter (fun w => w.member == 4)).getLast? with
      | some w => w.value | none => y.offset) ∧
    (l.foldl Channel.apply y).delay = (match (l.filter (fun w => w.member != 3 && w.member != 4)).getLast? with
      | some w => w.value | none => y.delay) := by
  induction l using List.reverseRecOn with
  | nil => exact ⟨rfl, rfl, rfl⟩
  | append_singleton l w ih =>
    obtain ⟨gain, offset, delay⟩ := ih
    rw [List.foldl_append, List.filter_append, List.filter_append, List.filter_append, List.foldl_cons, List.foldl_nil,
      Channel.apply]
    split
    case h_1 e => simp [e, offset, delay]
    case h_2 e => simp [e, gain, delay]
    case h_3 no3 no4 => simp [show w.member ≠ 3 from no3, show w.member ≠ 4 from no4, gain, offset]

/-- What a channel holds once the writes before `b` have been taken (R96). -/
def Calibrated (b : Nat) (y z : Channel) : Prop :=
  let last := fun (test : Nat → Bool) => (y.writes.filter (fun w => test w.member && decide (w.strobe < b))).getLast?
  z.gain = (match last (fun m => m == 3) with | some w => w.value.toNat | none => y.gain) ∧
  z.offset = (match last (fun m => m == 4) with | some w => w.value | none => y.offset) ∧
  z.delay = (match last (fun m => m != 3 && m != 4) with | some w => w.value | none => y.delay) ∧
  z.writes = y.writes.filter (fun w => decide (b ≤ w.strobe))

theorem takeCalibration_calibrated (b : Nat) (y : Channel) : Calibrated b y (Channel.takeCalibration b y) := by
  obtain ⟨gain, offset, delay⟩ := apply_foldl (y.writes.filter (fun w => decide (w.strobe < b))) y
  rw [List.filter_filter] at gain offset delay
  exact ⟨gain, offset, delay, rfl⟩

/-- Writes that all come later change nothing. -/
theorem takeCalibration_later {y : Channel} (later : ∀ w ∈ y.writes, b ≤ w.strobe) : Channel.takeCalibration b y = y := by
  have none_ : y.writes.filter (fun w => decide (w.strobe < b)) = [] :=
    List.filter_eq_nil_iff.mpr fun w mem => by simpa using later w mem
  have all : y.writes.filter (fun w => decide (b ≤ w.strobe)) = y.writes :=
    List.filter_eq_self.mpr fun w mem => by simpa using later w mem
  rw [Channel.takeCalibration, none_, all]
  rfl

/-- A list changed element by element, read at one place. -/
theorem map_getD {α β : Type} {f : α → β} {d : α} {e : β} (h : f d = e) (l : List α) (i : Nat) :
    (l.map f).getD i e = f (l.getD i d) := by
  rw [List.getD_eq_getElem?_getD, List.getElem?_map, List.getD_eq_getElem?_getD, ← h, Option.getD_map]

theorem zipIdx_map_getD {α : Type} {f : α × Nat → α} {d : α} (l : List α) (i : Nat) :
    (l.zipIdx.map f).getD i d = if i < l.length then f (l.getD i d, i) else d := by
  split
  case isTrue lt => simp [lt]
  case isFalse ge => simp [Nat.not_lt.mp ge]

theorem Calibrated.congr {y z w : Channel} (h : Calibrated b y z) (gain : w.gain = z.gain) (offset : w.offset = z.offset)
    (delay : w.delay = z.delay) (writes : w.writes = z.writes) : Calibrated b y w := by
  obtain ⟨g, o, d, k⟩ := h
  exact ⟨gain.trans g, offset.trans o, delay.trans d, writes.trans k⟩

/-- Samples formed again leave the calibration of every channel, and touch the array and the ring alone. -/
theorem redoFrom_channels (b : Nat) (s : State) (c : Nat) :
    ((redoFrom b s).sense.channels.getD c {}).gain = (s.sense.channels.getD c {}).gain ∧
    ((redoFrom b s).sense.channels.getD c {}).offset = (s.sense.channels.getD c {}).offset ∧
    ((redoFrom b s).sense.channels.getD c {}).delay = (s.sense.channels.getD c {}).delay ∧
    ((redoFrom b s).sense.channels.getD c {}).writes = (s.sense.channels.getD c {}).writes := by
  unfold redoFrom
  dsimp only
  rw [zipIdx_map_getD]
  split
  · split <;> exact ⟨rfl, rfl, rfl, rfl⟩
  case isFalse ge =>
    rw [List.getD_eq_default _ _ (Nat.not_lt.mp ge)]
    exact ⟨rfl, rfl, rfl, rfl⟩

theorem fixConfig_none {s : State} (later : ∀ y ∈ s.start.pending, b ≤ y.strobe) : fixConfig b s = s := by
  have none_ : s.start.ready b = [] :=
    List.filter_eq_nil_iff.mpr fun y mem => by simpa using later y mem
  unfold fixConfig
  dsimp only
  rw [none_]
  rfl

/-- Where no configuration waits from before the boundary, only what is calibrated takes effect. -/
theorem fixBoundary_calibrates {s : State} (later : ∀ y ∈ s.start.pending, b ≤ y.strobe) :
    (fixBoundary b s).billing = s.billing ∧
    (∀ c, Calibrated b (s.sense.channels.getD c {}) ((fixBoundary b s).sense.channels.getD c {})) ∧
    ((∀ c ∈ s.sense.channels, ∀ w ∈ c.writes, b ≤ w.strobe) → fixBoundary b s = s) := by
  have taken (c : Nat) : Calibrated b (s.sense.channels.getD c {}) ((takeCalibrations b s).sense.channels.getD c {}) := by
    change Calibrated b _ ((s.sense.channels.map (Channel.takeCalibration b)).getD c {})
    rw [map_getD (f := Channel.takeCalibration b) (d := {}) (e := {}) rfl]
    exact takeCalibration_calibrated b _
  unfold fixBoundary
  rw [fixConfig_none later]
  dsimp only
  refine ⟨?_, fun c => ?_, fun none_ => ?_⟩
  · split <;> rfl
  · split
    · exact taken c
    · obtain ⟨gain, offset, delay, writes⟩ := redoFrom_channels b (takeCalibrations b s) c
      exact (taken c).congr gain offset delay writes
  · have same : takeCalibrations b s = s := by
      have channels : s.sense.channels.map (Channel.takeCalibration b) = s.sense.channels :=
        (List.map_congr_left fun y mem => takeCalibration_later (none_ y mem)).trans (List.map_id _)
      rw [takeCalibrations, channels]
    rw [same]
    exact if_pos ⟨rfl, rfl⟩

/-- Whatever takes effect at a boundary, no interrupt is raised by it. -/
theorem fixBoundary_irq (b : Nat) (s : State) : (fixBoundary b s).link.irqPending = s.link.irqPending := by
  let part := fun s : State => s.link.irqPending
  have restarts (old new : View) (s : State) : part (restartBuses b old new s) = part s := by
    unfold restartBuses
    extract_lets changed pace here inst synth u _ v
    have nominal : part u = part s := foldl_keeps part (fun _ _ => by rfl) _ s
    have renominal : part v = part s := nominal
    split
    · exact renominal
    · refine (foldl_keeps part (fun t n => ?_) _ v).trans renominal
      split <;> rfl
  have repaces (old : View) (s : State) : part (repace b old s) = part s := by
    unfold repace
    dsimp only
    split
    · rfl
    · exact foldl_keeps part (fun _ _ => by rfl) _ _
  have config : part (fixConfig b s) = part s := by
    unfold fixConfig
    dsimp only
    split
    · rfl
    · exact (repaces _ _).trans (restarts _ _ _)
  unfold fixBoundary
  dsimp only
  split <;> exact config

end Calibration

/-! ### Latches are published (R72, R164) -/

section Publish
variable {s : State}

theorem setWork_generation (tag : Nat) (w : Work) (s : State) : (s.setWork tag w).link.generation = s.link.generation := rfl

theorem sendAfter_generation (n : Nat) (r : Reply) (s : State) : (s.sendAfter n r).link.generation = s.link.generation := by
  unfold State.sendAfter
  split <;> rfl

theorem complete_generation (tag : Nat) (st : Status) (p : Bytes) (s : State) :
    (s.complete tag st p).link.generation = s.link.generation := by
  have released (s : State) : (s.releaseAborts tag).link.generation = s.link.generation := by
    unfold State.releaseAborts
    refine foldl_keeps (fun s : State => s.link.generation) (fun t c => ?_) _ s
    split
    · exact sendAfter_generation _ _ _
    · rfl
  unfold State.complete
  split
  · rfl
  · exact (released _).trans (sendAfter_generation _ _ _)

/-- What waits for a latch touches the link when it completes, and not the generation. -/
theorem completeLatched_frame (b : Boundary) (s : State) : ∃ l : Link, completeLatched b s = { s with link := l } ∧
    l.generation = s.link.generation := by
  unfold completeLatched
  refine List.foldlRecOn (motive := fun t => ∃ l : Link, t = { s with link := l } ∧ l.generation = s.link.generation) _ _
    ⟨s.link, rfl, rfl⟩ ?_
  rintro _ ⟨l, rfl, same⟩ c -
  have completes (l : Link) (same : l.generation = s.link.generation) (p : Bytes) :
      ∃ m : Link, ({ s with link := l } : State).complete c.tag .ok p = { s with link := m } ∧ m.generation = s.link.generation := by
    obtain ⟨m, e⟩ := complete_frame { s with link := l } c.tag .ok p
    have kept := complete_generation c.tag .ok p { s with link := l }
    rw [e] at kept
    exact ⟨m, e, kept.trans same⟩
  split
  · exact completes _ (by exact same) _
  · split
    · exact completes l same _
    · exact ⟨l, rfl, same⟩
  · exact ⟨l, rfl, same⟩

theorem noteSmax_frame (c : Capture) (s : State) : ∃ st : Store, noteSmax c s = { s with store := st } ∧
    st.cells = s.store.cells := by
  unfold noteSmax
  dsimp only
  split
  · split <;> exact ⟨_, rfl, rfl⟩
  · exact ⟨_, rfl, rfl⟩

theorem latchPublish_idle (h : s.reckoningStopped = true ∨ s.billing.latch.captured = []) : latchPublish s = s := by
  unfold latchPublish
  rcases h with h | h
  · exact if_pos h
  · dsimp only
    rw [h, ite_self]

theorem latchPublish_publishes {c : Capture} {rest : List Capture} (runs : s.reckoningStopped = false)
    (first : s.billing.latch.captured = c :: rest) (noFloor : s.engines.floor = none) : ∃ (l : Link) (st : Store),
      latchPublish s = { s with
        billing := { s.billing with latch := { s.billing.latch with captured := rest, published := c } }
        link := l, store := st, engines := { s.engines with floor := none } } ∧
      l.generation = nextGeneration s.link.generation ∧ st.cells = s.store.cells := by
  unfold latchPublish
  dsimp only
  rw [runs, if_neg (by decide), first]
  dsimp only
  rw [noFloor, ite_self]
  dsimp only
  generalize eu : ({ s with billing := _, engines := _, link := _ } : State) = u
  obtain ⟨st, e, cells⟩ := noteSmax_frame c u
  obtain ⟨l, e', generation⟩ := completeLatched_frame c.boundary (noteSmax c u)
  rw [e] at generation
  refine ⟨l, st, ?_, ?_, ?_⟩
  · rw [e', e, ← eu]
  · rw [generation, ← eu]
  · rw [cells, ← eu]

end Publish

/-- Settles O32: latch boundaries are fixed, and latches published. -/
theorem latchesAreFixedAndPublished : Obligations.LatchesAreFixedAndPublished := by
  unfold Obligations.LatchesAreFixedAndPublished
  refine ⟨fun s h => ?_, fun s h => ⟨fun idle => edge_next h (f := latchPublish) (latchPublish_idle idle) rfl,
    fun c rest runs first noFloor => ?_⟩⟩
  · dsimp only
    refine ⟨fun few free => ?_, fun before x rest fresh free few here => ?_⟩
    · refine edge_next h (f := latchBoundary) ?_ rfl
      unfold latchBoundary
      dsimp only
      rw [firstLatch_none few free]
    · have first := firstLatch_some (k := s.billing.latch.cycles) (rest := rest) free few here
      rw [← fresh] at first
      have run : latchBoundary s = fixBoundary x.b (({ s with billing := { s.billing with latch := { s.billing.latch with
          fixed := s.billing.latch.fixed ++ [{ b := x.b, cycles := s.billing.latch.cycles + before.length + 1
                                               leadIn := s.billing.latch.leadInterval, forced := x.forced, synth := x.synth }]
          cycles := 0, fresh := rest, leadInterval := false } } } : State).setIrq .latch) := by
        unfold latchBoundary
        dsimp only
        rw [first]
      obtain ⟨-, link, sense, billing, -⟩ := endEdge_frame (latchBoundary s)
      refine ⟨_, edge_ends h (f := latchBoundary) rfl, ?_, fun later => ?_⟩
      · rw [link, run, fixBoundary_irq]
        rfl
      · obtain ⟨kept, calibrated, none_⟩ := fixBoundary_calibrates (s := ({ s with billing := { s.billing with
          latch := { s.billing.latch with
            fixed := s.billing.latch.fixed ++ [{ b := x.b, cycles := s.billing.latch.cycles + before.length + 1
                                                 leadIn := s.billing.latch.leadInterval, forced := x.forced, synth := x.synth }]
            cycles := 0, fresh := rest, leadInterval := false } } } : State).setIrq .latch) later
        refine ⟨?_, fun c => ?_, fun writes => ?_⟩
        · rw [billing, run, kept]
          rfl
        · rw [sense, run]
          exact calibrated c
        · rw [run, none_ writes, endEdge_settled (by exact h)]
          rfl
  · obtain ⟨l, st, run, generation, cells⟩ := latchPublish_publishes runs first noFloor
    exact ⟨_, edge_next h (f := latchPublish) run rfl, rfl, generation, cells, rfl⟩

end Sys2Proof.Laws
end

section
/-! The intake of samples (R33, R93, R94), and what the steps of the rotation touch (R107, R109, R114). -/

namespace Sys2Proof.Laws
open Sys2Proof Sys2Proof.Machine

/-! ### What the rotation steers (R107, R109, R114) -/

/-- From `s` to `t` nothing but the slices and the quarters of the array has changed. -/
def Steers (s t : State) : Prop :=
  ∃ (l : List Slice) (x : List Quarter), t = { s with sense := { s.sense with slices := l, quarters := x } }

namespace Steers
variable {s t u : State}

theorem refl (s : State) : Steers s s := ⟨_, _, rfl⟩

theorem trans (h : Steers s t) (k : Steers t u) : Steers s u := by
  obtain ⟨l, x, rfl⟩ := h
  obtain ⟨m, y, rfl⟩ := k
  exact ⟨m, y, rfl⟩

theorem modQuarter (h : Steers s t) (q : Nat) (f : Quarter → Quarter) : Steers s (t.modQuarter q f) := h.trans ⟨_, _, rfl⟩

theorem modSlice (h : Steers s t) (i : Nat) (f : Slice → Slice) : Steers s (t.modSlice i f) := h.trans ⟨_, _, rfl⟩

theorem connect (h : Steers s t) (q slot : Nat) (x : SliceSource) : Steers s (t.connect q slot x) := h.modSlice _ _

theorem testSlice (h : Steers s t) (q slot : Nat) : Steers s (t.testSlice q slot) := h.modSlice _ _

theorem returnHome (h : Steers s t) (q : Nat) : Steers s (t.returnHome q) := by
  unfold State.returnHome
  dsimp only
  refine Steers.modSlice ?_ _ _
  split
  · exact h.connect _ _ _
  · exact h.connect _ _ _
  · exact h.connect _ _ _
  all_goals exact h

theorem preSettle (h : Steers s t) (q c : Nat) (host : Bool) : Steers s (preSettle q c host t) :=
  (h.modQuarter _ _).connect _ _ _

theorem homeToReference (h : Steers s t) (q p : Nat) : Steers s (homeToReference q p t) := by
  unfold Machine.homeToReference
  split
  · exact (h.modQuarter _ _).testSlice _ _
  · exact (h.modQuarter _ _).modSlice _ _

theorem preempt (h : Steers s t) (q c : Nat) (host : Bool) : Steers s (preempt q c host t) := by
  unfold Machine.preempt
  dsimp only
  split
  · exact ((h.modQuarter _ _).modQuarter _ _).testSlice _ _
  · split
    · exact ((h.returnHome q).modQuarter _ _).modQuarter _ _
    · exact ((h.returnHome q).modQuarter _ _).preSettle _ _ _

theorem endPreemption (h : Steers s t) (q : Nat) : Steers s (endPreemption q t) := by
  unfold Machine.endPreemption
  dsimp only
  split
  · exact h.modQuarter _ _
  · exact ((h.modQuarter _ _).modQuarter _ _).preempt _ _ _

theorem fadeDone (h : Steers s t) (q : Nat) (f : Fade) : Steers s (fadeDone q f t) := by
  unfold Machine.fadeDone
  dsimp only
  split
  · exact (h.modQuarter _ _).homeToReference _ _
  · exact (h.modQuarter _ _).modQuarter _ _
  · exact (h.modQuarter _ _).preSettle _ _ _
  · exact ((h.modQuarter _ _).modQuarter _ _).testSlice _ _
  · exact (h.modQuarter _ _).endPreemption _
  · exact h.modQuarter _ _

theorem fadeSample (h : Steers s t) (q : Nat) : Steers s (fadeSample q t) := by
  unfold Machine.fadeSample
  split
  · exact h
  · split
    · exact h.modQuarter _ _
    · split
      · exact h.modQuarter _ _
      · exact h.fadeDone _ _

theorem fadeSamples (h : Steers s t) (l : List Nat) : Steers s (l.foldl (fun s q => Machine.fadeSample q s) t) := by
  induction l generalizing t with
  | nil => exact h
  | cons q l ih => exact ih (h.fadeSample q)

end Steers

/-! ### One strobe (R33, R93, R94) -/

section Strobe
variable {s : State}

/-- The passage of one strobe's raw samples: once the first valid sample has come, the frame it gives stands in the
ring; beside it only the array changes. -/
theorem senseSample_frame (raw : List Int) (come : s.sense.connected = true ∧ s.sense.first + 20 ≤ s.sense.nextRaw) :
    ∃ (f : RingFrame) (g : Sense), senseSample raw s =
        { s with sense := g, engines := { s.engines with ring := (f :: s.engines.ring).take 6241 } } ∧
      f.strobe = s.sense.nextRaw - 20 ∧ f.samples.length = 56 ∧ g.nextRaw = (s.sense.nextRaw + 1) % 2 ^ 48 ∧
      g.nextStrobe = (f.strobe + 1) % 2 ^ 48 := by
  unfold senseSample
  extract_lets k outs of selected r _ a b y c
  have samples : (frameOf (k - stageDelay) r.2 a).samples.length = 56 := by
    change ((r.2.zipIdx.map _).map _).length = 56
    simp only [List.length_map, List.length_zipIdx, r, channelRow, tab, List.length_range]
  obtain ⟨l, x, e⟩ := (Steers.refl c).fadeSamples (List.range 4)
  have pushed : b = pushFrame (frameOf (k - stageDelay) r.2 a) a := by
    refine if_pos ?_
    change (s.sense.connected && decide (s.sense.first + 20 ≤ s.sense.nextRaw)) = true
    rw [come.1, decide_eq_true come.2]
    rfl
  rw [e]
  simp only [c, y, pushed]
  exact ⟨_, _, rfl, rfl, samples, rfl, rfl⟩

/-- Before it no frame comes. -/
theorem senseSample_settling (raw : List Int) (soon : s.sense.connected = false ∨ s.sense.nextRaw < s.sense.first + 20) :
    ∃ g : Sense, senseSample raw s = { s with sense := g } ∧ g.nextRaw = (s.sense.nextRaw + 1) % 2 ^ 48 ∧
      g.nextStrobe = s.sense.nextStrobe := by
  unfold senseSample
  extract_lets k outs of selected r _ a b y c
  obtain ⟨l, x, e⟩ := (Steers.refl c).fadeSamples (List.range 4)
  have kept : b = a := by
    refine if_neg ?_
    change ¬ (s.sense.connected && decide (s.sense.first + 20 ≤ s.sense.nextRaw)) = true
    rcases soon with no | no
    · rw [no, Bool.false_and]; decide
    · rw [decide_eq_false (Nat.not_le.mpr no), Bool.and_false]; decide
  rw [e]
  simp only [c, y, kept]
  exact ⟨_, rfl, rfl, rfl⟩

end Strobe
/-- Settles O30: a raw sample is taken in and reckoned. -/
theorem samplesAreTakenIn : Obligations.SamplesAreTakenIn := by
  unfold Obligations.SamplesAreTakenIn
  intro s h
  refine ⟨fun idle => edge_next h (f := reckonedSample) ?_ rfl, fun raw rows supply => ?_⟩
  · unfold reckonedSample
    rcases idle with no | no
    · rw [no, ite_self]
    · exact if_pos no
  · have takes : reckonedSample s = if (senseSample raw s).sense.nextStrobe = s.sense.nextStrobe then senseSample raw s
        else
          let t := match (senseSample raw s).engines.ring.head? with
            | some f => runCuts (flickerFrame f (halfFrame f (trackFrame f (senseSample raw s))))
            | none => senseSample raw s
          if t.reckoningStopped then t else reckonBoth t.engines.ring t := by
      unfold reckonedSample
      rw [supply, if_neg (by decide), rows] <;> rfl
    have evidence : (senseSample raw s).evidence = s.evidence := by
      by_cases come : s.sense.connected = true ∧ s.sense.first + 20 ≤ s.sense.nextRaw
      · obtain ⟨f, g, e, -⟩ := senseSample_frame raw come
        rw [e]
      · obtain ⟨g, e, -⟩ := senseSample_settling (s := s) raw (by
          rw [not_and_or, Bool.not_eq_true, Nat.not_le] at come; exact come)
        rw [e]
    have passage : (senseSample raw s).sense.nextRaw = (s.sense.nextRaw + 1) % 2 ^ 48 ∧
        { senseSample raw s with sense := s.sense, engines := { (senseSample raw s).engines with ring := s.engines.ring } } = s := by
      by_cases come : s.sense.connected = true ∧ s.sense.first + 20 ≤ s.sense.nextRaw
      · obtain ⟨f, g, e, -, -, next, -⟩ := senseSample_frame raw come
        rw [e]
        exact ⟨next, rfl⟩
      · obtain ⟨g, e, next, -⟩ := senseSample_settling (s := s) raw (by
          rw [not_and_or, Bool.not_eq_true, Nat.not_le] at come; exact come)
        rw [e]
        exact ⟨next, rfl⟩
    refine ⟨passage.1, passage.2, fun soon => ?_, fun on far => ?_, fun same => ?_, fun f moved first => ?_⟩
    · obtain ⟨g, e, -, next⟩ := senseSample_settling (s := s) raw soon
      rw [e]
      exact ⟨rfl, next⟩
    · obtain ⟨f, g, e, strobe, samples, -, next⟩ := senseSample_frame raw ⟨on, far⟩
      rw [e]
      refine ⟨⟨f, rfl, strobe, samples⟩, next.trans ?_⟩
      rw [strobe]
      congr 1
      omega
    · exact edge_next h (f := reckonedSample) (takes.trans (if_pos same)) evidence
    · rw [if_neg moved, first] at takes
      exact edge_ends h (f := reckonedSample) takes

end Sys2Proof.Laws
end

section
/-! Flits, lanes and their tests (R84–R88, R100, R101, R522–R524), switch messages and the steps of the rotation (R89,
R106, R107). -/

namespace Sys2Proof.Laws
open Sys2Proof Sys2Proof.Machine

/-! ### Flits (R86–R88, R100, R101) -/

section Lanes
variable {l : Lane}

/-- The window of clocks behind the three of a flit, the chopper's reversal undone. -/
def windowOf (l : Lane) (c0 c1 c2 : BitVec 15) : List (BitVec 15) :=
  ([unchop (l.dataClock + 2) c2, unchop (l.dataClock + 1) c1, unchop l.dataClock c0] ++ l.clocks).take 125

/-- One clock enters the window, and every 32 clocks it gives a value. -/
theorem takeClock_eq (l : Lane) (x : Nat) (b : BitVec 15) : ∃ fresh : List StageOne,
    l.takeClock x b = { l with clocks := (unchop x b :: l.clocks).take 125, values := fresh ++ l.values } ∧
    (x % 32 ≠ 30 → fresh = []) ∧ fresh.length ≤ 1 := by
  unfold Lane.takeClock
  dsimp only
  split
  case isTrue full =>
    refine ⟨[_], rfl, fun other => ?_, le_refl _⟩
    rw [Bool.and_eq_true, decide_eq_true_eq] at full
    exact absurd full.1 other
  case isFalse => exact ⟨[], rfl, fun _ => rfl, Nat.zero_le _⟩

/-- The three clocks of a flit give one value at most. -/
theorem takeClocks_eq (l : Lane) (x : Nat) (c0 c1 c2 : BitVec 15) : ∃ fresh : List StageOne,
    l.takeClocks x c0 c1 c2 = { l with
      clocks := ([unchop (x + 2) c2, unchop (x + 1) c1, unchop x c0] ++ l.clocks).take 125, values := fresh ++ l.values } ∧
    fresh.length ≤ 1 := by
  obtain ⟨f, e, none_, one⟩ := takeClock_eq l x c0
  obtain ⟨f', e', none', one'⟩ := takeClock_eq (l.takeClock x c0) (x + 1) c1
  obtain ⟨f'', e'', none'', one''⟩ := takeClock_eq ((l.takeClock x c0).takeClock (x + 1) c1) (x + 2) c2
  refine ⟨f'' ++ f' ++ f, ?_, ?_⟩
  · rw [Lane.takeClocks, e'', e', e]
    have clocks : (unchop (x + 2) c2 :: (unchop (x + 1) c1 :: (unchop x c0 :: l.clocks).take 125).take 125).take 125 =
        ([unchop (x + 2) c2, unchop (x + 1) c1, unchop x c0] ++ l.clocks).take 125 := by
      simp [List.take_take]
    dsimp only
    rw [clocks, List.append_assoc, List.append_assoc]
  · rw [List.length_append, List.length_append]
    by_cases a : x % 32 = 30
    · rw [none' (by omega), none'' (by omega)]
      simpa using one
    · by_cases b : (x + 1) % 32 = 30
      · rw [none_ a, none'' (by omega)]
        simpa using one'
      · rw [none_ a, none' b]
        simpa using one''

theorem addRun_frame (l : Lane) (a b : Nat) (lost : Bool) : ∃ rs : List Run, l.addRun a b lost = { l with runs := rs } ∧
    ∃ r, rs.getLast? = some r ∧ r.lastClock = b := by
  unfold Lane.addRun
  dsimp only
  split
  · split
    · exact ⟨_, rfl, _, List.getLast?_concat .., rfl⟩
    · exact ⟨_, rfl, _, List.getLast?_concat .., rfl⟩
  · exact ⟨_, rfl, _, rfl, rfl⟩

/-- A flit whose clocks are missing: the pattern stands in for them, and the run that notes them is the last (R100). -/
theorem missFlit_eq (l : Lane) : ∃ (fresh : List StageOne) (rs : List Run), l.missFlit = { l with
    clocks := windowOf l 0x7FFF 0 0x7FFF, values := fresh ++ l.values, runs := rs
    nextSeq := (l.nextSeq + 1) % 256, ninth := (l.nextSeq + 1) % 256 % 8 == 0 } ∧
    ∃ r, rs.getLast? = some r ∧ r.lastClock = l.dataClock + 2 := by
  obtain ⟨rs, e, last⟩ := addRun_frame l l.dataClock (l.dataClock + 2) false
  obtain ⟨fresh, e', -⟩ := takeClocks_eq (l.addRun l.dataClock (l.dataClock + 2) false) l.dataClock 0x7FFF 0 0x7FFF
  refine ⟨fresh, rs, ?_, last⟩
  rw [Lane.missFlit, e', e]
  rfl

/-- A data flit brings its three clocks (R86). -/
theorem takeData_eq (l : Lane) (flit : BitVec 64) : ∃ fresh : List StageOne, l.takeData flit.toNat = { l with
    clocks := windowOf l (flit.extractLsb' 39 15) (flit.extractLsb' 24 15) (flit.extractLsb' 9 15)
    values := fresh ++ l.values, nextSeq := (l.nextSeq + 1) % 256, ninth := (l.nextSeq + 1) % 256 % 8 == 0 } ∧
    fresh.length ≤ 1 := by
  have bits (n : Nat) : BitVec.ofNat 15 (field (n + 14) n flit.toNat) = flit.extractLsb' n 15 := by
    apply BitVec.eq_of_toNat_eq
    have width : n + 14 + 1 - n = 15 := by omega
    simp [field, Nat.shiftRight_eq_div_pow, width]
  obtain ⟨fresh, e, one⟩ := takeClocks_eq l l.dataClock (flit.extractLsb' 39 15) (flit.extractLsb' 24 15) (flit.extractLsb' 9 15)
  refine ⟨fresh, ?_, one⟩
  rw [Lane.takeData, bits 39, bits 24, bits 9, e]
  rfl

theorem misalign_eq (l : Lane) : l.misalign = { l with aligned := false, gapFrom := some l.dataClock } := rfl

theorem passNinth_eq (l : Lane) : l.passNinth = { l with
    ninth := false, cycleStrobe := if l.nextSeq = 0 then l.cycleStrobe + 3 else l.cycleStrobe } := by
  unfold Lane.passNinth
  split <;> rfl

/-- A lane that aligns on a mark (R101). -/
theorem resync_aligned (l : Lane) (k : Nat) : (l.resync k).aligned = true ∧ (l.resync k).nextSeq = 0 ∧
    (l.resync k).ninth = false ∧ (l.resync k).gapFrom = none ∧ (l.resync k).cycleStrobe = k := by
  unfold Lane.resync
  dsimp only
  split
  case h_1 a _ =>
    obtain ⟨rs, e, -⟩ := addRun_frame { l with
      aligned := true, cycleStrobe := k, nextSeq := 0, ninth := false, gapFrom := none
      clocks := tab 125 (fun i => if (k * 256 - 1 - i) % 2 = 0 then 0x7FFF else 0)
      values := l.values.filter (fun v => decide (32 * v.index + 62 < k * 256)) } (min a (k * 256 - 768)) (k * 256 - 1) true
    rw [e]
    exact ⟨rfl, rfl, rfl, rfl, rfl⟩
  case h_2 => exact ⟨rfl, rfl, rfl, rfl, rfl⟩

/-- A failed flit is counted, and the 33rd starts the lane's test (R522). -/
theorem countFailed_eq (l : Lane) (free : l.testing = none) (sound : l.faulty = false) :
    l.countFailed.failedNow = l.failedNow + 1 ∧ l.countFailed.testing = (if l.failedNow = 32 then some 33 else none) ∧
    l.countFailed.clocks = l.clocks ∧ l.countFailed.runs = l.runs := by
  have third : (decide (l.failedNow + 1 = 33) && l.testing.isNone && !l.faulty) = decide (l.failedNow = 32) := by
    simp only [free, sound, Option.isNone_none, Bool.not_false, Bool.and_true]
    exact decide_eq_decide.mpr (by omega)
  unfold Lane.countFailed
  dsimp only
  rw [third]
  by_cases e : l.failedNow = 32
  · rw [decide_eq_true e, if_pos rfl, if_pos e, e]
    split <;> exact ⟨rfl, rfl, rfl, rfl⟩
  · rw [decide_eq_false e, if_neg (by decide), if_neg e]
    exact ⟨rfl, free, rfl, rfl⟩

/-- A failed flit leaves the lane's alignment and its test as they are; the clocks of a data flit are missing. -/
theorem takeBad_keeps (l : Lane) : l.takeBad.aligned = l.aligned ∧ l.takeBad.testing = l.testing ∧
    l.takeBad.faulty = l.faulty ∧ l.takeBad.failedNow = l.failedNow := by
  unfold Lane.takeBad
  split
  · exact ⟨rfl, rfl, rfl, rfl⟩
  · split
    · rw [passNinth_eq]
      exact ⟨rfl, rfl, rfl, rfl⟩
    · obtain ⟨fresh, rs, e, -⟩ := missFlit_eq l
      rw [e]
      exact ⟨rfl, rfl, rfl, rfl⟩

theorem takeBad_misses (aligned : l.aligned = true) (data : l.ninth = false) : l.takeBad.clocks = windowOf l 0x7FFF 0 0x7FFF ∧
    ∃ r, l.takeBad.runs.getLast? = some r ∧ r.lastClock = l.dataClock + 2 := by
  obtain ⟨fresh, rs, e, last⟩ := missFlit_eq l
  unfold Lane.takeBad
  rw [aligned, data, if_neg (by decide), if_neg (by decide), e]
  exact ⟨rfl, last⟩

end Lanes

/-! ### A flit arrives (R86–R88, R522) -/

section Arrival
variable {s : State} {k : Nat} {flit : BitVec 64}

theorem reachClock_senses (x : Nat) (s : State) : ∃ (n : BitVec 56) (l : List Slice),
    s.reachClock x = { s with sense := { s.sense with modCount := n, slices := l } } := by
  unfold State.reachClock Sense.reach
  split <;> exact ⟨_, _, rfl⟩

theorem flitReceive_lost (h : (s.sense.lanes.getD k {}).testing.isSome = true ∨ (s.sense.lanes.getD k {}).faulty = true) :
    flitReceive k flit s = s := by
  refine if_pos ?_
  rcases h with h | h
  · rw [h]; simp
  · rw [h]; simp

/-- The state with lane `k` replaced. -/
def withLane (s : State) (k : Nat) (m : Lane) : State :=
  { s with sense := { s.sense with lanes := modAt s.sense.lanes k (fun _ => m) } }

theorem begun_aligned {old : Lane} (new : Lane) (g : Sense) (h : old.aligned = true) : Sense.begun old new g = g := by
  refine if_neg ?_
  rw [h]
  simp

theorem begun_unaligned (old : Lane) {new : Lane} (g : Sense) (h : new.aligned = false) : Sense.begun old new g = g := by
  refine if_neg ?_
  rw [h]
  simp

/-- Whatever a lane's first alignment fixes, the lanes stay as they are. -/
theorem begun_lanes (old new : Lane) (g : Sense) : (Sense.begun old new g).lanes = g.lanes := by
  unfold Sense.begun
  split <;> rfl

variable (few : k < 6) (free : (s.sense.lanes.getD k {}).testing = none) (sound : (s.sense.lanes.getD k {}).faulty = false)
include few free sound

theorem flitReceive_good (good : flitGood k flit.toNat = true) : flitReceive k flit s =
    let l := s.sense.lanes.getD k {}
    let m := if k < 4 then l.takeGood s.sense.strobe flit.toNat else l
    let u : State := { s with sense := { Sense.begun l m s.sense with lanes := modAt s.sense.lanes k (fun _ => m) } }
    if m.aligned then u.reachClock m.dataClock else u := by
  unfold flitReceive
  dsimp only
  rw [if_neg (by rw [free, sound]; simp; omega), good]
  rfl

/-- A good flit leaves an aligned lane aligned: only the count goes on with it. -/
theorem flitReceive_stays {m : Lane} (good : flitGood k flit.toNat = true) (lane : k < 4)
    (was : (s.sense.lanes.getD k {}).aligned = true)
    (takes : (s.sense.lanes.getD k {}).takeGood s.sense.strobe flit.toNat = m) :
    ∃ (n : BitVec 56) (l : List Slice), flitReceive k flit s =
      { s with sense := { s.sense with modCount := n, slices := l, lanes := modAt s.sense.lanes k (fun _ => m) } } := by
  rw [flitReceive_good few free sound good]
  dsimp only
  rw [if_pos lane, takes, begun_aligned m s.sense was]
  split
  · obtain ⟨n, l, e⟩ := reachClock_senses m.dataClock (withLane s k m)
    exact ⟨n, l, e⟩
  · exact ⟨_, _, rfl⟩

theorem flitReceive_bad (bad : flitGood k flit.toNat = false) : flitReceive k flit s =
    let l := s.sense.lanes.getD k {}
    let m := if k < 4 then l.takeBad else l
    let u : State := { s with sense := { Sense.begun l m s.sense with lanes := modAt s.sense.lanes k (fun _ => m.countFailed) } }
    (if m.aligned then u.reachClock m.dataClock else u).countIntegrity k := by
  unfold flitReceive
  dsimp only
  rw [if_neg (by rw [free, sound]; simp; omega), bad]
  rfl

/-- A failed flit touches the array and its count alone. -/
theorem flitReceive_fails (bad : flitGood k flit.toNat = false) : ∃ (g : Sense),
    flitReceive k flit s = { s with sense := g, integrity := { s.integrity with
      counters := modAt s.integrity.counters k (· + 1) } } ∧
    g.lanes = modAt s.sense.lanes k (fun _ =>
      (if k < 4 then (s.sense.lanes.getD k {}).takeBad else s.sense.lanes.getD k {}).countFailed) := by
  rw [flitReceive_bad few free sound bad]
  dsimp only
  generalize (if k < 4 then (s.sense.lanes.getD k {}).takeBad else s.sense.lanes.getD k {}) = m
  split
  · obtain ⟨n, l, e⟩ := reachClock_senses m.dataClock { s with sense :=
      { Sense.begun (s.sense.lanes.getD k {}) m s.sense with lanes := modAt s.sense.lanes k (fun _ => m.countFailed) } }
    rw [e]
    exact ⟨_, rfl, rfl⟩
  · exact ⟨_, rfl, rfl⟩

end Arrival
/-! ### The lane tests (R522–R524) -/

section Tests
variable {s : State} {k : Nat}

/-- What is raised on an edge that is not the crystal's stands in the queue at its end, under its code and payload. -/
theorem joinEdge_mem {q rs : List Raised} {e : Raised} (mem : e ∈ rs) (plain : e.crystal = false) :
    ∃ x ∈ joinEdge q rs, x.code = e.code ∧ x.payload = e.payload := by
  have inserted (r : Raised) (l : List Raised) {y : Raised} : y ∈ insertRaised r l ↔ y = r ∨ y ∈ l := by
    induction l with
    | nil => simp [insertRaised]
    | cons x xs ih =>
      unfold insertRaised
      split
      · simp
      · rw [List.mem_cons, ih, List.mem_cons]
        tauto
  have sorted : e ∈ sortRaised rs := by
    have grows (l acc : List Raised) (h : e ∈ acc ∨ e ∈ l) : e ∈ l.foldl (fun acc r => insertRaised r acc) acc := by
      induction l generalizing acc with
      | nil => simpa using h
      | cons x xs ih =>
        refine ih _ ?_
        rw [inserted]
        rcases h with h | h
        · exact .inl (.inr h)
        · rcases List.mem_cons.mp h with rfl | h
          · exact .inl (.inl rfl)
          · exact .inr h
    exact grows rs [] (.inr mem)
  have numbered (n : Nat) (l : List Raised) (h : e ∈ l) : ∃ x ∈ numberRaised n l, x.code = e.code ∧ x.payload = e.payload := by
    induction l generalizing n with
    | nil => cases h
    | cons y ys ih =>
      rcases List.mem_cons.mp h with rfl | h
      · exact ⟨_, List.mem_cons_self .., rfl, rfl⟩
      · obtain ⟨x, there, same⟩ := ih (n + 1) h
        exact ⟨x, List.mem_cons_of_mem _ there, same⟩
  obtain ⟨x, there, same⟩ := numbered 0 _ sorted
  unfold joinEdge
  split
  case h_1 r rest =>
    have mixed : (r :: rest).all Raised.crystal = false :=
      List.all_eq_false.mpr ⟨e, mem, by rw [plain]; decide⟩
    rw [mixed, if_neg (by decide)]
    exact ⟨x, List.mem_append_right _ there, same⟩
  case h_2 => cases mem

/-- What the end of an edge leaves of an entry raised on it. -/
theorem endEdge_mem {s : State} {e : Raised} (mem : e ∈ s.evidence.raised) (plain : e.crystal = false) :
    ∃ x ∈ s.endEdge.evidence.queue, x.code = e.code ∧ x.payload = e.payload := by
  rw [endEdge_queue]
  exact joinEdge_mem mem plain

/-- From `s` to `t` the lanes stand, lost channels and stopped quarters stay so, and no entry raised is taken back. -/
structure Retires (s t : State) : Prop where
  lanes : t.sense.lanes = s.sense.lanes
  raised : ∀ e ∈ s.evidence.raised, e ∈ t.evidence.raised
  lost : ∀ c, (s.sense.channels.getD c {}).lost = true → (t.sense.channels.getD c {}).lost = true
  stopped : ∀ q, (s.sense.quarters.getD q {}).stopped = true → (t.sense.quarters.getD q {}).stopped = true
  channels : t.sense.channels.length = s.sense.channels.length
  quarters : t.sense.quarters.length = s.sense.quarters.length

namespace Retires
variable {s t u : State}

theorem refl (s : State) : Retires s s := ⟨rfl, fun _ h => h, fun _ h => h, fun _ h => h, rfl, rfl⟩

theorem trans (h : Retires s t) (k : Retires t u) : Retires s u :=
  ⟨k.lanes.trans h.lanes, fun e m => k.raised e (h.raised e m), fun c m => k.lost c (h.lost c m),
    fun q m => k.stopped q (h.stopped q m), k.channels.trans h.channels, k.quarters.trans h.quarters⟩

/-- A property that `f` keeps is kept wherever it is applied. -/
theorem modAt_keeps {α : Type} {p : α → Prop} {f : α → α} (keeps : ∀ x, p x → p (f x)) (l : List α) (i j : Nat) (d : α)
    (h : p (l.getD j d)) : p ((modAt l i f).getD j d) := by
  by_cases e : j = i
  · subst e
    by_cases lt : j < l.length
    · rw [modAt_getD_same _ _ _ _ lt]
      exact keeps _ h
    · rw [List.getD_eq_default _ _ (by rw [modAt_length]; exact Nat.not_lt.mp lt)]
      rwa [List.getD_eq_default _ _ (Nat.not_lt.mp lt)] at h
  · rw [modAt_getD_other _ _ _ _ e]
    exact h

theorem modChannel (h : Retires s t) (c : Nat) {f : Channel → Channel}
    (keeps : ∀ x, x.lost = true → (f x).lost = true := by exact fun _ h => h) : Retires s (t.modChannel c f) :=
  h.trans ⟨rfl, fun _ m => m, fun i m => modAt_keeps (p := fun x : Channel => x.lost = true) keeps _ c i {} m, fun _ m => m,
    modAt_length _ _ _, rfl⟩

theorem modQuarter (h : Retires s t) (q : Nat) {f : Quarter → Quarter}
    (keeps : ∀ x, x.stopped = true → (f x).stopped = true := by exact fun _ h => h) : Retires s (t.modQuarter q f) :=
  h.trans ⟨rfl, fun _ m => m, fun _ m => m, fun i m => modAt_keeps (p := fun x : Quarter => x.stopped = true) keeps _ q i {} m,
    rfl, modAt_length _ _ _⟩

theorem modSlice (h : Retires s t) (i : Nat) (f : Slice → Slice) : Retires s (t.modSlice i f) :=
  h.trans ⟨rfl, fun _ m => m, fun _ m => m, fun _ m => m, rfl, rfl⟩

theorem raise (h : Retires s t) (code : Nat) (p : Bytes) : Retires s (t.raise code p) :=
  h.trans ⟨rfl, fun _ m => List.mem_append_left _ m, fun _ m => m, fun _ m => m, rfl, rfl⟩

theorem foldl {α : Type} {f : State → α → State} (each : ∀ s x, Retires s (f s x)) (h : Retires s t) (l : List α) :
    Retires s (l.foldl f t) := by
  induction l generalizing t with
  | nil => exact h
  | cons x xs ih => exact ih (h.trans (each t x))

theorem modHomes (h : Retires s t) (q : Nat) {f : Channel → Channel}
    (keeps : ∀ x, x.lost = true → (f x).lost = true := by exact fun _ h => h) : Retires s (t.modHomes q f) :=
  foldl (fun u _ => (refl u).modChannel _ keeps) h _

theorem loseChannel (h : Retires s t) (c : Nat) : Retires s (t.loseChannel c) :=
  (h.modChannel c (keeps := fun _ _ => rfl)).raise _ _

theorem returnHome (h : Retires s t) (q : Nat) : Retires s (t.returnHome q) := by
  unfold State.returnHome
  dsimp only
  refine Retires.modSlice ?_ _ _
  split
  · exact h.modSlice _ _
  · exact h.modSlice _ _
  · exact h.modSlice _ _
  all_goals exact h

theorem stopRotation (h : Retires s t) (q : Nat) : Retires s (t.stopRotation q) :=
  ((h.modQuarter q (keeps := fun _ _ => rfl)).modHomes q).modChannel _

end Retires

/-- What one step brings and every step keeps holds after all of them. -/
theorem foldl_reaches {f : State → Nat → State} {good : Nat → State → Prop} (sized : State → Prop)
    (keeps : ∀ s x y, good y s → good y (f s x)) (stays : ∀ s x, sized s → sized (f s x)) (n : Nat)
    (brings : ∀ s x, x < n → sized s → good x (f s x)) {x : Nat} (lt : x < n) {s : State} (h : sized s) :
    good x ((List.range n).foldl f s) := by
  induction n with
  | zero => cases lt
  | succ n ih =>
    have size (m : Nat) : sized ((List.range m).foldl f s) := by
      induction m with
      | zero => exact h
      | succ m ih' =>
        rw [List.range_succ, List.foldl_append]
        exact stays _ _ ih'
    rw [List.range_succ, List.foldl_append]
    by_cases e : x = n
    · subst e
      exact brings _ _ (Nat.lt_succ_self _) (size _)
    · exact keeps _ _ _ (ih (fun t y ly => brings t y (Nat.lt_succ_of_lt ly)) (by omega))

theorem stopRotation_stops (q : Nat) (known : q < s.sense.quarters.length) :
    ((s.stopRotation q).sense.quarters.getD q {}).stopped = true := by
  let f := fun x : Quarter => { x with stopped := true, rot := .idle, fade := none, waiting := [], waderTestDue := false }
  have set : ((s.modQuarter q f).sense.quarters.getD q {}).stopped = true := by
    change ((modAt s.sense.quarters q f).getD q {}).stopped = true
    rw [modAt_getD_same _ _ _ _ known]
  exact (((Retires.refl _).modHomes q).modChannel _).stopped q set

theorem loseChannel_lost {c : Nat} (known : c < s.sense.channels.length) :
    ((s.loseChannel c).sense.channels.getD c {}).lost = true := by
  change ((modAt s.sense.channels c _).getD c {}).lost = true
  rw [modAt_getD_same _ _ _ _ known]

theorem channelAt_lt {q p : Nat} (hq : q < 4) (hp : p < 14) : channelAt q p < 60 := by
  unfold channelAt
  split <;> omega

/-- A sample lane that is retired takes its channels and its rotation with it (R524). -/
theorem retireLane_sample (lane : k < 4) : Retires s (s.retireLane k) ∧
    (s.sense.channels.length = 60 → ∀ p, p < 14 → ((s.retireLane k).sense.channels.getD (channelAt k p) {}).lost = true) ∧
    (s.sense.quarters.length = 4 → ((s.retireLane k).sense.quarters.getD k {}).stopped = true) := by
  have run : s.retireLane k = (List.range 14).foldl (fun s p => s.loseChannel (channelAt k p))
      (((((s.returnHome k).modQuarter k (fun x => { x with
        stopped := true, rot := .idle, fade := none, waiting := [], waderTestDue := false
        cover := if x.permanent then x.cover else none
        standIn := if x.permanent then x.standIn else none })).modHomes k (fun c => { c with suspect := false })).modChannel
          (56 + k) (fun c => { c with suspect := false }))) := if_pos lane
  have home := (Retires.refl s).returnHome k
  rw [run]
  generalize eu : (((s.returnHome k).modQuarter k (fun x => { x with
        stopped := true, rot := .idle, fade := none, waiting := [], waderTestDue := false
        cover := if x.permanent then x.cover else none
        standIn := if x.permanent then x.standIn else none })).modHomes k (fun c => { c with suspect := false })).modChannel
          (56 + k) (fun c => { c with suspect := false }) = u
  have before : Retires s u := by
    rw [← eu]
    exact ((home.modQuarter k (keeps := fun _ _ => rfl)).modHomes k).modChannel _
  have loses : Retires u ((List.range 14).foldl (fun s p => s.loseChannel (channelAt k p)) u) :=
    Retires.foldl (fun t p => (Retires.refl t).loseChannel _) (Retires.refl u) _
  refine ⟨before.trans loses, fun sixty p lt => ?_, fun four => ?_⟩
  · exact foldl_reaches (f := fun s p => s.loseChannel (channelAt k p))
      (good := fun p t => (t.sense.channels.getD (channelAt k p) {}).lost = true) (fun t => t.sense.channels.length = 60)
      (fun t x y h => ((Retires.refl t).loseChannel (channelAt k x)).lost _ h)
      (fun t x h => (((Retires.refl t).loseChannel (channelAt k x)).channels).trans h) 14
      (fun t x few h => loseChannel_lost (by rw [h]; exact channelAt_lt lane few)) lt (before.channels.trans sixty)
  · refine loses.stopped k ?_
    rw [← eu]
    refine (((Retires.refl _).modHomes k).modChannel _).stopped k ?_
    change ((modAt (s.returnHome k).sense.quarters k _).getD k {}).stopped = true
    rw [modAt_getD_same _ _ _ _ (by rw [home.quarters, four]; exact lane)]

/-- The control lane takes every rotation (R524). -/
theorem retireLane_control : Retires s (s.retireLane 5) ∧ (s.sense.quarters.length = 4 → ∀ q, q < 4 →
    ((s.retireLane 5).sense.quarters.getD q {}).stopped = true) := by
  have run : s.retireLane 5 = (List.range 4).foldl (fun s q => s.stopRotation q) s := rfl
  rw [run]
  refine ⟨Retires.foldl (fun t q => (Retires.refl t).stopRotation q) (Retires.refl s) _, fun four q lt => ?_⟩
  exact foldl_reaches (f := fun s q => s.stopRotation q)
    (good := fun q t => (t.sense.quarters.getD q {}).stopped = true) (fun t => t.sense.quarters.length = 4)
    (fun t x y h => ((Retires.refl t).stopRotation x).stopped _ h)
    (fun t x h => ((Retires.refl t).stopRotation x).quarters.trans h) 4
    (fun t x few h => stopRotation_stops x (by rw [h]; exact few)) lt four

/-- What a lane's test does at its end: a passed one counts a transient, a failed one retires the lane (R523, R524). -/
def testedLane (s : State) (k n : Nat) (passed : Bool) : State :=
  ({ s with sense := { s.sense with lanes := modAt s.sense.lanes k (fun l =>
    ({ l with testing := none, faulty := !passed } : Lane)) } } : State).raise 0x25
      (BitVec.ofNat 8 k :: leBytes 4 n ++ [BitVec.ofNat 8 (flag passed)])

theorem laneTestEnd_none (none_ : (s.sense.lanes.getD k {}).testing = none) (passed : Bool) : laneTestEnd k passed s = s := by
  unfold laneTestEnd
  rw [none_]

theorem laneTestEnd_eq {n : Nat} (tests : (s.sense.lanes.getD k {}).testing = some n) (passed : Bool) :
    laneTestEnd k passed s = if passed then (testedLane s k n passed).countIntegrity 11
      else ((testedLane s k n passed).raise 0x26 [BitVec.ofNat 8 k]).retireLane k := by
  unfold laneTestEnd
  rw [tests]
  rfl

/-- The retirement of any lane. -/
theorem retireLane_retires (s : State) (k : Nat) : Retires s (s.retireLane k) := by
  by_cases sample : k < 4
  · exact (retireLane_sample sample).1
  · by_cases control : k = 5
    · subst control
      exact retireLane_control.1
    · have stays : s.retireLane k = s := (if_neg sample).trans (if_neg control)
      rw [stays]
      exact Retires.refl s

/-- A failed test logs the lane and takes it out of service (R524). -/
theorem laneTestEnd_fails (h : Settled s) {n : Nat} (tests : (s.sense.lanes.getD k {}).testing = some n) :
    ∃ t, exec (.laneTestEnd k false) s = .next t ∧ t.sense.lanes = (testedLane s k n false).sense.lanes ∧
      (∃ e ∈ t.evidence.queue, e.code = 0x26 ∧ e.payload = [BitVec.ofNat 8 k]) ∧
      (k < 4 → s.sense.channels.length = 60 → ∀ p, p < 14 → (t.sense.channels.getD (channelAt k p) {}).lost = true) ∧
      (k < 4 → s.sense.quarters.length = 4 → (t.sense.quarters.getD k {}).stopped = true) ∧
      (k = 5 → s.sense.quarters.length = 4 → ∀ q, q < 4 → (t.sense.quarters.getD q {}).stopped = true) := by
  have run := edge_ends (f := laneTestEnd k false) h ((laneTestEnd_eq tests false).trans (if_neg (by decide)))
  generalize eu : (testedLane s k n false).raise 0x26 [BitVec.ofNat 8 k] = u at run
  obtain ⟨-, -, sense, -⟩ := endEdge_frame (u.retireLane k)
  have kept := retireLane_retires u k
  refine ⟨_, run, ?_, ?_, ?_⟩
  · rw [sense, kept.lanes, ← eu]
    rfl
  · have entry : ∃ e ∈ u.evidence.raised, e.code = 0x26 ∧ e.payload = [BitVec.ofNat 8 k] ∧ e.crystal = false := by
      rw [← eu]
      exact ⟨_, List.mem_append_right _ (List.mem_singleton_self _), rfl, rfl, rfl⟩
    obtain ⟨e, there, code, payload, plain⟩ := entry
    obtain ⟨x, queued, same, bytes⟩ := endEdge_mem (kept.raised e there) plain
    exact ⟨x, queued, same.trans code, bytes.trans payload⟩
  · have channels : u.sense.channels = s.sense.channels := by rw [← eu]; rfl
    have quarters : u.sense.quarters = s.sense.quarters := by rw [← eu]; rfl
    rw [sense]
    refine ⟨fun lane sixty => ?_, fun lane four => ?_, fun control four => ?_⟩
    · exact (retireLane_sample lane).2.1 (by rw [channels]; exact sixty)
    · exact (retireLane_sample lane).2.2 (by rw [quarters]; exact four)
    · subst control
      exact retireLane_control.2 (by rw [quarters]; exact four)

end Tests

/-! ### A good flit of a sample lane (R86, R87, R101) -/

section Good
variable {s : State} {k : Nat} {flit : BitVec 64} (h : Settled s) (lane : k < 4)
  (free : (s.sense.lanes.getD k {}).testing = none) (sound : (s.sense.lanes.getD k {}).faulty = false)
  (good : flitGood k flit.toNat = true)
include h lane free sound good

/-- A good flit that leaves an aligned lane as `m` touches nothing else but the count and what follows it. -/
theorem flitReceive_takes {m : Lane} (was : (s.sense.lanes.getD k {}).aligned = true)
    (takes : (s.sense.lanes.getD k {}).takeGood s.sense.strobe flit.toNat = m) :
    ∃ t, exec (.flitReceive k flit) s = .next t ∧ t.sense.lanes = modAt s.sense.lanes k (fun _ => m) ∧
      { t with sense := { t.sense with
        lanes := s.sense.lanes, modCount := s.sense.modCount, slices := s.sense.slices } } = s := by
  obtain ⟨n, l, e⟩ := flitReceive_stays (by omega) free sound good lane was takes
  exact ⟨_, edge_next h e rfl, rfl, rfl⟩

theorem flitReceive_data (was : (s.sense.lanes.getD k {}).aligned = true) (data : (s.sense.lanes.getD k {}).ninth = false)
    (kind : field 63 62 flit.toNat = 1) (next_ : field 61 54 flit.toNat = (s.sense.lanes.getD k {}).nextSeq) :
    ∃ t fresh, exec (.flitReceive k flit) s = .next t ∧
      t.sense.lanes = modAt s.sense.lanes k (fun _ => ({ s.sense.lanes.getD k {} with
        clocks := windowOf (s.sense.lanes.getD k {}) (flit.extractLsb' 39 15) (flit.extractLsb' 24 15) (flit.extractLsb' 9 15)
        values := fresh ++ (s.sense.lanes.getD k {}).values
        nextSeq := ((s.sense.lanes.getD k {}).nextSeq + 1) % 256
        ninth := ((s.sense.lanes.getD k {}).nextSeq + 1) % 256 % 8 == 0 } : Lane)) ∧
      fresh.length ≤ 1 ∧ { t with sense := { t.sense with
        lanes := s.sense.lanes, modCount := s.sense.modCount, slices := s.sense.slices } } = s := by
  obtain ⟨fresh, e, one⟩ := takeData_eq (s.sense.lanes.getD k {}) flit
  have takes : (s.sense.lanes.getD k {}).takeGood s.sense.strobe flit.toNat = (s.sense.lanes.getD k {}).takeData flit.toNat := by
    unfold Lane.takeGood
    rw [was, kind, data, next_]
    simp
  obtain ⟨t, run, lanes, rest⟩ := flitReceive_takes h lane free sound good was (takes.trans e)
  exact ⟨t, fresh, run, lanes, one, rest⟩

theorem flitReceive_ninth (was : (s.sense.lanes.getD k {}).aligned = true) (ninth : (s.sense.lanes.getD k {}).ninth = true)
    (awaited : field 63 62 flit.toNat = 2 → (s.sense.lanes.getD k {}).nextSeq = 0 ∧
      field 53 14 flit.toNat = ((s.sense.lanes.getD k {}).cycleStrobe + 3) % 2 ^ 40) :
    ∃ t, exec (.flitReceive k flit) s = .next t ∧
      t.sense.lanes = modAt s.sense.lanes k (fun _ => ({ s.sense.lanes.getD k {} with
        ninth := false
        cycleStrobe := if (s.sense.lanes.getD k {}).nextSeq = 0 then (s.sense.lanes.getD k {}).cycleStrobe + 3
          else (s.sense.lanes.getD k {}).cycleStrobe } : Lane)) ∧
      { t with sense := { t.sense with
        lanes := s.sense.lanes, modCount := s.sense.modCount, slices := s.sense.slices } } = s := by
  have takes : (s.sense.lanes.getD k {}).takeGood s.sense.strobe flit.toNat = (s.sense.lanes.getD k {}).passNinth := by
    unfold Lane.takeGood
    dsimp only
    rw [was, if_neg (by decide), ninth]
    by_cases mark : field 63 62 flit.toNat = 2
    · obtain ⟨seq, strobe⟩ := awaited mark
      rw [if_pos mark, seq, ← strobe, if_pos (by simp)]
    · rw [if_neg mark, if_pos rfl]
  exact flitReceive_takes h lane free sound good was (takes.trans (passNinth_eq _))

/-- A mark out of its place: the lane has lost its alignment. -/
theorem flitReceive_misaligned (known : k < s.sense.lanes.length) (was : (s.sense.lanes.getD k {}).aligned = true)
    (mark : field 63 62 flit.toNat = 2)
    (other : (s.sense.lanes.getD k {}).ninth = false ∨ (s.sense.lanes.getD k {}).nextSeq ≠ 0 ∨
      field 53 14 flit.toNat ≠ ((s.sense.lanes.getD k {}).cycleStrobe + 3) % 2 ^ 40) :
    ∃ t, exec (.flitReceive k flit) s = .next t ∧ (t.sense.lanes.getD k {}).aligned = false ∧
      (t.sense.lanes.getD k {}).gapFrom = some (s.sense.lanes.getD k {}).dataClock ∧ { t with sense := s.sense } = s := by
  have takes : (s.sense.lanes.getD k {}).takeGood s.sense.strobe flit.toNat = (s.sense.lanes.getD k {}).misalign := by
    unfold Lane.takeGood
    dsimp only
    rw [was, if_neg (by decide), if_pos mark]
    refine if_neg fun all => ?_
    rw [Bool.and_eq_true, Bool.and_eq_true, decide_eq_true_eq, decide_eq_true_eq] at all
    obtain ⟨⟨ninth, seq⟩, strobe⟩ := all
    rcases other with no | no | no
    · rw [ninth] at no
      cases no
    · exact no seq
    · exact no strobe
  obtain ⟨t, run, lanes, rest⟩ := flitReceive_takes h lane free sound good was takes
  refine ⟨t, run, ?_, ?_, ?_⟩
  · rw [lanes, modAt_getD_same _ _ _ _ known]
    rfl
  · rw [lanes, modAt_getD_same _ _ _ _ known]
    rfl
  · exact congrArg (fun u : State => { u with sense := s.sense }) rest

/-- A mark aligns a lane that has lost its alignment (R101). -/
theorem flitReceive_aligns (known : k < s.sense.lanes.length) (was : (s.sense.lanes.getD k {}).aligned = false)
    (mark : field 63 62 flit.toNat = 2) :
    ∃ t, exec (.flitReceive k flit) s = .next t ∧
      t.sense.lanes.getD k {} = (s.sense.lanes.getD k {}).resync (extendStrobe s.sense.strobe (field 53 14 flit.toNat)) ∧
      { t with sense := s.sense } = s := by
  have takes : (s.sense.lanes.getD k {}).takeGood s.sense.strobe flit.toNat =
      (s.sense.lanes.getD k {}).resync (extendStrobe s.sense.strobe (field 53 14 flit.toNat)) := by
    unfold Lane.takeGood
    dsimp only
    rw [was, if_pos (by decide), if_pos mark]
  have run := flitReceive_good (by omega) free sound good
  dsimp only at run
  rw [if_pos lane, takes] at run
  generalize (s.sense.lanes.getD k {}).resync (extendStrobe s.sense.strobe (field 53 14 flit.toNat)) = m at run ⊢
  have touches : ∃ g : Sense, flitReceive k flit s = { s with sense := g } ∧ g.lanes = modAt s.sense.lanes k (fun _ => m) := by
    rw [run]
    split
    · obtain ⟨n, l, e⟩ := reachClock_senses m.dataClock { s with sense :=
        { Sense.begun (s.sense.lanes.getD k {}) m s.sense with lanes := modAt s.sense.lanes k (fun _ => m) } }
      rw [e]
      exact ⟨_, rfl, rfl⟩
    · exact ⟨_, rfl, rfl⟩
  obtain ⟨g, e, lanes⟩ := touches
  refine ⟨_, edge_next h e rfl, ?_, rfl⟩
  change g.lanes.getD k {} = m
  rw [lanes, modAt_getD_same _ _ _ _ known]

end Good

/-! ### Flits, lanes and tests (O25) -/

/-- Settles O25: what a flit brings depends on its check, its kind and the place its lane awaits; a lane's test ends
once. -/
theorem flitsAndLanes : Obligations.FlitsAndLanes := by
  unfold Obligations.FlitsAndLanes
  intro s k h few
  dsimp only
  refine ⟨fun free sound flit => ⟨fun good lane was data kind next_ => ?data, fun good lane was ninth awaited => ?ninth,
    fun good lane was mark known other => ?mark, fun good lane was mark known => ?aligns, fun good high was => ?other,
    fun bad => ?bad⟩, fun off flit => edge_next h (flitReceive_lost off) rfl,
    fun free passed => edge_next h (laneTestEnd_none free passed) rfl,
    fun n tests => ⟨edge_ends h ((laneTestEnd_eq tests true).trans (if_pos rfl)), laneTestEnd_fails h tests⟩⟩
  case data => exact flitReceive_data h lane free sound good was data kind next_
  case ninth => exact flitReceive_ninth h lane free sound good was ninth awaited
  case mark => exact flitReceive_misaligned h lane free sound good known was mark other
  case aligns =>
    obtain ⟨t, run, lane_, rest⟩ := flitReceive_aligns h lane free sound good known was mark
    refine ⟨t, run, ?_, rest⟩
    rw [lane_]
    exact resync_aligned _ _
  case other =>
    refine edge_next h ?_ rfl
    rw [flitReceive_good few free sound good]
    dsimp only
    have other : ¬ k < 4 := Nat.not_lt.mpr high
    rw [if_neg other, begun_unaligned _ _ was, was, if_neg (by decide), modAt_self (d := {}) rfl]
  case bad =>
    obtain ⟨g, e, lanes⟩ := flitReceive_fails few free sound bad
    refine ⟨_, edge_next h e rfl, rfl, fun known => ?_, rfl⟩
    have lane_ : g.lanes.getD k {} = (if k < 4 then (s.sense.lanes.getD k {}).takeBad else s.sense.lanes.getD k {}).countFailed := by
      rw [lanes, modAt_getD_same _ _ _ _ known]
    have kept : ∀ m : Lane, m = (if k < 4 then (s.sense.lanes.getD k {}).takeBad else s.sense.lanes.getD k {}) →
        m.testing = none ∧ m.faulty = false ∧ m.failedNow = (s.sense.lanes.getD k {}).failedNow := by
      intro m e
      obtain ⟨-, testing, faulty, failed⟩ := takeBad_keeps (s.sense.lanes.getD k {})
      rw [e]
      split
      · exact ⟨testing.trans free, faulty.trans sound, failed⟩
      · exact ⟨free, sound, rfl⟩
    obtain ⟨testing, faulty, failed⟩ := kept _ rfl
    obtain ⟨now, test, clocks, runs⟩ := countFailed_eq _ testing faulty
    refine ⟨?_, ?_, fun lane was data => ?_⟩
    · exact (congrArg Lane.failedNow lane_).trans (now.trans (by rw [failed]))
    · exact (congrArg Lane.testing lane_).trans (test.trans (by rw [failed]))
    · obtain ⟨missed, last⟩ := takeBad_misses was data
      rw [if_pos lane] at clocks runs lane_
      refine ⟨?_, ?_⟩
      · exact (congrArg Lane.clocks lane_).trans (clocks.trans missed)
      · rw [← runs, ← lane_] at last
        exact last

/-! ### Switch messages and the steps of the rotation (R89, R106, R107; O26) -/

section Switches
variable {s : State} {strobe : BitVec 48}

/-- Every switch message of the coder's epoch sets the source of its slice (R89). -/
theorem actAll_eq (ms : List SwitchMsg) (s : State) :
    ms.foldl (fun s m => s.modSlice (sliceAt m.quarter m.slice) (fun x => { x with source := m.source })) s =
      { s with sense := { s.sense with slices := ms.foldl (fun l m => modAt l (m.quarter * 15 + m.slice)
        (fun x => { x with source := m.source })) s.sense.slices } } := by
  induction ms generalizing s with
  | nil => rfl
  | cons m ms ih =>
    rw [List.foldl_cons, ih]
    rfl

theorem switchDue_iff (epoch : BitVec 24) (strobe : BitVec 48) : switchDue epoch strobe.toNat = true ↔
    1 ≤ (epoch - strobe.setWidth 24).toNat ∧ (epoch - strobe.setWidth 24).toNat < 2 ^ 23 := by
  have apart : (epoch.toNat + 2 ^ 24 - strobe.toNat % 2 ^ 24) % 2 ^ 24 = (epoch - strobe.setWidth 24).toNat := by
    rw [BitVec.toNat_sub, BitVec.toNat_setWidth]
    have lt := Nat.mod_lt strobe.toNat (show 2 ^ 24 > 0 by decide)
    omega
  unfold switchDue
  rw [apart, Bool.and_eq_true, decide_eq_true_eq, decide_eq_true_eq]
  omega

/-- Where a slot's step is not due its quarter is left alone; else its wader begins its measurement or its test (R107). -/
theorem stepQuarter_eq (p q start : Nat) (s : State) : stepQuarter p q start s = s ∨
    ∃ f : Quarter → Quarter, stepQuarter p q start s = (s.modQuarter q f).measure q waderSlot start
      (if (s.sense.quarters.getD q {}).waderTestDue then homePart else waderPart) ∧
    ∀ x, (f x).step = p ∧ (f x).rot = if x.waderTestDue then .waderTest p else .waderRef p := by
  unfold stepQuarter
  dsimp only
  split
  case isTrue => exact .inl rfl
  case isFalse => exact .inr ⟨_, rfl, fun x => ⟨rfl, rfl⟩⟩

/-- What the step of quarter `q` turns on: the quarter and the slice of its wader. -/
def stepPart (q : Nat) (s : State) : Quarter × Slice := (s.sense.quarters.getD q {}, s.sense.slices.getD (q * 15 + 14) {})

theorem stepPart_other {p q r start : Nat} (other : r ≠ q) : stepPart q (stepQuarter p r start s) = stepPart q s := by
  rcases stepQuarter_eq p r start s with e | ⟨f, e, -⟩
  · rw [e]
  · rw [e]
    refine Prod.ext (modAt_getD_other _ _ _ _ (Ne.symm other)) (modAt_getD_other _ _ _ _ ?_)
    unfold sliceAt waderSlot
    omega

theorem stepQuarter_sizes (p q start : Nat) (s : State) :
    (stepQuarter p q start s).sense.quarters.length = s.sense.quarters.length ∧
    (stepQuarter p q start s).sense.slices.length = s.sense.slices.length := by
  rcases stepQuarter_eq p q start s with e | ⟨f, e, -⟩
  · rw [e]
    exact ⟨rfl, rfl⟩
  · rw [e]
    exact ⟨modAt_length _ _ _, modAt_length _ _ _⟩

/-- The step of a quarter at rest whose wader is in service. -/
theorem stepPart_same {p q start : Nat} (few : q < 4) (four : s.sense.quarters.length = 4) (sixty : s.sense.slices.length = 60)
    (runs : (s.sense.quarters.getD q {}).stopped = false) (rests : (s.sense.quarters.getD q {}).rot = .idle)
    (serves : (s.sense.slices.getD (q * 15 + 14) {}).retired = false) :
    let t := stepQuarter p q start s
    (stepPart q t).1.step = p ∧ (stepPart q t).2.source = .zero ∧
      (stepPart q t).1.rot = (if (s.sense.quarters.getD q {}).waderTestDue then .waderTest p else .waderRef p) ∧
      (stepPart q t).2.meas = some { start := start, part := if (s.sense.quarters.getD q {}).waderTestDue then 6000 else 960 } := by
  have run : stepQuarter p q start s = (s.modQuarter q (fun x => { x with
      rotations := if p = 0 && x.step = 13 && x.fromZero then x.rotations + 1 else x.rotations
      fromZero := x.fromZero || p == 0
      step := p, cover := none, waderTestDue := false
      rot := if x.waderTestDue then .waderTest p else .waderRef p })).measure q waderSlot start
        (if (s.sense.quarters.getD q {}).waderTestDue then homePart else waderPart) := by
    refine if_neg ?_
    rw [runs, rests]
    simpa [sliceAt, waderSlot] using serves
  rw [run]
  have quarter := modAt_getD_same s.sense.quarters q (fun x : Quarter => { x with
      rotations := if p = 0 && x.step = 13 && x.fromZero then x.rotations + 1 else x.rotations
      fromZero := x.fromZero || p == 0
      step := p, cover := none, waderTestDue := false
      rot := if x.waderTestDue then .waderTest p else .waderRef p }) {} (by omega)
  have slice := modAt_getD_same s.sense.slices (q * 15 + 14) (fun l : Slice => { l with
      source := .zero, meas := some { start := start, part := if (s.sense.quarters.getD q {}).waderTestDue then homePart else waderPart } })
      {} (by omega)
  refine ⟨?_, ?_, ?_, ?_⟩
  · exact congrArg Quarter.step quarter
  · exact congrArg Slice.source slice
  · exact congrArg Quarter.rot quarter
  · exact congrArg Slice.meas slice

theorem Steers.stepQuarter {t : State} (h : Steers s t) (p q start : Nat) : Steers s (stepQuarter p q start t) := by
  rcases stepQuarter_eq p q start t with e | ⟨f, e, -⟩
  · rw [e]
    exact h
  · rw [e]
    exact (h.modQuarter q f).modSlice _ _

/-- After the steps of the quarters below `n`: nothing but quarters and slices has changed, and the step of each of them is
the one that it makes from the same quarter and wader. -/
theorem stepQuarters (p start n : Nat) (s : State) :
    let t := (List.range n).foldl (fun s q => stepQuarter p q start s) s
    Steers s t ∧ t.sense.quarters.length = s.sense.quarters.length ∧ t.sense.slices.length = s.sense.slices.length ∧
    ∀ q, (n ≤ q → stepPart q t = stepPart q s) ∧
      (q < n → ∃ u : State, stepPart q u = stepPart q s ∧ u.sense.quarters.length = s.sense.quarters.length ∧
        u.sense.slices.length = s.sense.slices.length ∧ stepPart q t = stepPart q (stepQuarter p q start u)) := by
  induction n with
  | zero => exact ⟨.refl s, rfl, rfl, fun q => ⟨fun _ => rfl, fun lt => absurd lt (Nat.not_lt_zero q)⟩⟩
  | succ n ih =>
    dsimp only at ih ⊢
    rw [List.range_succ, List.foldl_append]
    generalize (List.range n).foldl (fun s q => stepQuarter p q start s) s = t at ih
    obtain ⟨steers, four, sixty, each⟩ := ih
    obtain ⟨quarters, slices⟩ := stepQuarter_sizes p n start t
    refine ⟨steers.stepQuarter p n start, quarters.trans four, slices.trans sixty, fun q => ⟨fun le => ?_, fun lt => ?_⟩⟩
    · exact (stepPart_other (by omega)).trans ((each q).1 (by omega))
    · by_cases e : q = n
      · subst e
        exact ⟨t, (each q).1 (Nat.le_refl q), four, sixty, rfl⟩
      · obtain ⟨u, same, size, size', step⟩ := (each q).2 (by omega)
        exact ⟨u, same, size, size', (stepPart_other (Ne.symm e)).trans step⟩

theorem reachStrobe_parts (s : State) (k : Nat) : let r := s.reachStrobe k
    { r with sense := { r.sense with modCount := s.sense.modCount, slices := s.sense.slices } } = s ∧
    r.sense.connected = s.sense.connected ∧ r.sense.quarters = s.sense.quarters ∧ r.sense.lanes = s.sense.lanes ∧
    r.sense.switches = s.sense.switches ∧ r.sense.controlFaults = s.sense.controlFaults ∧ r.evidence = s.evidence := by
  obtain ⟨n, l, e⟩ := reachClock_senses (k * 256) s
  unfold State.reachStrobe
  rw [e]
  exact ⟨rfl, rfl, rfl, rfl, rfl, rfl, rfl⟩

/-- The slices only follow the measurements: none is retired or brought back. -/
theorem reachStrobe_retired (s : State) (k i : Nat) :
    ((s.reachStrobe k).sense.slices.getD i {}).retired = (s.sense.slices.getD i {}).retired ∧
    (s.reachStrobe k).sense.slices.length = s.sense.slices.length := by
  unfold State.reachStrobe State.reachClock Sense.reach
  dsimp only
  split
  · dsimp only
    refine ⟨?_, List.length_map ..⟩
    have none_ : Slice.follow (k * 256 / 256) {} = {} := rfl
    rw [map_getD none_]
    unfold Slice.follow
    split <;> rfl
  · exact ⟨rfl, rfl⟩

end Switches

/-- The messages of `ms` whose epoch is `e` act on `r`, and the others are held on (R89). -/
def actOn (e : BitVec 24) (ms : List SwitchMsg) (r : State) : State :=
  (ms.filter (fun m => m.epoch == e)).foldl
    (fun s m => s.modSlice (sliceAt m.quarter m.slice) (fun x => { x with source := m.source }))
    { r with sense := { r.sense with switches := ms.filter (fun m => m.epoch != e) } }

theorem switchAct_eq (s : State) (strobe : BitVec 48) :
    switchAct strobe s = actOn (strobe.setWidth 24) s.sense.switches (s.reachStrobe strobe.toNat) := by
  have run : switchAct strobe s = actOn (BitVec.ofNat 24 strobe.toNat) s.sense.switches (s.reachStrobe strobe.toNat) := rfl
  rw [run, BitVec.ofNat_toNat]

theorem actOn_eq (e : BitVec 24) (ms : List SwitchMsg) (r : State) : actOn e ms r = { r with sense := { r.sense with
    switches := ms.filter (fun m => m.epoch != e)
    slices := (ms.filter (fun m => m.epoch == e)).foldl
      (fun l m => modAt l (m.quarter * 15 + m.slice) (fun x => { x with source := m.source })) r.sense.slices } } := by
  rw [actOn, actAll_eq]

/-- A message that fails its check is a failed flit of the control lane. -/
theorem switchMessage_bad (s : State) (strobe : BitVec 48) {flit : BitVec 64} (bad : flitGood 5 flit.toNat = false) :
    switchMessage flit strobe s = flitReceive 5 flit (s.reachStrobe strobe.toNat) := by
  unfold switchMessage
  dsimp only
  rw [bad]
  exact if_pos rfl

theorem waderStepStart_due {s : State} {strobe : BitVec 48} (on : s.sense.connected = true) (due : strobe.toNat % 32000 = 0)
    (serves : (s.sense.lanes.getD 5 {}).faulty = false) : waderStepStart strobe s =
      (List.range 4).foldl (fun s q => stepQuarter (strobe.toNat / 32000 % 14) q strobe.toNat s)
        (s.reachStrobe strobe.toNat) := by
  obtain ⟨-, connected, -, lanes, -⟩ := reachStrobe_parts s strobe.toNat
  unfold waderStepStart
  dsimp only
  rw [connected, lanes, on, serves, due]
  exact if_neg (by decide)

/-- The messages whose epoch has come set their slices' sources; nothing else of the state reached changes. -/
theorem switchAct_acts {s r : State} {strobe : BitVec 48} (h : Settled s) (er : s.reachStrobe strobe.toNat = r)
    (evidence : r.evidence = s.evidence) : ∃ t, exec (.switchAct strobe) s = .next t ∧
      t.sense.switches = s.sense.switches.filter (fun m => m.epoch != strobe.setWidth 24) ∧
      t.sense.slices = (s.sense.switches.filter (fun m => m.epoch == strobe.setWidth 24)).foldl
        (fun l m => modAt l (m.quarter * 15 + m.slice) (fun x => { x with source := m.source })) r.sense.slices ∧
      { t with sense := { t.sense with switches := r.sense.switches, slices := r.sense.slices } } = r := by
  have run := switchAct_eq s strobe
  rw [er] at run
  have next_ : edge (switchAct strobe) s = .next (actOn (strobe.setWidth 24) s.sense.switches r) := by
    refine edge_next h run ?_
    rw [actOn_eq]
    exact evidence
  refine ⟨_, next_, ?_⟩
  rw [actOn_eq]
  exact ⟨rfl, rfl, rfl⟩

/-- Every two seconds each quarter at rest whose wader serves begins its step (R107). -/
theorem waderStepStart_steps {s r : State} {strobe : BitVec 48} (h : Settled s) (er : s.reachStrobe strobe.toNat = r)
    (on : s.sense.connected = true) (due : strobe.toNat % 32000 = 0) (serves : (s.sense.lanes.getD 5 {}).faulty = false)
    (four : s.sense.quarters.length = 4) (sixty : s.sense.slices.length = 60) :
    ∃ t, exec (.waderStepStart strobe) s = .next t ∧
      { t with sense := { t.sense with quarters := r.sense.quarters, slices := r.sense.slices } } = r ∧
      ∀ q, q < 4 → (s.sense.quarters.getD q {}).stopped = false → (s.sense.quarters.getD q {}).rot = .idle →
        (s.sense.slices.getD (q * 15 + 14) {}).retired = false →
        let p := strobe.toNat / 32000 % 14
        let x := t.sense.slices.getD (q * 15 + 14) {}
        (t.sense.quarters.getD q {}).step = p ∧ x.source = .zero ∧
        (if (s.sense.quarters.getD q {}).waderTestDue = true then
          (t.sense.quarters.getD q {}).rot = .waderTest p ∧ x.meas = some { start := strobe.toNat, part := 6000 }
         else (t.sense.quarters.getD q {}).rot = .waderRef p ∧ x.meas = some { start := strobe.toNat, part := 960 }) := by
  obtain ⟨-, -, quarters, -, -, -, evidence⟩ := reachStrobe_parts s strobe.toNat
  have slices := reachStrobe_retired s strobe.toNat
  rw [er] at quarters evidence slices
  obtain ⟨steers, -, -, each⟩ := stepQuarters (strobe.toNat / 32000 % 14) strobe.toNat 4 r
  have run := waderStepStart_due on due serves
  rw [er] at run
  generalize (List.range 4).foldl (fun s q => stepQuarter (strobe.toNat / 32000 % 14) q strobe.toNat s) r = t at *
  refine ⟨t, edge_next h run ?_, ?_, fun q few runs idle service => ?_⟩
  · obtain ⟨l, x, rfl⟩ := steers
    exact evidence
  · obtain ⟨l, x, rfl⟩ := steers
    rfl
  · obtain ⟨u, same, four', sixty', step⟩ := (each q).2 few
    have quarter : u.sense.quarters.getD q {} = s.sense.quarters.getD q {} := by
      rw [← quarters]
      exact congrArg Prod.fst same
    have slice : u.sense.slices.getD (q * 15 + 14) {} = r.sense.slices.getD (q * 15 + 14) {} := congrArg Prod.snd same
    obtain ⟨p, source, rot, meas⟩ := stepPart_same (s := u) (p := strobe.toNat / 32000 % 14) (start := strobe.toNat) few
      (by rw [four', quarters, four]) (by rw [sixty', (slices 0).2, sixty]) (by rw [quarter]; exact runs)
      (by rw [quarter]; exact idle) (by rw [slice, (slices _).1]; exact service)
    rw [← step, quarter] at *
    refine ⟨p, source, ?_⟩
    by_cases test : (s.sense.quarters.getD q {}).waderTestDue = true
    · rw [test] at rot meas
      exact (if_pos test).mpr ⟨rot, meas⟩
    · rw [Bool.eq_false_iff.mpr test] at rot meas
      exact (if_neg test).mpr ⟨rot, meas⟩


/-- Settles O26: the messages due are held until their epoch, and each quarter at rest steps every two seconds. -/
theorem switchesAndSteps : Obligations.SwitchesAndSteps := by
  unfold Obligations.SwitchesAndSteps
  intro s strobe h
  obtain ⟨frame, connected, quarters, lanes, switches, faults, evidence⟩ := reachStrobe_parts s strobe.toNat
  have slices := reachStrobe_retired s strobe.toNat
  dsimp only
  generalize er : s.reachStrobe strobe.toNat = r at *
  refine ⟨frame, fun flit good => ⟨fun idle => ?dropped, fun m sets serves => ?held⟩, fun flit bad => ?bad, ?act,
    fun idle => ?rests, fun on due serves four sixty => ?steps⟩
  case dropped =>
    refine edge_next h ?_ evidence
    unfold switchMessage
    dsimp only
    rw [er, good, if_neg (by decide), lanes]
    rcases idle with idle | idle
    · rw [idle]
      split <;> rfl
    · rw [idle, if_pos rfl]
  case held =>
    have run : switchMessage flit strobe s = if switchDue m.epoch strobe.toNat
        then { r with sense := { r.sense with switches := r.sense.switches ++ [m] } }
        else { r with sense := { r.sense with controlFaults := r.sense.controlFaults + 1 } } := by
      unfold switchMessage
      dsimp only
      rw [er, good, if_neg (by decide), lanes, serves, if_neg (by decide), sets]
    refine (edge_next (t := switchMessage flit strobe s) h rfl ?_).trans (congrArg Host.Outcome.next ?_)
    · rw [run]
      split <;> exact evidence
    · rw [run, ← switches, ← faults]
      by_cases due : switchDue m.epoch strobe.toNat = true
      · rw [if_pos due, if_pos ((switchDue_iff _ _).mp due)]
      · rw [if_neg due, if_neg fun ok => due ((switchDue_iff _ _).mpr ok)]
  case bad =>
    have settled : Settled r := by rw [Settled, evidence]; exact h
    have run := switchMessage_bad s strobe bad
    rw [er] at run
    exact (edge_ends h run).trans (edge_settled settled _).symm
  case act => exact switchAct_acts h er evidence
  case rests =>
    refine edge_next h ?_ evidence
    unfold waderStepStart
    dsimp only
    rw [er, connected, lanes]
    refine if_pos ?_
    rcases idle with idle | idle | idle
    · rw [idle]
      rfl
    · rw [decide_eq_true idle, Bool.or_true, Bool.true_or]
    · rw [idle, Bool.or_true]
  case steps =>
    exact waderStepStart_steps h er on due serves four sixty

end Sys2Proof.Laws
end

section
/-! The ends of the rotation's measurements (R107–R109, R113, R116) and the faults of slices (R99, R103, R113–R117). -/

namespace Sys2Proof.Laws
open Sys2Proof Sys2Proof.Machine

/-! ### Rounding to nearest (R108) -/

/-- What is left of a division by a positive number. -/
theorem fdiv_rest (a : Int) {d : Nat} (pos : 0 < d) : 0 ≤ a - a.fdiv d * d ∧ a - a.fdiv d * d < d := by
  have whole := Int.fmod_add_mul_fdiv a d
  have low := Int.fmod_nonneg_of_pos a (show (0 : Int) < d by omega)
  have high := Int.fmod_lt_of_pos a (show (0 : Int) < d by omega)
  rw [mul_comm (d : Int)] at whole
  omega

/-- A rounded quotient is off by half a unit at most. -/
theorem roundEven_near (a : Int) {d : Nat} (pos : 0 < d) : (2 * (roundEven a d * d - a)).natAbs ≤ d := by
  obtain ⟨low, high⟩ := fdiv_rest a pos
  have up : (a.fdiv d + 1) * d = a.fdiv d * d + d := by ring
  unfold roundEven
  rw [if_neg (by omega)]
  dsimp only
  split_ifs
  · omega
  · rw [up]
    omega
  · omega
  · rw [up]
    omega

theorem roundEven_nonneg {a : Int} (h : 0 ≤ a) (d : Nat) : 0 ≤ roundEven a d := by
  have floor : 0 ≤ a.fdiv d := Int.fdiv_nonneg h (by omega)
  unfold roundEven
  dsimp only
  split_ifs <;> omega

/-- The coefficients of a measurement are the quotients of R108 to nearest. -/
theorem coef_near (m : RefMeasure) (long : 80 < m.part) :
    2 * (m.coef.offset * m.samples - m.zero).natAbs ≤ m.samples ∧
    (0 < m.plus - m.minus → 2 * (m.coef.gain * (m.plus - m.minus) - 2 * 0x4CCCCD * 2 ^ 38 * m.samples).natAbs ≤
      (m.plus - m.minus).natAbs) := by
  constructor
  · have pos : 0 < m.samples := by
      unfold RefMeasure.samples settleStrobes
      omega
    have near := roundEven_near m.zero pos
    rw [Int.natAbs_mul] at near
    exact near
  · intro apart
    obtain ⟨d, e⟩ := Int.eq_ofNat_of_zero_le apart.le
    have gain : (m.coef.gain : Int) = roundEven (2 * 0x4CCCCD * 2 ^ 38 * m.samples) d := by
      have value : m.coef.gain = if m.plus - m.minus ≤ 0 then 0
        else (roundEven (2 * 0x4CCCCD * 2 ^ 38 * m.samples) (m.plus - m.minus).toNat).toNat := rfl
      rw [value, if_neg (by omega), e]
      exact Int.toNat_of_nonneg (roundEven_nonneg (by positivity) _)
    have near := roundEven_near (2 * 0x4CCCCD * 2 ^ 38 * m.samples) (d := d) (by omega)
    rw [Int.natAbs_mul, ← gain, ← e] at near
    rw [e] at near ⊢
    exact near

/-! ### Reference measurements (R107, R113, R116) -/

section Measurements
variable {s : State} {q p : Nat}

/-- The slice whose measurement has ended. -/
def measureEnded (s : State) (q slot : Nat) (m : RefMeasure) : State :=
  s.modSlice (q * 15 + slot) (fun l => l.measureEnd s.ticks m.coef)

/-- The blame is read from the other slices, which the end of a measurement leaves as they are. -/
theorem bufferBlamed_ended (s : State) (q slot k : Nat) (m : RefMeasure) (dev : Option Int) :
    ((measureEnded s q slot m).suspect k).bufferBlamed q slot dev = s.bufferBlamed q slot dev := by
  have same (p : Nat) (other : p ≠ slot) :
      ((measureEnded s q slot m).suspect k).sense.slices.getD (sliceAt q p) {} = s.sense.slices.getD (sliceAt q p) {} :=
    modAt_getD_other _ _ _ _ (by unfold sliceAt; omega)
  unfold State.bufferBlamed
  dsimp only
  congr 1
  by_cases wader : slot = waderSlot
  · rw [if_pos wader, if_pos wader]
    have alike (p : Nat) (mem : p ∈ List.range 14) : p ≠ slot := by
      have lt := List.mem_range.mp mem
      rw [wader]
      unfold waderSlot
      omega
    rw [Bool.eq_iff_iff, List.any_eq_true, List.any_eq_true]
    refine exists_congr fun p => and_congr_right fun mem => ?_
    rw [same p (alike p mem)]
  · rw [if_neg wader, if_neg wader, same waderSlot (Ne.symm wader)]

/-- A slice that fails its measurement is suspect and tested at once (R113, R114). -/
def testedAfter (s : State) (q slot channel : Nat) (rot : Rotation) (m : RefMeasure) : State :=
  ((((measureEnded s q slot m).suspect channel).modQuarter q (fun x => { x with rot := rot })).testSlice q slot)

theorem measured_accepts (q p : Nat) (wader : Bool) (m : RefMeasure)
    (ok : measurementOk (s.sense.slices.getD (sliceAt q (if wader then waderSlot else p)) {}) m.coef = true) :
    measured q p wader m.coef s = if wader then waderMeasured q p (measureEnded s q waderSlot m)
      else homeMeasured q p ((measureEnded s q p m).modChannel (channelAt q p) (fun c => { c with calAge := 0 })) := by
  unfold measured
  dsimp only
  rw [if_pos ok]
  cases wader <;> rfl

theorem measured_rejects (q p : Nat) (wader : Bool) (m : RefMeasure)
    (bad : measurementOk (s.sense.slices.getD (sliceAt q (if wader then waderSlot else p)) {}) m.coef = false)
    (free : s.bufferBlamed q (if wader then waderSlot else p) (gainDeviation m.coef.gain) = false) :
    measured q p wader m.coef s = testedAfter s q (if wader then waderSlot else p) (if wader then 56 + q else channelAt q p)
      (if wader then .waderTest p else .homeTest p) m := by
  have blame := bufferBlamed_ended s q (if wader then waderSlot else p) (if wader then 56 + q else channelAt q p) m
    (gainDeviation m.coef.gain)
  unfold measured
  dsimp only
  rw [bad, if_neg (by decide)]
  exact if_neg (ne_true_of_eq_false (blame.trans free))

theorem referenceMeasurementEnd_ends {slot : Nat} {wader : Bool} {m : RefMeasure}
    (measuring : (s.sense.quarters.getD q {}).rot.measuring = some (wader, p))
    (there : (s.sense.slices.getD (sliceAt q slot) {}).meas = some m) (complete : m.complete = true)
    (place : slot = if wader then waderSlot else p) : referenceMeasurementEnd q slot s = measured q p wader m.coef s := by
  unfold referenceMeasurementEnd
  rw [measuring, there]
  exact if_pos ⟨place, complete⟩

theorem referenceMeasurementEnd_none (slot : Nat) (idle : (s.sense.quarters.getD q {}).rot.measuring = none ∨
    (s.sense.slices.getD (q * 15 + slot) {}).meas.all (fun m => !m.complete) = true) :
    referenceMeasurementEnd q slot s = s := by
  unfold referenceMeasurementEnd
  split
  case h_1 wader p m measuring there =>
    refine if_neg fun ⟨_, complete⟩ => ?_
    rcases idle with idle | idle
    · rw [idle] at measuring
      cases measuring
    · rw [sliceAt] at there
      rw [there, Option.all_some, complete] at idle
      cases idle
  case h_2 => rfl

theorem modQuarter_modQuarter (s : State) (q : Nat) (f g : Quarter → Quarter) :
    (s.modQuarter q f).modQuarter q g = s.modQuarter q (fun x => g (f x)) := by
  unfold State.modQuarter
  dsimp only
  rw [modAt_modAt]

/-- An accepted measurement of the wader: it takes the channel's input beside the home slice. -/
theorem waderMeasured_on (on : s.view.chanOn (channelAt q p) = true) : waderMeasured q p s =
    (s.modQuarter q (fun x => { x with
      rot := .twin1 p, twinFrom := s.sense.modCount.toNat / 256 + 1 + 160, windowDirty := false, cover := some p })).modSlice
        (q * 15 + 14) (fun l => { l with source := .input p, meas := none }) := by
  unfold waderMeasured
  rw [if_pos on, State.openTwin, modQuarter_modQuarter]
  rfl

theorem homeMeasured_eq (q p : Nat) (s : State) : homeMeasured q p s =
    (s.modSlice (q * 15 + p) (fun l => { l with source := .input p, meas := none })).modQuarter q (fun x =>
      if s.view.chanOn (channelAt q p) then
        { x with rot := .twin2 p, twinFrom := s.sense.modCount.toNat / 256 + 1 + 160, windowDirty := false }
      else { x with rot := .idle }) := by
  unfold homeMeasured
  dsimp only
  have view : (s.connect q p (.input p)).view = s.view := rfl
  rw [view]
  split <;> rfl

theorem homeToReference_evidence (q p : Nat) (s : State) : (homeToReference q p s).evidence = s.evidence := by
  obtain ⟨l, x, e⟩ := (Steers.refl s).homeToReference q p
  rw [e]

theorem modQuarter_congr {f g : Quarter → Quarter} (same : f (s.sense.quarters.getD q {}) = g (s.sense.quarters.getD q {})) :
    s.modQuarter q f = s.modQuarter q g := by
  unfold State.modQuarter
  rw [modAt_put _ _ f {}, modAt_put _ _ g {}, same]

/-- What a twin verification says of a channel whose RMS lets it judge. -/
def twinBad (s : State) (q p : Nat) (gain delay : Int) : Bool :=
  s.rmsJudges (channelAt q p) && !(s.sense.quarters.getD q {}).windowDirty && twinExceeds gain delay

/-- The verification that agrees from now on (R116). -/
def twinAgreement (s : State) (q p : Nat) (gain delay : Int) : Bool :=
  if s.rmsJudges (channelAt q p) && !(s.sense.quarters.getD q {}).windowDirty then !twinBad s q p gain delay
  else (s.sense.quarters.getD q {}).twinAgreed

/-- The first twin verification of a step: the cross-fade to the wader begins (R107). -/
theorem twinVerificationEnd_first {gain delay : Int} (rot : (s.sense.quarters.getD q {}).rot = .twin1 p) :
    twinVerificationEnd q gain delay s =
      if s.sense.nextRaw < (s.sense.quarters.getD q {}).twinFrom + 1280 then s else
      let t := s.modQuarter q (fun y => { y with
        rot := .fadeTo p, fade := some { pos := p, toWader := true }, twinAgreed := twinAgreement s q p gain delay })
      if twinBad s q p gain delay then t.suspect (channelAt q p) else t := by
  unfold twinVerificationEnd
  dsimp only
  rw [rot]
  dsimp only [Rotation.twinLength]
  refine congrArg (ite _ s) ?_
  refine congrArg (fun t : State => if twinBad s q p gain delay then t.suspect (channelAt q p) else t) ?_
  exact modQuarter_congr rfl

/-- The second one: the cross-fade back begins (R107). -/
theorem twinVerificationEnd_second {gain delay : Int} (rot : (s.sense.quarters.getD q {}).rot = .twin2 p) :
    twinVerificationEnd q gain delay s =
      if s.sense.nextRaw < (s.sense.quarters.getD q {}).twinFrom + 2432 then s else
      let t := s.modQuarter q (fun y => { y with
        rot := .fadeBack p, fade := some { pos := p, toWader := false }, twinAgreed := twinAgreement s q p gain delay
        waderTestDue := y.waderTestDue || twinBad s q p gain delay })
      if twinBad s q p gain delay then t.suspect (56 + q) else t := by
  unfold twinVerificationEnd
  dsimp only
  rw [rot]
  dsimp only [Rotation.twinLength]
  refine congrArg (ite _ s) ?_
  refine congrArg (fun t : State => if twinBad s q p gain delay then t.suspect (56 + q) else t) ?_
  exact modQuarter_congr rfl

theorem twinExceeds_eq (gain delay : Int) : twinExceeds gain delay = decide (20000 < gain.natAbs ∨ 10000 < delay.natAbs) :=
  (Bool.decide_or _ _).symm

end Measurements

/-- Settles O27: each end of the rotation by the branch of R107 it takes. -/
theorem referenceMeasurements : Obligations.ReferenceMeasurements := by
  unfold Obligations.ReferenceMeasurements
  refine ⟨coef_near, fun s q p h => ?_⟩
  dsimp only
  refine ⟨fun m there complete rot => ⟨fun ok => ?wader, fun bad free => ?waderBad⟩,
    fun m inside there complete rot => ⟨fun ok => ?home, fun bad free => ?homeBad⟩,
    fun slot idle => edge_next h (referenceMeasurementEnd_none slot idle) rfl,
    fun gain delay => ⟨fun rot => ?first, fun rot => ?second⟩, fun gain delay rot => ?none_⟩
  case wader =>
    have run := (referenceMeasurementEnd_ends (p := p) (wader := true) (slot := 14) (congrArg Rotation.measuring rot) there
      complete rfl).trans (measured_accepts q p true m ok)
    refine edge_next h (run.trans ?_) ?_
    · change waderMeasured q p (measureEnded s q waderSlot m) = _
      by_cases on : s.view.chanOn (channelAt q p) = true
      · have view : (measureEnded s q waderSlot m).view = s.view := rfl
        rw [waderMeasured_on (by rw [view]; exact on), if_pos on]
        rfl
      · rw [if_neg on]
        exact if_neg on
    · split
      · rfl
      · exact homeToReference_evidence _ _ _
  case waderBad =>
    exact edge_next h ((referenceMeasurementEnd_ends (p := p) (wader := true) (slot := 14) (congrArg Rotation.measuring rot) there
      complete rfl).trans (measured_rejects q p true m bad free)) rfl
  case home =>
    have run := (referenceMeasurementEnd_ends (p := p) (wader := false) (slot := p) (congrArg Rotation.measuring rot) there
      complete rfl).trans (measured_accepts q p false m ok)
    exact edge_next h (run.trans (homeMeasured_eq _ _ _)) rfl
  case homeBad =>
    exact edge_next h ((referenceMeasurementEnd_ends (p := p) (wader := false) (slot := p) (congrArg Rotation.measuring rot)
      there complete rfl).trans (measured_rejects q p false m bad free)) rfl
  case first =>
    rw [← twinExceeds_eq]
    refine edge_next h (twinVerificationEnd_first rot) ?_
    split_ifs <;> rfl
  case second =>
    rw [← twinExceeds_eq]
    refine edge_next h (twinVerificationEnd_second rot) ?_
    split_ifs <;> rfl
  case none_ =>
    refine edge_next h ?_ rfl
    unfold twinVerificationEnd
    dsimp only
    rw [rot]
    split <;> rfl

/-! ### Slice faults (R99, R103, R113–R117; O28) -/

section Clips
variable {s : State} {c : Nat}

theorem sustainedClip_none (none_ : s.sense.clipped c = false) : sustainedClip c s = s := by
  refine if_pos ?_
  rw [none_, Bool.not_false, Bool.or_true]

theorem sustainedClip_recent (home : c < 56) (clip : s.sense.clipped c = true) {k : Nat}
    (passed : (s.sense.channels.getD c {}).clipPass = some k) (recent : s.sense.nextStrobe < k + 448000) :
    sustainedClip c s = (s.modChannel c (fun x => { x with suspects := x.suspects + 1 })).raise 0x20
      (BitVec.ofNat 8 c :: zeros 4) := by
  unfold sustainedClip
  dsimp only
  rw [clip, decide_eq_false (Nat.not_le.mpr home), passed]
  exact (if_neg (by decide)).trans (if_pos (decide_eq_true recent))

/-- Else a sound home slice in service is made suspect, and pre-empts what its quarter does. -/
theorem sustainedClip_preempts (home : c < 56) (clip : s.sense.clipped c = true)
    (passed : (s.sense.channels.getD c {}).clipPass = none) (lost : (s.sense.channels.getD c {}).lost = false)
    (sound : (s.sense.channels.getD c {}).suspect = false) (serves : (s.sense.slices.getD (sliceOf c) {}).retired = false)
    (idle : (s.sense.quarters.getD (quarterOf c) {}).rot = .idle) :
    sustainedClip c s = preempt (quarterOf c) (positionOf c) false (s.suspect c) := by
  unfold sustainedClip
  dsimp only
  rw [clip, decide_eq_false (Nat.not_le.mpr home), passed, lost, sound, serves, idle]
  rfl

/-- A pre-emption that begins stands in its quarter (R114). -/
theorem preempt_rot {q p : Nat} (host : Bool) (known : q < s.sense.quarters.length) :
    ∃ st, ((preempt q p host s).sense.quarters.getD q {}).rot = .pre p st host := by
  have sets (t : State) (f : Quarter → Quarter) (same : t.sense.quarters.length = s.sense.quarters.length) :
      (t.modQuarter q f).sense.quarters.getD q {} = f (t.sense.quarters.getD q {}) :=
    modAt_getD_same _ _ _ _ (by omega)
  have home := Retires.returnHome (Retires.refl s) q
  have cut : ((s.returnHome q).modQuarter q Quarter.cutShort).sense.quarters.length = s.sense.quarters.length :=
    (modAt_length _ _ _).trans home.quarters
  unfold preempt
  dsimp only
  split
  · exact ⟨.test, congrArg Quarter.rot (sets _ _ (modAt_length _ _ _))⟩
  · split
    · exact ⟨.handBack, congrArg Quarter.rot (sets _ _ cut)⟩
    · exact ⟨.fadeTo, congrArg Quarter.rot (sets _ _ cut)⟩

end Clips

/-! ### Self-tests (R114, R115) -/

section SelfTests
variable {s : State} {q p : Nat}

theorem home_of_channelAt : ∀ q < 4, ∀ p < 14, quarterOf (channelAt q p) = q ∧ positionOf (channelAt q p) = p ∧
    channelAt q p < 56 := by decide

theorem wader_of_instance (few : q < 4) : quarterOf (56 + q) = q ∧ sliceOf (56 + q) = q * 15 + 14 := by
  have quarter : quarterOf (56 + q) = q := by
    unfold quarterOf
    rw [if_neg (by omega), if_neg (by omega)]
    omega
  have position : positionOf (56 + q) = 14 := by
    unfold positionOf
    rw [if_neg (by omega), if_neg (by omega)]
  exact ⟨quarter, by rw [sliceOf, quarter, position, sliceAt]⟩

/-- Only the channels change with the homes of a quarter. -/
theorem modHomes_frame (s : State) (q : Nat) (f : Channel → Channel) :
    ∃ l, s.modHomes q f = { s with sense := { s.sense with channels := l } } := by
  have all (ps : List Nat) (s : State) : ∃ l, ps.foldl (fun s p => s.modChannel (channelAt q p) f) s =
      { s with sense := { s.sense with channels := l } } := by
    induction ps generalizing s with
    | nil => exact ⟨_, rfl⟩
    | cons p ps ih =>
      obtain ⟨l, e⟩ := ih (s.modChannel (channelAt q p) f)
      exact ⟨l, e⟩
  exact all _ s

/-- A quarter whose rotation has stopped. -/
def stoppedQuarter (x : Quarter) : Quarter :=
  { x with stopped := true, rot := .idle, fade := none, waiting := [], waderTestDue := false }

theorem stopRotation_frame (s : State) (q : Nat) : ∃ l, s.stopRotation q = { s with sense := { s.sense with
    channels := l, quarters := modAt s.sense.quarters q stoppedQuarter } } := by
  obtain ⟨l, e⟩ := modHomes_frame (s.modQuarter q stoppedQuarter) q (fun c => { c with calStale := true, suspect := false })
  refine ⟨modAt l (56 + q) (fun c => { c with suspect := false }), ?_⟩
  change ((s.modQuarter q stoppedQuarter).modHomes q _).modChannel _ _ = _
  rw [e]
  rfl

/-- A home slice that is retired hands its channel to the free wader for good (R115). -/
theorem retireSlice_home (few : q < 4) (inside : p < 14) (free : s.waderFree q = true) (four : s.sense.quarters.length = 4)
    (sixty : s.sense.slices.length = 60) : let t := s.retireSlice (channelAt q p)
    (t.sense.slices.getD (q * 15 + p) {}).retired = true ∧ (t.sense.quarters.getD q {}).permanent = true ∧
    (t.sense.quarters.getD q {}).standIn = some p ∧ (t.sense.quarters.getD q {}).stopped = true ∧
    ∃ e ∈ t.evidence.raised, e.code = 0x21 ∧ e.payload = [BitVec.ofNat 8 (channelAt q p)] ∧ e.crystal = false := by
  obtain ⟨quarter, position, home⟩ := home_of_channelAt q few p inside
  have slice : sliceOf (channelAt q p) = q * 15 + p := by rw [sliceOf, quarter, position, sliceAt]
  unfold State.retireSlice
  dsimp only
  rw [quarter, position, slice, free, if_neg (Nat.not_le.mpr home), if_pos rfl]
  have kept (f : Quarter → Quarter) : (modAt (modAt s.sense.quarters q stoppedQuarter) q f).getD q {} =
      f (stoppedQuarter (s.sense.quarters.getD q {})) := by
    rw [modAt_modAt, modAt_getD_same _ _ _ _ (by omega)]
  obtain ⟨l, e⟩ := stopRotation_frame ((s.modSlice (q * 15 + p) (fun l => { l with retired := true, meas := none })).modChannel
    (channelAt q p) (fun x => { x with suspect := false })) q
  rw [e]
  refine ⟨?_, ?_, ?_, ?_, _, List.mem_append_right _ (List.mem_singleton_self _), rfl, rfl, rfl⟩
  · change ((modAt (modAt s.sense.slices (q * 15 + p) _) (q * 15 + 14) _).getD (q * 15 + p) {}).retired = true
    rw [modAt_getD_other _ _ _ _ (by omega), modAt_getD_same _ _ _ _ (by omega)]
  · exact congrArg Quarter.permanent (kept _)
  · exact congrArg Quarter.standIn (kept _)
  · exact congrArg Quarter.stopped (kept _)

/-- A home slice that fails its test, its quarter's reference buffer not being to blame, is retired (R115, R116). -/
theorem sliceSelftestEnd_fails {errors : List Int} {m : RefMeasure} (inside : p < 14)
    (rot : (s.sense.quarters.getD q {}).rot = .homeTest p) (there : (s.sense.slices.getD (q * 15 + p) {}).meas = some m)
    (complete : m.complete = true)
    (fails : (∃ e ∈ errors, 20000 < e.natAbs) ∨ measurementOk (s.sense.slices.getD (q * 15 + p) {}) m.coef = false)
    (free : s.bufferBlamed q p (gainDeviation m.coef.gain) = false) :
    sliceSelftestEnd q errors s = s.retireSlice (channelAt q p) := by
  have bad : (linearityOk errors && measurementOk (s.sense.slices.getD (q * 15 + p) {}) m.coef) = false := by
    rcases fails with ⟨e, mem, beyond⟩ | fails
    · have line : linearityOk errors = false := List.all_eq_false.mpr ⟨e, mem, by rw [decide_eq_true_eq]; omega⟩
      rw [line, Bool.false_and]
    · rw [fails, Bool.and_false]
  have home : ¬ p = waderSlot := by
    unfold waderSlot
    omega
  unfold sliceSelftestEnd
  rw [rot]
  dsimp only [Rotation.testing, sliceAt]
  rw [there]
  dsimp only
  rw [complete, bad, free, if_neg home]
  rfl

/-- A wader that passes its test ends its step, and its suspicion (R114). -/
theorem sliceSelftestEnd_passes {errors : List Int} {m : RefMeasure}
    (rot : (s.sense.quarters.getD q {}).rot = .waderTest p) (there : (s.sense.slices.getD (q * 15 + 14) {}).meas = some m)
    (complete : m.complete = true) (line : ∀ e ∈ errors, e.natAbs ≤ 20000)
    (ok : measurementOk (s.sense.slices.getD (q * 15 + 14) {}) m.coef = true) :
    sliceSelftestEnd q errors s = testPassed q (s.passSlice (56 + q) m.coef true) := by
  have passes : linearityOk errors = true := List.all_eq_true.mpr fun e mem => decide_eq_true (line e mem)
  unfold sliceSelftestEnd
  rw [rot]
  dsimp only [Rotation.testing, sliceAt, waderSlot]
  rw [there]
  dsimp only
  rw [complete, ok, passes]
  rfl

/-- What a passed test leaves of the array: the slice measured, the suspicion taken off its channel. -/
theorem passSlice_sense (c : Nat) (k : SliceCoef) (host : Bool) : ∃ f : Channel → Channel,
    (s.passSlice c k host).sense = { s.sense with
      slices := modAt s.sense.slices (sliceOf c)
        (fun l => l.measureEnd s.ticks k (!(s.sense.quarters.getD (quarterOf c) {}).stopped))
      channels := modAt s.sense.channels c f } ∧ ∀ x, (f x).suspect = false := by
  unfold State.passSlice
  dsimp only
  split
  · exact ⟨_, rfl, fun x => rfl⟩
  · exact ⟨_, rfl, fun x => rfl⟩

theorem sliceSelftestEnd_none {errors : List Int} (idle : (s.sense.quarters.getD q {}).rot = .idle) :
    sliceSelftestEnd q errors s = s := by
  unfold sliceSelftestEnd
  rw [idle]
  rfl

/-- The wader that passed: what its test leaves of its channel, its quarter and its slice. -/
theorem testPassed_wader (few : q < 4) (rot : (s.sense.quarters.getD q {}).rot = .waderTest p)
    (four : s.sense.quarters.length = 4) (sixty : s.sense.channels.length = 60) (all : s.sense.slices.length = 60)
    {k : SliceCoef} (ok : measurementOk (s.sense.slices.getD (q * 15 + 14) {}) k = true) :
    let t := testPassed q (s.passSlice (56 + q) k true)
    (t.sense.channels.getD (56 + q) {}).suspect = false ∧ (t.sense.quarters.getD q {}).rot = .idle ∧
      (t.sense.slices.getD (q * 15 + 14) {}).coef =
        if (s.sense.quarters.getD q {}).stopped then (s.sense.slices.getD (q * 15 + 14) {}).coef else k := by
  obtain ⟨quarter, slice⟩ := wader_of_instance few
  obtain ⟨f, e, sound⟩ := passSlice_sense (s := s) (56 + q) k true
  rw [quarter, slice] at e
  have run : testPassed q (s.passSlice (56 + q) k true) =
      (s.passSlice (56 + q) k true).modQuarter q (fun x => { x with rot := .idle }) := by
    unfold testPassed
    dsimp only
    rw [e]
    dsimp only
    rw [rot]
  dsimp only
  rw [run]
  unfold State.modQuarter
  dsimp only
  rw [e]
  dsimp only
  refine ⟨?_, ?_, ?_⟩
  · rw [modAt_getD_same _ _ _ _ (by omega)]
    exact sound _
  · rw [modAt_getD_same _ _ _ _ (by omega)]
  · rw [modAt_getD_same _ _ _ _ (by omega)]
    unfold Slice.measureEnd
    dsimp only
    rw [ok, Bool.and_true]
    cases (s.sense.quarters.getD q {}).stopped <;> rfl

end SelfTests

/-- A modulator's reset between two steps is counted and noted for the samples about it (R103). -/
theorem modulatorReset_idle {s : State} {q : Nat} (slot : Nat) (idle : (s.sense.quarters.getD q {}).rot = .idle)
    (past : s.sense.connected = true ∨ (s.sense.slices.getD (q * 15 + slot) {}).meas = none) :
    modulatorReset q slot s =
      (s.modSlice (q * 15 + slot) (fun l => { l with resets := l.resets ++ [s.sense.modCount.toNat] })).modChannel
        (if slot = 14 then 56 + q else channelAt q slot) (fun x => { x with modResets := x.modResets + 1 }) := by
  have running : (!s.sense.connected && (s.sense.slices.getD (sliceAt q slot) {}).meas.isSome) = false := by
    rw [sliceAt]
    rcases past with on | none_
    · rw [on]
      rfl
    · rw [none_]
      exact Bool.and_false _
  have rot (f : Slice → Slice) (g : Channel → Channel) (i c : Nat) :
      (((s.modSlice i f).modChannel c g).sense.quarters.getD q {}).rot = .idle := idle
  unfold modulatorReset
  dsimp only
  rw [running, if_neg (by decide), rot]
  exact if_pos rfl

/-- An integrator is seeded once, after a whole nominal cycle (R99). -/
theorem rogowskiSeed_eq {s : State} {c : Nat} (sensor : s.view.chanSensor c = 3) : rogowskiSeed c s = s.modChannel c (fun x =>
    let n := if s.view.chanFnom c = 60 then 267 else 320
    if x.stageE.seeded = false ∧ n ≤ x.stageE.seedCount then
      { x with stageE := { x.stageE with
        seeded := true, seed := roundEven x.stageE.seedSum n
        acc := satSigned 64 (x.stageE.acc - roundEven x.stageE.seedSum n) } }
    else x) := by
  unfold rogowskiSeed
  dsimp only
  rw [if_neg (not_not.mpr sensor)]
  refine congrArg (fun f => s.modChannel c f) (funext fun x => ?_)
  refine ite_congr ?_ (fun _ => rfl) (fun _ => rfl)
  rw [seedLength, Bool.and_eq_true, Bool.not_eq_true', decide_eq_true_eq]

/-- Settles O28: clips, tests, resets and seeds by the branch each takes. -/
theorem sliceFaults : Obligations.SliceFaults := by
  unfold Obligations.SliceFaults
  intro s h
  refine ⟨fun c home => ⟨fun none_ => edge_next h (sustainedClip_none none_) rfl,
    fun k clip passed recent => edge_ends h (sustainedClip_recent home clip passed recent),
    fun clip passed lost sound serves idle => ?preempts⟩,
    fun q p errors m few inside rot free there complete fails unblamed four sixty => ?fails,
    fun q p errors m few rot four sixty all there complete line ok => ?passes,
    fun q errors idle => edge_next h (sliceSelftestEnd_none idle) rfl,
    fun q slot idle past => edge_next h (modulatorReset_idle slot idle past) rfl,
    fun c sensor => edge_next h (rogowskiSeed_eq sensor) rfl,
    fun c other => edge_next h (if_pos other) rfl⟩
  case preempts =>
    have run := sustainedClip_preempts home clip passed lost sound serves idle
    have rot (known : quarterOf c < s.sense.quarters.length) := preempt_rot (s := s.suspect c) (p := positionOf c) false known
    have steers := (Steers.refl (s.suspect c)).preempt (quarterOf c) (positionOf c) false
    generalize preempt (quarterOf c) (positionOf c) false (s.suspect c) = t at run rot steers
    obtain ⟨l, x, rfl⟩ := steers
    exact ⟨_, edge_next h run rfl, rfl, rot, rfl⟩
  case fails =>
    have run := sliceSelftestEnd_fails (errors := errors) inside rot there complete fails unblamed
    obtain ⟨retired, permanent, standIn, stopped, e, raised, code, payload, plain⟩ := retireSlice_home few inside free four sixty
    obtain ⟨-, -, sense, -⟩ := endEdge_frame (s.retireSlice (channelAt q p))
    obtain ⟨x, queued, same, bytes⟩ := endEdge_mem raised plain
    refine ⟨_, edge_ends h run, ?_⟩
    rw [sense]
    exact ⟨retired, permanent, standIn, stopped, x, queued, same.trans code, bytes.trans payload⟩
  case passes =>
    have run := sliceSelftestEnd_passes rot there complete line ok
    obtain ⟨-, -, sense, -⟩ := endEdge_frame (testPassed q (s.passSlice (56 + q) m.coef true))
    refine ⟨_, edge_ends h run, ?_⟩
    rw [sense]
    exact testPassed_wader few rot four sixty all ok

end Sys2Proof.Laws
end

section
/-! What the flash touches when it takes up its next work, and the intervals of the flicker meter that end. -/

namespace Sys2Proof.Laws
open Sys2Proof Sys2Proof.Machine

/-- A preorder of states in which every step of a fold goes up holds between its ends. -/
theorem foldl_related {α : Type} {R : State → State → Prop} (refl : ∀ s, R s s) (trans : ∀ {s t u}, R s t → R t u → R s u)
    {f : State → α → State} (each : ∀ s x, R s (f s x)) (l : List α) (s : State) : R s (l.foldl f s) := by
  induction l generalizing s with
  | nil => exact refl s
  | cons x xs ih => exact trans (each s x) (ih (f s x))

/-! ### The flash works on the archive alone -/

/-- From `s` to `t` nothing but the archive has changed. -/
def Archives (s t : State) : Prop := ∃ a : Archive, t = { s with archive := a }

namespace Archives
variable {s t u : State}

theorem refl (s : State) : Archives s s := ⟨_, rfl⟩

theorem trans (h : Archives s t) (k : Archives t u) : Archives s u := by
  obtain ⟨a, rfl⟩ := h
  obtain ⟨b, rfl⟩ := k
  exact ⟨b, rfl⟩

theorem frame (h : Archives s t) : { t with archive := s.archive } = s := by
  obtain ⟨a, rfl⟩ := h
  rfl

theorem evidence (h : Archives s t) : t.evidence = s.evidence := by
  obtain ⟨a, rfl⟩ := h
  rfl

theorem skipCopies (s : State) : Archives s (skipCopies s) := by
  unfold Machine.skipCopies
  dsimp only
  split <;> exact ⟨_, rfl⟩

/-- What the controller of the flash does next is its own affair. -/
theorem giveWork (s : State) : Archives s (giveWork s) := by
  unfold Machine.giveWork
  dsimp only
  split
  · exact ⟨_, rfl⟩
  · refine trans (trans ⟨_, rfl⟩ (skipCopies _)) (foldl_related refl trans (fun s d => ?_) _ _)
    split
    · split <;> exact ⟨_, rfl⟩
    · exact ⟨_, rfl⟩

end Archives

/-! ### Flicker intervals (O37) -/

/-- The record of an interval that brings no long-term figure has as many bytes as it copies of the former one, and 20
more. -/
theorem publishPst_length {open_ : PstClosed → Bool} {x : XaChannel} {c : PstClosed} {rest : List PstClosed}
    (closed : x.closed = c :: rest) (short : c.long = false) :
    (x.publishPst open_).flicker.length = 20 + ((x.flicker.drop 12).take 12).length := by
  unfold XaChannel.publishPst
  rw [closed]
  dsimp only
  rw [short]
  simp only [Bool.false_eq_true, if_false, List.length_append, leBytes_length, zeros, List.length_replicate]
  omega

/-- A channel whose flicker record is empty, and an interval of it that has closed without a long-term figure. -/
def unwritten : XaChannel :=
  { flicker := [], closed := [{ endSec := 600, strobe := 0, settling := false, part := false, event := false, long := false
                                classes := [] }] }

/-- The analysis holds that channel alone, and is suspended, so that no event is awaited. -/
def unwrittenState : State := { ({} : State) with xa := { suspended := true, channels := [unwritten] } }

theorem unwrittenState_judges (b n : Nat) : unwrittenState.judgedTo b n = true := rfl

/-- Refutes O37: an interval that brings no long-term figure copies bytes 12 to 23 of the channel's flicker record and sets
eight zeros behind them; in a record of fewer than 24 bytes, here an empty one, zeros then stand where nothing stood. -/
theorem not_analysisIntervalsEnd : ¬ Obligations.AnalysisIntervalsEnd := by
  unfold Obligations.AnalysisIntervalsEnd
  intro all
  obtain ⟨-, -, -, -, -, ⟨t, run, -, -, each⟩, -⟩ := all unwrittenState rfl
  have next_ : exec .pstIntervalEnd unwrittenState = .next (pstIntervalEnd unwrittenState) :=
    edge_next (s := unwrittenState) (f := pstIntervalEnd) rfl rfl rfl
  have same : pstIntervalEnd unwrittenState = t := by
    rw [next_] at run
    injection run
  obtain ⟨-, -, gives⟩ := each 0 (by decide)
  obtain ⟨-, -, -, -, -, -, copied, -⟩ := gives _ [] rfl (unwrittenState_judges _ _)
  have kept := copied rfl
  rw [← same] at kept
  have value : (pstIntervalEnd unwrittenState).xa.channels.getD 0 {} =
      unwritten.publishPst (unwrittenState.eventIn (unwrittenState.view.busOf (0 - 48))) := rfl
  rw [value] at kept
  have length := publishPst_length (open_ := unwrittenState.eventIn (unwrittenState.view.busOf (0 - 48)))
    (x := unwritten) rfl rfl
  have short := congrArg List.length kept
  rw [List.length_take, List.length_drop, length] at short
  revert short
  decide

end Sys2Proof.Laws
end

section
/-! Recording: segments and their cuts, blocks, layouts and profile records (chapter "Recording and the seep coder"). -/

namespace Sys2Proof.Laws
open Sys2Proof Sys2Proof.Machine

/-! ### Segments (R238, R239) -/

section Segments
variable {s : State}

theorem evenUp_even (k : Nat) : evenUp k % 2 = 0 ∧ evenUp (evenUp k) = evenUp k := by
  unfold evenUp
  omega

/-- A segment that begins where recording runs (R238, R239). -/
theorem openSegment_opens (runs : s.recordingOn = true) (strobe flags : Nat) : ∃ g : Segment,
    (Machine.openSegment strobe flags s).recording.segment = some g ∧ (Machine.openSegment strobe flags s).recording.cuts = s.recording.cuts ∧
    g.seq = (s.recording.lastSeq + 1) % 2 ^ 32 ∧ (Machine.openSegment strobe flags s).recording.lastSeq = g.seq ∧
    g.startStrobe = evenUp strobe ∧ g.alignedEnd % (10 * 32768) = 0 ∧
    (Machine.openSegment strobe flags s).evidence = s.evidence ∧
    { Machine.openSegment strobe flags s with recording := s.recording, archive := s.archive, link := s.link } = s := by
  have aligned (t : Nat) : nextAligned t % (10 * 32768) = 0 := Nat.mul_mod_left _ _
  unfold Machine.openSegment
  rw [runs, if_neg (by decide)]
  dsimp only
  split
  · exact ⟨_, rfl, rfl, rfl, rfl, rfl, aligned _, rfl, rfl⟩
  · exact ⟨_, rfl, rfl, rfl, rfl, rfl, aligned _, rfl, rfl⟩

/-- What the end of a segment touches. -/
theorem closeSegment_frame (extra ends : Nat) (s : State) : ∃ (r : Recording) (a : Archive),
    closeSegment extra ends s = { s with recording := r, archive := a } ∧ r.lastSeq = s.recording.lastSeq ∧
    r.cuts = s.recording.cuts := by
  unfold closeSegment
  split
  · exact ⟨_, _, rfl, rfl, rfl⟩
  · dsimp only
    split <;> exact ⟨_, _, rfl, rfl, rfl⟩

/-- The cut that a whole multiple of 10 s makes. -/
def secondCut (s : State) : SegmentCut :=
  { strobe := evenUp (s.strobeOfSecond (s.sec / 10 * 10)), ends := s.sec / 10 * 10 * 32768, before := 0, after := 0 }

theorem segmentBoundary_none (idle : s.recordingOn = false ∨ ∃ l, s.lastAligned = some l ∧ s.sec / 10 * 10 * 32768 < l) :
    segmentBoundary s = s := by
  refine if_neg ?_
  rcases idle with off | ⟨l, last, later⟩
  · rw [off, Bool.false_and]
    decide
  · rw [last, Option.all_some, Bool.and_eq_true, decide_eq_true_eq]
    exact fun both => absurd both.2 (Nat.not_le.mpr later)

theorem segmentBoundary_cuts (runs : s.recordingOn = true) (due : ∀ l, s.lastAligned = some l → l ≤ s.sec / 10 * 10 * 32768) :
    segmentBoundary s = runCuts { s with recording := { s.recording with
      cuts := insertCut (secondCut s) s.recording.cuts } } := by
  refine if_pos ?_
  rw [runs, Bool.true_and]
  cases e : s.lastAligned with
  | none => rfl
  | some l => exact decide_eq_true (due l e)

/-- The segment in progress, if any, stands in the way of a cut no more. -/
def cutDone (s : State) (c : SegmentCut) : Bool :=
  match s.recording.segment with
  | none => true
  | some g => g.dropped || g.codedTo c.strobe

/-- One cut turns the segment once it is settled and the segment is coded up to it. -/
theorem runCuts_one {c : SegmentCut} (one : s.recording.cuts = [c]) : runCuts s =
    if cutDone s c && s.settledTo (c.strobe - 1)
      then Machine.openSegment c.strobe c.after (closeSegment c.before c.ends { s with recording := { s.recording with cuts := [] } })
      else s := by
  have fuel : runCuts s = turnSegments 1 s := by
    unfold runCuts
    exact congrArg (fun l => turnSegments l.length s) one
  rw [fuel, turnSegments, one]
  rfl

theorem runCuts_none (none_ : s.recording.cuts = []) : runCuts s = s := by
  unfold runCuts
  rw [none_]
  rfl

/-- The state with one cut to come. -/
def cutAt (s : State) (c : SegmentCut) : State := { s with recording := { s.recording with cuts := [c] } }

/-- The cut waits for the blocks before it. -/
theorem runCuts_uncoded (c : SegmentCut) {g : Segment} (there : s.recording.segment = some g) (kept : g.dropped = false)
    (uncoded : g.codedTo c.strobe = false) : runCuts (cutAt s c) = cutAt s c := by
  rw [runCuts_one (s := cutAt s c) rfl]
  have waits : cutDone (cutAt s c) c = false := by
    unfold cutDone
    rw [show (cutAt s c).recording.segment = some g from there]
    exact Bool.or_eq_false_iff.mpr ⟨kept, uncoded⟩
  exact if_neg (by rw [waits]; exact Bool.false_ne_true)

/-- It waits while a configuration can move it. -/
theorem runCuts_unsettled (c : SegmentCut) (early : s.settledTo (c.strobe - 1) = false) : runCuts (cutAt s c) = cutAt s c := by
  rw [runCuts_one (s := cutAt s c) rfl]
  have settled : (cutAt s c).settledTo (c.strobe - 1) = false := early
  refine if_neg ?_
  rw [settled, Bool.and_false]
  decide

/-- Else the segment ends, and the next opens at the cut under the next number (R238). -/
theorem runCuts_turns (c : SegmentCut) (runs : s.recordingOn = true) (settled : s.settledTo (c.strobe - 1) = true)
    (coded : ∀ g, s.recording.segment = some g → g.dropped = true ∨ g.codedTo c.strobe = true) :
    ∃ g, (runCuts (cutAt s c)).recording.cuts = [] ∧ (runCuts (cutAt s c)).recording.segment = some g ∧
      g.seq = (s.recording.lastSeq + 1) % 2 ^ 32 ∧ (runCuts (cutAt s c)).recording.lastSeq = g.seq ∧
      g.startStrobe = evenUp c.strobe ∧ g.alignedEnd % (10 * 32768) = 0 ∧ (runCuts (cutAt s c)).evidence = s.evidence ∧
      { runCuts (cutAt s c) with recording := s.recording, archive := s.archive, link := s.link } = s := by
  have done : cutDone (cutAt s c) c = true := by
    unfold cutDone
    split
    · rfl
    · rename_i g there
      exact (Bool.or_eq_true _ _).mpr (coded g there)
  have settled' : (cutAt s c).settledTo (c.strobe - 1) = true := settled
  rw [runCuts_one (s := cutAt s c) rfl, done, settled', Bool.and_true, if_pos rfl]
  obtain ⟨r, a, e, last, cuts⟩ := closeSegment_frame c.before c.ends
    { cutAt s c with recording := { (cutAt s c).recording with cuts := [] } }
  rw [e]
  obtain ⟨g, segment, none_, seq, lastSeq, start, aligned, evidence, frame⟩ :=
    openSegment_opens (s := { s with recording := r, archive := a }) runs c.strobe c.after
  refine ⟨g, none_.trans cuts, segment, seq.trans ?_, lastSeq, start, aligned, evidence, ?_⟩
  · exact congrArg (fun n => (n + 1) % 2 ^ 32) last
  · exact congrArg (fun t : State => { t with recording := s.recording, archive := s.archive }) frame

end Segments

/-! ### Blocks (R240–R246) -/

section Blocks
variable {s : State} {g : Segment} {c : Nat}

theorem recordSamples_length (ring : List RingFrame) (c k n : Nat) : (recordSamples ring c k n).length = n := by
  have all (n : Nat) (xs : List Int) : (recordFrom n xs).length = n := by
    induction n generalizing xs with
    | zero => rfl
    | succ n ih => exact congrArg (· + 1) (ih _)
  exact all _ _

/-- The next block of a channel begins behind its samples and holds 1 to 256 (R240). -/
theorem nextBlock_place {k n : Nat} (h : s.nextBlock g c = some (k, n)) :
    k = g.startStrobe + 2 * (g.channels.getD c {}).samples ∧ 0 < n ∧ n ≤ 256 := by
  have general {m : Nat} (few : m ≤ 256) {late : Bool} (h : (if m = 0 || late then none
      else some (g.startStrobe + 2 * (g.channels.getD c {}).samples, m)) = some (k, n)) :
      k = g.startStrobe + 2 * (g.channels.getD c {}).samples ∧ 0 < n ∧ n ≤ 256 := by
    split at h
    case isTrue => cases h
    case isFalse ok =>
      injection h with pair
      injection pair with start length
      subst start length
      refine ⟨rfl, Nat.pos_of_ne_zero fun zero => ok ?_, few⟩
      rw [zero]
      rfl
  unfold State.nextBlock at h
  dsimp only at h
  rw [Bool.or_assoc] at h
  split at h
  · exact general (Nat.min_le_left _ _) h
  · exact general (le_refl _) h

theorem seepBlock_none (idle : s.recording.segment = none) (v : Bool) : seepBlock c v s = s := by
  unfold seepBlock
  rw [idle]

theorem seepBlock_idle (there : s.recording.segment = some g) (idle : g.dropped = true ∨ g.nextChannel ≠ some c ∨
    s.power.warning = true ∨ s.nextBlock g c = none) (v : Bool) : seepBlock c v s = s := by
  unfold seepBlock
  rw [there]
  dsimp only
  split
  case isTrue => rfl
  case isFalse guard =>
    simp only [Bool.or_eq_true, decide_eq_true_eq, not_or] at guard
    obtain ⟨⟨kept, turn⟩, supply⟩ := guard
    rcases idle with no | no | no | no
    · exact absurd no kept
    · exact absurd no turn
    · exact absurd no supply
    · rw [no]

theorem seepBlock_codes {k n : Nat} (there : s.recording.segment = some g) (kept : g.dropped = false)
    (turn : g.nextChannel = some c) (supply : s.power.warning = false) (next_ : s.nextBlock g c = some (k, n)) (v : Bool) :
    seepBlock c v s = runCuts (codeNext g c (recordSamples s.engines.ring c k n) (blockMarks s.engines.ring c k n) v s) := by
  have guard : ¬ (g.dropped || g.nextChannel ≠ some c || s.power.warning) = true := by
    rw [kept, turn, supply]
    simp
  unfold seepBlock
  rw [there]
  dsimp only
  rw [if_neg guard, next_]

/-- A block coded: its channel goes on by its samples, and its bytes are offered to the archive. -/
theorem codeNext_codes (known : c < g.channels.length) (xs : List Int) (marks : Bool × Bool) (v : Bool) :
    let t := codeNext g c xs marks v s
    ∃ g' bytes, t.recording.segment = some g' ∧ g'.seq = g.seq ∧
      (g'.channels.getD c {}).blocks = (g.channels.getD c {}).blocks + 1 ∧
      (g'.channels.getD c {}).samples = (g.channels.getD c {}).samples + xs.length ∧
      t.archive = { s.archive with offered := s.archive.offered ++
        [(0, { bytes := bytes, seg := some g.seq, complete := false, time := g.startTick })] } ∧
      t.recording.mismatches = s.recording.mismatches + (if v then 0 else 1) ∧
      t.recording.coderTesting = (s.recording.coderTesting || !v) ∧
      { t with recording := s.recording, archive := s.archive } = s := by
  unfold codeNext
  dsimp only
  refine ⟨_, _, rfl, rfl, ?_, ?_, rfl, ?_, rfl, rfl⟩
  · dsimp only
    rw [modAt_getD_same _ _ _ _ known]
  · dsimp only
    rw [modAt_getD_same _ _ _ _ known]
  · cases v
    · rfl
    · exact (BitVec.add_zero _).symm

end Blocks

/-! ### The coder's test (R246) -/

/-- A coder that fails its test is out of service; neither billing nor the store is touched. -/
theorem coderSelftestEnd_fails {s : State} (tests : s.recording.coderTesting = true) :
    let t := coderSelftestEnd false s
    t.recording.coderOk = false ∧ t.recording.coderTesting = false ∧ t.billing = s.billing ∧ t.store.cells = s.store.cells := by
  have abandons (n : Nat) (t : State) : (abandonSegment n t).recording.coderOk = t.recording.coderOk ∧
      (abandonSegment n t).recording.coderTesting = t.recording.coderTesting ∧ (abandonSegment n t).billing = t.billing ∧
      (abandonSegment n t).store = t.store := by
    unfold abandonSegment
    split
    · split <;> exact ⟨rfl, rfl, rfl, rfl⟩
    · exact ⟨rfl, rfl, rfl, rfl⟩
  unfold coderSelftestEnd
  rw [tests]
  dsimp only
  rw [Bool.not_true, if_neg Bool.false_ne_true, if_neg Bool.false_ne_true]
  obtain ⟨ok, testing, billing, store⟩ := abandons 3 _
  exact ⟨ok, testing, billing, congrArg Store.cells store⟩

/-! ### Layouts (R252) -/

/-- A layout is repeated for every bus in use. -/
theorem writeLayouts_offers {start resume : Bool} {time : Nat} (s : State) (on : s.held 2 = false) (bs : List Nat) :
    ∃ l os, bs.foldl (fun s b => writeLayout start resume time b s) s = { s with
        recording := { s.recording with layouts := l }
        archive := { s.archive with offered := s.archive.offered ++ os } } ∧
      os.length = (bs.filter (fun b => !(s.view.busChans b).isEmpty)).length := by
  induction bs generalizing s with
  | nil => exact ⟨_, [], by rw [List.append_nil]; rfl, rfl⟩
  | cons b bs ih =>
    rw [List.foldl_cons]
    by_cases empty : (s.view.busChans b).isEmpty = true
    · have same : writeLayout start resume time b s = s := by
        unfold writeLayout
        dsimp only
        rw [empty]
        rfl
      obtain ⟨l, os, e, n⟩ := ih s on
      refine ⟨l, os, by rw [same, e], n.trans ?_⟩
      rw [List.filter_cons, empty]
      rfl
    · have offers : ∃ l o, writeLayout start resume time b s = { s with
          recording := { s.recording with layouts := l }, archive := { s.archive with offered := s.archive.offered ++ [o] } } := by
        unfold writeLayout
        dsimp only
        rw [Bool.eq_false_iff.mpr empty, on]
        exact ⟨_, _, rfl⟩
      obtain ⟨l, o, e⟩ := offers
      obtain ⟨l', os, e', n⟩ := ih (writeLayout start resume time b s) (by rw [e]; exact on)
      rw [e] at e' n
      refine ⟨l', o :: os, ?_, ?_⟩
      · rw [e, List.append_cons s.archive.offered o os]
        exact e'
      · rw [List.filter_cons, Bool.eq_false_iff.mpr empty, Bool.not_false, if_pos rfl, List.length_cons, List.length_cons, n]
        rfl

/-- None is repeated while the recording is held off. -/
theorem writeLayouts_held {start resume : Bool} {time : Nat} (s : State) (off : s.held 2 = true) (bs : List Nat) :
    bs.foldl (fun s b => writeLayout start resume time b s) s = s := by
  have same (b : Nat) : writeLayout start resume time b s = s := by
    refine if_pos ?_
    rw [off, Bool.or_true]
  induction bs with
  | nil => rfl
  | cons b bs ih => rw [List.foldl_cons, same, ih]

/-- Settles O38: segments, blocks, layouts and profile records, each by the branch it takes. -/
theorem recordsAreWritten : Obligations.RecordsAreWritten := by
  unfold Obligations.RecordsAreWritten
  intro s h
  dsimp only
  refine ⟨fun off => edge_next h (segmentBoundary_none (.inl off)) rfl,
    fun l last later => edge_next h (segmentBoundary_none (.inr ⟨l, last, later⟩)) rfl,
    fun runs due => ⟨fun g none_ there kept uncoded => ?waits, fun none_ early => ?early, fun none_ settled coded => ?turns,
      edge_ends h (segmentBoundary_cuts runs due)⟩,
    fun idle c v => edge_next h (seepBlock_none idle v) rfl,
    fun g c v there idle => edge_next h (seepBlock_idle there idle v) rfl,
    fun g c v k n there kept turn supply next_ => ?block, fun idle ok => edge_next h (if_pos (by rw [idle]; rfl)) rfl,
    fun tests => ⟨edge_next h ?passes rfl, ?fails⟩, fun off => ?silent, fun on serves => ?layouts, fun idle => ?noProfile,
    fun c cs closed open_ => edge_next h ?profile rfl⟩
  case waits =>
    have run := (segmentBoundary_cuts runs due).trans
      ((congrArg (fun l => runCuts { s with recording := { s.recording with cuts := insertCut (secondCut s) l } }) none_).trans
        (runCuts_uncoded (s := s) (secondCut s) there kept uncoded))
    exact edge_next h run rfl
  case early =>
    have run := (segmentBoundary_cuts runs due).trans
      ((congrArg (fun l => runCuts { s with recording := { s.recording with cuts := insertCut (secondCut s) l } }) none_).trans
        (runCuts_unsettled (s := s) (secondCut s) early))
    exact edge_next h run rfl
  case turns =>
    have run := (segmentBoundary_cuts runs due).trans
      (congrArg (fun l => runCuts { s with recording := { s.recording with cuts := insertCut (secondCut s) l } }) none_)
    obtain ⟨g, cuts, segment, seq, last, start, aligned, evidence, frame⟩ := runCuts_turns (secondCut s) runs settled coded
    have even := evenUp_even (s.strobeOfSecond (s.sec / 10 * 10))
    have place := start.trans even.2
    exact ⟨_, g, edge_next h run evidence, cuts, segment, seq, last, place, by rw [place]; exact even.1, aligned, frame⟩
  case block =>
    obtain ⟨place, some_, few⟩ := nextBlock_place next_
    have run := seepBlock_codes there kept turn supply next_ v
    refine ⟨place, some_, few, recordSamples_length _ _ _ _, fun _ => edge_ends h run, fun none_ known => ?_⟩
    obtain ⟨g', bytes, segment, seq, blocks, samples, archive, mismatches, testing, frame⟩ :=
      codeNext_codes (s := s) known (recordSamples s.engines.ring c k n) (blockMarks s.engines.ring c k n) v
    have still := run.trans (runCuts_none (s := codeNext g c _ _ v s) none_)
    rw [recordSamples_length] at samples
    exact ⟨_, g', bytes, edge_next h still rfl, segment, seq, blocks, samples, archive, mismatches, testing, frame⟩
  case passes =>
    unfold coderSelftestEnd
    rw [tests]
    rfl
  case fails =>
    obtain ⟨ok, testing, billing, store⟩ := coderSelftestEnd_fails tests
    obtain ⟨-, -, -, bill, -, recording, -, -, -, -, cells, -⟩ := endEdge_frame (coderSelftestEnd false s)
    refine ⟨_, edge_ends h rfl, ?_, ?_, bill.trans billing, cells.trans store⟩
    · rw [recording]
      exact ok
    · rw [recording]
      exact testing
  case silent =>
    refine edge_next h (f := layoutHourly) ?_ rfl
    rcases off with out | off
    · exact if_neg (by rw [out]; exact Bool.false_ne_true)
    · unfold layoutHourly writeLayouts
      rw [writeLayouts_held s off, ite_self]
  case layouts =>
    obtain ⟨l, os, e, n⟩ := writeLayouts_offers (start := false) (resume := false) (time := s.ticks) s serves (List.range 8)
    have run : layoutHourly s = _ := (if_pos on).trans e
    refine ⟨_, edge_next h run rfl, ?_, rfl⟩
    rw [← n]
    exact List.length_append
  case noProfile =>
    refine edge_next h ?_ rfl
    unfold profileWrite
    rcases idle with none_ | hold
    · rw [none_]
      exact ite_self s
    · exact if_pos hold
  case profile =>
    unfold profileWrite
    rw [open_, closed]
    rfl

end Sys2Proof.Laws
end

section
/-! The archive is mounted and formatted (R280–R283, R305). -/

namespace Sys2Proof.Laws
open Sys2Proof Sys2Proof.Machine

/-! ### What work on the logs keeps of the archive -/

/-- What stands of an archive whatever is written into its logs and moved between its blocks. -/
structure Serves (a b : Archive) : Prop where
  state : b.state = a.state
  stuck : b.stuck = a.stuck
  mountCount : b.mountCount = a.mountCount
  archiveId : b.archiveId = a.archiveId
  pins : a.pins = [] → b.pins = []

namespace Serves
variable {a b c : Archive}

theorem refl (a : Archive) : Serves a a := ⟨rfl, rfl, rfl, rfl, fun h => h⟩

theorem trans (h : Serves a b) (k : Serves b c) : Serves a c :=
  ⟨k.state.trans h.state, k.stuck.trans h.stuck, k.mountCount.trans h.mountCount, k.archiveId.trans h.archiveId,
    fun none_ => k.pins (h.pins none_)⟩

theorem foldl {α : Type} {f : Archive → α → Archive} (each : ∀ a x, Serves a (f a x)) (l : List α) (a : Archive) :
    Serves a (l.foldl f a) := by
  induction l generalizing a with
  | nil => exact refl a
  | cons x xs ih => exact trans (each a x) (ih (f a x))

theorem modTier (h : Serves a b) (t : Nat) (f : TierLog → TierLog) : Serves a (b.modTier t f) :=
  h.trans ⟨rfl, rfl, rfl, rfl, fun h => h⟩

theorem reclaim (t : Nat) (a : Archive) : Serves a (Archive.reclaim t a) := by
  unfold Archive.reclaim
  dsimp only
  repeat' split
  all_goals exact ⟨rfl, rfl, rfl, rfl, fun h => h⟩

theorem reclaims (t n : Nat) (a : Archive) : Serves a (Nat.repeat (Archive.reclaim t) n a) := by
  induction n with
  | zero => exact refl a
  | succ n ih => exact ih.trans (reclaim t _)

theorem prunePins (a : Archive) : Serves a a.prunePins := by
  refine ⟨rfl, rfl, rfl, rfl, fun none_ => ?_⟩
  unfold Archive.prunePins
  dsimp only
  rw [none_]
  rfl

theorem shrink (t most : Nat) (a : Archive) : Serves a (a.shrink t most) := by
  have all := reclaims t (min ((a.tier t).blocks.length - most) ((a.tier t).blocks.length - flag (a.tier t).inUse)) a
  unfold Archive.shrink
  extract_lets l b
  change Serves a b at all
  split
  · exact all.trans (prunePins b)
  · exact all

theorem trim (v : View) (a : Archive) : Serves a (a.trim v) := foldl (fun a t => shrink t _ a) _ a

theorem setBlock (a : Archive) (x : FlashBlock) : Serves a (a.setBlock x) := by
  unfold Archive.setBlock
  split <;> exact ⟨rfl, rfl, rfl, rfl, fun h => h⟩

theorem markBad (v : View) (a : Archive) (lb : Nat) : Serves a (a.markBad v lb) := by
  unfold Archive.markBad
  exact (setBlock a _).trans (trim v _)

theorem devices (a : Archive) (l : List FlashDevice) : Serves a { a with devices := l } := ⟨rfl, rfl, rfl, rfl, fun h => h⟩

theorem takeFree (v : View) (fuel : Nat) (a : Archive) {x : Nat × Archive} (h : Archive.takeFree v fuel a = some x) :
    Serves a x.2 := by
  induction fuel generalizing a with
  | zero => cases h
  | succ fuel ih =>
    unfold Archive.takeFree at h
    split at h
    · cases h
    · rename_i lb rest _
      have dropped : Serves a { a with free := rest } := ⟨rfl, rfl, rfl, rfl, fun h => h⟩
      split at h
      · exact (dropped.trans (markBad v _ lb)).trans (ih _ h)
      · injection h with e
        subst e
        exact ⟨rfl, rfl, rfl, rfl, fun h => h⟩

theorem openBlock (v : View) (a : Archive) (t number time : Nat) {b : Archive} (h : a.openBlock v t number time = some b) :
    Serves a b := by
  unfold Archive.openBlock Archive.draw at h
  split at h
  · cases h
  · rename_i lb a' took
    injection h with e
    subst e
    exact (takeFree v _ a took).trans ⟨rfl, rfl, rfl, rfl, fun h => h⟩

theorem nextBlock (v : View) (t : Nat) (a : Archive) {b : Archive} (h : a.nextBlock v t = some b) : Serves a b := by
  unfold Archive.nextBlock at h
  dsimp only at h
  have shrunk := shrink t (a.quotaOf v t - 1) a
  split at h
  · split at h
    · cases h
    · injection h with e
      rw [← e]
      exact shrunk
  · obtain ⟨p, -, opened⟩ := Option.bind_eq_some_iff.mp h
    exact shrunk.trans (openBlock v _ _ _ _ opened)

theorem cut (v : View) (t cap : Nat) (a : Archive) {b : Archive} (h : a.cut v t cap = some b) : Serves a b := by
  unfold Archive.cut at h
  dsimp only at h
  split at h
  · cases h
  · split at h
    · cases h
    · split at h
      · exact openBlock v _ _ _ _ h
      · split at h
        · split at h
          · exact nextBlock v _ _ h
          · cases h
        · split at h
          · cases h
          · injection h with e
            subst e
            exact (refl a).modTier _ _

theorem fillPage (v : View) (t fuel : Nat) (a : Archive) : Serves a (Archive.fillPage v t fuel a) := by
  induction fuel generalizing a with
  | zero => exact refl a
  | succ fuel ih =>
    unfold Archive.fillPage
    split
    · exact refl a
    · split
      · rename_i b h
        exact (cut v _ _ _ h).trans (ih b)
      · exact refl a

end Serves

/-- The controller of the flash leaves the archive mounted, counted and named as it is. -/
theorem giveWork_serves (s : State) : Serves s.archive (giveWork s).archive := by
  have held : Serves s.archive (s.archive.holdReads s.micros) := by
    unfold Archive.holdReads
    dsimp only
    split <;> exact ⟨rfl, rfl, rfl, rfl, fun h => h⟩
  have skips (s : State) : Serves s.archive (skipCopies s).archive := by
    unfold skipCopies
    dsimp only
    split
    · exact .refl _
    · exact ⟨rfl, rfl, rfl, rfl, fun none_ => by dsimp only; rw [none_]; rfl⟩
  have fills (v : View) (a : Archive) : Serves a (a.fillPages v) := Serves.foldl (fun a t => Serves.fillPage v t _ a) _ a
  unfold giveWork
  extract_lets t a u
  split
  · exact held
  · have trimmed : Serves s.archive a := by
      refine held.trans ?_
      change Serves t.archive a
      unfold a
      split
      · exact .trim _ _
      · exact .refl _
    have filled : Serves s.archive (a.fillPages t.view) := trimmed.trans (fills _ _)
    have skipped : Serves s.archive u.archive := by
      refine filled.trans ?_
      unfold u
      clear_value t a
      generalize a.fillPages t.view = b
      exact skips { t with archive := b }
    refine skipped.trans ?_
    refine foldl_related (R := fun s t : State => Serves s.archive t.archive) (fun s => .refl _) (fun h k => h.trans k)
      (fun s d => ?_) _ u
    dsimp only
    split
    · split
      · exact .devices _ _
      · exact .refl _
    · exact .refl _

/-! ### Gap markers as the archive is mounted (R282) -/

/-- From `s` to `t` gap markers are offered: only the archive, the recording and the ARCHIVE interrupt may have changed, the
mount count not. -/
structure Gaps (s t : State) : Prop where
  frame : { t with archive := s.archive, recording := s.recording, link := s.link } = s
  mountCount : t.archive.mountCount = s.archive.mountCount
  irq : t.link.irqPending ||| 32#12 = s.link.irqPending ||| 32#12

namespace Gaps
variable {s t u : State}

theorem refl (s : State) : Gaps s s := ⟨rfl, rfl, rfl⟩

theorem trans (h : Gaps s t) (k : Gaps t u) : Gaps s u :=
  ⟨(congrArg (fun t : State => { t with archive := s.archive, recording := s.recording, link := s.link }) k.frame).trans h.frame,
    k.mountCount.trans h.mountCount, k.irq.trans h.irq⟩

theorem offerGap (reason seq a b : Nat) (s : State) : Gaps s (offerGap reason seq a b s) := by
  refine ⟨rfl, rfl, ?_⟩
  have irq : (Machine.offerGap reason seq a b s).link.irqPending = s.link.irqPending ||| 32#12 := rfl
  rw [irq, BitVec.or_assoc, BitVec.or_self]

theorem dropOneTorn (marked : List Nat) (x : Nat × Bytes) (s : State) : Gaps s (dropOneTorn marked x s) := by
  unfold Machine.dropOneTorn
  extract_lets u seq
  have dropped : Gaps s u := ⟨rfl, rfl, rfl⟩
  split
  · exact dropped
  · exact dropped.trans (offerGap _ _ _ _ u)

theorem dropTorn (s : State) : Gaps s (dropTorn s) := by
  unfold Machine.dropTorn
  exact foldl_related refl trans (fun s x => dropOneTorn _ x s) _ s

theorem offerMissing (stop n seq from_ : Nat) (s : State) : Gaps s (offerMissing stop n seq from_ s) := by
  induction n generalizing seq from_ s with
  | zero => exact refl s
  | succ n ih => exact (offerGap _ _ _ _ s).trans (ih _ _ _)

theorem markMissing (s : State) : Gaps s (markMissing s) := by
  have noted : Gaps s { s with recording := { s.recording with missingMarked := true } } := ⟨rfl, rfl, rfl⟩
  unfold Machine.markMissing
  split
  · exact refl s
  · dsimp only
    split
    · exact noted
    · split
      · split
        · exact noted
        · exact noted.trans (offerMissing _ _ _ _ _)
      · exact noted.trans (offerGap _ _ _ _ _)

end Gaps

/-! ### The archive is mounted (R280, R281) -/

/-- What a mount leaves (R280 step 7). -/
structure Mounts (s t : State) : Prop where
  state : t.archive.state = .mounted
  stuck : t.archive.stuck = false
  mountCount : t.archive.mountCount = s.archive.mountCount + 1
  irq : t.link.irqPending = s.link.irqPending ||| 32#12
  mounted : t.start.mounted = if s.start.mounted = 0xFFFFFFFF then s.sinceRelease 1000 else s.start.mounted
  billing : t.billing = s.billing
  cells : t.store.cells = s.store.cells

theorem mountDone_mounts (s : State) : Mounts s (mountDone s) := by
  unfold mountDone
  dsimp only
  generalize eu : ({ s with
    archive := { s.archive with state := .mounted, stuck := false, mountCount := s.archive.mountCount + 1 }
    start := { s.start with mounted := if s.start.mounted = 0xFFFFFFFF then s.sinceRelease 1000 else s.start.mounted } }
      : State).setIrq .archive = u
  have serves := giveWork_serves u
  obtain ⟨a, e⟩ := Archives.giveWork u
  refine ⟨?_, ?_, ?_, ?_, ?_, ?_, ?_⟩
  · rw [serves.state, ← eu]
    rfl
  · rw [serves.stuck, ← eu]
    rfl
  · rw [serves.mountCount, ← eu]
    rfl
  all_goals
    rw [e, ← eu]
    rfl

/-- A mount draws no archive ID and makes no pin. -/
theorem mountDone_keeps (s : State) : (s.archive.pins = [] → (mountDone s).archive.pins = []) ∧
    (mountDone s).archive.archiveId = s.archive.archiveId ∧ (mountDone s).free = s.free := by
  unfold mountDone
  dsimp only
  generalize eu : ({ s with
    archive := { s.archive with state := .mounted, stuck := false, mountCount := s.archive.mountCount + 1 }
    start := { s.start with mounted := if s.start.mounted = 0xFFFFFFFF then s.sinceRelease 1000 else s.start.mounted } }
      : State).setIrq .archive = u
  have serves := giveWork_serves u
  obtain ⟨a, e⟩ := Archives.giveWork u
  refine ⟨fun none_ => serves.pins ?_, ?_, ?_⟩
  · rw [← eu]
    exact none_
  · rw [serves.archiveId, ← eu]
    rfl
  · rw [e, ← eu]
    rfl

/-- A mount behind what only concerned the archive and its gap markers. -/
theorem Mounts.after {s t u : State} (h : Gaps s t) (k : Mounts t u) : Mounts s u := by
  have start : t.start = s.start := (congrArg State.start h.frame).trans rfl
  have since : t.sinceRelease 1000 = s.sinceRelease 1000 := (congrArg (fun v : State => v.sinceRelease 1000) h.frame).trans rfl
  have billing : t.billing = s.billing := (congrArg State.billing h.frame).trans rfl
  have store : t.store = s.store := (congrArg State.store h.frame).trans rfl
  refine ⟨k.state, k.stuck, ?_, k.irq.trans h.irq, ?_, k.billing.trans billing, ?_⟩
  · rw [k.mountCount, h.mountCount]
  · rw [k.mounted, start, since]
  · rw [k.cells, store]

/-- What a mount leaves stands at the end of its edge. -/
theorem Mounts.ends {s t : State} (h : Mounts s t) : Mounts s t.endEdge := by
  obtain ⟨-, link, -, billing, -, -, archive, -, -, -, cells, -, -, -, -, -, start, -⟩ := endEdge_frame t
  refine ⟨?_, ?_, ?_, ?_, ?_, billing.trans h.billing, cells.trans h.cells⟩
  · rw [archive, h.state]
  · rw [archive, h.stuck]
  · rw [archive, h.mountCount]
  · rw [link, h.irq]
  · rw [start, h.mounted]

theorem take_mountCount (a : Archive) (id : Nat) (logs : Nat → List Nat) (free : List Nat) :
    (a.take id logs free).mountCount = a.mountCount := by
  unfold Archive.take
  dsimp only
  refine (Serves.foldl (fun a t => (Serves.refl a).modTier t _) _ _).mountCount.trans rfl

theorem load_mountCount (r : Bytes) (a : Archive) : (a.load r).mountCount = a.mountCount := by
  unfold Archive.load
  dsimp only
  exact (take_mountCount _ _ _ _).trans rfl

theorem rebuild_mountCount (a : Archive) : a.rebuild.mountCount = a.mountCount := by
  unfold Archive.rebuild
  dsimp only
  exact take_mountCount _ _ _ _

section Phases
variable {s : State}

/-- The mount from a checkpoint. -/
theorem mountCheckpoint_mounts (phase : s.archive.state = .mounting) : Mounts s (mountCheckpoint s) := by
  have loaded (a : Archive) (n : a.mountCount = s.archive.mountCount) : Gaps s { s with archive := a.rebuildPins } :=
    ⟨rfl, n, rfl⟩
  unfold mountCheckpoint
  rw [phase]
  dsimp only
  refine Mounts.after (((loaded _ ?_).trans (Gaps.dropTorn _)).trans (Gaps.markMissing _)) (mountDone_mounts _)
  split
  · exact load_mountCount _ _
  · exact rebuild_mountCount _

/-- The second phase of a scan. -/
theorem scanPhase2_mounts (phase : s.archive.state = .scan2) : Mounts s (scanPhase2 s) := by
  unfold scanPhase2
  rw [phase]
  exact Mounts.after (t := { s with archive := { s.archive.rebuildPins with
    checkpoint := { s.archive.checkpoint with due := true } } }) ⟨rfl, rfl, rfl⟩ (mountDone_mounts _)

/-- The first phase of a scan touches neither billing nor the store nor the start. -/
theorem scanPhase1_scans (phase : s.archive.state = .scan1) : (scanPhase1 s).archive.state = .scan2 ∧
    (scanPhase1 s).billing = s.billing ∧ (scanPhase1 s).store = s.store ∧ (scanPhase1 s).start = s.start ∧
    (scanPhase1 s).evidence = s.evidence := by
  unfold scanPhase1
  rw [phase]
  dsimp only
  have rebuilt : Gaps s { s with archive := s.archive.rebuild } := ⟨rfl, rebuild_mountCount _, rfl⟩
  have gaps := (rebuilt.trans (Gaps.dropTorn _)).trans (Gaps.markMissing _)
  generalize markMissing (dropTorn { s with archive := s.archive.rebuild }) = t at gaps ⊢
  have state := (giveWork_serves { t with archive := { t.archive with state := .scan2 } }).state
  obtain ⟨a, e⟩ := Archives.giveWork { t with archive := { t.archive with state := .scan2 } }
  refine ⟨state, ?_⟩
  rw [e]
  exact ⟨(congrArg State.billing gaps.frame).trans rfl, (congrArg State.store gaps.frame).trans rfl,
    (congrArg State.start gaps.frame).trans rfl, (congrArg State.evidence gaps.frame).trans rfl⟩

/-- The state as a format leaves it, before the archive is mounted or found unlike (R283). -/
def formatted (s : State) : State :=
  let good := (List.range s.archive.blocks).filter (fun lb => !(s.archive.block lb).bad)
  ({ s.nextFree with archive := { s.archive with
      archiveId := s.freeValue % 2 ^ 64, pins := [], pinCopies := [], nextPin := 0, moves := [], relocations := []
      checkpoint := { seq := s.archive.checkpoint.seq, due := true }
      tiers := s.archive.tiers.map (fun (l : TierLog) =>
        ({ queue := l.queue.map (fun (r : MereRec) => ({ r with framed := 0, number := none, head := none } : MereRec)) } : TierLog))
      free := good.filter (fun lb => (s.archive.block lb).pages.isEmpty)
      toErase := good.filter (fun lb => !(s.archive.block lb).pages.isEmpty) } } : State).raise 0x51
        (leBytes 8 (s.freeValue % 2 ^ 64))

theorem formatEnd_eq (phase : s.archive.state = .formatting) : formatEnd s =
    if s.archive.mismatched then { formatted s with archive := { (formatted s).archive with state := .mismatch } }
    else mountDone (formatted s) := by
  unfold formatEnd
  rw [phase]
  rfl

/-- A format draws a new archive ID and leaves no pin; unlike devices are not mounted (R272, R283). -/
theorem formatEnd_formats (phase : s.archive.state = .formatting) :
    (formatEnd s).archive.pins = [] ∧ (formatEnd s).archive.archiveId = s.freeValue % 2 ^ 64 ∧ (formatEnd s).free = s.free + 1 ∧
      (s.archive.mismatched = false → Mounts s (formatEnd s)) ∧
      (s.archive.mismatched = true →
        (formatEnd s).archive.state = .mismatch ∧ (formatEnd s).archive.mountCount = s.archive.mountCount) := by
  rw [formatEnd_eq phase]
  cases unlike : s.archive.mismatched with
  | true => exact ⟨rfl, rfl, rfl, fun no => absurd no (by decide), fun _ => ⟨rfl, rfl⟩⟩
  | false =>
    rw [if_neg Bool.false_ne_true]
    have mounts : Mounts s (mountDone (formatted s)) := by
      obtain ⟨state, stuck, count, irq, mounted, billing, cells⟩ := mountDone_mounts (formatted s)
      exact ⟨state, stuck, count, irq, mounted, billing, cells⟩
    obtain ⟨pins, archiveId, free⟩ := mountDone_keeps (formatted s)
    exact ⟨pins rfl, archiveId, free, fun _ => mounts, fun yes => absurd yes (by decide)⟩

end Phases

/-! ### The commands of the archive (R283, R305) -/

section Commands
variable {s : State}

/-- What an archive that is mounted no longer keeps, and what it signals (R67, R68). -/
theorem unmount_unmounts (next : ArchiveState) (s : State) :
    let t := unmount next s
    t.archive.flash = s.archive.flash ∧ t.archive.reads = [] ∧ t.archive.state = next ∧ t.archive.devices = s.archive.devices ∧
      t.link.irqPending = (if s.archive.state = .mounted then s.link.irqPending ||| 32#12 else s.link.irqPending) ∧
      t.evidence = s.evidence ∧ { t with archive := s.archive, link := s.link } = s := by
  unfold unmount
  dsimp only
  split
  case isTrue was =>
    rw [if_pos (beq_iff_eq.mp was)]
    exact ⟨rfl, rfl, rfl, rfl, rfl, rfl, rfl⟩
  case isFalse was =>
    rw [if_neg fun e => was (beq_iff_eq.mpr e)]
    exact ⟨rfl, rfl, rfl, rfl, rfl, rfl, rfl⟩

/-- A mount that a command begins scans, and formats nothing (log entry 203). -/
theorem beginMount_scans (s : State) : ∃ l : List FlashDevice, beginMount false false s = { s with archive := { s.archive with
    devices := l
    state := if s.archive.devices.all (fun d => d.part.isNone) then .noDevice
      else if s.archive.mismatched then .mismatch else .scan1 } } := ⟨_, rfl⟩

theorem archiveCommand_refused {v : Nat} (known : v = 0x464D ∨ v = 0x4D54)
    (idle : s.archive.state.busy = true ∨ v = 0x464D ∧ s.archive.count = 0) :
    archiveCommand v s = (refuse .wrongState, s) := by
  unfold archiveCommand
  rw [if_neg (by rcases known with rfl | rfl <;> decide)]
  by_cases busy : s.archive.state.busy = true
  · exact if_pos busy
  · obtain ⟨rfl, none_⟩ := idle.resolve_left busy
    rw [if_neg busy, if_pos rfl, if_pos none_]

theorem archiveCommand_formats (free : s.archive.state.busy = false) (some_ : s.archive.count ≠ 0) :
    archiveCommand 0x464D s = (.done .ok [], unmount .formatting { s with archive := { s.archive with
      devices := s.archive.devices.map (fun (d : FlashDevice) => ({ d with op := none } : FlashDevice)) } }) := by
  unfold archiveCommand
  rw [if_neg (by decide), free, if_neg Bool.false_ne_true, if_pos rfl, if_neg some_]

theorem archiveCommand_mounts (free : s.archive.state.busy = false) :
    archiveCommand 0x4D54 s = (.done .ok [], beginMount false false (unmount .probing s)) := by
  unfold archiveCommand
  rw [if_neg (by decide), free, if_neg Bool.false_ne_true]
  exact if_neg (by decide)

/-- A write of the archive command member, as its value comes to. -/
theorem setObject_archive (v : Nat) (h : heldIn s.start.heldMask.toNat 0x4002 = false) (small : v < 65536) :
    setObject 0x4002 (leBytes 2 v) s = archiveCommand v s := by
  rw [setObject_writes (.inl rfl) rfl rfl h (leBytes_length 2 v)]
  exact congrArg (fun n => archiveCommand n s) (leNat_leBytes_of_lt (n := 2) small)

theorem begun_irq (op : Nat) (r : Req) (s : State) : (begun op r s).link.irqPending = s.link.irqPending := by
  unfold begun lockPort
  dsimp only
  split <;> rfl

section Writes
variable {port : Port} {tag : BitVec 16} (h : Settled s) (free : heldIn s.start.heldMask.toNat 0x4002 = false)
include h free

/-- A write of the archive command member that is taken runs in the state in which it is outstanding. -/
theorem archiveWrite_runs {v : Nat} (small : v < 65536) (q : Takes 0x02 (writeReq port tag 0x4002 (leBytes 2 v)) s) {st : Status}
    {ps : Bytes} {t : State} (run : archiveCommand v (begun 0x02 (writeReq port tag 0x4002 (leBytes 2 v)) s) = (.done st ps, t))
    (k : t.evidence = s.evidence) : edge (setRow port tag 0x4002 (leBytes 2 v)) s =
      .next (answered 0x02 (writeReq port tag 0x4002 (leBytes 2 v)) st ps t) := by
  refine setRow_runs_quiet h q (by decide) (by decide) ((setObject_archive v ?_ small).trans run) k
  rw [begun_frame]
  exact free

theorem archiveWrite_refused {v : Nat} (small : v < 65536) (known : v = 0x464D ∨ v = 0x4D54)
    (q : Takes 0x02 (writeReq port tag 0x4002 (leBytes 2 v)) s)
    (idle : s.archive.state.busy = true ∨ v = 0x464D ∧ s.archive.count = 0) :
    edge (setRow port tag 0x4002 (leBytes 2 v)) s = .next (answered 0x02 (writeReq port tag 0x4002 (leBytes 2 v)) .wrongState []
      (begun 0x02 (writeReq port tag 0x4002 (leBytes 2 v)) s)) := by
  refine archiveWrite_runs h free small q (archiveCommand_refused known ?_) begun_evidence
  rw [begun_frame]
  exact idle

/-- The format command: the archive is unmounted, its devices at rest, and is being formatted. -/
theorem archiveFormat_formats (q : Takes 0x02 (writeReq port tag 0x4002 (leBytes 2 0x464D)) s)
    (idle : s.archive.state.busy = false) (some_ : s.archive.count ≠ 0) :
    let b := begun 0x02 (writeReq port tag 0x4002 (leBytes 2 0x464D)) s
    ∃ t, edge (setRow port tag 0x4002 (leBytes 2 0x464D)) s =
        .next (answered 0x02 (writeReq port tag 0x4002 (leBytes 2 0x464D)) .ok [] t) ∧ t.archive.state = .formatting ∧
      (t.archive.flash = s.archive.flash ∧ t.archive.reads = [] ∧
        t.link.irqPending = if s.archive.state = .mounted then s.link.irqPending ||| 32#12 else s.link.irqPending) ∧
      { t with archive := s.archive, link := b.link } = b := by
  dsimp only
  have archive : (begun 0x02 (writeReq port tag 0x4002 (leBytes 2 0x464D)) s).archive = s.archive := by rw [begun_frame]
  have irq := begun_irq 0x02 (writeReq port tag 0x4002 (leBytes 2 0x464D)) s
  have evidence : (begun 0x02 (writeReq port tag 0x4002 (leBytes 2 0x464D)) s).evidence = s.evidence := begun_evidence
  have run := archiveWrite_runs h free (v := 0x464D) (by decide) q
    (archiveCommand_formats (by rw [archive]; exact idle) (by rw [archive]; exact some_))
  generalize begun 0x02 (writeReq port tag 0x4002 (leBytes 2 0x464D)) s = b at archive irq evidence run ⊢
  obtain ⟨flash, reads, state, -, pending, same, frame⟩ := unmount_unmounts .formatting { b with archive := { b.archive with
    devices := b.archive.devices.map (fun (d : FlashDevice) => ({ d with op := none } : FlashDevice)) } }
  refine ⟨_, run (same.trans evidence), state, ⟨flash.trans ?_, reads, pending.trans ?_⟩, ?_⟩
  · exact (congrArg Archive.flash archive :)
  · dsimp only
    rw [archive, irq]
  · exact (congrArg (fun t : State => { t with archive := s.archive }) frame).trans (by rw [← archive])

/-- The mount command: the archive is unmounted and what the probe found is mounted again. -/
theorem mountAgain_mounts (q : Takes 0x02 (writeReq port tag 0x4002 (leBytes 2 0x4D54)) s)
    (idle : s.archive.state.busy = false) :
    let b := begun 0x02 (writeReq port tag 0x4002 (leBytes 2 0x4D54)) s
    ∃ t, edge (setRow port tag 0x4002 (leBytes 2 0x4D54)) s =
        .next (answered 0x02 (writeReq port tag 0x4002 (leBytes 2 0x4D54)) .ok [] t) ∧
      (t.archive.flash = s.archive.flash ∧ t.archive.reads = [] ∧
        t.link.irqPending = if s.archive.state = .mounted then s.link.irqPending ||| 32#12 else s.link.irqPending) ∧
      (t.archive.state = if s.archive.devices.all (fun d => d.part.isNone) then .noDevice
        else if s.archive.mismatched then .mismatch else .scan1) ∧
      { t with archive := s.archive, link := b.link } = b := by
  dsimp only
  have archive : (begun 0x02 (writeReq port tag 0x4002 (leBytes 2 0x4D54)) s).archive = s.archive := by rw [begun_frame]
  have irq := begun_irq 0x02 (writeReq port tag 0x4002 (leBytes 2 0x4D54)) s
  have evidence : (begun 0x02 (writeReq port tag 0x4002 (leBytes 2 0x4D54)) s).evidence = s.evidence := begun_evidence
  have run := archiveWrite_runs h free (v := 0x4D54) (by decide) q (archiveCommand_mounts (by rw [archive]; exact idle))
  generalize begun 0x02 (writeReq port tag 0x4002 (leBytes 2 0x4D54)) s = b at archive irq evidence run ⊢
  obtain ⟨flash, reads, -, devices, pending, same, frame⟩ := unmount_unmounts .probing b
  generalize unmount .probing b = u at flash reads devices pending same frame run
  obtain ⟨l, e⟩ := beginMount_scans u
  rw [archive, irq] at pending
  rw [archive] at flash devices
  rw [e] at run
  have mismatched : u.archive.mismatched = s.archive.mismatched := by
    unfold Archive.mismatched
    rw [devices]
  refine ⟨_, run (same.trans evidence), ⟨flash, reads, pending⟩, ?_, ?_⟩
  · dsimp only
    rw [devices, mismatched]
  · exact (congrArg (fun t : State => { t with archive := s.archive }) frame).trans (by rw [← archive])

end Writes

end Commands

/-- Settles O39: the phases of a mount end where they are under way, and the commands unmount before they begin one. -/
theorem archiveMounts : Obligations.ArchiveMounts := by
  unfold Obligations.ArchiveMounts
  intro s h
  dsimp only
  refine ⟨fun no => edge_next h ?noCheckpoint rfl, fun phase => ⟨_, edge_ends h rfl, ?checkpoint⟩,
    fun no => edge_next h ?noScan1 rfl, fun phase => ?scan1, fun no => edge_next h ?noScan2 rfl,
    fun phase => ⟨_, edge_ends h rfl, ?scan2⟩, fun no => edge_next h ?noFormat rfl, fun phase => ⟨_, edge_ends h rfl, ?format⟩,
    fun port tag free => ⟨fun q idle => ?refused, fun q idle some_ => ?formats, fun q busy => ?busy, fun q idle => ?mounts⟩⟩
  case noCheckpoint =>
    unfold mountCheckpoint
    split
    case h_1 phase => exact absurd phase no
    case h_2 => rfl
  case noScan1 =>
    unfold scanPhase1
    split
    case h_1 phase => exact absurd phase no
    case h_2 => rfl
  case noScan2 =>
    unfold scanPhase2
    split
    case h_1 phase => exact absurd phase no
    case h_2 => rfl
  case noFormat =>
    unfold formatEnd
    split
    case h_1 phase => exact absurd phase no
    case h_2 => rfl
  case checkpoint =>
    obtain ⟨state, stuck, count, irq, mounted, billing, cells⟩ := (mountCheckpoint_mounts phase).ends
    exact ⟨state, stuck, count, irq, mounted, billing, cells⟩
  case scan1 =>
    obtain ⟨state, billing, store, start, evidence⟩ := scanPhase1_scans phase
    exact ⟨_, edge_next h rfl evidence, state, billing, store, start⟩
  case scan2 =>
    obtain ⟨state, stuck, count, irq, mounted, billing, cells⟩ := (scanPhase2_mounts phase).ends
    exact ⟨state, stuck, count, irq, mounted, billing, cells⟩
  case format =>
    obtain ⟨pins, archiveId, free, alike, unlike⟩ := formatEnd_formats phase
    obtain ⟨-, -, -, -, -, -, archive, -⟩ := endEdge_frame (formatEnd s)
    rw [endEdge_free, archive]
    refine ⟨pins, archiveId, free, fun no => ?_, unlike⟩
    obtain ⟨state, stuck, count, irq, mounted, billing, cells⟩ := (alike no).ends
    rw [archive] at state stuck count
    exact ⟨state, stuck, count, irq, mounted, billing, cells⟩
  case refused =>
    exact archiveWrite_refused h free (by decide) (.inl rfl) q (idle.imp id fun none_ => ⟨rfl, none_⟩)
  case formats => exact archiveFormat_formats h free q idle some_
  case busy => exact archiveWrite_refused h free (by decide) (.inr rfl) q (.inl busy)
  case mounts => exact mountAgain_mounts h free q idle

end Sys2Proof.Laws
end

section
/-! The mere takes records and the flash works them off (R284–R292). -/

namespace Sys2Proof.Laws
open Sys2Proof Sys2Proof.Machine

/-! ### A record is offered to the mere (R287–R290, R292) -/

section Mere
variable {s : State} {t : Nat} {r : MereRec} {rest : List (Nat × MereRec)}

/-- The archive without the oldest offer. -/
def taken (s : State) (rest : List (Nat × MereRec)) : Archive := { s.archive with offered := rest }

theorem mereTake_none (none_ : s.archive.offered = []) : mereTake s = s := by
  unfold mereTake
  rw [none_]

/-- A record that is no segment's, where the mere has room for it: it joins its log, and the fill is heeded. -/
theorem mereTake_room (next_ : s.archive.offered = (t, r) :: rest) (plain : t ≠ 0 ∨ r.seg = none)
    (room : s.archive.fill + r.bytes.length ≤ mereSize) :
    mereTake s = heedFill { s with archive := ((taken s rest).modTier t (TierLog.takeIn r)).marks } := by
  have other : ¬ (t = 0 && r.seg.isSome) = true := by
    rcases plain with no | no
    · simp [no]
    · simp [no]
  unfold mereTake
  rw [next_]
  dsimp only
  rw [if_neg other, if_pos room]
  rfl

/-- Without room it waits, or one of the two gives way after a failure of the archive. -/
theorem mereTake_full (next_ : s.archive.offered = (t, r) :: rest) (plain : t ≠ 0 ∨ r.seg = none)
    (full : mereSize < s.archive.fill + r.bytes.length) : mereTake s =
      if s.archive.starved then
        if t = 2 && !(s.archive.tier 1).queue.isEmpty then discardPool s
        else { s with archive := { taken s rest with
          flow := { s.archive.flow with discarded := s.archive.flow.discarded + 1 } } }
      else s := by
  have other : ¬ (t = 0 && r.seg.isSome) = true := by
    rcases plain with no | no
    · simp [no]
    · simp [no]
  unfold mereTake
  rw [next_]
  dsimp only
  rw [if_neg other, if_neg (Nat.not_le.mpr full)]
  rfl

theorem heedFill_low (low : s.archive.fill < mark90 ∨ s.archive.oldestSeep = none) : heedFill s = s := by
  unfold heedFill dropOldest
  split
  case isTrue high =>
    have none_ := low.resolve_left (Nat.not_lt.mpr high)
    rw [none_]
  case isFalse => rfl

theorem heedFill_high (high : mark90 ≤ s.archive.fill) {g start : Nat} {n : Option Nat}
    (oldest : s.archive.oldestSeep = some (g, n, start)) : heedFill s = giveWay g start s := by
  unfold heedFill dropOldest
  rw [if_pos high, oldest]

/-- An item of a segment while the archive has failed. -/
theorem mereTake_starved (next_ : s.archive.offered = (0, r) :: rest) (seep : r.seg ≠ none) (starved : s.archive.starved = true) :
    mereTake s = { s with archive := { taken s rest with
      flow := { s.archive.flow with discarded := s.archive.flow.discarded + 1 } } } := by
  have item : ((0 : Nat) = 0 && r.seg.isSome) = true := by simpa using Option.isSome_iff_ne_none.mpr seep
  unfold mereTake
  rw [next_]
  dsimp only
  rw [if_pos item, if_pos starved]
  rfl

theorem mereTake_late (next_ : s.archive.offered = (0, r) :: rest) (seep : r.seg ≠ none) (fed : s.archive.starved = false)
    (late : s.archive.takesSeep r = false) : mereTake s = { s with archive := taken s rest } := by
  have item : ((0 : Nat) = 0 && r.seg.isSome) = true := by simpa using Option.isSome_iff_ne_none.mpr seep
  unfold mereTake
  rw [next_]
  dsimp only
  rw [if_pos item, fed, if_neg Bool.false_ne_true, late]
  rfl

/-- An item of a segment below 90 %: it joins its record, and the fill is heeded. -/
theorem mereTake_seep (next_ : s.archive.offered = (0, r) :: rest) (seep : r.seg ≠ none) (fed : s.archive.starved = false)
    (grows : s.archive.takesSeep r = true) (low : s.archive.fill < mark90) : mereTake s =
      heedFill { s with archive := ((taken s rest).modTier 0 (fun l => { l with queue := joinSeep r l.queue })).marks } := by
  have item : ((0 : Nat) = 0 && r.seg.isSome) = true := by simpa using Option.isSome_iff_ne_none.mpr seep
  have fill : heedFill { s with archive := taken s rest } = { s with archive := taken s rest } := heedFill_low (.inl low)
  have grows' : (taken s rest).takesSeep r = true := grows
  unfold mereTake
  rw [next_]
  dsimp only
  rw [if_pos item, fed, if_neg Bool.false_ne_true, grows]
  change heedFill { heedFill { s with archive := taken s rest } with archive :=
    ((heedFill { s with archive := taken s rest }).archive.modTier 0 (fun l =>
      { l with queue := if (heedFill { s with archive := taken s rest }).archive.takesSeep r then joinSeep r l.queue else l.queue })).marks } = _
  rw [fill]
  simp only [grows', if_true]

end Mere

/-! ### A segment gives way (R289, R290) -/

section GiveWay
variable {s : State}

theorem tier_modTier (a : Archive) (f : TierLog → TierLog) (some_ : a.tiers ≠ []) : (a.modTier 0 f).tier 0 = f (a.tier 0) :=
  modAt_getD_same _ _ _ _ (List.length_pos_iff.mpr some_)

theorem tier_modTier_none (a : Archive) (f : TierLog → TierLog) (none_ : a.tiers = []) : (a.modTier 0 f).tier 0 = {} := by
  unfold Archive.modTier Archive.tier
  rw [none_]
  rfl

/-- The seep log of the archive once segment `g` has left it and the marker has taken its place. -/
theorem giveWay_tier (g start : Nat) (some_ : s.archive.tiers ≠ []) : (giveWay g start s).archive.tier 0 =
    TierLog.takeIn (gapRecord 1 g start (nextAligned start)) { s.archive.tier 0 with
      queue := (s.archive.tier 0).queue.filter (fun q => q.seg != some g)
      buffer := (s.archive.tier 0).buffer.filter (fun f => f.seg != some g)
      droppedRecs := (s.archive.tier 0).droppedRecs ++ ((s.archive.tier 0).numberOf g).toList } := by
  have left : (s.archive.dropSegment g).tiers ≠ [] := by
    change modAt s.archive.tiers 0 _ ≠ []
    rw [← List.length_pos_iff, modAt_length]
    exact List.length_pos_iff.mpr some_
  have whole : (giveWay g start s).archive.tier 0 =
      ((s.archive.dropSegment g).modTier 0 (TierLog.takeIn (gapRecord 1 g start (nextAligned start)))).tier 0 := rfl
  have dropped : (s.archive.dropSegment g).tier 0 = _ := tier_modTier s.archive _ some_
  rw [whole, tier_modTier _ _ left, dropped]

theorem giveWay_tier_none (g start : Nat) (none_ : s.archive.tiers = []) : (giveWay g start s).archive.tier 0 = {} := by
  have left : (s.archive.dropSegment g).tiers = [] := by
    change modAt s.archive.tiers 0 _ = []
    rw [none_]
    rfl
  exact tier_modTier_none _ _ left

/-- The dropped segment leaves nothing in the mere, and a gap marker stands in its place. -/
theorem giveWay_leaves (g start : Nat) : let t := giveWay g start s
    (s.archive.tiers ≠ [] → ∃ q, q ∈ (t.archive.tier 0).queue ∧ q.bytes = gapMarker 1 g start (nextAligned start) ∧ q.seg = none) ∧
    (∀ q, q ∈ (t.archive.tier 0).queue → q.seg ≠ some g) ∧ (∀ f, f ∈ (t.archive.tier 0).buffer → f.seg ≠ some g) := by
  dsimp only
  by_cases none_ : s.archive.tiers = []
  · rw [giveWay_tier_none g start none_]
    exact ⟨fun some_ => absurd none_ some_, fun q mem => absurd mem List.not_mem_nil, fun f mem => absurd mem List.not_mem_nil⟩
  · rw [giveWay_tier g start none_]
    unfold TierLog.takeIn
    dsimp only
    refine ⟨fun _ => ⟨gapRecord 1 g start (nextAligned start), by simp, rfl, rfl⟩, fun q mem => ?_, fun f mem => ?_⟩
    · rw [List.mem_append, List.mem_cons] at mem
      have kept (mem : q ∈ (s.archive.tier 0).queue.filter (fun q => q.seg != some g)) : q.seg ≠ some g := by
        have other := (List.mem_filter.mp mem).2
        exact bne_iff_ne.mp other
      rcases mem with mem | rfl | mem
      · exact kept (List.takeWhile_subset _ mem)
      · exact fun no => by cases no
      · exact kept (List.dropWhile_subset _ mem)
    · exact bne_iff_ne.mp (List.mem_filter.mp mem).2

end GiveWay

/-! ### Operations of the flash (R284, R290, R292) -/

section Operations
variable {s : State} {d : Nat}

/-- From `s` to `t` only the analysis and the evidence have changed. -/
def Notes (s t : State) : Prop := ∃ (x : Xa) (e : Evidence), t = { s with xa := x, evidence := e }

theorem Notes.refl (s : State) : Notes s s := ⟨_, _, rfl⟩

theorem Notes.trans {s t u : State} (h : Notes s t) (k : Notes t u) : Notes s u := by
  obtain ⟨x, e, rfl⟩ := h
  obtain ⟨x', e', rfl⟩ := k
  exact ⟨x', e', rfl⟩

/-- With no pin asked for nothing is settled. -/
theorem settlePins_none (asked : s.xa.asked = []) (pins : s.evidence.pins = []) : settlePins s = s := by
  obtain ⟨pending, free, part, letter, digit, link, sense, billing, xa, recording, archive, engines, sluice, line, net, aux, store,
    backup, time, evidence, tamper, integrity, start, power⟩ := s
  cases xa
  cases evidence
  dsimp only at asked pins
  subst asked pins
  rfl

/-- The state with device `d` at rest. -/
def restDevice (s : State) (d : Nat) : State := { s with archive := { s.archive with
  devices := modAt s.archive.devices d (fun (x : FlashDevice) => ({ x with op := none } : FlashDevice)) } }

section Done
variable (asked : s.xa.asked = []) (pins : s.evidence.pins = [])
include asked pins

theorem flashDone_erased {lb : Nat} (op : (s.archive.devices.getD d {}).op = some (.erase lb)) : flashDone d .ok s =
    giveWork { s with archive := (restDevice s d).archive.erased (s.sec / 86400) lb } := by
  unfold flashDone
  rw [op]
  exact congrArg giveWork (settlePins_none asked pins)

/-- A failed erase takes its block out of use. -/
theorem flashDone_eraseFails {lb : Nat} (op : (s.archive.devices.getD d {}).op = some (.erase lb)) :
    ∃ a e, flashDone d .failed s = { s with archive := a, evidence := e } := by
  unfold flashDone
  rw [op]
  dsimp only [failOp]
  rw [settlePins_none (by exact asked) (by exact pins)]
  obtain ⟨a, e⟩ := Archives.giveWork (failOp (.erase lb) (restDevice s d))
  exact ⟨a, _, e⟩

theorem flashDone_rests (op : (s.archive.devices.getD d {}).op = none) :
    flashDone d .ok s = giveWork { s with archive := { s.archive with
      devices := modAt s.archive.devices d (fun (x : FlashDevice) => ({ x with retried := false } : FlashDevice)) } } ∧
    flashDone d .failed s = giveWork s := by
  unfold flashDone
  rw [op]
  exact ⟨congrArg giveWork (settlePins_none asked pins), congrArg giveWork (settlePins_none asked pins)⟩

theorem flashDone_highCount {lb : Nat} (other : ∀ tag, (s.archive.devices.getD d {}).op ≠ some (.read tag))
    (kind : s.archive.useOf lb = .peat ∨ s.archive.useOf lb = .pinned)
    (stays : s.archive.moves.any (fun m => m.lb == lb) = false) : flashDone d (.highCount lb) s =
      giveWork { s with archive := { s.archive with moves := s.archive.moves ++ [{ lb := lb, refresh := true }] } } := by
  have reads : endRead d s = s := by
    unfold endRead
    split
    case h_1 tag op => exact absurd op (other tag)
    case h_2 => rfl
  have due : ((s.archive.useOf lb == .peat || s.archive.useOf lb == .pinned) && !s.archive.moves.any (fun m => m.lb == lb)) = true := by
    rw [stays, Bool.not_false, Bool.and_true, Bool.or_eq_true, beq_iff_eq, beq_iff_eq]
    exact kind
  unfold flashDone
  dsimp only
  rw [reads, due]
  exact congrArg giveWork (settlePins_none asked pins)

theorem flashDone_unreadable {lb : Nat} (other : ∀ tag, (s.archive.devices.getD d {}).op ≠ some (.read tag)) (page : Nat) :
    flashDone d (.unreadable lb page) s = giveWork { s with archive :=
      { s.archive.setBlock { s.archive.block lb with badPages := insertNat page (s.archive.block lb).badPages } with
        flow := { s.archive.flow with pageFails := s.archive.flow.pageFails + 1 } } } := by
  have reads : endRead d s = s := by
    unfold endRead
    split
    case h_1 tag op => exact absurd op (other tag)
    case h_2 => rfl
  have flow (b : FlashBlock) : (s.archive.setBlock b).flow = s.archive.flow := by
    unfold Archive.setBlock
    split <;> rfl
  unfold flashDone
  dsimp only
  rw [reads, ← flow { s.archive.block lb with badPages := insertNat page (s.archive.block lb).badPages }]
  exact congrArg giveWork (settlePins_none asked pins)

end Done

/-- A device that does nothing has no timeout. -/
theorem flashTimeout_idle (idle : ((s.archive.devices.getD d {}).op.isSome ||
    ((s.archive.devices.getD d {}).part.isSome && s.archive.state.busy)) = false) : flashTimeout d s = s := by
  refine if_pos ?_
  rw [Bool.or_eq_false_iff] at idle
  rw [idle.2, Bool.not_false, Bool.and_true, Option.isNone_iff_eq_none]
  exact Option.not_isSome_iff_eq_none.mp (by rw [idle.1]; decide)

theorem flashTimeout_acts (acts : ((s.archive.devices.getD d {}).op.isSome ||
    ((s.archive.devices.getD d {}).part.isSome && s.archive.state.busy)) = true) : flashTimeout d s =
      if (s.archive.devices.getD d {}).retried then archiveFail d s
      else { s with archive := { s.archive with
        devices := modAt s.archive.devices d (fun (x : FlashDevice) => ({ x with retried := true } : FlashDevice)) } } := by
  refine if_neg fun idle => ?_
  rw [Bool.and_eq_true, Option.isNone_iff_eq_none] at idle
  obtain ⟨none_, quiet⟩ := idle
  rw [Bool.not_eq_true'] at quiet
  rw [none_, quiet] at acts
  cases acts

/-- An archive that fails: its pins fail before its commands end (R292). -/
theorem archiveFail_notes (d : Nat) (s : State) : ∃ y : State,
    archiveFail d s = ((unmount .failed y).raise 0x50 [BitVec.ofNat 8 d]).completeAll Work.usesArchive .fault ∧
    y.xa.asked = [] ∧ y.archive.stuck = true ∧ y.billing = s.billing ∧ y.recording = s.recording := by
  have outcomes (l : List (Nat × Nat)) (s : State) : Notes s (l.foldl (fun s p =>
      { setOutcome p.2 2 s with xa.counters := modAt s.xa.counters 7 (· + 1) }) s) :=
    foldl_related Notes.refl Notes.trans (fun s p => ⟨_, _, rfl⟩) l s
  have extensions (l : List AlarmPin) (s : State) : Notes s (l.foldl (fun s p =>
      if p.asked.isSome then pinExtension p.code p.seq 2 (p.asked.getD 0) s else s) s) :=
    foldl_related Notes.refl Notes.trans (fun s p => by split <;> exact ⟨_, _, rfl⟩) l s
  unfold archiveFail
  extract_lets u v w x
  obtain ⟨xa, e, noted⟩ : Notes v x := (outcomes _ v).trans (extensions _ w)
  exact ⟨_, rfl, rfl, rfl, (congrArg State.billing noted).trans rfl, (congrArg State.recording noted).trans rfl⟩

/-- It takes no seep until a mount succeeds; billing and the recording go on. -/
theorem archiveFail_fails (d : Nat) (s : State) :
    (archiveFail d s).archive.state = .failed ∧ (archiveFail d s).archive.stuck = true ∧ (archiveFail d s).xa.asked = [] ∧
      (archiveFail d s).billing = s.billing ∧ (archiveFail d s).recording = s.recording := by
  obtain ⟨y, fails, asked, stuck, billing, recording⟩ := archiveFail_notes d s
  obtain ⟨l, e⟩ := completeAll_frame ((unmount .failed y).raise 0x50 [BitVec.ofNat 8 d]) Work.usesArchive .fault
  rw [fails, e]
  have unmounted : (unmount .failed y).archive.state = .failed ∧ (unmount .failed y).archive.stuck = y.archive.stuck ∧
      (unmount .failed y).xa = y.xa ∧ (unmount .failed y).billing = y.billing ∧ (unmount .failed y).recording = y.recording := by
    unfold unmount
    dsimp only
    split <;> exact ⟨rfl, rfl, rfl, rfl, rfl⟩
  obtain ⟨state, stuck', xa, billing', recording'⟩ := unmounted
  exact ⟨state, stuck'.trans stuck, (congrArg Xa.asked xa).trans asked, billing'.trans billing, recording'.trans recording⟩

end Operations

/-- Settles O40: each offer, operation and timer by the branch it takes; the flash's next work touches the archive alone. -/
theorem flashWorks : Obligations.FlashWorks := by
  unfold Obligations.FlashWorks
  refine ⟨fun s => (Archives.giveWork s).frame, fun s h => ?_⟩
  dsimp only
  have admits {u : State} (run : mereTake s = u) (k : u.evidence = s.evidence) : exec .mereAdmit s = .next (giveWork u) :=
    edge_next h (f := fun s => giveWork (mereTake s)) (congrArg giveWork run) ((Archives.giveWork u).evidence.trans k)
  have works {u : State} {d : Nat} {x : FlashResult} (run : flashDone d x s = giveWork u) (k : u.evidence = s.evidence) :
      exec (.flashOperationDone d x) s = .next (giveWork u) :=
    edge_next h (f := flashDone d x) run ((Archives.giveWork u).evidence.trans k)
  refine ⟨fun none_ => admits (mereTake_none none_) rfl,
    fun t r rest next_ plain => ⟨fun room => ⟨fun low => ?joins, fun high g n start oldest => ?gives⟩,
      fun full => ⟨fun fed => ?waits, fun starved other => ?discards, fun starved two q qs queue => ?pool⟩⟩,
    fun r rest next_ seep => ⟨fun starved => admits (mereTake_starved next_ seep starved) rfl,
      fun fed late => admits (mereTake_late next_ seep fed late) rfl,
      fun fed grows low => ⟨fun still => ?item, fun high g n start oldest => ?itemGives⟩⟩,
    fun g start => ?giveWay, fun asked pins d lb => ⟨fun op => ⟨works (flashDone_erased asked pins op) rfl, ?eraseFails⟩,
      fun op => ⟨works (flashDone_rests asked pins op).1 rfl, works (flashDone_rests asked pins op).2 rfl⟩,
      fun other kind stays => works (flashDone_highCount asked pins other kind stays) rfl,
      fun other page => works (flashDone_unreadable asked pins other page) rfl⟩,
    fun d idle => edge_next h (flashTimeout_idle idle) rfl, fun d acts fresh => ?retries, fun d acts retried => ?fails,
    fun t idle => ?noFlush, fun t tier writes => ?flush, fun idle => edge_next h (if_pos ?noCheckpoint) rfl,
    fun writes => ?checkpoint⟩
  case joins => exact admits ((mereTake_room next_ plain room).trans (heedFill_low low)) rfl
  case gives => exact admits ((mereTake_room next_ plain room).trans (heedFill_high high oldest)) rfl
  case waits =>
    refine admits ((mereTake_full next_ plain full).trans ?_) rfl
    rw [fed, if_neg Bool.false_ne_true]
  case discards =>
    refine admits ((mereTake_full next_ plain full).trans ?_) rfl
    rw [if_pos starved]
    refine if_neg fun both => ?_
    rw [Bool.and_eq_true, decide_eq_true_eq] at both
    rcases other with no | no
    · exact no both.1
    · rw [no] at both
      exact absurd both.2 (by decide)
  case pool =>
    refine admits ((mereTake_full next_ plain full).trans ?_) rfl
    rw [if_pos starved, two, queue, if_pos (by rfl)]
    have pool : discardPool s = { s with archive := { s.archive.modTier 1 (fun l => { l with queue := qs }) with
        flow := { s.archive.flow with discarded := s.archive.flow.discarded + 1 } } } := by
      unfold discardPool
      rw [queue] <;> rfl
    exact pool
  case item => exact admits ((mereTake_seep next_ seep fed grows low).trans (heedFill_low (.inl still))) rfl
  case itemGives => exact admits ((mereTake_seep next_ seep fed grows low).trans (heedFill_high high oldest)) rfl
  case giveWay =>
    obtain ⟨marker, queue, buffer⟩ := giveWay_leaves (s := s) g start
    exact ⟨rfl, rfl, rfl, marker, queue, buffer, rfl⟩
  case eraseFails =>
    obtain ⟨a, e, run⟩ := flashDone_eraseFails asked pins op
    obtain ⟨-, link, -, billing, -, recording, -, -, -, -, cells, -⟩ := endEdge_frame ({ s with archive := a, evidence := e } : State)
    exact ⟨_, edge_ends h run, billing, link, cells, recording⟩
  case retries =>
    exact edge_next h ((flashTimeout_acts acts).trans (by rw [fresh, if_neg Bool.false_ne_true])) rfl
  case fails =>
    obtain ⟨state, stuck, asked, billing, recording⟩ := archiveFail_fails d s
    obtain ⟨-, -, -, billing', xa, recording', archive, -, -, -, cells, -⟩ := endEdge_frame (archiveFail d s)
    refine ⟨_, edge_ends h ((flashTimeout_acts acts).trans (if_pos retried)), ?_, ?_, ?_, billing'.trans billing,
      cells.trans (archiveFail_cells d s), recording'.trans recording⟩
    · rw [archive, state]
    · rw [archive, stuck]
    · rw [xa, asked]
  case noFlush =>
    refine edge_next h (f := pageFlush t) ?_ rfl
    unfold pageFlush
    rcases idle with ⟨one, two⟩ | off
    · exact if_pos (by simp [one, two])
    · rw [off]
      exact ite_self s
  case flush =>
    have named : ¬ (t ≠ 1 && t ≠ 2) = true := by
      rcases tier with rfl | rfl <;> decide
    have run : ∃ a, pageFlush t s = giveWork { s with archive := a } := by
      unfold pageFlush
      rw [if_neg named, writes]
      exact ⟨_, rfl⟩
    obtain ⟨a, run⟩ := run
    obtain ⟨b, e⟩ := Archives.giveWork { s with archive := a }
    exact ⟨_, edge_next h (run.trans e) rfl, rfl⟩
  case noCheckpoint =>
    rw [idle]
    rfl
  case checkpoint =>
    have run : checkpointDue s = giveWork { s with archive := { s.archive with checkpoint := { s.archive.checkpoint with
        due := true
        deferredSec := if s.archive.at50 then some (s.archive.checkpoint.deferredSec.getD s.sec) else none } } } := by
      unfold checkpointDue
      rw [writes]
      rfl
    exact edge_next h run ((Archives.giveWork _).evidence.trans rfl)

end Sys2Proof.Laws
end

section
/-! The commands that read, pin and audit the archive (R294–R301, R226). -/

namespace Sys2Proof.Laws
open Sys2Proof Sys2Proof.Machine

/-! ### The checks (R62, R296) -/

section Checks
variable {s : State} {op : Nat} {p : Bytes} (named : op = 0x20 ∨ op = 0x21 ∨ op = 0x22)
include named

/-- The archive's opcodes name no object. -/
theorem namedObjects_archive : namedObjects op p = [] := by
  unfold namedObjects
  rcases named with rfl | rfl | rfl <;> exact ite_self []

theorem archiveOpcode_known : Machine.opcodeKnown op = true ∧ archiveOpcode op = true := by
  rcases named with rfl | rfl | rfl <;> decide

/-- An archive that is not mounted turns them away. -/
theorem judge_gate (fits : opcodeFitted s.part op = true) (free : (opcodeHeldBits op).any s.held = false) {st : Status}
    (gate : s.archiveGate = some st) : judge op p s = some (refuse st) := by
  obtain ⟨known, ofArchive⟩ := archiveOpcode_known named
  unfold judge
  dsimp only
  rw [namedObjects_archive named, known, ofArchive, fits, free, gate]
  rfl

/-- Else their parameters are judged. -/
theorem judge_params (fits : opcodeFitted s.part op = true) (free : (opcodeHeldBits op).any s.held = false)
    (gate : s.archiveGate = none) (bad : paramsOk op p = false) : judge op p s = some (refuse .badParam) := by
  obtain ⟨known, ofArchive⟩ := archiveOpcode_known named
  unfold judge
  dsimp only
  rw [namedObjects_archive named, known, ofArchive, fits, free, gate, bad]
  rfl

/-- A command that is taken finds the archive mounted. -/
theorem archiveGate_of_judge (h : judge op p s = none) : s.archiveGate = none := by
  have fits := opcodeFitted_of_judge h
  cases gate : s.archiveGate with
  | none => rfl
  | some st =>
    cases free : (opcodeHeldBits op).any s.held with
    | false =>
      rw [judge_gate named fits free gate] at h
      cases h
    | true =>
      obtain ⟨known, ofArchive⟩ := archiveOpcode_known named
      unfold judge at h
      dsimp only at h
      rw [namedObjects_archive named, known, fits, free] at h
      exact absurd h (by simp)

end Checks

/-! ### ARCHIVE_READ (R294–R297) -/

section Reads
variable {s : State} {p : Bytes}

/-- The checks of a read behind those of its form. -/
theorem archiveRead_eq (form : paramsOk 0x20 p = true) (gate : s.archiveGate = none) : archiveRead p s =
    let go : Answer × State := (.long (.archiveRead (getU p 0 1) (getU p 1 1) (getU p 10 2) (getU p 2 8)), s)
    if getU p 1 1 = 0 then (if 32768 ≤ getU p 8 2 then (refuse .badParam, s) else go)
    else if getU p 2 8 / 2 ^ 62 ≠ getU p 0 1 then (refuse .badParam, s)
    else if field 61 56 (getU p 2 8) ≠ s.archive.mountCount.toNat then (refuse .notFound, s)
    else if ((s.archive.records (getU p 0 1)).find? (fun r => r.1 % 2 ^ 28 == field 55 28 (getU p 2 8))).any
        (fun r => decide (r.2.length < getU p 2 8 % 2 ^ 28)) then (refuse .badParam, s)
    else go := by
  have inside : ¬ (3 < getU p 0 1 || 1 < getU p 1 1 || getU p 10 2 = 0 || 4000 < getU p 10 2) = true := by
    simp only [paramsOk, Bool.and_eq_true, decide_eq_true_eq] at form
    simp only [Bool.or_eq_true, decide_eq_true_eq]
    omega
  unfold archiveRead
  dsimp only
  rw [if_neg inside, gate]
  dsimp only
  cases e : (s.archive.records (getU p 0 1)).find? (fun r => r.1 % 2 ^ 28 == field 55 28 (getU p 2 8)) with
  | none => rfl
  | some r =>
    dsimp only
    simp only [Option.any_some, decide_eq_true_eq]

/-- A read that starts, from a time or from a cursor of this mount. -/
theorem archiveRead_starts (form : paramsOk 0x20 p = true) (gate : s.archiveGate = none)
    (place : getU p 1 1 = 0 ∧ getU p 8 2 < 32768 ∨
      (getU p 1 1 = 1 ∧ getU p 2 8 / 2 ^ 62 = getU p 0 1 ∧ field 61 56 (getU p 2 8) = s.archive.mountCount.toNat) ∧
      ∀ x, (s.archive.records (getU p 0 1)).find? (fun q => q.1 % 2 ^ 28 == field 55 28 (getU p 2 8)) = some x →
        getU p 2 8 % 2 ^ 28 ≤ x.2.length) :
    archiveRead p s = (.long (.archiveRead (getU p 0 1) (getU p 1 1) (getU p 10 2) (getU p 2 8)), s) := by
  rw [archiveRead_eq form gate]
  dsimp only
  rcases place with ⟨time, small⟩ | ⟨⟨cursor, tier, mount⟩, inside⟩
  · rw [if_pos time, if_neg (Nat.not_le.mpr small)]
  · rw [if_neg (by omega), if_neg (not_not.mpr tier), if_neg (not_not.mpr mount), if_neg]
    intro beyond
    obtain ⟨x, found, far⟩ := Option.any_eq_true _ _ |>.mp beyond
    exact absurd (inside x found) (Nat.not_le.mpr (of_decide_eq_true far))

/-- The four ways in which a position is refused (R296). -/
theorem archiveRead_refused (form : paramsOk 0x20 p = true) (gate : s.archiveGate = none) :
    (getU p 1 1 = 0 → 32768 ≤ getU p 8 2 → archiveRead p s = (refuse .badParam, s)) ∧
    (getU p 1 1 = 1 → getU p 2 8 / 2 ^ 62 ≠ getU p 0 1 → archiveRead p s = (refuse .badParam, s)) ∧
    (getU p 1 1 = 1 → getU p 2 8 / 2 ^ 62 = getU p 0 1 → field 61 56 (getU p 2 8) ≠ s.archive.mountCount.toNat →
      archiveRead p s = (refuse .notFound, s)) ∧
    (∀ x, getU p 1 1 = 1 ∧ getU p 2 8 / 2 ^ 62 = getU p 0 1 ∧ field 61 56 (getU p 2 8) = s.archive.mountCount.toNat →
      (s.archive.records (getU p 0 1)).find? (fun q => q.1 % 2 ^ 28 == field 55 28 (getU p 2 8)) = some x →
      x.2.length < getU p 2 8 % 2 ^ 28 → archiveRead p s = (refuse .badParam, s)) := by
  rw [archiveRead_eq form gate]
  dsimp only
  refine ⟨fun time late => ?_, fun cursor tier => ?_, fun cursor tier mount => ?_, fun x ⟨cursor, tier, mount⟩ found beyond => ?_⟩
  · rw [if_pos time, if_pos late]
  · rw [if_neg (by omega), if_pos tier]
  · rw [if_neg (by omega), if_neg (not_not.mpr tier), if_pos mount]
  · rw [if_neg (by omega), if_neg (not_not.mpr tier), if_neg (not_not.mpr mount), found, Option.any_some,
      if_pos (decide_eq_true beyond)]

theorem readRequest_refused {own : Nat} {st : Status} (run : archiveRead p s = (refuse st, s)) :
    readRequest own p s = (refuse st, s) := by
  unfold readRequest
  rw [run]
  rfl

theorem readRequest_starts {own tier mode len pos : Nat} (run : archiveRead p s = (.long (.archiveRead tier mode len pos), s)) :
    readRequest own p s = (.long (.archiveRead tier mode len pos),
      giveWork { s with archive := s.archive.askReads own (s.readPages tier mode len pos) }) := by
  unfold readRequest
  rw [run]

variable {tag : Nat} {c : Command} {k m n q : Nat}

/-- A read that has waited for 10 s at the 75 % watermark times out (R297). -/
theorem archiveReadTimeout_eq (there : s.command tag = some c) (work : c.work = .archiveRead k m n q) : archiveReadTimeout tag s =
    if s.archive.reads.any (fun x => x.tag == tag && x.heldFrom.any (fun t => decide (t + 10000000 ≤ s.micros))) then
      ({ s with archive := { s.archive with
        reads := s.archive.reads.filter (fun x => x.tag != tag)
        flow := { s.archive.flow with readsTimedOut := s.archive.flow.readsTimedOut + 1 } } } : State).complete tag .timeout []
    else s := by
  unfold archiveReadTimeout
  rw [there]
  dsimp only
  rw [work]
  rfl

/-- Else it completes once its pages have been read. -/
theorem archiveReadComplete_eq (there : s.command tag = some c) (work : c.work = .archiveRead k m n q) :
    archiveReadComplete tag s = if s.archive.readsDone tag = false then s
      else s.complete tag (s.readArchive k m n q).1 (s.readArchive k m n q).2 := by
  unfold archiveReadComplete
  rw [there]
  dsimp only
  rw [work]
  simp only [Bool.not_eq_true']

end Reads

/-! ### Reads that the watermark holds (R288, R297) -/

section Held
variable {s : State}

/-- The controller begins with the reads that the watermark holds. -/
theorem giveWork_congr {a : Archive} (same : a.holdReads s.micros = s.archive.holdReads s.micros) :
    giveWork { s with archive := a } = giveWork s := by
  have now : ({ s with archive := a } : State).micros = s.micros := rfl
  unfold giveWork
  dsimp only
  rw [now, same]

/-- Below the watermark none is held. -/
theorem giveWork_releases (low : s.archive.at75 = false) : giveWork s = giveWork { s with archive := { s.archive with
    reads := s.archive.reads.map (fun x => { x with heldFrom := none }) } } := by
  have releases (a : Archive) (low : a.at75 = false) (now : Nat) : a.holdReads now =
      { a with reads := a.reads.map (fun x => { x with heldFrom := none }) } := by
    unfold Archive.holdReads
    rw [low]
    rfl
  have twice : ((s.archive.reads.map (fun x => ({ x with heldFrom := none } : PageReads))).map
      (fun x => ({ x with heldFrom := none } : PageReads))) = s.archive.reads.map (fun x => { x with heldFrom := none }) := by
    rw [List.map_map]
    rfl
  refine (giveWork_congr ?_).symm
  rw [releases s.archive low]
  refine (releases { s.archive with reads := s.archive.reads.map (fun x => { x with heldFrom := none }) } low _).trans ?_
  dsimp only
  rw [twice]

theorem giveWork_holds (high : s.archive.at75 = true) (still : s.archive.state.writes = false) : (giveWork s).archive.reads =
    s.archive.reads.map (fun x => { x with heldFrom := some (x.heldFrom.getD s.micros) }) := by
  have holds : s.archive.holdReads s.micros = { s.archive.holdReads s.micros with
      state := s.archive.state
      reads := s.archive.reads.map (fun x => { x with heldFrom := some (x.heldFrom.getD s.micros) }) } := by
    unfold Archive.holdReads
    rw [high]
    rfl
  unfold giveWork
  dsimp only
  rw [holds]
  dsimp only
  rw [still]
  rfl

end Held

/-! ### PIN_SEGMENT (R298–R301) -/

section Pins
variable {s : State} {p : Bytes}

theorem insertNat_mem {n y : Nat} {l : List Nat} : y ∈ insertNat n l ↔ y = n ∨ y ∈ l := by
  induction l with
  | nil => simp [insertNat]
  | cons x xs ih =>
    unfold insertNat
    split
    · simp
    · split
      case isTrue e => simp [e]
      case isFalse =>
        rw [List.mem_cons, ih, List.mem_cons]
        tauto

/-- A sorted list without repetitions stays one. -/
theorem insertNat_sorted {n : Nat} {l : List Nat} (h : l.Pairwise (· < ·)) : (insertNat n l).Pairwise (· < ·) := by
  induction l with
  | nil => simp [insertNat]
  | cons x xs ih =>
    obtain ⟨first, rest⟩ := List.pairwise_cons.mp h
    unfold insertNat
    split
    case isTrue lt =>
      refine List.pairwise_cons.mpr ⟨fun y mem => ?_, h⟩
      rcases List.mem_cons.mp mem with rfl | mem
      · exact lt
      · exact lt.trans (first y mem)
    case isFalse =>
      split
      · exact h
      · refine List.pairwise_cons.mpr ⟨fun y mem => ?_, ih rest⟩
        rcases insertNat_mem.mp mem with rfl | mem
        · omega
        · exact first y mem

/-- The numbers of a list, each once. -/
theorem insertAll (l : List Nat) : (l.foldl (fun l g => insertNat g l) []).Nodup ∧
    ∀ g, g ∈ l.foldl (fun l g => insertNat g l) [] ↔ g ∈ l := by
  have all (acc : List Nat) (h : acc.Pairwise (· < ·)) : (l.foldl (fun l g => insertNat g l) acc).Pairwise (· < ·) ∧
      ∀ g, g ∈ l.foldl (fun l g => insertNat g l) acc ↔ g ∈ acc ∨ g ∈ l := by
    induction l generalizing acc with
    | nil => exact ⟨h, fun g => by simp⟩
    | cons x xs ih =>
      obtain ⟨sorted, mem⟩ := ih (insertNat x acc) (insertNat_sorted h)
      refine ⟨sorted, fun g => (mem g).trans ?_⟩
      rw [insertNat_mem, List.mem_cons]
      tauto
  obtain ⟨sorted, mem⟩ := all [] List.Pairwise.nil
  exact ⟨sorted.imp (fun lt => Nat.ne_of_lt lt), fun g => (mem g).trans (by simp)⟩

theorem pinSegment_refused (bad : getU p 6 6 ≤ getU p 0 6 ∨ 3600 < getU p 6 6 - getU p 0 6 ∨ s.sec < getU p 6 6) :
    pinRequest p s = .of (refuse .badParam, s) := by
  have out : (!([1, 2, 3, 0xFF].contains (getU p 12 1)) || getU p 6 6 ≤ getU p 0 6 || 3600 < getU p 6 6 - getU p 0 6 ||
      s.sec < getU p 6 6) = true := by
    simp only [Bool.or_eq_true, decide_eq_true_eq]
    tauto
  unfold pinRequest pinSegment
  dsimp only
  rw [if_pos out]
  rfl

/-- A pin of the segments that its span overlaps. -/
theorem pinSegment_pins (form : paramsOk 0x21 p = true) (gate : s.archiveGate = none) (order : getU p 0 6 < getU p 6 6)
    (span : getU p 6 6 - getU p 0 6 ≤ 3600) (past : getU p 6 6 ≤ s.sec) (pin : getU p 12 1 ≠ 0xFF)
    (some_ : s.overlapping (getU p 0 6 * 32768) (getU p 6 6 * 32768) ≠ []) (room : s.archive.pins.length < 1024)
    (fits : s.hostPinFits (s.overlapping (getU p 0 6 * 32768) (getU p 6 6 * 32768)) = true) :
    pinRequest p s = .of (.long (.pinSegment s.archive.nextPin (s.overlapping (getU p 0 6 * 32768) (getU p 6 6 * 32768)).length none),
      (makePin (getU p 0 6 * 32768) (getU p 6 6 * 32768) (getU p 12 1) 0
        (s.overlapping (getU p 0 6 * 32768) (getU p 6 6 * 32768)) s).1) := by
  have inside : ¬ (!([1, 2, 3, 0xFF].contains (getU p 12 1)) || getU p 6 6 ≤ getU p 0 6 || 3600 < getU p 6 6 - getU p 0 6 ||
      s.sec < getU p 6 6) = true := by
    simp only [paramsOk, Bool.and_eq_true] at form
    rw [form.2]
    simp only [Bool.or_eq_true, decide_eq_true_eq, Bool.not_true, Bool.false_eq_true, false_or]
    omega
  have segs : ¬ (s.overlapping (getU p 0 6 * 32768) (getU p 6 6 * 32768)).isEmpty = true :=
    fun none_ => some_ (List.isEmpty_iff.mp none_)
  have ok : ¬ (1024 ≤ s.archive.pins.length || !s.hostPinFits (s.overlapping (getU p 0 6 * 32768) (getU p 6 6 * 32768))) = true := by
    rw [fits, decide_eq_false (Nat.not_le.mpr room)]
    decide
  unfold pinRequest pinSegment
  dsimp only [tps]
  rw [if_neg inside, gate]
  dsimp only
  rw [if_neg pin, if_neg segs, if_neg ok]
  rfl

variable {cs ds : List Command} {c : Command}

/-- The first command that a test accepts. -/
theorem find_first {f : Command → Bool} (outstanding : s.link.outstanding = cs ++ c :: ds) (before : ∀ x ∈ cs, f x = false)
    (this : f c = true) : s.link.outstanding.find? f = some c := by
  have none_ : cs.find? f = none := List.find?_eq_none.mpr fun x mem => by rw [before x mem]; decide
  rw [outstanding, List.find?_append, none_, List.find?_cons_of_pos this]
  rfl

/-- Whether a command is a pin that has become durable. -/
def pinReady (s : State) (c : Command) : Bool :=
  match c.work with
  | .pinSegment n _ _ => s.archive.pinDone n
  | _ => false

theorem pinReady_other (other : ∀ i j l, c.work ≠ .pinSegment i j l) : pinReady s c = false := by
  unfold pinReady
  split
  case h_1 n k l work => exact absurd work (other n k l)
  case h_2 => rfl

theorem pinComplete_none (none_ : ∀ c ∈ s.link.outstanding, ∀ n k l, c.work ≠ .pinSegment n k l) : pinComplete s = s := by
  have found : s.link.outstanding.find? (pinReady s) = none :=
    List.find?_eq_none.mpr fun x mem => by rw [pinReady_other (none_ x mem)]; decide
  unfold pinComplete
  split
  case h_1 => rfl
  case h_2 c there =>
    have same : s.link.outstanding.find? (pinReady s) = some c := there
    rw [found] at same
    cases same

/-- The oldest pin that has become durable completes. -/
theorem pinComplete_takes {n k : Nat} {l : Option (Nat × Nat)} (outstanding : s.link.outstanding = cs ++ c :: ds)
    (before : ∀ x ∈ cs, ∀ i j l, x.work ≠ .pinSegment i j l) (work : c.work = .pinSegment n k l) (done : s.archive.pinDone n = true) :
    s.link.outstanding.find? (pinReady s) = some c := by
  refine find_first outstanding (fun x mem => pinReady_other (before x mem)) ?_
  unfold pinReady
  rw [work]
  exact done

theorem pinComplete_pins {n k : Nat} {q : Pin} (found : s.link.outstanding.find? (pinReady s) = some c)
    (work : c.work = .pinSegment n k none) (pin : s.archive.pins.find? (fun p => p.number == n) = some q) :
    pinComplete s = (s.complete c.tag .ok (leBytes 2 q.covers.length)).raise 0x53
      (leBytes 4 n ++ ([BitVec.ofNat 8 q.reason] ++ leBytes 4 q.firstSeg ++ leBytes 4 q.lastSeg)) := by
  unfold pinComplete
  split
  case h_1 none_ =>
    have same : s.link.outstanding.find? (pinReady s) = none := none_
    rw [found] at same
    cases same
  case h_2 d there =>
    have same : s.link.outstanding.find? (pinReady s) = some d := there
    rw [found] at same
    injection same with e
    subst e
    rw [work]
    dsimp only
    rw [pin]

/-- A release ends the pins within its span, and counts each segment once. -/
theorem pinComplete_releases {n k f t : Nat} (found : s.link.outstanding.find? (pinReady s) = some c)
    (work : c.work = .pinSegment n k (some (f, t))) :
    pinComplete s = ((releasePins f t s).complete c.tag .ok (leBytes 2 (s.archive.releasedSegs f t).length)).raise 0x53
      (leBytes 4 n ++ ([0xFF] ++ leBytes 4 (((s.archive.releasedSegs f t).foldl min (2 ^ 32 - 1)) % (2 ^ 32 - 1)) ++
        leBytes 4 ((s.archive.releasedSegs f t).foldl max 0))) := by
  unfold pinComplete
  split
  case h_1 none_ =>
    have same : s.link.outstanding.find? (pinReady s) = none := none_
    rw [found] at same
    cases same
  case h_2 d there =>
    have same : s.link.outstanding.find? (pinReady s) = some d := there
    rw [found] at same
    injection same with e
    subst e
    rw [work]

end Pins

/-! ### AUDIT_REPLAY (R226) -/

section Audits
variable {s : State} {p : Bytes} {cs ds : List Command} {c : Command}

/-- Whether a command is an audit. -/
def isAudit (c : Command) : Bool := match c.work with | .audit _ _ _ => true | _ => false

theorem isAudit_other (other : ∀ i j k, c.work ≠ .audit i j k) : isAudit c = false := by
  unfold isAudit
  split
  case h_1 i j k work => exact absurd work (other i j k)
  case h_2 => rfl

theorem auditRequest_off {own : Nat} (off : s.view.auditOn = false) : auditRequest own p s = (refuse .wrongState, s) := by
  unfold auditRequest auditReplay
  rw [off]
  rfl

theorem auditRequest_starts {own : Nat} (form : paramsOk 0x22 p = true) (gate : s.archiveGate = none)
    (on : s.view.auditOn = true) (free : s.link.outstanding.any isAudit = false) {x : Bytes × List Bytes}
    (spans : s.spanProfiles (getU p 1 6) (getU p 1 6 + getU p 7 4) = some x) (ok : spanOk (getU p 0 1) x = true)
    (segs : s.spanSegments (getU p 1 6 * 32768) ((getU p 1 6 + getU p 7 4) * 32768) ≠ []) :
    auditRequest own p s = (.long (.audit (getU p 0 1) (getU p 1 6) (getU p 7 4)), giveWork { s with
      archive := (s.archive.askReads own (s.auditPages (getU p 1 6) (getU p 1 6 + getU p 7 4) 0)).askReads own
        (s.auditPages (getU p 1 6) (getU p 1 6 + getU p 7 4) 3) }) := by
  have inside : ¬ (15 < getU p 0 1 || getU p 7 4 = 0 || 3600 < getU p 7 4) = true := by
    simp only [paramsOk, Bool.and_eq_true, decide_eq_true_eq] at form
    simp only [Bool.or_eq_true, decide_eq_true_eq]
    omega
  have some_ : ¬ (s.spanSegments (getU p 1 6 * tps) ((getU p 1 6 + getU p 7 4) * tps)).isEmpty = true :=
    fun none_ => segs (List.isEmpty_iff.mp none_)
  have run : auditReplay p s = (.long (.audit (getU p 0 1) (getU p 1 6) (getU p 7 4)), s) := by
    unfold auditReplay
    dsimp only
    rw [on, Bool.not_true, if_neg Bool.false_ne_true, if_neg inside]
    refine (if_neg (ne_true_of_eq_false free)).trans ?_
    rw [gate]
    dsimp only
    rw [spans]
    dsimp only
    rw [ok, Bool.not_true, if_neg Bool.false_ne_true, if_neg some_]
  unfold auditRequest
  rw [run]

/-- An audit completes once its pages have been read and the segments of its span are in the log. -/
theorem auditComplete_eq {v a d : Nat} (outstanding : s.link.outstanding = cs ++ c :: ds)
    (before : ∀ x ∈ cs, ∀ i j k, x.work ≠ .audit i j k) (work : c.work = .audit v a d) : auditComplete s =
      if s.archive.readsDone c.tag = false ∨ s.auditWaits (a + d) = true then s else
        ({ s with recording := { s.recording with lastAudit := (s.auditResult v a d).1 } } : State).complete c.tag
          (if (s.auditResult v a d).2 then .degraded else .ok) (s.auditResult v a d).1 := by
  have this : isAudit c = true := by
    unfold isAudit
    rw [work]
  have found : s.link.outstanding.find? isAudit = some c := find_first outstanding (fun x mem => isAudit_other (before x mem)) this
  unfold auditComplete
  split
  case h_1 none_ =>
    have same : s.link.outstanding.find? isAudit = none := none_
    rw [found] at same
    cases same
  case h_2 e there =>
    have same : s.link.outstanding.find? isAudit = some e := there
    rw [found] at same
    injection same with eq
    subst eq
    rw [work]
    dsimp only
    simp only [Bool.or_eq_true, Bool.not_eq_true']

end Audits

/-! ### The commands as they are taken (O41) -/

section Taken
variable {op : Nat} {r : Req} {s : State}

@[simp] theorem begun_archive : (begun op r s).archive = s.archive := by rw [begun_frame]
@[simp] theorem begun_archiveGate : (begun op r s).archiveGate = s.archiveGate := by rw [begun_frame]; rfl
@[simp] theorem begun_held (n : Nat) : (begun op r s).held n = s.held n := by rw [begun_frame]; rfl
@[simp] theorem begun_spanProfiles (a b : Nat) : (begun op r s).spanProfiles a b = s.spanProfiles a b := by
  rw [begun_frame]; rfl
@[simp] theorem begun_spanSegments (a b : Nat) : (begun op r s).spanSegments a b = s.spanSegments a b := by
  rw [begun_frame]; rfl

/-- The new command of a request is no audit yet. -/
theorem begun_audits (none_ : ∀ c ∈ s.link.outstanding, ∀ i j k, c.work ≠ .audit i j k) :
    (begun op r s).link.outstanding.any isAudit = false := by
  have outstanding : (begun op r s).link.outstanding = s.link.outstanding ++
      [{ port := r.port, tag := r.tag.toNat, opcode := op, length := r.params.length + 3, check := checkOf op r
         work := .replied }] := by
    unfold begun lockPort
    dsimp only
    split <;> rfl
  rw [outstanding, List.any_append, Bool.or_eq_false_iff]
  refine ⟨List.any_eq_false.mpr fun c mem => ?_, rfl⟩
  rw [isAudit_other (none_ c mem)]
  exact Bool.false_ne_true

end Taken

/-- The gate and the form turn a command of the archive away before it runs. -/
theorem archiveCommands_refused {s : State} {r : Req} (h : Settled s) {op : Nat}
    (named : op = 0x20 ∨ op = 0x21 ∨ op = 0x22) (q : Fresh op r s) (fits : opcodeFitted s.part op = true)
    (free : (opcodeHeldBits op).any s.held = false) :
    (∀ st, s.archiveGate = some st → edge (arrive op r none) s = .next (answered op r st [] (begun op r s))) ∧
    (s.archiveGate = none → paramsOk op r.params = false →
      edge (arrive op r none) s = .next (answered op r .badParam [] (begun op r s))) := by
  have fits' : opcodeFitted (begun op r s).part op = true := by rw [begun_part]; exact fits
  have free' : (opcodeHeldBits op).any (begun op r s).held = false := by
    have same : (begun op r s).held = s.held := funext fun n => begun_held n
    rw [same]
    exact free
  refine ⟨fun st gate => runs_refused h q (judge_gate named fits' free' (by rw [begun_archiveGate]; exact gate)),
    fun gate bad => runs_refused h q (judge_params named fits' free' (by rw [begun_archiveGate]; exact gate) bad)⟩

/-- Settles O41: each command by the branch it takes. -/
theorem archiveCommands : Obligations.ArchiveCommands := by
  unfold Obligations.ArchiveCommands
  intro s r h
  dsimp only
  refine ⟨fun op i named q fits free => ?refused, fun q => ?read, fun tag c k m n p there work => ?ends,
    fun low => giveWork_releases low, fun high still => giveWork_holds high still, fun q => ?pin,
    fun cs c ds n k p outstanding before work done pin => ?pinned, fun cs c ds n k f t outstanding before work done => ?released,
    fun none_ => edge_next h (pinComplete_none none_) rfl, fun q => ?audit,
    fun cs c ds v a d outstanding before work => ?audited⟩
  case refused =>
    rcases named with ⟨rfl, rfl⟩ | ⟨rfl, rfl⟩ | ⟨rfl, rfl⟩
    · exact archiveCommands_refused h (by decide) q fits free
    · exact archiveCommands_refused h (by decide) q fits free
    · exact archiveCommands_refused h (by decide) q fits free
  case read =>
    have form := paramsOk_of_judge q.passes
    have gate := archiveGate_of_judge (by decide) q.passes
    have refuses {st : Status} (run : archiveRead r.params (begun 0x20 r s) = (refuse st, begun 0x20 r s)) :
        exec (.archiveRead r) s = .next (answered 0x20 r st [] (begun 0x20 r s)) :=
      runs_answered h q (congrArg Done.of (readRequest_refused run))
    obtain ⟨late, tier, mount, beyond⟩ := archiveRead_refused (s := begun 0x20 r s) form gate
    rw [begun_archive] at mount beyond
    refine ⟨fun a b => refuses (late a b), fun a b => refuses (tier a b), fun a b c => refuses (mount a b c),
      fun x mine found far => refuses (beyond x mine found far), fun place => ?_⟩
    have run := archiveRead_starts (s := begun 0x20 r s) form gate (by rw [begun_archive]; exact place)
    exact runs_accepts h q (by intro k e; cases e) (congrArg Done.of (readRequest_starts run))
      ((Archives.giveWork _).evidence.trans (begun_evidence (op := 0x20) (r := r)))
  case ends =>
    refine ⟨fun late => ?_, fun soon => ?_, ?_⟩
    · exact edge_next h ((archiveReadTimeout_eq there work).trans (if_pos late)) (complete_evidence _ _ _ _)
    · exact edge_next h ((archiveReadTimeout_eq there work).trans (if_neg (ne_true_of_eq_false soon))) rfl
    · refine edge_next h (archiveReadComplete_eq there work) ?_
      split
      · rfl
      · exact complete_evidence _ _ _ _
  case pin =>
    have form := paramsOk_of_judge q.passes
    have gate := archiveGate_of_judge (by decide) q.passes
    refine ⟨fun bad => runs_answered h q (pinSegment_refused (by rw [begun_sec]; exact bad)),
      fun order span past pin some_ room fits => ?_⟩
    have run := pinSegment_pins (s := begun 0x21 r s) form gate order span (by rw [begun_sec]; exact past) pin some_
      (by rw [begun_archive]; exact room) fits
    rw [begun_archive] at run
    exact runs_accepts h q (by intro k e; cases e) run (begun_evidence (op := 0x21) (r := r))
  case pinned => exact edge_ends h (pinComplete_pins (pinComplete_takes outstanding before work done) work pin)
  case released =>
    obtain ⟨once, all⟩ := insertAll ((s.archive.hostPins f t).flatMap (·.covers))
    refine ⟨releasePins f t s, s.archive.releasedSegs f t,
      edge_ends h (pinComplete_releases (pinComplete_takes outstanding before work done) work), once, fun g => ?_, rfl, rfl⟩
    exact (all g).trans List.mem_flatMap
  case audit =>
    have form := paramsOk_of_judge q.passes
    have gate := archiveGate_of_judge (by decide) q.passes
    refine ⟨fun off => ?_, fun x runs on none_ spans ok segs => ?_⟩
    · refine runs_answered h q (?_ : (if (begun 0x22 r s).xa.suspended then Done.only (refuse .wrongState) (begun 0x22 r s)
        else .of (auditRequest r.tag.toNat r.params (begun 0x22 r s))) = _)
      rw [begun_xa]
      rcases off with suspended | off
      · exact if_pos suspended
      · rw [auditRequest_off (by rw [begun_view]; exact off)]
        exact ite_self _
    · have run := auditRequest_starts (s := begun 0x22 r s) (own := r.tag.toNat) form gate (by rw [begun_view]; exact on)
        (begun_audits none_) (by rw [begun_spanProfiles]; exact spans) ok (by rw [begun_spanSegments]; exact segs)
      refine runs_accepts h q (by intro k e; cases e) ((if_neg ?_).trans (congrArg Done.of run))
        ((Archives.giveWork _).evidence.trans (begun_evidence (op := 0x22) (r := r)))
      rw [begun_xa, runs]
      exact Bool.false_ne_true
  case audited =>
    refine edge_next h (auditComplete_eq outstanding before work) ?_
    split
    · rfl
    · exact complete_evidence _ _ _ _

end Sys2Proof.Laws
end

section
/-! The steps of a start from the Warden's ready state to billing ready (R536–R542): what the operations of a start leave
of the start itself, and each step's own effect. -/

namespace Sys2Proof.Laws
open Sys2Proof Sys2Proof.Machine

/-! ### What goes on through the operations of a start -/

/-- What the operations of a start carry on: its phase, its ready flag and its number, and the copy and the source of the
backup buffer. -/
structure StartLine where
  phase : Phase
  ready : Bool
  count : BitVec 64
  transferred : List BackupEntry
  buffer : List BackupEntry

/-- The line of the start that a state stands in. -/
def startLine (s : State) : StartLine :=
  { phase := s.start.phase, ready := s.start.wardenReady, count := s.start.startCount, transferred := s.time.transferred
    buffer := s.backup.buffer }

/-- States whose starts, time lines and backup buffers agree stand on one line. -/
theorem startLine_eq {s t : State} (phase : t.start.phase = s.start.phase) (ready : t.start.wardenReady = s.start.wardenReady)
    (count : t.start.startCount = s.start.startCount) (time : t.time.transferred = s.time.transferred)
    (buffer : t.backup.buffer = s.backup.buffer) : startLine t = startLine s := by
  simp only [startLine, phase, ready, count, time, buffer]

/-- A choice between a state and one on the same line stays on that line. -/
theorem startLine_ite {c : Prop} [Decidable c] {t u : State} (h : startLine t = startLine u) :
    startLine (if c then t else u) = startLine u := by
  split
  · exact h
  · rfl

section
variable (s : State)

@[simp] theorem endEdge_startLine : startLine s.endEdge = startLine s := by
  simp only [State.endEdge]
  split <;> exact startLine_eq rfl rfl rfl rfl rfl

@[simp] theorem readLog_startLine : startLine (readLog s) = startLine s := by
  unfold readLog
  refine (foldl_keeps startLine (fun _ _ => ?_) _ _).trans ?_
  · exact startLine_eq rfl rfl rfl rfl rfl
  · exact startLine_eq rfl rfl rfl rfl rfl

@[simp] theorem loadLatched_startLine : startLine (loadLatched s) = startLine s := by
  unfold loadLatched
  dsimp only
  split <;> exact startLine_eq rfl rfl rfl rfl rfl

@[simp] theorem chooseConfig_startLine : startLine (chooseConfig s) = startLine s := startLine_eq rfl rfl rfl rfl rfl

@[simp] theorem loadPatch_startLine : startLine (loadPatch s) = startLine s := by
  unfold loadPatch
  extract_lets h len magic head state
  clear_value state magic len
  exact startLine_eq rfl rfl rfl rfl rfl

@[simp] theorem loadCalibration_startLine : startLine (loadCalibration s) = startLine s := by
  unfold loadCalibration
  extract_lets r load a
  have loaded : startLine a = startLine s := foldl_keeps startLine (fun _ _ => by exact startLine_eq rfl rfl rfl rfl rfl) _ _
  clear_value a
  refine (startLine_eq ?_ ?_ ?_ ?_ ?_).trans loaded <;> rfl

@[simp] theorem setWeights_startLine : startLine (setWeights s) = startLine s := startLine_eq rfl rfl rfl rfl rfl

@[simp] theorem firstPublished_startLine : startLine (firstPublished s) = startLine s := startLine_eq rfl rfl rfl rfl rfl

theorem MovesRelays.startLine {s t : State} (h : MovesRelays s t) : startLine t = startLine s := by
  obtain ⟨p, x, st, rfl⟩ := h
  exact startLine_eq rfl rfl rfl rfl rfl

theorem MovesRelays.takeMode (p : Nat) (level : Bool) : MovesRelays s (takeMode p level s) := by
  have lowers : ∀ (c : Bool) (src : Nat) (s : State), MovesRelays s (if c then s.auxEvent src else s) := by
    intro c src s
    split
    · exact .auxEvent _ _
    · exact .refl s
  exact (lowers _ _ s).trans ((lowers _ _ _).trans ((modPair _ _ _).trans (savePair _ _)))

theorem MovesRelays.modeEffect (p : Nat) : MovesRelays s (modeEffect p s) := by
  unfold Machine.modeEffect
  dsimp only
  split
  · exact modPair _ _ s
  · split
    · exact modPair _ _ s
    · exact takeMode s p _

@[simp] theorem restorePair_startLine (p : Nat) : startLine (restorePair p s) = startLine s := by
  have found : ∀ t u : State, startLine t = startLine u → startLine (if t.held 0 then t else modeEffect p t) = startLine u := by
    intro t u h
    split
    · exact h
    · exact (MovesRelays.modeEffect t p).startLine.trans h
  unfold restorePair
  refine found _ _ ?_
  dsimp only
  split <;> exact startLine_eq rfl rfl rfl rfl rfl

@[simp] theorem copyCurve_startLine : startLine (copyCurve s) = startLine s := by
  unfold copyCurve
  dsimp only
  split <;> exact startLine_eq rfl rfl rfl rfl rfl

@[simp] theorem copyBackupSettings_startLine : startLine (copyBackupSettings s) = startLine s := startLine_eq rfl rfl rfl rfl rfl

@[simp] theorem saveDevice_startLine : startLine (saveDevice s) = startLine s := startLine_eq rfl rfl rfl rfl rfl

@[simp] theorem raiseCause_startLine : startLine (raiseCause s) = startLine s := by
  unfold raiseCause
  split <;> exact startLine_eq rfl rfl rfl rfl rfl

@[simp] theorem startEntry_startLine (code : Nat) (payload : Bytes) : startLine (startEntry code payload s) = startLine s :=
  endEdge_startLine _

@[simp] theorem flushProfiles_startLine (point fuel : Nat) : startLine (flushProfiles point fuel s) = startLine s := by
  induction fuel generalizing s with
  | zero => rfl
  | succ n ih =>
    unfold flushProfiles
    split
    · split
      · exact ih _
      · exact startLine_eq rfl rfl rfl rfl rfl
    · exact startLine_eq rfl rfl rfl rfl rfl

@[simp] theorem resumeProfile_startLine : startLine (resumeProfile s) = startLine s :=
  (flushProfiles_startLine _ _ _).trans (startLine_ite (startLine_eq rfl rfl rfl rfl rfl))

@[simp] theorem presentClaim_startLine (c : BitVec 16) : startLine (presentClaim c s) = startLine s := by
  unfold presentClaim
  split <;> exact startLine_eq rfl rfl rfl rfl rfl

@[simp] theorem setMode_startLine : startLine (setMode s) = startLine s := by
  unfold setMode
  extract_lets split_ p _ a b _ c
  have first : startLine a = startLine s := startLine_eq rfl rfl rfl rfl rfl
  have standby : startLine b = startLine a := startLine_ite (startLine_eq rfl rfl rfl rfl rfl)
  have suspended : startLine c = startLine b := startLine_ite (startLine_eq rfl rfl rfl rfl rfl)
  exact (presentClaim_startLine _ _).trans (suspended.trans (standby.trans first))

@[simp] theorem lineEffect_startLine : startLine (lineEffect s) = startLine s := by
  unfold lineEffect
  split_ifs <;> exact startLine_eq rfl rfl rfl rfl rfl

@[simp] theorem restoreNodes_startLine : startLine (restoreNodes s) = startLine s := by
  unfold restoreNodes
  extract_lets a m
  have read : startLine a = startLine s := foldl_keeps startLine (fun _ _ => by exact startLine_eq rfl rfl rfl rfl rfl) _ _
  clear_value m a
  refine (startLine_eq ?_ ?_ ?_ ?_ ?_).trans read <;> rfl

@[simp] theorem formNetwork_startLine : startLine (formNetwork s) = startLine s := by
  obtain ⟨st, n, e, -⟩ := formNetwork_frame s
  rw [e]
  exact startLine_eq rfl rfl rfl rfl rfl

@[simp] theorem startNetwork_startLine (warm : Bool) : startLine (startNetwork warm s) = startLine s := by
  unfold startNetwork
  extract_lets a head _ b _ match_ n w
  have read : startLine b = startLine s := startLine_eq rfl rfl rfl rfl rfl
  clear_value b match_
  split
  · exact read
  · split
    · have nodes : startLine n = startLine s := (restoreNodes_startLine b).trans read
      clear_value n
      refine (startLine_eq ?_ ?_ ?_ ?_ ?_).trans nodes <;> rfl
    · exact (formNetwork_startLine _).trans ((restoreNodes_startLine b).trans read)

@[simp] theorem beginMount_startLine (atStart warm : Bool) : startLine (beginMount atStart warm s) = startLine s := by
  unfold beginMount
  split <;> exact startLine_eq rfl rfl rfl rfl rfl

/-! ### The converters' settings -/

@[simp] theorem goEntry_startLine (k t e : Nat) : startLine (goEntry k t e s) = startLine s := by
  have paired : ∀ u : State, startLine (pairUp u) = startLine u := by
    intro u
    unfold pairUp
    split <;> exact startLine_eq rfl rfl rfl rfl rfl
  refine (paired _).trans ?_
  rw [(beginEntry_runs k _ 130 e s).only]
  exact startLine_eq rfl rfl rfl rfl rfl

@[simp] theorem startTable_startLine (k t : Nat) : startLine (startTable k t s) = startLine s := by
  refine (goEntry_startLine _ k t 0).trans ?_
  split <;> exact startLine_eq rfl rfl rfl rfl rfl

@[simp] theorem stopConv_startLine (ks : List Nat) : startLine (stopConv ks s) = startLine s := by
  unfold stopConv
  refine foldl_keeps startLine (fun _ _ => ?_) _ _
  exact startLine_eq rfl rfl rfl rfl rfl

@[simp] theorem dropTrigger_startLine (ks : List Nat) : startLine (dropTrigger ks s) = startLine s := by
  unfold dropTrigger
  refine foldl_keeps startLine (fun _ _ => ?_) _ _
  exact startLine_eq rfl rfl rfl rfl rfl

@[simp] theorem loadAux_startLine : startLine (loadAux s) = startLine s := by
  have started : ∀ (c : Bool) (k t : Nat) (u : State), startLine (if c then startTable k t u else u) = startLine u :=
    fun c k t u => startLine_ite (startTable_startLine u k t)
  unfold loadAux
  split
  · exact startLine_eq rfl rfl rfl rfl rfl
  · extract_lets v a comps tableOf b _ d t e
    have tables : startLine b = startLine a := foldl_keeps startLine (fun _ _ => by exact startLine_eq rfl rfl rfl rfl rfl) _ _
    have stopped : startLine a = startLine s := (dropTrigger_startLine _ _).trans (stopConv_startLine _ _)
    have loaded : startLine d = startLine b := startLine_eq rfl rfl rfl rfl rfl
    exact (started _ _ _ e).trans ((started _ _ _ d).trans (loaded.trans (tables.trans stopped)))

/-! ### The billing data are recovered (R449–R455) -/

@[simp] theorem recoverBilling_startLine : startLine (recoverBilling s) = startLine s := by
  unfold recoverBilling
  extract_lets u m v save mirror newer base found services smax _ _ _ _ a _ _ b _ c
  have counted : startLine u = startLine s := startLine_eq rfl rfl rfl rfl rfl
  have first : startLine a = startLine u := startLine_eq rfl rfl rfl rfl rfl
  clear_value u m v save newer base a
  have second : startLine b = startLine a := by
    unfold b
    split
    · rfl
    · split <;> exact startLine_eq rfl rfl rfl rfl rfl
  clear_value b
  refine Eq.trans ?_ (second.trans (first.trans counted))
  split
  · have slices : startLine c = startLine b := by
      unfold c
      split <;> exact startLine_eq rfl rfl rfl rfl rfl
    clear_value c
    refine Eq.trans ?_ slices
    split <;> exact startLine_eq rfl rfl rfl rfl rfl
  · extract_lets outs c d
    have outputs : startLine c = startLine b := foldl_keeps startLine (fun _ _ => by exact startLine_eq rfl rfl rfl rfl rfl) (List.range 8) b
    have slices : startLine d = startLine c := foldl_keeps startLine (fun _ _ => by exact startLine_eq rfl rfl rfl rfl rfl) (List.range 60) c
    clear_value c d
    refine (startLine_eq ?_ ?_ ?_ ?_ ?_).trans (slices.trans outputs) <;> rfl

/-! ### The entries of the start (R483, R542) -/

theorem transferBuffer_startLine : startLine (transferBuffer s) = { startLine s with transferred := s.backup.buffer } := by
  unfold transferBuffer
  dsimp only
  split
  · rfl
  · exact startEntry_startLine _ _ _

theorem startEntries_startLine : startLine (startEntries s) = { startLine s with transferred := s.backup.buffer } := by
  have caused : startLine (raiseCause s).endEdge = startLine s := (endEdge_startLine _).trans (raiseCause_startLine s)
  have entered : ∀ (c : Prop) [Decidable c] (code : Nat) (payload : Bytes) (u : State),
      startLine (if c then startEntry code payload u else u) = startLine u :=
    fun _ _ code payload u => startLine_ite (startEntry_startLine u code payload)
  have moved := transferBuffer_startLine (raiseCause s).endEdge
  have source : (raiseCause s).endEdge.backup.buffer = s.backup.buffer := congrArg StartLine.buffer caused
  rw [caused, source] at moved
  refine Eq.trans ?_ moved
  unfold startEntries
  dsimp only
  rw [startEntry_startLine, entered, entered, startEntry_startLine, entered]

theorem failStart_startLine (cause : Nat) : startLine (failStart cause s) = { startLine s with phase := .failed } := rfl

/-! ### The Warden's ready state (R540) -/

/-- The Warden's ready state counts the start and copies the backup buffer; the start goes on or fails. -/
theorem wardenReady_startLine (starting : s.start.phase = .starting) (once : s.start.wardenReady = false) :
    ∃ q, (q = .starting ∨ q = .failed) ∧ startLine (wardenReady s) =
      { phase := q, ready := true, count := s.start.startCount + 1, transferred := s.backup.buffer, buffer := s.backup.buffer } := by
  unfold wardenReady
  rw [if_neg (by simp [starting, once])]
  extract_lets a b c d e f _ g i j k
  have read : startLine f = startLine s := by
    simp only [f, e, d, c, b, a, copyBackupSettings_startLine, copyCurve_startLine,
      foldl_keeps startLine (fun s x => restorePair_startLine s x), firstPublished_startLine, setWeights_startLine,
      endEdge_startLine, recoverBilling_startLine, loadCalibration_startLine, loadPatch_startLine, chooseConfig_startLine,
      loadLatched_startLine, readLog_startLine]
  have counted : startLine g = ⟨.starting, true, s.start.startCount + 1, s.time.transferred, s.backup.buffer⟩ := by
    clear_value f
    simp only [startLine, StartLine.mk.injEq] at read
    obtain ⟨phase, -, count, moved, buffer⟩ := read
    exact StartLine.mk.injEq .. ▸ ⟨phase.trans starting, rfl, congrArg (· + 1) count, moved, buffer⟩
  have entered : startLine i = ⟨.starting, true, s.start.startCount + 1, s.backup.buffer, s.backup.buffer⟩ := by
    clear_value g
    have saved := (saveDevice_startLine g).trans counted
    have buffer : (saveDevice g).backup.buffer = s.backup.buffer := congrArg StartLine.buffer saved
    rw [startEntries_startLine, saved, buffer]
  have mounts : startLine k = startLine i := by
    simp only [k, j, startNetwork_startLine, lineEffect_startLine, loadAux_startLine, setMode_startLine, resumeProfile_startLine]
  clear_value i k
  split
  · exact ⟨.failed, .inr rfl, (failStart_startLine i 2).trans (by rw [entered])⟩
  · refine ⟨.starting, .inl rfl, ?_⟩
    rw [← entered, ← mounts]
    split
    · rfl
    · exact beginMount_startLine k _ _

/-! ### The inputs are connected (R112, R540) -/

theorem qrefFault_modCount (q : Nat) : (s.qrefFault q).sense.modCount = s.sense.modCount := by
  have home : (s.returnHome q).sense.modCount = s.sense.modCount := by
    unfold State.returnHome
    dsimp only
    split <;> rfl
  obtain ⟨l, stopped⟩ := stopRotation_frame (s.returnHome q) q
  unfold State.qrefFault
  rw [stopped]
  exact home

theorem connectInputs_modCount : (connectInputs s).sense.modCount = s.sense.modCount := by
  have measured : ∀ (t : State) (c : Nat), (startMeasured c t).sense.modCount = t.sense.modCount := by
    intro t c
    unfold startMeasured
    dsimp only
    split
    · split
      · rfl
      · split
        · rfl
        · split <;> rfl
    · rfl
  have blamed : ∀ (t : State) (q : Nat), (startBlame q t).sense.modCount = t.sense.modCount := by
    intro t q
    unfold startBlame
    split
    · exact qrefFault_modCount t q
    · rfl
  have channels : ∀ (l : List Nat) (t : State), (l.foldl (fun s c => startMeasured c s) t).sense.modCount = t.sense.modCount :=
    foldl_keeps (·.sense.modCount) measured
  have waders : ∀ (l : List Nat) (t : State),
      (l.foldl (fun s q => startBlame q (startMeasured (56 + q) s)) t).sense.modCount = t.sense.modCount :=
    foldl_keeps (·.sense.modCount) fun t q => (blamed _ q).trans (measured t _)
  unfold connectInputs
  extract_lets a b s1
  have measuredAll : a.sense.modCount = s.sense.modCount := by
    unfold a
    rw [channels]
  have blamedAll : b.sense.modCount = a.sense.modCount := by
    unfold b
    rw [waders]
  clear_value s1 b a
  exact blamedAll.trans measuredAll

/-- The first strobe lies 160 strobes behind the one whose clocks have begun. -/
theorem connectInputs_first : (connectInputs s).sense.connected = true ∧
    (connectInputs s).sense.first = (s.sense.modCount.toNat + 255) / 256 + connectSettle ∧
    (connectInputs s).sense.nextStrobe = (connectInputs s).sense.first := by
  have first : (connectInputs s).sense.first = ((connectInputs s).sense.modCount.toNat + 255) / 256 + connectSettle := by
    unfold connectInputs
    extract_lets a b s1
    clear_value a b
    rfl
  rw [connectInputs_modCount] at first
  exact ⟨rfl, first, rfl⟩

theorem openSegment_keeps (strobe flags : Nat) :
    (Machine.openSegment strobe flags s).sense = s.sense ∧ (Machine.openSegment strobe flags s).billing = s.billing := by
  unfold Machine.openSegment
  split
  · exact ⟨rfl, rfl⟩
  · extract_lets v r t whole mask seq g h _ u
    have same : u.sense = s.sense ∧ u.billing = s.billing := ⟨rfl, rfl⟩
    clear_value u h g
    split
    · exact same
    · exact same

theorem writeLayouts_keeps (start resume : Bool) (time : Nat) :
    (writeLayouts start resume time s).sense = s.sense ∧ (writeLayouts start resume time s).billing = s.billing := by
  have one : ∀ (t : State) (b : Nat), (writeLayout start resume time b t).sense = t.sense ∧
      (writeLayout start resume time b t).billing = t.billing := by
    intro t b
    unfold writeLayout
    dsimp only
    split <;> exact ⟨rfl, rfl⟩
  exact ⟨foldl_keeps (·.sense) (fun t b => (one t b).1) _ _, foldl_keeps (·.billing) (fun t b => (one t b).2) _ _⟩

/-- The inputs are connected: the first strobe is fixed, and every bus begins at its nominal frequency. -/
theorem inputsConnected_connects (starting : s.start.phase = .starting) (ready : s.start.wardenReady = true)
    (open_ : s.sense.connected = false) (calm : s.power.warning = false) (measured : s.sense.measured = true) :
    (inputsConnected s).sense = (connectInputs s).sense ∧
    (inputsConnected s).billing.buses = tab 8 (fun b => ((connectInputs s).billing.buses.getD b {}).nominalFrom
      ((connectInputs s).view.busFnom b) (connectInputs s).sense.first) := by
  unfold inputsConnected
  rw [if_neg (by simp [starting, ready, open_, calm, measured])]
  extract_lets a s1 v opened gapNumber _ _ b c
  have begun : b.sense = a.sense ∧ b.billing.buses = tab 8 (fun i => (a.billing.buses.getD i {}).nominalFrom (v.busFnom i) s1) :=
    ⟨rfl, rfl⟩
  obtain ⟨sense, billing⟩ := openSegment_keeps b s1 segStart
  obtain ⟨sense', billing'⟩ := writeLayouts_keeps (restartMeters true c) true false c.ticks
  exact ⟨sense'.trans (sense.trans begun.1), (congrArg (·.buses) (billing'.trans billing)).trans begun.2⟩

/-! ### The first energy sample (R540) -/

theorem energyGap_sense (first : Nat) : (energyGap first s).sense = s.sense := by
  unfold energyGap
  split <;> rfl

/-! ### Billing ready (R538) -/

theorem MovesRelays.driveLevels : MovesRelays s (driveLevels s) := by
  unfold Machine.driveLevels
  split
  · exact .refl s
  · refine .foldl (fun t p => ?_) _ s
    have low : ∀ (c : Bool) (src : Nat) (u : State), MovesRelays u (if c then u.auxEvent src else u) := by
      intro c src u
      split
      · exact .auxEvent _ _
      · exact .refl u
    exact (modPair p _ t).trans ((low _ _ _).trans (low _ _ _))

theorem writeBilling_keeps : (writeBilling s).start = s.start ∧ (writeBilling s).link = s.link := by
  unfold writeBilling
  dsimp only
  split
  · exact ⟨rfl, rfl⟩
  · split <;> exact ⟨rfl, rfl⟩

/-- Billing is ready once the boundary that closes the lead-in has been accumulated. -/
theorem billingReady_begins (starting : s.start.phase = .starting) (begun : s.start.energyBegun = true) {b : Nat}
    (lead : s.start.leadBoundary = some b) (reached : b ≤ s.billing.stamp + 1) :
    (billingReady s).start = { s.start with phase := .running, billing := true, billingReady := s.sinceRelease 1 } ∧
    (billingReady s).link = (s.setIrq .start).link := by
  unfold billingReady
  rw [lead]
  dsimp only
  rw [if_neg (by simp [starting, begun, reached])]
  generalize begins : ({ s with start := { s.start with phase := .running, billing := true, billingReady := s.sinceRelease 1 } } :
    State) = t
  have polarized : ((List.range 8).foldl (fun s o => s.takePolarity o) t).start = t.start ∧
      ((List.range 8).foldl (fun s o => s.takePolarity o) t).link = t.link :=
    ⟨foldl_keeps (·.start) (fun _ _ => by rfl) _ _, foldl_keeps (·.link) (fun _ _ => by rfl) _ _⟩
  generalize (List.range 8).foldl (fun s o => s.takePolarity o) t = u at polarized ⊢
  obtain ⟨p, x, st, moved⟩ := (MovesRelays.driveLevels (u.setIrq .start)).trans (.runWaiting _)
  obtain ⟨start, link⟩ := writeBilling_keeps (runWaiting (driveLevels (u.setIrq .start)))
  have pending : u.link = s.link := polarized.2.trans (by rw [← begins])
  refine ⟨?_, ?_⟩
  · rw [start, moved]
    exact polarized.1.trans (by rw [← begins])
  · rw [link, moved]
    exact congrArg (fun l : Link => { l with irqPending := l.irqPending ||| (1#12 <<< Irq.start.bit) }) pending

end

/-! ### The obligation -/

/-- Settles O9: each step of a start by its place, and what it does there. -/
theorem startProceeds : Obligations.StartProceeds := by
  unfold Obligations.StartProceeds
  refine fun s h => ⟨?earlyWarden, ?warden, ?earlyInputs, ?inputs, ?earlyEnergy, ?energy, ?earlyBilling, ?billing⟩
  case earlyWarden =>
    refine fun early => edge_next h (if_pos ?_) rfl
    rcases early with e | e <;> simp [e]
  case warden =>
    intro starting once
    obtain ⟨q, phase, line⟩ := wardenReady_startLine s starting once
    have ends := (endEdge_startLine (wardenReady s)).trans line
    simp only [startLine, StartLine.mk.injEq] at ends
    obtain ⟨goes, ready, count, moved, -⟩ := ends
    exact ⟨_, edge_settled h _, ready, count, moved, goes ▸ phase⟩
  case earlyInputs =>
    refine fun early => edge_next h (if_pos ?_) rfl
    rcases early with e | e | e | e | e <;> simp [e]
  case inputs =>
    intro starting ready open_ calm measured
    obtain ⟨sense, buses⟩ := inputsConnected_connects s starting ready open_ calm measured
    obtain ⟨connected, first, next⟩ := connectInputs_first s
    obtain ⟨-, -, sense', billing', -⟩ := endEdge_frame (inputsConnected s)
    have sense := sense'.trans sense
    refine ⟨_, edge_settled h _, ?_, ?_, ?_, fun b lt => ?_⟩
    · rw [sense, connected]
    · rw [sense, first]
    · rw [sense, next]
    · rw [billing', buses, tab_getD _ _ lt]
      rfl
  case earlyEnergy =>
    refine fun early => edge_next h (if_pos ?_) rfl
    rcases early with e | e | e | e <;> simp [e]
  case energy =>
    intro starting once connected reached
    refine edge_ends h ((if_neg (by simp [starting, once, connected, reached])).trans ?_)
    have same : (energyGap (s.timeOf s.firstRaw) s).sinceRelease 1 = min s.micros 0xFFFFFFFE := by
      rw [State.sinceRelease, State.micros, energyGap_sense, Nat.div_one, State.micros]
    dsimp only
    rw [same]
  case earlyBilling =>
    refine fun early => edge_next h (if_pos ?_) rfl
    rcases early with e | e | e <;> simp [e]
  case billing =>
    refine fun b starting begun lead => ⟨fun early => edge_next h (if_pos ?_) rfl, fun reached => ?_⟩
    · simp [lead, Nat.not_le.mpr early]
    · obtain ⟨start, link⟩ := billingReady_begins s starting begun lead reached
      obtain ⟨-, link', -, -, -, -, -, -, -, -, -, -, -, -, -, -, start', -⟩ := endEdge_frame (billingReady s)
      have start := start'.trans start
      refine ⟨_, edge_settled h _, by rw [start], by rw [start], ?_, ?_⟩
      · rw [start, State.sinceRelease, Nat.div_one]
      · rw [link', link]
        exact setIrq_sets .start s (by decide)

end Sys2Proof.Laws
end
